-- ==== Sys2Proof/Word.lean ====
section
/-! DEFINITION. The word types of the Kuzen K4 (R1, R6) and the sparse table type that the state is made of. -/

namespace Sys2Proof

/-- A general register, a pointer, a handle: 64 bits (R68, R24). -/
abbrev Word := BitVec 64

/-- One byte (R1). -/
abbrev Byte := BitVec 8

/-- One Falmin instruction word, 96 bits (R66). -/
abbrev IWord := BitVec 96

/-- A table by number that lists only the entries differing from a default, in rising order of key:
plain data, one form for each content. -/
abbrev Sparse (α : Type) := List (Nat × α)

end Sys2Proof
end

