-- ==== Sys2Proof/Config.lean ====
section
/-! DEFINITION. What the spec leaves open: free values, of which nothing is known, and the secrets of the root of trust. -/

namespace Sys2Proof

/-- The bits of an instruction word that a core has not fetched, which INFO0 and INFO1 of a trap at steps 1 and 2 of R70 name
(log entry 6): a fresh value for each count. -/
opaque Config.freeWord : Nat → BitVec 96

/-- Which of two values an element read has that a buffer load in progress is replacing (R261, log entry 10). -/
opaque Config.freeBit : Nat → Bool

/-- Which line a full L1 or a full slice of L2 gives up (R14, R53, log entry 46): a fresh value for each count. -/
opaque Config.freeVictim : Nat → Nat

/-- A count of cycles that a service counter holds (R384): timing is not modelled (log entry 15). -/
opaque Config.freeCycles : Nat → Word

/-- The device's RSA-4096 public modulus (R387), as 512 bytes little-endian (log entry 8). -/
opaque Config.modulus : BitVec 4096

/-- The RSA-4096 signature the root of trust makes over a SHA-512 digest (R387, log entry 8). -/
opaque Config.sign : BitVec 512 → BitVec 4096

/-- SIGNATURE is one of the keys' of the root of trust over DIGEST (R75, R76, log entry 8). -/
opaque Config.verify : BitVec 512 → BitVec 4096 → Bool

/-- The digest of the ROM image matches (R381, log entry 8). -/
opaque Config.romMatches : Bool

/-- The bytes of the configuration record in package flash (R380, log entry 8). -/
opaque Config.record : Nat → BitVec 8

/-- SIGNATURE is the manufacturing key's over the configuration record's DIGEST (R380, R381, log entry 8). -/
opaque Config.verifyRecord : BitVec 512 → BitVec 4096 → Bool

/-- The CXL capacity of a port (R383, log entry 8). -/
opaque Config.cxlCapacity : Nat → Word

/-- The ready-ring spill region, base and size (R383, log entry 8). -/
opaque Config.spillRegion : Nat → Word

/-- The page-table reserve, base and size (R383, log entry 8). -/
opaque Config.tableReserve : Nat → Word

/-- The first frame, within the HBM of its die, of the record store of a home slice's event queues, which firmware reserves (R222, log
entry 8). -/
opaque Config.evqStore : Nat → Nat

/-- 64 KiB of a checkpoint image, whose layout no rule gives (R377, log entry 21). -/
opaque Config.freePage : Nat → Nat

/-- The SHA-512 digest of the ROM image (R387, log entry 8). -/
opaque Config.romDigest : BitVec 512

/-- The firmware version word of STATUS page 0 (R383, log entry 8). -/
opaque Config.firmwareVersion : BitVec 32

end Sys2Proof
end

