-- ==== Sys2Proof/Syntax.lean ====
section
/-! DEFINITION. The operations of the Kuzen K4: one constructor of `Instr` for each row of the operation table. Rows 1 to
182 are Falmin instructions (R66 to R72 and the engine chapters); rows 183 to 296 are the device's indivisible events. -/

namespace Sys2Proof

/-- General register g0 to g15 (R68). -/
abbrev GReg := Fin 16
/-- Predicate p0 to p7 (R68). -/
abbrev PReg := Fin 8
/-- The guard field GRD: bit 3 negates, bits 2 to 0 name the predicate (R69). -/
abbrev Guard := BitVec 4

/-- A source operand (R68): a register, an immediate 0 to 63, or IMM32 (field code 0xC0). -/
inductive Src where
  | reg (r : GReg)
  | imm (n : Fin 64)
  | wide (v : BitVec 32)
  deriving DecidableEq, Repr

/-- Access width of class M, field WID (R67). -/
inductive Wid where
  | w8 | w16 | w32 | w64
  deriving DecidableEq, Repr

/-- Request class of class M, field RC (R67, R51). -/
inductive ReqClass where
  | s | o | w | n
  deriving DecidableEq, Repr

/-- A memory operand of class M (R67, R82). -/
structure MemOp where
  base : GReg
  index : Option GReg
  shift : Fin 4
  disp : BitVec 32
  deriving DecidableEq, Repr

/-- Rounding mode (R122). -/
inductive RMode where
  | rne | rtz | rup | rdn
  deriving DecidableEq, Repr

/-- Precision of scalar float: FP32 or FP64 (R120). -/
inductive Prec where
  | s | d
  deriving DecidableEq, Repr

/-- The float modifiers T, RM, P of R125. -/
structure FMods where
  t : Bool
  rm : RMode
  p : Prec
  deriving DecidableEq, Repr

/-- Conditions of SETP (R137). -/
inductive ICond where
  | eq | ne | lt | le | gt | ge | ltu | leu | gtu | geu | tst
  deriving DecidableEq, Repr

/-- Conditions of FCMP and VCMP (R144). -/
inductive FCond where
  | eq | ne | lt | le | gt | ge | un | or
  deriving DecidableEq, Repr

/-- Types of FCVT (R145). -/
inductive CvtTy where
  | si32 | ui32 | si64 | ui64 | f32 | f64
  deriving DecidableEq, Repr

/-- Operations of AMO (R159). -/
inductive AmoOp where
  | add | and | or | xor | min | max | swap | cas
  deriving DecidableEq, Repr

/-- Fields of VSHP (R199). -/
inductive ShpField where
  | base | e0 | e1 | e2 | e3 | s1 | s2 | s3 | flags | adv
  deriving DecidableEq, Repr

/-- Operations of VRED and VSCAN (R198). -/
inductive RedOp where
  | sum | max | min
  deriving DecidableEq, Repr

/-- Combiners of SOLICIT (R329). -/
inductive Comb where
  | sum32 | max32 | min32 | count | or64 | first | lsev
  deriving DecidableEq, Repr

/-- Modifiers of REPLAY (R113). -/
inductive ReplayMod where
  | plain | skip | step | stop
  deriving DecidableEq, Repr

/-- The special registers of R101. -/
inductive SReg where
  | dtime | ptsr | coreid | stag | ctxh | privb | privsz | stat | tqh | ovt | icnt | stale | bconf
  | win (n : Fin 8)
  | bfmt (n : Fin 16)
  | mstat | fctl | vstat | expr
  deriving DecidableEq, Repr

/-- A K-link packet's header fields and payload (R363); `rsv`: the bytes from 0x24 to 0x3B; `crc`: the CRC, which a sender computes as the
packet goes out. -/
structure Packet where
  type : Nat
  seq : Nat
  ack : Nat
  nak : Bool
  aop : Nat
  status : Nat
  addr : Word
  opnd : Word
  cmp : Word
  xid : Nat
  payload : List Byte
  len : Nat := 0
  rsv : Nat := 0
  crc : Nat := 0
  deriving DecidableEq, Repr

/-- One constructor for each row of the operation table. In the instructions `g` is the guard. In the events the numbers
name the unit that takes the event, or the position of the message taken among those in transit. -/
inductive Instr where
  -- integer, address and predicate (R128)
  | add (g : Guard) (d : GReg) (a b : Src)
  | sub (g : Guard) (d : GReg) (a b : Src)
  | mul (g : Guard) (d : GReg) (a b : Src)
  | mulh (g : Guard) (d : GReg) (a b : Src)
  | mulhu (g : Guard) (d : GReg) (a b : Src)
  | div (g : Guard) (d : GReg) (a b : Src)
  | divu (g : Guard) (d : GReg) (a b : Src)
  | rem (g : Guard) (d : GReg) (a b : Src)
  | remu (g : Guard) (d : GReg) (a b : Src)
  | and (g : Guard) (d : GReg) (a b : Src)
  | or (g : Guard) (d : GReg) (a b : Src)
  | xor (g : Guard) (d : GReg) (a b : Src)
  | andn (g : Guard) (d : GReg) (a b : Src)
  | shl (g : Guard) (d : GReg) (a b : Src)
  | shr (g : Guard) (d : GReg) (a b : Src)
  | sar (g : Guard) (d : GReg) (a b : Src)
  | rotl (g : Guard) (d : GReg) (a b : Src)
  | min (g : Guard) (d : GReg) (a b : Src)
  | max (g : Guard) (d : GReg) (a b : Src)
  | minu (g : Guard) (d : GReg) (a b : Src)
  | maxu (g : Guard) (d : GReg) (a b : Src)
  | clz (g : Guard) (d a : GReg)
  | ctz (g : Guard) (d a : GReg)
  | popc (g : Guard) (d a : GReg)
  | bfx (g : Guard) (d a : GReg) (b : Src)
  | bfxs (g : Guard) (d a : GReg) (b : Src)
  | bfi (g : Guard) (d : GReg) (a b : Src)
  | sext (g : Guard) (d a : GReg) (b : Src)
  | zext (g : Guard) (d a : GReg) (b : Src)
  | limm (g : Guard) (d : GReg) (v : BitVec 56)
  | limmZ (g : Guard) (d : GReg) (v : BitVec 56)
  | limmH (g : Guard) (d : GReg) (v : BitVec 8)
  | lea (g : Guard) (d : GReg) (m : MemOp)
  | mov (g : Guard) (d : GReg) (a : Src)
  | movPr (g : Guard) (d : GReg)
  | movRp (g : Guard) (a : Src)
  | sel (g : Guard) (d : GReg) (neg : Bool) (p : PReg) (a b : Src)
  | setp (g : Guard) (cc : ICond) (d : PReg) (a b : Src)
  | pand (g : Guard) (d a b : PReg)
  | por (g : Guard) (d a b : PReg)
  | pxor (g : Guard) (d a b : PReg)
  | pnot (g : Guard) (d a : PReg)
  -- scalar float (R139)
  | fadd (g : Guard) (d : GReg) (a b : Src) (m : FMods)
  | fsub (g : Guard) (d : GReg) (a b : Src) (m : FMods)
  | fmul (g : Guard) (d : GReg) (a b : Src) (m : FMods)
  | ffma (g : Guard) (d : GReg) (a b : Src) (m : FMods)
  | fdiv (g : Guard) (d : GReg) (a b : Src) (m : FMods)
  | fsqrt (g : Guard) (d : GReg) (a : Src) (m : FMods)
  | fmin (g : Guard) (d : GReg) (a b : Src) (p : Prec) (t : Bool)
  | fmax (g : Guard) (d : GReg) (a b : Src) (p : Prec) (t : Bool)
  | fsgn (g : Guard) (d : GReg) (a b : Src) (p : Prec)
  | fsgnN (g : Guard) (d : GReg) (a b : Src) (p : Prec)
  | fsgnX (g : Guard) (d : GReg) (a b : Src) (p : Prec)
  | fcmp (g : Guard) (cc : FCond) (d : PReg) (a b : Src) (p : Prec) (t : Bool)
  | fcvt (g : Guard) (dst src : CvtTy) (d : GReg) (a : Src) (rm : RMode) (t : Bool)
  | fclass (g : Guard) (d : GReg) (a : Src) (p : Prec)
  | frnd (g : Guard) (d : GReg) (a : Src) (m : FMods)
  -- control (R147)
  | br (g : Guard) (ovl idx : BitVec 16)
  | bri (g : Guard) (a : GReg)
  | briL (g : Guard) (d a : GReg)
  | call (g : Guard) (d : GReg) (ovl idx : BitVec 16)
  | callo (g : Guard) (d : GReg) (ovl idx : BitVec 16)
  | ret (g : Guard) (a : GReg)
  | loop (g : Guard) (d : GReg) (ovl idx : BitVec 16)
  | nop (g : Guard)
  | done (g : Guard)
  -- memory and atomics (R152)
  | ld (g : Guard) (d : GReg) (m : MemOp) (w : Wid) (c : ReqClass) (mig sx : Bool)
  | st (g : Guard) (v : Src) (m : MemOp) (w : Wid) (c : ReqClass) (mig : Bool)
  | ldl (g : Guard) (d : GReg) (m : MemOp) (w : Wid) (sx : Bool)
  | stl (g : Guard) (v : Src) (m : MemOp) (w : Wid)
  | ldx (g : Guard) (d : GReg) (m : MemOp) (w : Wid) (c : ReqClass) (mig sx : Bool)
  | stx (g : Guard) (d : GReg) (m : MemOp) (w : Wid) (c : ReqClass) (mig : Bool)
  | ldg (g : Guard) (d : GReg) (m : MemOp) (w : Wid) (c : ReqClass) (sx : Bool)
  | stg (g : Guard) (v : Src) (m : MemOp) (w : Wid) (c : ReqClass)
  | pref (g : Guard) (m : MemOp) (c : ReqClass)
  | fence (g : Guard)
  | clfl (g : Guard) (m : MemOp)
  | amo (g : Guard) (op : AmoOp) (d base : GReg) (disp : BitVec 32) (b : Src) (w : Wid) (u mig : Bool)
  -- holdings (R161)
  | grantRange (g : Guard) (d a : GReg) (b : Src) (nc lp : Bool)
  | grantLock (g : Guard) (d : GReg) (a b : Src)
  | grantMslot (g : Guard) (d : GReg) (a b : Src)
  | grantFslot (g : Guard) (d : GReg) (a b : Src)
  | grantEvq (g : Guard) (d : GReg) (a b : Src)
  | renew (g : Guard) (d a : GReg) (b : Src)
  | life (g : Guard) (d a : GReg)
  | lock (g : Guard) (d a : GReg) (b : Src)
  | lockNw (g : Guard) (d a : GReg) (b : Src)
  | route (g : Guard) (d a : GReg) (b : Src)
  -- channels, migration, headers (R170, R173, R177, R178)
  | send (g : Guard) (a b : GReg)
  | recv (g : Guard) (d a b : GReg)
  | poll (g : Guard) (d a b : GReg)
  | migr (g : Guard) (a : Src)
  | mhdt (g : Guard) (a : GReg)
  | mhdrB (g : Guard) (a b : GReg) (k : Fin 8)
  | mhdrP (g : Guard) (a b : GReg) (k : Fin 8)
  -- vector (R198)
  | vshp (g : Guard) (f : ShpField) (a : GReg) (b : Src)
  | vmov (g : Guard) (d a : GReg)
  | vadd (g : Guard) (d a b : GReg) (sat : Bool)
  | vsub (g : Guard) (d a b : GReg) (sat : Bool)
  | vmul (g : Guard) (d a b : GReg) (sat : Bool)
  | vfma (g : Guard) (d a b : GReg) (sat : Bool)
  | vdiv (g : Guard) (d a b : GReg) (sat : Bool)
  | vmax (g : Guard) (d a b : GReg) (sat : Bool)
  | vmin (g : Guard) (d a b : GReg) (sat : Bool)
  | vabs (g : Guard) (d a : GReg) (sat : Bool)
  | vneg (g : Guard) (d a : GReg) (sat : Bool)
  | vexp (g : Guard) (d a : GReg) (sat : Bool)
  | vlog (g : Guard) (d a : GReg) (sat : Bool)
  | vrsq (g : Guard) (d a : GReg) (sat : Bool)
  | vrcp (g : Guard) (d a : GReg) (sat : Bool)
  | vcmp (g : Guard) (cc : FCond) (d a b : GReg)
  | vsel (g : Guard) (d a b : GReg)
  | vand (g : Guard) (d a b : GReg)
  | vor (g : Guard) (d a b : GReg)
  | vxor (g : Guard) (d a b : GReg)
  | vshl (g : Guard) (d a : GReg) (b : Src)
  | vshr (g : Guard) (d a : GReg) (b : Src)
  | vcvt (g : Guard) (d a : GReg) (rm : RMode) (sat : Bool)
  | vred (g : Guard) (op : RedOp) (d a : GReg)
  | vscan (g : Guard) (op : RedOp) (d a : GReg) (sat : Bool)
  | vbcast (g : Guard) (d : GReg) (a : Src) (sat : Bool)
  | viota (g : Guard) (d : GReg) (a b : Src) (sat : Bool)
  | vclamp (g : Guard) (d a : GReg) (b : Src)
  | vscale (g : Guard) (d a : GReg) (b : Src) (sat : Bool)
  | vtrn (g : Guard) (d a : GReg)
  | vdot (g : Guard) (d a b : GReg)
  -- copy engine (R215, R228); an absent register asks for no completion record
  | copy (g : Guard) (d a : GReg) (b : Option GReg)
  | gath (g : Guard) (d a : GReg) (b : Option GReg)
  | scat (g : Guard) (d a : GReg) (b : Option GReg)
  | fill (g : Guard) (d : GReg) (a : Src) (b : Option GReg)
  | ovld (g : Guard) (frame : Option (Fin 4)) (a : Src) (b : Option GReg)
  | qfence (g : Guard) (q : Fin 4) (w : BitVec 4)
  -- matrix and sequencers (R255)
  | mlda (g : Guard) (a : Src) (b : GReg)
  | mldaG (g : Guard) (n : Fin 2) (a b : GReg) (k : BitVec 16) (m : BitVec 8)
  | mldb (g : Guard) (a : Src) (b : GReg)
  | mldbG (g : Guard) (n : Fin 4) (a b : GReg) (k : BitVec 16)
  | mscl (g : Guard) (a : GReg) (b : Src)
  | mlut (g : Guard) (a : GReg) (b : Src)
  | mcfg (g : Guard) (a : Src)
  | mma (g : Guard) (d : GReg) (a : Src) (b : GReg)
  | mmaX (g : Guard) (d : GReg) (a b : Src)
  | mmv (g : Guard) (d a b : GReg) (x : Fin 2)
  | mzro (g : Guard) (d : GReg)
  | mwb (g : Guard) (d a : GReg) (sat : Bool)
  | mrds (g : Guard) (d a : GReg) (b : Src)
  | fork (g : Guard) (a b : Src)
  | rdzv (g : Guard)
  | semp (g : Guard) (a : Src)
  | semw (g : Guard) (a : Src)
  -- factor accumulator (R282); a register in `q` is the .Q form's event queue
  | finit (g : Guard) (d : GReg) (a b : Src)
  | fupd (g : Guard) (d a : GReg) (q : Option GReg)
  | fdwn (g : Guard) (d a : GReg) (q : Option GReg)
  | ftrs (g : Guard) (d a : GReg) (q : Option GReg)
  | ftrb (g : Guard) (d a : GReg) (q : Option GReg)
  | frd (g : Guard) (d a : GReg) (q : Option GReg)
  | fwr (g : Guard) (d a : GReg) (q : Option GReg)
  | fdia (g : Guard) (d a : GReg)
  -- solicit (R337)
  | dreg (g : Guard) (d a : GReg) (b : Src)
  | dregMove (g : Guard) (d a : GReg) (b : Src)
  | solicit (g : Guard) (c : Comb) (d a b : GReg)
  | respond (g : Guard) (a : GReg) (b : Src)
  | cnsq (g : Guard) (d : GReg) (a : Src)
  | cnsqN (g : Guard) (d : GReg)
  -- scheduling (R312)
  | spawn (g : Guard) (d a : GReg) (b : Src)
  | decp (g : Guard) (a : GReg) (b : Src)
  | launch (g : Guard) (d a : GReg)
  | cancel (g : Guard) (d a : GReg)
  | cntrOpen (g : Guard) (d a b : GReg)
  | cntrSeal (g : Guard) (a : GReg)
  | cntrRead (g : Guard) (d a : GReg)
  | bar (g : Guard) (d a : GReg)
  -- system (R113)
  | trap (g : Guard) (a : Src)
  | brk (g : Guard)
  | srr (g : Guard) (d : GReg) (r : SReg)
  | srw (g : Guard) (r : SReg) (a : Src)
  | park (g : Guard) (d a b : GReg)
  | parkNt (g : Guard) (d a : GReg)
  | waitdt (g : Guard) (a : GReg)
  | waitdtRel (g : Guard) (a : Src)
  | gstop (g : Guard) (d a b : GReg)
  | gstopGo (g : Guard) (d a : GReg)
  | replay (g : Guard) (d a : GReg) (m : ReplayMod)
  -- events: strands, time, holdings
  | replyArrival (core slot : Nat)
  | trapRecordLand (core : Nat)
  | dtTick
  | lapseTick (kind home index : Nat)
  | darkTick (kind home index : Nat)
  | homeRequest (n : Nat)
  | lockWithdrawal (n : Nat)
  | lapseNotice (n : Nat)
  | translationExpiry (n : Nat)
  | purge (n : Nat)
  | purgeAck (n : Nat)
  | unmapComplete (n : Nat)
  -- events: sectors
  | leaseRead (n : Nat)
  | leaseRenewal (n : Nat)
  | homeWrite (n : Nat)
  | ownershipRequest (n : Nat)
  | recall (n : Nat)
  | recallReplyData (n : Nat)
  | notHeld (n : Nat)
  | writeBack (n : Nat)
  | l2VictimWriteBack (line : Nat)
  | memoryWriteBackAck (line : Nat)
  | farAtomic (n : Nat)
  -- events: engines, queues, messages
  | queueEntry (cluster : Nat) (factor : Bool)
  | engineOperationStart (cluster : Nat) (factor : Bool)
  | copyBeat (cluster : Nat)
  | evqRecordArrival (n : Nat)
  | wakeFlit (n : Nat)
  | recordReturn (n : Nat)
  | messageDelivery (n : Nat)
  | dropNotice (n : Nat)
  | creditReturn (n : Nat)
  | migrationArrival (n : Nat)
  | overlayLoad (n : Nat)
  | overlayLoadEnd (n : Nat)
  | wdoneArrival (cluster xid : Nat)
  | factorStartEvent (cluster : Nat)
  | factorCommitEvent (cluster : Nat)
  -- events: scheduling
  | slotBind (core slot : Nat)
  | recordPromotion (core prio : Nat)
  | childEnds (n : Nat)
  | cancelToken (core n : Nat)
  | cancelRetire (n : Nat)
  | barrierAck (n : Nat)
  | governorCheck
  | thermalEvaluation (die : Nat)
  | slotDisplace (core slot : Nat)
  | haltAck (n : Nat)
  | waitdtWake (core slot : Nat)
  | semwStreamDesync (cluster : Nat) (compute : Bool)
  -- events: census
  | wave (core n : Nat)
  | responderSpawn (core n : Nat)
  | censusReport (core n : Nat)
  | censusComplete (n : Nat)
  | censusClose (core n : Nat)
  | moveReserve (n : Nat)
  | moveReserveReply (n : Nat)
  | entrySend (n : Nat)
  | entryArrival (n : Nat)
  | moveAck (n : Nat)
  -- events: memory engine
  | pteStore (n : Nat)
  | pageBacked (n : Nat)
  | translationWalk (holder ctx vpn : Nat)
  | hotnessExamination (slice : Nat)
  | pageMove (n : Nat)
  -- events: K-link and PCIe
  | write (port : Nat)
  | wdone (port : Nat)
  | read (port : Nat)
  | rdata (port : Nat)
  | amoPacket (port : Nat)
  | amodata (port : Nat)
  | msg (port : Nat)
  | drop (port : Nat)
  | link (port : Nat)
  | packetReceive (port : Nat) (p : Packet) (intact : Bool)
  | ackIdleTimeout (port : Nat)
  | linkReplayTimeout (port : Nat)
  | laneFail (port lane : Nat)
  | widthAgreed (port peerFailed peerAck : Nat) (peerId : Word)
  | trainingTimeout (port : Nat)
  | pcieLinkDown (p : Nat)
  | apertureCompletion (n status : Nat) (data : Word)
  -- events: hub and firmware
  | cqtailDoorbell (v : Word)
  | apprun (v : Word)
  | registerWrite (off : Nat) (v : Word)
  | status
  | summary
  | snapshotExpiry
  | grantctx
  | renewctx
  | loadovl
  | hostLaunch
  | hostCancel
  | checkpoint
  | restore
  | longCommandEnd
  | attest
  | sensors
  | thermtabRead
  | thermtabWrite
  | linkcfgDown
  | linkcfgTrain
  | reset
  | bringupPhase
  | unitReady (unit code : Nat)
  | currentSample (die : Nat) (amps : Int)
  | softErrorOutOfService (core : Nat)
  | illegalOpcode
  | overlayMiss
  | preEmption (launch : Nat)
  | engineOperationEnd (cluster unit : Nat)
  | pcieLinkUp (p : Nat)
  | cancelAcknowledgment (n : Nat)
  | bringUp
  deriving DecidableEq, Repr

end Sys2Proof
end

