-- ==== Sys2Proof/WellFormed.lean ====
section
/-! DEFINITION. The form an instruction of the syntax must have for a Falmin word to stand for it: the encoding checks of
steps 4 and 5 of R70 that the operand types do not already state. -/

namespace Sys2Proof

/-- The operand needs IMM32 (field code 0xC0, R68). -/
def Src.isWide : Src → Bool
  | .wide _ => true
  | _ => false

/-- The operand is a general register. -/
def Src.isReg : Src → Bool
  | .reg _ => true
  | _ => false

/-- GRD = 0b1000 is reserved (R69). -/
def guardOk (g : Guard) : Bool := g != 0b1000#4

/-- 0xC0 stands in at most one field (R68). -/
def oneWide (a b : Src) : Bool := !(a.isWide && b.isWide)

/-- A field coded 0xC0 has 0 in IMM32, where the form gives IMM32 no use (R255). -/
def noImm (a : Src) : Bool :=
  match a with
  | .wide v => v == 0
  | _ => true

/-- A pair of registers starts at an even one (R152, R161). -/
def evenReg (d : GReg) : Bool := d.val % 2 == 0

/-- p0 is no destination (R68). -/
def destPred (d : PReg) : Bool := d.val != 0

/-- A load's .SX is not given with .64 (R152). -/
def sxOk (w : Wid) (sx : Bool) : Bool := !(sx && w == .w64)

/-- LDX, STX and AMO take .32 and .64 (R152). -/
def wideWid (w : Wid) : Bool := w == .w32 || w == .w64

/-- FCVT converts between two different types, one of them at least a float type (R145). -/
def cvtOk (dst src : CvtTy) : Bool :=
  dst != src && (dst == .f32 || dst == .f64 || src == .f32 || src == .f64)

/-- .U is given with .MIN and .MAX alone (R159). -/
def amoUOk (op : AmoOp) (u : Bool) : Bool := !u || op == .min || op == .max

/-- The registers that SRW may name: those marked RW or W1C in R101 (R102). -/
def SReg.writable : SReg → Bool
  | .win _ | .bfmt _ | .mstat | .fctl | .vstat | .expr => true
  | _ => false

/-- With .Q, field B is not 0x00 (R282): g0 names no queue. -/
def queueOk (q : Option GReg) : Bool := q != some 0

/-- Two source operands and a guard. -/
def abOk (g : Guard) (a b : Src) : Bool := guardOk g && oneWide a b

/-- The instruction stands for some Falmin word that passes steps 3 to 5 of R70. The events have no encoding and no form
to break. -/
def Instr.wellFormed : Instr → Bool
  | .add g _ a b | .sub g _ a b | .mul g _ a b | .mulh g _ a b | .mulhu g _ a b | .div g _ a b | .divu g _ a b
  | .rem g _ a b | .remu g _ a b | .and g _ a b | .or g _ a b | .xor g _ a b | .andn g _ a b | .shl g _ a b
  | .shr g _ a b | .sar g _ a b | .rotl g _ a b | .min g _ a b | .max g _ a b | .minu g _ a b | .maxu g _ a b
  | .bfi g _ a b | .sel g _ _ _ a b => abOk g a b
  | .clz g _ _ | .ctz g _ _ | .popc g _ _ | .bfx g _ _ _ | .bfxs g _ _ _ | .sext g _ _ _ | .zext g _ _ _
  | .limm g _ _ | .limmZ g _ _ | .limmH g _ _ | .lea g _ _ | .mov g _ _ | .movPr g _ | .movRp g _ => guardOk g
  | .setp g _ d a b => abOk g a b && destPred d
  | .pand g d _ _ | .por g d _ _ | .pxor g d _ _ | .pnot g d _ => guardOk g && destPred d
  | .fadd g _ a b _ | .fsub g _ a b _ | .fmul g _ a b _ | .ffma g _ a b _ | .fdiv g _ a b _ => abOk g a b
  | .fsqrt g _ _ _ | .fclass g _ _ _ | .frnd g _ _ _ => guardOk g
  | .fmin g _ a b _ _ | .fmax g _ a b _ _ | .fsgn g _ a b _ | .fsgnN g _ a b _ | .fsgnX g _ a b _ => abOk g a b
  | .fcmp g _ d a b _ _ => abOk g a b && destPred d
  | .fcvt g dst src _ _ _ _ => guardOk g && cvtOk dst src
  | .br g _ _ | .bri g _ | .briL g _ _ | .call g _ _ _ | .callo g _ _ _ | .ret g _ | .loop g _ _ _ | .nop g
  | .done g => guardOk g
  | .ld g _ _ w _ _ sx => guardOk g && sxOk w sx
  | .st g v _ _ _ _ => guardOk g && !v.isWide
  | .ldl g _ _ w sx => guardOk g && sxOk w sx
  | .stl g v _ _ => guardOk g && !v.isWide
  | .ldx g d _ w _ _ sx => guardOk g && evenReg d && wideWid w && sxOk w sx
  | .stx g d _ w _ _ => guardOk g && evenReg d && wideWid w
  | .ldg g _ _ w _ sx => guardOk g && sxOk w sx
  | .stg g v _ _ _ => guardOk g && !v.isWide
  | .pref g _ c => guardOk g && c != .w
  | .fence g | .clfl g _ => guardOk g
  | .amo g op _ _ _ b w u _ => guardOk g && !b.isWide && wideWid w && amoUOk op u
  | .grantRange g d _ _ _ _ => guardOk g && evenReg d
  | .grantLock g _ a b | .grantMslot g _ a b | .grantFslot g _ a b | .grantEvq g _ a b => abOk g a b
  | .renew g _ _ _ | .life g _ _ | .lock g _ _ _ | .lockNw g _ _ _ | .route g _ _ _ => guardOk g
  | .send g _ _ | .recv g _ _ _ | .poll g _ _ _ | .migr g _ | .mhdt g _ | .mhdrB g _ _ _ | .mhdrP g _ _ _ => guardOk g
  | .vshp g _ _ _ | .vmov g _ _ | .vadd g _ _ _ _ | .vsub g _ _ _ _ | .vmul g _ _ _ _ | .vfma g _ _ _ _
  | .vdiv g _ _ _ _ | .vmax g _ _ _ _ | .vmin g _ _ _ _ | .vabs g _ _ _ | .vneg g _ _ _ | .vexp g _ _ _
  | .vlog g _ _ _ | .vrsq g _ _ _ | .vrcp g _ _ _ | .vcmp g _ _ _ _ | .vsel g _ _ _ | .vand g _ _ _ | .vor g _ _ _
  | .vxor g _ _ _ | .vshl g _ _ _ | .vshr g _ _ _ | .vcvt g _ _ _ _ | .vred g _ _ _ | .vscan g _ _ _ _
  | .vbcast g _ _ _ | .vclamp g _ _ _ | .vscale g _ _ _ _ | .vtrn g _ _ | .vdot g _ _ _ => guardOk g
  | .viota g _ a b _ => abOk g a b
  | .copy g _ _ _ | .gath g _ _ _ | .scat g _ _ _ | .fill g _ _ _ | .ovld g _ _ _ | .qfence g _ _ => guardOk g
  | .mlda g a _ | .mldb g a _ | .semp g a | .semw g a => guardOk g && noImm a
  | .mldaG g _ _ _ _ _ | .mldbG g _ _ _ _ | .mscl g _ _ | .mlut g _ _ | .mcfg g _
  | .mma g _ _ _ | .mmv g _ _ _ _ | .mzro g _ | .mwb g _ _ _ | .mrds g _ _ _ | .rdzv g => guardOk g
  | .mmaX g _ a b => abOk g a b
  | .fork g a b => abOk g a b
  | .finit g _ a b => abOk g a b
  | .fupd g _ _ q | .fdwn g _ _ q | .ftrs g _ _ q | .ftrb g _ _ q | .frd g _ _ q | .fwr g _ _ q => guardOk g && queueOk q
  | .fdia g _ _ => guardOk g
  | .dreg g _ _ _ | .dregMove g _ _ _ | .solicit g _ _ _ _ | .respond g _ _ | .cnsq g _ _ | .cnsqN g _ => guardOk g
  | .spawn g _ _ _ | .decp g _ _ | .launch g _ _ | .cancel g _ _ | .cntrOpen g _ _ _ | .cntrSeal g _ | .cntrRead g _ _
  | .bar g _ _ => guardOk g
  | .trap g _ | .brk g | .srr g _ _ => guardOk g
  | .srw g r _ => guardOk g && r.writable
  | .park g _ _ _ | .parkNt g _ _ | .waitdt g _ | .waitdtRel g _ | .gstop g _ _ _ | .gstopGo g _ _ | .replay g _ _ _ => guardOk g
  | _ => true

/-- The constructors that have a Falmin word: rows 1 to 182 of the operation table, those a guard stands in. -/
def Instr.guard? : Instr → Option Guard
  | .add g .. | .sub g .. | .mul g .. | .mulh g .. | .mulhu g .. | .div g .. | .divu g .. | .rem g .. | .remu g ..
  | .and g .. | .or g .. | .xor g .. | .andn g .. | .shl g .. | .shr g .. | .sar g .. | .rotl g .. | .min g .. | .max g ..
  | .minu g .. | .maxu g .. | .clz g .. | .ctz g .. | .popc g .. | .bfx g .. | .bfxs g .. | .bfi g .. | .sext g ..
  | .zext g .. | .limm g .. | .limmZ g .. | .limmH g .. | .lea g .. | .mov g .. | .movPr g .. | .movRp g .. | .sel g ..
  | .setp g .. | .pand g .. | .por g .. | .pxor g .. | .pnot g .. => some g
  | .fadd g .. | .fsub g .. | .fmul g .. | .ffma g .. | .fdiv g .. | .fsqrt g .. | .fmin g .. | .fmax g .. | .fsgn g ..
  | .fsgnN g .. | .fsgnX g .. | .fcmp g .. | .fcvt g .. | .fclass g .. | .frnd g .. => some g
  | .br g .. | .bri g .. | .briL g .. | .call g .. | .callo g .. | .ret g .. | .loop g .. | .nop g | .done g => some g
  | .ld g .. | .st g .. | .ldl g .. | .stl g .. | .ldx g .. | .stx g .. | .ldg g .. | .stg g .. | .pref g .. | .fence g
  | .clfl g .. | .amo g .. => some g
  | .grantRange g .. | .grantLock g .. | .grantMslot g .. | .grantFslot g .. | .grantEvq g .. | .renew g .. | .life g ..
  | .lock g .. | .lockNw g .. | .route g .. => some g
  | .send g .. | .recv g .. | .poll g .. | .migr g .. | .mhdt g .. | .mhdrB g .. | .mhdrP g .. => some g
  | .vshp g .. | .vmov g .. | .vadd g .. | .vsub g .. | .vmul g .. | .vfma g .. | .vdiv g .. | .vmax g .. | .vmin g ..
  | .vabs g .. | .vneg g .. | .vexp g .. | .vlog g .. | .vrsq g .. | .vrcp g .. | .vcmp g .. | .vsel g .. | .vand g ..
  | .vor g .. | .vxor g .. | .vshl g .. | .vshr g .. | .vcvt g .. | .vred g .. | .vscan g .. | .vbcast g .. | .viota g ..
  | .vclamp g .. | .vscale g .. | .vtrn g .. | .vdot g .. => some g
  | .copy g .. | .gath g .. | .scat g .. | .fill g .. | .ovld g .. | .qfence g .. => some g
  | .mlda g .. | .mldaG g .. | .mldb g .. | .mldbG g .. | .mscl g .. | .mlut g .. | .mcfg g .. | .mma g .. | .mmaX g ..
  | .mmv g .. | .mzro g .. | .mwb g .. | .mrds g .. | .fork g .. | .rdzv g | .semp g .. | .semw g .. => some g
  | .finit g .. | .fupd g .. | .fdwn g .. | .ftrs g .. | .ftrb g .. | .frd g .. | .fwr g .. | .fdia g .. => some g
  | .dreg g .. | .dregMove g .. | .solicit g .. | .respond g .. | .cnsq g .. | .cnsqN g .. => some g
  | .spawn g .. | .decp g .. | .launch g .. | .cancel g .. | .cntrOpen g .. | .cntrSeal g .. | .cntrRead g .. | .bar g .. => some g
  | .trap g .. | .brk g | .srr g .. | .srw g .. | .park g .. | .parkNt g .. | .waitdt g .. | .waitdtRel g .. | .gstop g ..
  | .gstopGo g .. | .replay g .. => some g
  | _ => none

/-- The instruction has a Falmin word. -/
def Instr.hasWord (i : Instr) : Bool := i.guard?.isSome

end Sys2Proof
end

