-- ==== Sys2Proof/Decode.lean ====
section
/-! DEFINITION. The Falmin word (R66 to R72 and each chapter's encoding tables): the decoder, total on any word and
refusing with the step of R70 that fails; after it the encoder, written from the same tables. -/

namespace Sys2Proof

/-- The six fields of an instruction word (R66). -/
structure Fields where
  op : BitVec 8
  grd : BitVec 4
  d : BitVec 8
  a : BitVec 8
  b : BitVec 8
  x : BitVec 60
  deriving DecidableEq, Repr

/-- Why a word is no instruction: the step of R70 that fails (3 ILLEGAL_OPCODE, 4 RESERVED_BITS, 5 BAD_OPERAND, 6
RESERVED_BITS for the class of LDL and STL). -/
inductive DecErr where
  | illegal
  | reserved
  | badOperand
  | badClass
  deriving DecidableEq, Repr

/-- The fields of a word (R66). -/
def Fields.ofWord (w : IWord) : Fields :=
  { op := w.extractLsb' 88 8, grd := w.extractLsb' 84 4, d := w.extractLsb' 76 8, a := w.extractLsb' 68 8,
    b := w.extractLsb' 60 8, x := w.extractLsb' 0 60 }

/-- The word with these fields (R66). -/
def Fields.toWord (f : Fields) : IWord := f.op ++ f.grd ++ f.d ++ f.a ++ f.b ++ f.x

/-- X[59:52] (R67). -/
def Fields.minor (f : Fields) : BitVec 8 := f.x.extractLsb' 52 8
/-- X[51:32] of class R and C (R67). -/
def Fields.mods (f : Fields) : BitVec 20 := f.x.extractLsb' 32 20
/-- X[31:0]: IMM32, DISP, or OVL with IDX (R67). -/
def Fields.imm (f : Fields) : BitVec 32 := f.x.extractLsb' 0 32
/-- X[51:50] of class M (R67). -/
def Fields.wid (f : Fields) : BitVec 2 := f.x.extractLsb' 50 2
/-- X[49:48] of class M (R67). -/
def Fields.rc (f : Fields) : BitVec 2 := f.x.extractLsb' 48 2
/-- X[47] of class M (R67). -/
def Fields.mig (f : Fields) : BitVec 1 := f.x.extractLsb' 47 1
/-- X[46:44] of class M (R67). -/
def Fields.shift (f : Fields) : BitVec 3 := f.x.extractLsb' 44 3
/-- X[43:32] of class M (R67). -/
def Fields.modsM (f : Fields) : BitVec 12 := f.x.extractLsb' 32 12

/-- The format classes (R67). -/
inductive Cls where
  | r | m | c | w
  deriving DecidableEq, Repr

/-- What an operand field accepts (R68): nothing, a general register, an even one, a predicate, a predicate destination, a
register or immediate, a register or small immediate, a register or 0x80, a special register, a writable one. -/
inductive Kind where
  | none | g | ge | p | pd | gi | gs | gz | sr | sw
  deriving DecidableEq, Repr

/-- A special register's number (R101). -/
def SReg.code : SReg → BitVec 8
  | .dtime => 0x20 | .ptsr => 0x21 | .coreid => 0x22 | .stag => 0x23 | .ctxh => 0x24 | .privb => 0x25 | .privsz => 0x26
  | .stat => 0x27 | .tqh => 0x28 | .ovt => 0x2C | .icnt => 0x2D | .stale => 0x2E | .bconf => 0x2F
  | .win n => 0x30 + BitVec.ofNat 8 n.val
  | .bfmt n => 0x40 + BitVec.ofNat 8 n.val
  | .mstat => 0x50 | .fctl => 0x51 | .vstat => 0x52 | .expr => 0x53

/-- The special register of a number, if the map of R101 assigns it. -/
def SReg.ofCode? (c : BitVec 8) : Option SReg :=
  match c.toNat with
  | 0x20 => some .dtime | 0x21 => some .ptsr | 0x22 => some .coreid | 0x23 => some .stag | 0x24 => some .ctxh
  | 0x25 => some .privb | 0x26 => some .privsz | 0x27 => some .stat | 0x28 => some .tqh | 0x2C => some .ovt
  | 0x2D => some .icnt | 0x2E => some .stale | 0x2F => some .bconf
  | 0x30 => some (.win 0) | 0x31 => some (.win 1) | 0x32 => some (.win 2) | 0x33 => some (.win 3)
  | 0x34 => some (.win 4) | 0x35 => some (.win 5) | 0x36 => some (.win 6) | 0x37 => some (.win 7)
  | 0x40 => some (.bfmt 0) | 0x41 => some (.bfmt 1) | 0x42 => some (.bfmt 2) | 0x43 => some (.bfmt 3)
  | 0x44 => some (.bfmt 4) | 0x45 => some (.bfmt 5) | 0x46 => some (.bfmt 6) | 0x47 => some (.bfmt 7)
  | 0x48 => some (.bfmt 8) | 0x49 => some (.bfmt 9) | 0x4A => some (.bfmt 10) | 0x4B => some (.bfmt 11)
  | 0x4C => some (.bfmt 12) | 0x4D => some (.bfmt 13) | 0x4E => some (.bfmt 14) | 0x4F => some (.bfmt 15)
  | 0x50 => some .mstat | 0x51 => some .fctl | 0x52 => some .vstat | 0x53 => some .expr
  | _ => none

/-- The value stands in no row of R68 that is reserved (0x18 to 0x1F, 0xC1 to 0xFF). -/
def operandKnown (v : BitVec 8) : Bool := decide (v.toNat ≤ 0x17 ∨ (0x20 ≤ v.toNat ∧ v.toNat ≤ 0xC0))

/-- An unused field holds 0x00 (R68, step 4). -/
def Kind.unusedOk (k : Kind) (v : BitVec 8) : Bool := k != .none || v == 0

/-- The field holds an operand of a kind the instruction accepts there (R68, step 5). -/
def Kind.accepts (k : Kind) (v : BitVec 8) : Bool :=
  match k with
  | .none => true
  | .g => decide (v.toNat < 0x10)
  | .ge => decide (v.toNat < 0x10) && v.toNat % 2 == 0
  | .p => decide (0x10 ≤ v.toNat ∧ v.toNat < 0x18)
  | .pd => decide (0x11 ≤ v.toNat ∧ v.toNat < 0x18)
  | .gi => decide (v.toNat < 0x10) || decide (0x80 ≤ v.toNat)
  | .gs => decide (v.toNat < 0x10) || decide (0x80 ≤ v.toNat ∧ v.toNat < 0xC0)
  | .gz => decide (v.toNat < 0x10) || v == 0x80
  | .sr => (SReg.ofCode? v).isSome
  | .sw => (SReg.ofCode? v).any SReg.writable

/-- The number of fields coded 0xC0 (R68). -/
def Fields.wides (f : Fields) : Nat :=
  (if f.d == 0xC0 then 1 else 0) + (if f.a == 0xC0 then 1 else 0) + (if f.b == 0xC0 then 1 else 0)

/-- IMM32 stands for a field coded 0xC0, else it is 0, unless the form gives it a meaning of its own (R67). -/
def Fields.immOk (f : Fields) (own : Bool) : Bool := own || f.wides == 1 || f.imm == 0

/-- Steps 4 and 5 of R70 for a form whose MINOR is assigned: `xok` says that the bits of X are as the form has them. -/
def form (f : Fields) (cls : Cls) (xok : Bool) (kd ka kb : Kind) (i : Instr) : Except DecErr Instr :=
  if !(xok && f.grd != 0b1000#4 && operandKnown f.d && operandKnown f.a && operandKnown f.b
      && (if cls == .r then decide (f.wides ≤ 1) else f.wides == 0)
      && kd.unusedOk f.d && ka.unusedOk f.a && kb.unusedOk f.b) then .error .reserved
  else if !(kd.accepts f.d && ka.accepts f.a && kb.accepts f.b) then .error .badOperand
  else .ok i

/-- A class-R form: the bits of MODS outside `mask` are 0, IMM32 follows R67. -/
def formR (f : Fields) (mask : BitVec 20) (kd ka kb : Kind) (i : Instr) : Except DecErr Instr :=
  form f .r ((f.mods &&& ~~~mask) == 0 && f.immOk false) kd ka kb i

/-- A class-R form whose MODS outside `mask` and IMM32 are 0, be a field coded 0xC0 or not (R254, R255). -/
def formR0 (f : Fields) (mask : BitVec 20) (kd ka kb : Kind) (i : Instr) : Except DecErr Instr :=
  form f .r ((f.mods &&& ~~~mask) == 0 && f.imm == 0) kd ka kb i

/-- A class-C form (R67): MODS is 0. -/
def formC (f : Fields) (kd : Kind) (i : Instr) : Except DecErr Instr :=
  form f .c (f.mods == 0) kd .none .none i

/-- A class-M form (R67, R152): SHIFT ≤ 3 and the bits of MODS outside bit 0 are 0, bit 0 too unless the form has it. -/
def formM (f : Fields) (m0 : Bool) (xok : Bool) (kd kb : Kind) (i : Instr) : Except DecErr Instr :=
  form f .m (xok && decide (f.shift.toNat ≤ 3) && (f.modsM == 0 || (m0 && f.modsM == 1))) kd .g kb i

/-- The general register a field names. -/
def gOf (v : BitVec 8) : GReg := ⟨v.toNat % 16, Nat.mod_lt _ (by decide)⟩
/-- The predicate a field names. -/
def pOf (v : BitVec 8) : PReg := ⟨v.toNat % 8, Nat.mod_lt _ (by decide)⟩
/-- The source operand of a field (R68). -/
def srcOf (v : BitVec 8) (imm : BitVec 32) : Src :=
  if v.toNat < 0x10 then .reg (gOf v)
  else if v == 0xC0 then .wide imm
  else .imm ⟨v.toNat % 64, Nat.mod_lt _ (by decide)⟩
/-- A register, or none where the field holds 0x80 (R67, R215). -/
def gzOf (v : BitVec 8) : Option GReg := if v == 0x80 then none else some (gOf v)
/-- WID (R67). -/
def widOf (v : BitVec 2) : Wid := match v.toNat with | 0 => .w8 | 1 => .w16 | 2 => .w32 | _ => .w64
/-- RC (R67). -/
def rcOf (v : BitVec 2) : ReqClass := match v.toNat with | 0 => .s | 1 => .o | 2 => .w | _ => .n
/-- MODS[2:1] as a rounding mode (R125). -/
def rmOf (v : BitVec 20) : RMode :=
  match (v.extractLsb' 1 2).toNat with | 0 => .rne | 1 => .rtz | 2 => .rup | _ => .rdn
/-- MODS[0] as a precision (R125). -/
def precOf (v : BitVec 20) : Prec := if v.getLsbD 0 then .d else .s
/-- MODS[3:0] of a float form (R125). -/
def fmodsOf (v : BitVec 20) : FMods := { t := v.getLsbD 3, rm := rmOf v, p := precOf v }
/-- The class-M memory operand (R67). -/
def memOf (f : Fields) : MemOp :=
  { base := gOf f.a, index := gzOf f.b, shift := ⟨f.shift.toNat % 4, Nat.mod_lt _ (by decide)⟩, disp := f.imm }
/-- LEA's memory operand (R134). -/
def leaOf (f : Fields) : MemOp :=
  { base := gOf f.a, index := gzOf f.b, shift := ⟨f.mods.toNat % 4, Nat.mod_lt _ (by decide)⟩, disp := f.imm }
/-- Integer conditions by MINOR (R137). -/
def icondOf? (v : BitVec 8) : Option ICond :=
  match v.toNat with
  | 0 => some .eq | 1 => some .ne | 2 => some .lt | 3 => some .le | 4 => some .gt | 5 => some .ge | 6 => some .ltu
  | 7 => some .leu | 8 => some .gtu | 9 => some .geu | 10 => some .tst | _ => none
/-- Float conditions by MINOR (R144). -/
def fcondOf? (v : BitVec 8) : Option FCond :=
  match v.toNat with
  | 0 => some .eq | 1 => some .ne | 2 => some .lt | 3 => some .le | 4 => some .gt | 5 => some .ge | 6 => some .un
  | 7 => some .or | _ => none
/-- Type codes of FCVT (R145). -/
def cvtOf? (v : BitVec 4) : Option CvtTy :=
  match v.toNat with
  | 0 => some .si32 | 1 => some .ui32 | 2 => some .si64 | 3 => some .ui64 | 4 => some .f32 | 5 => some .f64 | _ => none
/-- Operations of AMO by MINOR (R159). -/
def amoOf? (v : BitVec 8) : Option AmoOp :=
  match v.toNat with
  | 0 => some .add | 1 => some .and | 2 => some .or | 3 => some .xor | 4 => some .min | 5 => some .max | 6 => some .swap
  | 7 => some .cas | _ => none
/-- Fields of VSHP by MINOR (R199). -/
def shpOf? (v : BitVec 8) : Option ShpField :=
  match v.toNat with
  | 0 => some .base | 1 => some .e0 | 2 => some .e1 | 3 => some .e2 | 4 => some .e3 | 5 => some .s1 | 6 => some .s2
  | 7 => some .s3 | 8 => some .flags | 9 => some .adv | _ => none
/-- Operations of VRED and VSCAN by MINOR (R198). -/
def redOf? (v : BitVec 8) : Option RedOp :=
  match v.toNat with | 0 => some .sum | 1 => some .max | 2 => some .min | _ => none
/-- Combiners of SOLICIT by MINOR (R329). -/
def combOf? (v : BitVec 8) : Option Comb :=
  match v.toNat with
  | 0 => some .sum32 | 1 => some .max32 | 2 => some .min32 | 3 => some .count | 4 => some .or64 | 5 => some .first
  | 6 => some .lsev | _ => none
/-- Modifiers of REPLAY in MODS[2:0] (R113): at most one bit. -/
def replayOf? (v : BitVec 20) : Option ReplayMod :=
  match v.toNat with | 0 => some .plain | 1 => some .skip | 2 => some .step | 4 => some .stop | _ => none

/-- A form that exists for the MINOR or MODS values that name it alone (R70, step 4). -/
def named {α : Type} (o : Option α) (k : α → Except DecErr Instr) : Except DecErr Instr :=
  match o with
  | some v => k v
  | none => .error .reserved


/-- A class that R51 gives no load or no store, in a word that steps 4 and 5 of R70 pass: LDL with .W, STL with .S (R152). -/
def classStep (bad : Bool) : Except DecErr Instr → Except DecErr Instr
  | .ok i => if bad then .error .badClass else .ok i
  | e => e
/-- One three-operand form, MINOR 0x00. -/
def only0 (f : Fields) (r : Except DecErr Instr) : Except DecErr Instr := if f.minor == 0 then r else .error .reserved

/-- A factor form with or without .Q (R282): with Q = 1 field B must name a register other than g0 (0x00), with Q = 0 it
is unused. -/
def qForm (f : Fields) (k : Option GReg → Instr) : Except DecErr Instr :=
  if f.mods == 1 then formR f 1 .g .g (if f.b == 0 then .pd else .g) (k (some (gOf f.b)))
  else formR f 0 .g .g .none (k none)

/-- Steps 3 to 5 of R70 on the fields of a word. -/
def decodeFields (f : Fields) : Except DecErr Instr :=
  let g := f.grd
  let d := gOf f.d
  let a := gOf f.a
  let b := gOf f.b
  let sa := srcOf f.a f.imm
  let sb := srcOf f.b f.imm
  match f.op.toNat with
  | 0x01 => only0 f (formR f 0 .g .gi .gi (.add g d sa sb))
  | 0x02 => only0 f (formR f 0 .g .gi .gi (.sub g d sa sb))
  | 0x03 => match f.minor.toNat with
    | 0 => formR f 0 .g .gi .gi (.mul g d sa sb)
    | 1 => formR f 0 .g .gi .gi (.mulh g d sa sb)
    | 2 => formR f 0 .g .gi .gi (.mulhu g d sa sb)
    | _ => .error .reserved
  | 0x04 => match f.minor.toNat with
    | 0 => formR f 0 .g .gi .gi (.div g d sa sb)
    | 1 => formR f 0 .g .gi .gi (.divu g d sa sb)
    | 2 => formR f 0 .g .gi .gi (.rem g d sa sb)
    | 3 => formR f 0 .g .gi .gi (.remu g d sa sb)
    | _ => .error .reserved
  | 0x05 => only0 f (formR f 0 .g .gi .gi (.and g d sa sb))
  | 0x06 => only0 f (formR f 0 .g .gi .gi (.or g d sa sb))
  | 0x07 => only0 f (formR f 0 .g .gi .gi (.xor g d sa sb))
  | 0x08 => only0 f (formR f 0 .g .gi .gi (.andn g d sa sb))
  | 0x09 => only0 f (formR f 0 .g .gi .gi (.shl g d sa sb))
  | 0x0a => only0 f (formR f 0 .g .gi .gi (.shr g d sa sb))
  | 0x0b => only0 f (formR f 0 .g .gi .gi (.sar g d sa sb))
  | 0x0c => only0 f (formR f 0 .g .gi .gi (.rotl g d sa sb))
  | 0x0d => match f.minor.toNat with
    | 0 => formR f 0 .g .gi .gi (.min g d sa sb)
    | 1 => formR f 0 .g .gi .gi (.max g d sa sb)
    | 2 => formR f 0 .g .gi .gi (.minu g d sa sb)
    | 3 => formR f 0 .g .gi .gi (.maxu g d sa sb)
    | _ => .error .reserved
  | 0x0e => match f.minor.toNat with
    | 0 => formR f 0 .g .g .none (.clz g d a)
    | 1 => formR f 0 .g .g .none (.ctz g d a)
    | 2 => formR f 0 .g .g .none (.popc g d a)
    | _ => .error .reserved
  | 0x0f => match f.minor.toNat with
    | 0 => formR f 0 .g .g .gi (.bfx g d a sb)
    | 1 => formR f 0 .g .g .gi (.bfxs g d a sb)
    | _ => .error .reserved
  | 0x10 => only0 f (formR f 0 .g .gi .gi (.bfi g d sa sb))
  | 0x11 => match f.minor.toNat with
    | 0 => formR f 0 .g .g .gi (.sext g d a sb)
    | 1 => formR f 0 .g .g .gi (.zext g d a sb)
    | _ => .error .reserved
  | 0x12 => match (f.x.extractLsb' 56 4).toNat with
    | 0 => form f .w true .g .none .none (.limm g d (f.x.extractLsb' 0 56))
    | 1 => form f .w true .g .none .none (.limmZ g d (f.x.extractLsb' 0 56))
    | 2 => form f .w (f.x.extractLsb' 8 48 == 0) .g .none .none (.limmH g d (f.x.extractLsb' 0 8))
    | _ => .error .reserved
  | 0x13 => only0 f (form f .r ((f.mods &&& ~~~3) == 0) .g .g .gz (.lea g d (leaOf f)))
  | 0x14 => match f.minor.toNat with
    | 0 => formR f 0 .g .gi .none (.mov g d sa)
    | 1 => formR f 0 .g .none .none (.movPr g d)
    | 2 => formR f 0 .none .gi .none (.movRp g sa)
    | _ => .error .reserved
  | 0x15 => only0 f (formR f 15 .g .gi .gi (.sel g d (f.mods.getLsbD 3) ⟨f.mods.toNat % 8, Nat.mod_lt _ (by decide)⟩ sa sb))
  | 0x16 => named (icondOf? f.minor) fun cc => formR f 0 .pd .gi .gi (.setp g cc (pOf f.d) sa sb)
  | 0x17 => match f.minor.toNat with
    | 0 => formR f 0 .pd .p .p (.pand g (pOf f.d) (pOf f.a) (pOf f.b))
    | 1 => formR f 0 .pd .p .p (.por g (pOf f.d) (pOf f.a) (pOf f.b))
    | 2 => formR f 0 .pd .p .p (.pxor g (pOf f.d) (pOf f.a) (pOf f.b))
    | 3 => formR f 0 .pd .p .none (.pnot g (pOf f.d) (pOf f.a))
    | _ => .error .reserved
  | 0x20 => only0 f (formR f 15 .g .gi .gi (.fadd g d sa sb (fmodsOf f.mods)))
  | 0x21 => only0 f (formR f 15 .g .gi .gi (.fsub g d sa sb (fmodsOf f.mods)))
  | 0x22 => only0 f (formR f 15 .g .gi .gi (.fmul g d sa sb (fmodsOf f.mods)))
  | 0x23 => only0 f (formR f 15 .g .gi .gi (.ffma g d sa sb (fmodsOf f.mods)))
  | 0x24 => only0 f (formR f 15 .g .gi .gi (.fdiv g d sa sb (fmodsOf f.mods)))
  | 0x25 => only0 f (formR f 15 .g .gi .none (.fsqrt g d sa (fmodsOf f.mods)))
  | 0x26 => match f.minor.toNat with
    | 0 => formR f 9 .g .gi .gi (.fmin g d sa sb (precOf f.mods) (f.mods.getLsbD 3))
    | 1 => formR f 9 .g .gi .gi (.fmax g d sa sb (precOf f.mods) (f.mods.getLsbD 3))
    | _ => .error .reserved
  | 0x27 => match f.minor.toNat with
    | 0 => formR f 1 .g .gi .gi (.fsgn g d sa sb (precOf f.mods))
    | 1 => formR f 1 .g .gi .gi (.fsgnN g d sa sb (precOf f.mods))
    | 2 => formR f 1 .g .gi .gi (.fsgnX g d sa sb (precOf f.mods))
    | _ => .error .reserved
  | 0x28 => named (fcondOf? f.minor) fun cc => formR f 9 .pd .gi .gi (.fcmp g cc (pOf f.d) sa sb (precOf f.mods) (f.mods.getLsbD 3))
  | 0x29 => named (cvtOf? (f.minor.extractLsb' 4 4)) fun dt => named (cvtOf? (f.minor.extractLsb' 0 4)) fun st =>
      if cvtOk dt st then formR f 14 .g .gi .none (.fcvt g dt st d sa (rmOf f.mods) (f.mods.getLsbD 3)) else .error .reserved
  | 0x2a => only0 f (formR f 1 .g .gi .none (.fclass g d sa (precOf f.mods)))
  | 0x2b => only0 f (formR f 15 .g .gi .none (.frnd g d sa (fmodsOf f.mods)))
  | 0x30 => only0 f (formC f .none (.br g (f.imm.extractLsb' 16 16) (f.imm.extractLsb' 0 16)))
  | 0x31 => match f.minor.toNat with
    | 0 => formR f 0 .none .g .none (.bri g a)
    | 1 => formR f 0 .g .g .none (.briL g d a)
    | _ => .error .reserved
  | 0x32 => only0 f (formC f .g (.call g d (f.imm.extractLsb' 16 16) (f.imm.extractLsb' 0 16)))
  | 0x33 => only0 f (formC f .g (.callo g d (f.imm.extractLsb' 16 16) (f.imm.extractLsb' 0 16)))
  | 0x34 => only0 f (formR f 0 .none .g .none (.ret g a))
  | 0x35 => only0 f (formC f .g (.loop g d (f.imm.extractLsb' 16 16) (f.imm.extractLsb' 0 16)))
  | 0x36 => only0 f (formR f 0 .none .none .none (.nop g))
  | 0x37 => only0 f (formR f 0 .none .none .none (.done g))
  | 0x40 => only0 f (formM f true ((!(f.modsM == 1 && f.wid == 3))) .g .gz (.ld g d (memOf f) (widOf f.wid) (rcOf f.rc) (f.mig == 1) (f.modsM == 1)))
  | 0x41 => only0 f (formM f false (true) .gs .gz (.st g (srcOf f.d 0) (memOf f) (widOf f.wid) (rcOf f.rc) (f.mig == 1)))
  | 0x42 => only0 f (classStep (f.rc == 2)
      (formM f true ((!(f.modsM == 1 && f.wid == 3)) && (f.rc == 0 || f.rc == 2) && f.mig == 0) .g .gz (.ldl g d (memOf f) (widOf f.wid) (f.modsM == 1))))
  | 0x43 => only0 f (classStep (f.rc == 0)
      (formM f false ((f.rc == 2 || f.rc == 0) && f.mig == 0) .gs .gz (.stl g (srcOf f.d 0) (memOf f) (widOf f.wid))))
  | 0x44 => only0 f (formM f true ((!(f.modsM == 1 && f.wid == 3)) && decide (2 ≤ f.wid.toNat)) .ge .gz (.ldx g d (memOf f) (widOf f.wid) (rcOf f.rc) (f.mig == 1) (f.modsM == 1)))
  | 0x45 => only0 f (formM f false (decide (2 ≤ f.wid.toNat)) .ge .gz (.stx g d (memOf f) (widOf f.wid) (rcOf f.rc) (f.mig == 1)))
  | 0x46 => only0 f (formM f true ((!(f.modsM == 1 && f.wid == 3)) && f.mig == 0) .g .gz (.ldg g d (memOf f) (widOf f.wid) (rcOf f.rc) (f.modsM == 1)))
  | 0x47 => only0 f (formM f false (f.mig == 0) .gs .gz (.stg g (srcOf f.d 0) (memOf f) (widOf f.wid) (rcOf f.rc)))
  | 0x48 => only0 f (formM f false (f.wid == 0 && f.rc != 2 && f.mig == 0) .none .gz (.pref g (memOf f) (rcOf f.rc)))
  | 0x49 => only0 f (formR f 0 .none .none .none (.fence g))
  | 0x4a => only0 f (formM f false (f.wid == 0 && f.rc == 0 && f.mig == 0) .none .gz (.clfl g (memOf f)))
  | 0x4b => named (amoOf? f.minor) fun op =>
      formM f true (decide (2 ≤ f.wid.toNat) && f.rc == 0 && f.shift == 0 && amoUOk op (f.modsM == 1)) .g .gs (.amo g op d a f.imm (srcOf f.b 0) (widOf f.wid) (f.modsM == 1) (f.mig == 1))
  | 0x60 => match f.minor.toNat with
    | 0 => formR f 3 .ge .g .gi (.grantRange g d a sb (f.mods.getLsbD 0) (f.mods.getLsbD 1))
    | 1 => formR f 0 .g .gi .gi (.grantLock g d sa sb)
    | 4 => formR f 0 .g .gi .gi (.grantMslot g d sa sb)
    | 5 => formR f 0 .g .gi .gi (.grantFslot g d sa sb)
    | 7 => formR f 0 .g .gi .gi (.grantEvq g d sa sb)
    | _ => .error .reserved
  | 0x61 => only0 f (formR f 0 .g .g .gi (.renew g d a sb))
  | 0x62 => only0 f (formR f 0 .g .g .none (.life g d a))
  | 0x63 => match f.minor.toNat with
    | 0 => formR f 0 .g .g .gi (.lock g d a sb)
    | 1 => formR f 0 .g .g .gi (.lockNw g d a sb)
    | _ => .error .reserved
  | 0x64 => only0 f (formR f 0 .g .g .gi (.route g d a sb))
  | 0x65 => only0 f (formR f 0 .none .g .g (.send g a b))
  | 0x66 => only0 f (formR f 0 .g .g .g (.recv g d a b))
  | 0x67 => only0 f (formR f 0 .g .g .g (.poll g d a b))
  | 0x68 => only0 f (formR f 0 .none .gi .none (.migr g sa))
  | 0x69 => only0 f (formR f 0 .none .g .none (.mhdt g a))
  | 0x6a => match f.minor.toNat with
    | 0 => formR f 7 .none .g .g (.mhdrB g a b ⟨f.mods.toNat % 8, Nat.mod_lt _ (by decide)⟩)
    | 1 => formR f 7 .none .g .g (.mhdrP g a b ⟨f.mods.toNat % 8, Nat.mod_lt _ (by decide)⟩)
    | _ => .error .reserved
  | 0x70 => named (shpOf? f.minor) fun h => formR f 0 .none .g .gi (.vshp g h a sb)
  | 0x71 => only0 f (formR f 0 .g .g .none (.vmov g d a))
  | 0x72 => only0 f (formR f 8 .g .g .g (.vadd g d a b (f.mods.getLsbD 3)))
  | 0x73 => only0 f (formR f 8 .g .g .g (.vsub g d a b (f.mods.getLsbD 3)))
  | 0x74 => only0 f (formR f 8 .g .g .g (.vmul g d a b (f.mods.getLsbD 3)))
  | 0x75 => only0 f (formR f 8 .g .g .g (.vfma g d a b (f.mods.getLsbD 3)))
  | 0x76 => only0 f (formR f 8 .g .g .g (.vdiv g d a b (f.mods.getLsbD 3)))
  | 0x77 => only0 f (formR f 8 .g .g .g (.vmax g d a b (f.mods.getLsbD 3)))
  | 0x78 => only0 f (formR f 8 .g .g .g (.vmin g d a b (f.mods.getLsbD 3)))
  | 0x79 => only0 f (formR f 8 .g .g .none (.vabs g d a (f.mods.getLsbD 3)))
  | 0x7a => only0 f (formR f 8 .g .g .none (.vneg g d a (f.mods.getLsbD 3)))
  | 0x7b => only0 f (formR f 8 .g .g .none (.vexp g d a (f.mods.getLsbD 3)))
  | 0x7c => only0 f (formR f 8 .g .g .none (.vlog g d a (f.mods.getLsbD 3)))
  | 0x7d => only0 f (formR f 8 .g .g .none (.vrsq g d a (f.mods.getLsbD 3)))
  | 0x7e => only0 f (formR f 8 .g .g .none (.vrcp g d a (f.mods.getLsbD 3)))
  | 0x7f => named (fcondOf? f.minor) fun cc => formR f 0 .g .g .g (.vcmp g cc d a b)
  | 0x80 => only0 f (formR f 0 .g .g .g (.vsel g d a b))
  | 0x81 => only0 f (formR f 0 .g .g .g (.vand g d a b))
  | 0x82 => only0 f (formR f 0 .g .g .g (.vor g d a b))
  | 0x83 => only0 f (formR f 0 .g .g .g (.vxor g d a b))
  | 0x84 => only0 f (formR f 0 .g .g .gi (.vshl g d a sb))
  | 0x85 => only0 f (formR f 0 .g .g .gi (.vshr g d a sb))
  | 0x86 => only0 f (formR f 14 .g .g .none (.vcvt g d a (rmOf f.mods) (f.mods.getLsbD 3)))
  | 0x87 => named (redOf? f.minor) fun o => formR f 0 .g .g .none (.vred g o d a)
  | 0x88 => named (redOf? f.minor) fun o => formR f 8 .g .g .none (.vscan g o d a (f.mods.getLsbD 3))
  | 0x89 => only0 f (formR f 8 .g .gi .none (.vbcast g d sa (f.mods.getLsbD 3)))
  | 0x8a => only0 f (formR f 8 .g .gi .gi (.viota g d sa sb (f.mods.getLsbD 3)))
  | 0x8b => only0 f (formR f 0 .g .g .gi (.vclamp g d a sb))
  | 0x8c => only0 f (formR f 8 .g .g .gi (.vscale g d a sb (f.mods.getLsbD 3)))
  | 0x8d => only0 f (formR f 0 .g .g .none (.vtrn g d a))
  | 0x8e => only0 f (formR f 0 .g .g .g (.vdot g d a b))
  | 0xa0 => only0 f (formR f 0 .g .g .gz (.copy g d a (gzOf f.b)))
  | 0xa1 => only0 f (formR f 0 .g .g .gz (.gath g d a (gzOf f.b)))
  | 0xa2 => only0 f (formR f 0 .g .g .gz (.scat g d a (gzOf f.b)))
  | 0xa3 => only0 f (formR f 0 .g .gi .gz (.fill g d sa (gzOf f.b)))
  | 0xa4 => only0 f (if f.mods.getLsbD 2
      then formR f 7 .none .gi .gz (.ovld g (some ⟨f.mods.toNat % 4, Nat.mod_lt _ (by decide)⟩) sa (gzOf f.b))
      else formR f 0 .none .gi .gz (.ovld g none sa (gzOf f.b)))
  | 0xa5 => if f.minor.toNat < 4
      then formR f 15 .none .none .none (.qfence g ⟨f.minor.toNat % 4, Nat.mod_lt _ (by decide)⟩ (f.mods.extractLsb' 0 4))
      else .error .reserved
  | 0xb0 => match f.minor.toNat with
    | 0 => formR0 f 0 .none .gi .g (.mlda g sa b)
    | 1 => form f .r ((f.mods &&& ~~~1) == 0 && f.imm.extractLsb' 24 8 == 0) .none .g .g (.mldaG g ⟨f.mods.toNat % 2, Nat.mod_lt _ (by decide)⟩ a b (f.imm.extractLsb' 0 16) (f.imm.extractLsb' 16 8))
    | _ => .error .reserved
  | 0xb1 => match f.minor.toNat with
    | 0 => formR0 f 0 .none .gi .g (.mldb g sa b)
    | 1 => form f .r ((f.mods &&& ~~~3) == 0 && f.imm.extractLsb' 16 16 == 0) .none .g .g (.mldbG g ⟨f.mods.toNat % 4, Nat.mod_lt _ (by decide)⟩ a b (f.imm.extractLsb' 0 16))
    | _ => .error .reserved
  | 0xb2 => only0 f (formR f 0 .none .g .gi (.mscl g a sb))
  | 0xb3 => only0 f (formR f 0 .none .g .gi (.mlut g a sb))
  | 0xb4 => only0 f (formR f 0 .none .gi .none (.mcfg g sa))
  | 0xb5 => match f.minor.toNat with
    | 0 => formR f 0 .g .gi .g (.mma g d sa b)
    | 1 => formR f 0 .g .gi .gi (.mmaX g d sa sb)
    | _ => .error .reserved
  | 0xb6 => only0 f (formR0 f 1 .g .g .g (.mmv g d a b ⟨f.mods.toNat % 2, Nat.mod_lt _ (by decide)⟩))
  | 0xb7 => only0 f (formR0 f 0 .g .none .none (.mzro g d))
  | 0xb8 => only0 f (formR0 f 8 .g .g .none (.mwb g d a (f.mods.getLsbD 3)))
  | 0xb9 => only0 f (formR f 0 .g .g .gi (.mrds g d a sb))
  | 0xba => only0 f (formR f 0 .none .gi .gi (.fork g sa sb))
  | 0xbb => only0 f (formR f 0 .none .none .none (.rdzv g))
  | 0xbc => only0 f (formR0 f 0 .none .gi .none (.semp g sa))
  | 0xbd => only0 f (formR0 f 0 .none .gi .none (.semw g sa))
  | 0xc0 => only0 f (formR f 0 .g .gi .gi (.finit g d sa sb))
  | 0xc1 => only0 f (qForm f (.fupd g d a))
  | 0xc2 => only0 f (qForm f (.fdwn g d a))
  | 0xc3 => only0 f (qForm f (.ftrs g d a))
  | 0xc4 => only0 f (qForm f (.ftrb g d a))
  | 0xc5 => only0 f (qForm f (.frd g d a))
  | 0xc6 => only0 f (qForm f (.fwr g d a))
  | 0xc7 => only0 f (formR f 0 .g .g .none (.fdia g d a))
  | 0xc8 => match f.minor.toNat with
    | 0 => formR f 0 .g .g .gi (.dreg g d a sb)
    | 1 => formR f 0 .g .g .gi (.dregMove g d a sb)
    | _ => .error .reserved
  | 0xc9 => named (combOf? f.minor) fun c => formR f 0 .g .g .g (.solicit g c d a b)
  | 0xca => only0 f (formR f 0 .none .g .gi (.respond g a sb))
  | 0xcb => match f.minor.toNat with
    | 0 => formR f 0 .g .gi .none (.cnsq g d sa)
    | 1 => formR f 0 .g .none .none (.cnsqN g d)
    | _ => .error .reserved
  | 0xd0 => only0 f (formR f 0 .g .g .gi (.spawn g d a sb))
  | 0xd1 => only0 f (formR f 0 .none .g .gi (.decp g a sb))
  | 0xd2 => only0 f (formR f 0 .g .g .none (.launch g d a))
  | 0xd3 => only0 f (formR f 0 .g .g .none (.cancel g d a))
  | 0xd4 => match f.minor.toNat with
    | 0 => formR f 0 .g .g .g (.cntrOpen g d a b)
    | 1 => formR f 0 .none .g .none (.cntrSeal g a)
    | 2 => formR f 0 .g .g .none (.cntrRead g d a)
    | _ => .error .reserved
  | 0xd5 => only0 f (formR f 0 .g .g .none (.bar g d a))
  | 0xe0 => only0 f (formR f 0 .none .gi .none (.trap g sa))
  | 0xe1 => only0 f (formR f 0 .none .none .none (.brk g))
  | 0xe2 => only0 f (match SReg.ofCode? f.a with
    | some r => formR f 0 .g .sr .none (.srr g d r)
    | none => formR f 0 .g .sr .none (.nop g))
  | 0xe3 => only0 f (match SReg.ofCode? f.d with
    | some r => formR f 0 .sw .gi .none (.srw g r sa)
    | none => formR f 0 .sw .gi .none (.nop g))
  | 0xe4 => only0 f (if f.mods == 1
      then formR f 1 .g .g .none (.parkNt g d a) else formR f 0 .g .g .g (.park g d a b))
  | 0xe5 => only0 f (if f.mods == 1
      then formR f 1 .none .gi .none (.waitdtRel g sa) else formR f 0 .none .g .none (.waitdt g a))
  | 0xe6 => match f.minor.toNat with
    | 0 => formR f 0 .g .g .g (.gstop g d a b)
    | 1 => formR f 0 .g .g .none (.gstopGo g d a)
    | _ => .error .reserved
  | 0xe7 => only0 f (named (replayOf? f.mods) fun m => formR f 7 .g .g .none (.replay g d a m))
  | _ => .error .illegal

/-- The words laid out as opcode_table.json numbers their bits: bit 0 is the least significant bit of the first of the 12
little-endian bytes (R1, R66), so the number is the 96-bit word. -/
def decodeTableWord (nbits w : Nat) : Option Instr :=
  match decodeFields (Fields.ofWord (BitVec.ofNat 96 (w % 2 ^ nbits))) with
  | .ok i => some i
  | .error _ => none

/-- The instruction of a word, or the step of R70 that fails. -/
def decode (w : IWord) : Except DecErr Instr := decodeFields (Fields.ofWord w)

/-- A register's field value. -/
def gCode (r : GReg) : BitVec 8 := BitVec.ofNat 8 r.val
/-- A predicate's field value. -/
def pCode (p : PReg) : BitVec 8 := 0x10 + BitVec.ofNat 8 p.val
/-- A source operand's field value (R68). -/
def sCode : Src → BitVec 8
  | .reg r => gCode r
  | .imm n => 0x80 + BitVec.ofNat 8 n.val
  | .wide _ => 0xC0
/-- IMM32 of a source operand. -/
def sImm : Src → BitVec 32
  | .wide v => v
  | _ => 0
/-- IMM32 of a pair of source operands. -/
def sImm2 (a b : Src) : BitVec 32 := if a.isWide then sImm a else sImm b
/-- A register or 0x80. -/
def gzCode : Option GReg → BitVec 8
  | some r => gCode r
  | none => 0x80
/-- X of class R and C (R67). -/
def xR (minor : BitVec 8) (mods : BitVec 20) (imm : BitVec 32) : BitVec 60 := minor ++ mods ++ imm
/-- X of class M (R67). -/
def xM (minor : BitVec 8) (wid rc : BitVec 2) (mig : Bool) (shift : Fin 4) (m0 : Bool) (disp : BitVec 32) : BitVec 60 :=
  minor ++ wid ++ rc ++ BitVec.ofBool mig ++ BitVec.ofNat 3 shift.val ++ BitVec.ofNat 12 m0.toNat ++ disp
/-- WID (R67). -/
def widCode : Wid → BitVec 2 | .w8 => 0 | .w16 => 1 | .w32 => 2 | .w64 => 3
/-- RC (R67). -/
def rcCode : ReqClass → BitVec 2 | .s => 0 | .o => 1 | .w => 2 | .n => 3
/-- RM (R125). -/
def rmCode : RMode → BitVec 2 | .rne => 0 | .rtz => 1 | .rup => 2 | .rdn => 3
/-- MODS with bit 3, bits 2 to 1 and bit 0 given (R125). -/
def modsCode (b3 : Bool) (rm : BitVec 2) (b0 : Bool) : BitVec 20 := 0#16 ++ BitVec.ofBool b3 ++ rm ++ BitVec.ofBool b0
/-- P (R125). -/
def precCode : Prec → Bool | .s => false | .d => true
/-- The float modifiers (R125). -/
def fmodsCode (m : FMods) : BitVec 20 := modsCode m.t (rmCode m.rm) (precCode m.p)
/-- MINOR of SETP (R137). -/
def icondCode : ICond → BitVec 8
  | .eq => 0 | .ne => 1 | .lt => 2 | .le => 3 | .gt => 4 | .ge => 5 | .ltu => 6 | .leu => 7 | .gtu => 8 | .geu => 9
  | .tst => 10
/-- MINOR of FCMP and VCMP (R144). -/
def fcondCode : FCond → BitVec 8
  | .eq => 0 | .ne => 1 | .lt => 2 | .le => 3 | .gt => 4 | .ge => 5 | .un => 6 | .or => 7
/-- Type codes of FCVT (R145). -/
def cvtCode : CvtTy → BitVec 4 | .si32 => 0 | .ui32 => 1 | .si64 => 2 | .ui64 => 3 | .f32 => 4 | .f64 => 5
/-- MINOR of AMO (R159). -/
def amoCode : AmoOp → BitVec 8
  | .add => 0 | .and => 1 | .or => 2 | .xor => 3 | .min => 4 | .max => 5 | .swap => 6 | .cas => 7
/-- MINOR of VSHP (R199). -/
def shpCode : ShpField → BitVec 8
  | .base => 0 | .e0 => 1 | .e1 => 2 | .e2 => 3 | .e3 => 4 | .s1 => 5 | .s2 => 6 | .s3 => 7 | .flags => 8 | .adv => 9
/-- MINOR of VRED and VSCAN (R198). -/
def redCode : RedOp → BitVec 8 | .sum => 0 | .max => 1 | .min => 2
/-- MINOR of SOLICIT (R329). -/
def combCode : Comb → BitVec 8
  | .sum32 => 0 | .max32 => 1 | .min32 => 2 | .count => 3 | .or64 => 4 | .first => 5 | .lsev => 6
/-- MODS of REPLAY (R113). -/
def replayCode : ReplayMod → BitVec 20 | .plain => 0 | .skip => 1 | .step => 2 | .stop => 4

/-- A class-R word's fields. -/
def encR (op : BitVec 8) (g : Guard) (d a b : BitVec 8) (minor : BitVec 8) (mods : BitVec 20) (imm : BitVec 32) : Fields :=
  { op := op, grd := g, d := d, a := a, b := b, x := xR minor mods imm }
/-- A class-C word's fields (R147). -/
def encC (op : BitVec 8) (g : Guard) (d : BitVec 8) (ovl idx : BitVec 16) : Fields :=
  { op := op, grd := g, d := d, a := 0, b := 0, x := xR 0 0 (ovl ++ idx) }
/-- A class-M word's fields (R152). -/
def encM (op : BitVec 8) (g : Guard) (d : BitVec 8) (m : MemOp) (wid rc : BitVec 2) (mig m0 : Bool) : Fields :=
  { op := op, grd := g, d := d, a := gCode m.base, b := gzCode m.index, x := xM 0 wid rc mig m.shift m0 m.disp }

/-- A factor word's fields, with or without .Q (R282). -/
def encQ (op : BitVec 8) (g : Guard) (d a : GReg) (q : Option GReg) : Fields :=
  match q with
  | some r => encR op g (gCode d) (gCode a) (gCode r) 0 1 0
  | none => encR op g (gCode d) (gCode a) 0 0 0 0

/-- The fields of an instruction's word, from the encoding table of its chapter; an event has none. -/
def encodeFields : Instr → Option Fields
  | .add g d a b => some (encR 0x1 g (gCode d) (sCode a) (sCode b) 0 0 (sImm2 a b))
  | .sub g d a b => some (encR 0x2 g (gCode d) (sCode a) (sCode b) 0 0 (sImm2 a b))
  | .mul g d a b => some (encR 0x3 g (gCode d) (sCode a) (sCode b) 0 0 (sImm2 a b))
  | .mulh g d a b => some (encR 0x3 g (gCode d) (sCode a) (sCode b) 1 0 (sImm2 a b))
  | .mulhu g d a b => some (encR 0x3 g (gCode d) (sCode a) (sCode b) 2 0 (sImm2 a b))
  | .div g d a b => some (encR 0x4 g (gCode d) (sCode a) (sCode b) 0 0 (sImm2 a b))
  | .divu g d a b => some (encR 0x4 g (gCode d) (sCode a) (sCode b) 1 0 (sImm2 a b))
  | .rem g d a b => some (encR 0x4 g (gCode d) (sCode a) (sCode b) 2 0 (sImm2 a b))
  | .remu g d a b => some (encR 0x4 g (gCode d) (sCode a) (sCode b) 3 0 (sImm2 a b))
  | .and g d a b => some (encR 0x5 g (gCode d) (sCode a) (sCode b) 0 0 (sImm2 a b))
  | .or g d a b => some (encR 0x6 g (gCode d) (sCode a) (sCode b) 0 0 (sImm2 a b))
  | .xor g d a b => some (encR 0x7 g (gCode d) (sCode a) (sCode b) 0 0 (sImm2 a b))
  | .andn g d a b => some (encR 0x8 g (gCode d) (sCode a) (sCode b) 0 0 (sImm2 a b))
  | .shl g d a b => some (encR 0x9 g (gCode d) (sCode a) (sCode b) 0 0 (sImm2 a b))
  | .shr g d a b => some (encR 0xa g (gCode d) (sCode a) (sCode b) 0 0 (sImm2 a b))
  | .sar g d a b => some (encR 0xb g (gCode d) (sCode a) (sCode b) 0 0 (sImm2 a b))
  | .rotl g d a b => some (encR 0xc g (gCode d) (sCode a) (sCode b) 0 0 (sImm2 a b))
  | .min g d a b => some (encR 0xd g (gCode d) (sCode a) (sCode b) 0 0 (sImm2 a b))
  | .max g d a b => some (encR 0xd g (gCode d) (sCode a) (sCode b) 1 0 (sImm2 a b))
  | .minu g d a b => some (encR 0xd g (gCode d) (sCode a) (sCode b) 2 0 (sImm2 a b))
  | .maxu g d a b => some (encR 0xd g (gCode d) (sCode a) (sCode b) 3 0 (sImm2 a b))
  | .clz g d a => some (encR 0xe g (gCode d) (gCode a) 0 0 0 0)
  | .ctz g d a => some (encR 0xe g (gCode d) (gCode a) 0 1 0 0)
  | .popc g d a => some (encR 0xe g (gCode d) (gCode a) 0 2 0 0)
  | .bfx g d a b => some (encR 0xf g (gCode d) (gCode a) (sCode b) 0 0 (sImm b))
  | .bfxs g d a b => some (encR 0xf g (gCode d) (gCode a) (sCode b) 1 0 (sImm b))
  | .bfi g d a b => some (encR 0x10 g (gCode d) (sCode a) (sCode b) 0 0 (sImm2 a b))
  | .sext g d a b => some (encR 0x11 g (gCode d) (gCode a) (sCode b) 0 0 (sImm b))
  | .zext g d a b => some (encR 0x11 g (gCode d) (gCode a) (sCode b) 1 0 (sImm b))
  | .limm g d v => some { op := 0x12, grd := g, d := gCode d, a := 0, b := 0, x := 0#4 ++ v }
  | .limmZ g d v => some { op := 0x12, grd := g, d := gCode d, a := 0, b := 0, x := 1#4 ++ v }
  | .limmH g d v => some { op := 0x12, grd := g, d := gCode d, a := 0, b := 0, x := 2#4 ++ 0#48 ++ v }
  | .lea g d m => some (encR 0x13 g (gCode d) (gCode m.base) (gzCode m.index) 0 (BitVec.ofNat 20 m.shift.val) m.disp)
  | .mov g d a => some (encR 0x14 g (gCode d) (sCode a) 0 0 0 (sImm a))
  | .movPr g d => some (encR 0x14 g (gCode d) 0 0 1 0 0)
  | .movRp g a => some (encR 0x14 g 0 (sCode a) 0 2 0 (sImm a))
  | .sel g d neg p a b => some (encR 0x15 g (gCode d) (sCode a) (sCode b) 0 (0#16 ++ BitVec.ofBool neg ++ BitVec.ofNat 3 p.val) (sImm2 a b))
  | .setp g cc d a b => some (encR 0x16 g (pCode d) (sCode a) (sCode b) (icondCode cc) 0 (sImm2 a b))
  | .pand g d a b => some (encR 0x17 g (pCode d) (pCode a) (pCode b) 0 0 0)
  | .por g d a b => some (encR 0x17 g (pCode d) (pCode a) (pCode b) 1 0 0)
  | .pxor g d a b => some (encR 0x17 g (pCode d) (pCode a) (pCode b) 2 0 0)
  | .pnot g d a => some (encR 0x17 g (pCode d) (pCode a) 0 3 0 0)
  | .fadd g d a b m => some (encR 0x20 g (gCode d) (sCode a) (sCode b) 0 (fmodsCode m) (sImm2 a b))
  | .fsub g d a b m => some (encR 0x21 g (gCode d) (sCode a) (sCode b) 0 (fmodsCode m) (sImm2 a b))
  | .fmul g d a b m => some (encR 0x22 g (gCode d) (sCode a) (sCode b) 0 (fmodsCode m) (sImm2 a b))
  | .ffma g d a b m => some (encR 0x23 g (gCode d) (sCode a) (sCode b) 0 (fmodsCode m) (sImm2 a b))
  | .fdiv g d a b m => some (encR 0x24 g (gCode d) (sCode a) (sCode b) 0 (fmodsCode m) (sImm2 a b))
  | .fsqrt g d a m => some (encR 0x25 g (gCode d) (sCode a) 0 0 (fmodsCode m) (sImm a))
  | .fmin g d a b p t => some (encR 0x26 g (gCode d) (sCode a) (sCode b) 0 (modsCode t 0 (precCode p)) (sImm2 a b))
  | .fmax g d a b p t => some (encR 0x26 g (gCode d) (sCode a) (sCode b) 1 (modsCode t 0 (precCode p)) (sImm2 a b))
  | .fsgn g d a b p => some (encR 0x27 g (gCode d) (sCode a) (sCode b) 0 (modsCode false 0 (precCode p)) (sImm2 a b))
  | .fsgnN g d a b p => some (encR 0x27 g (gCode d) (sCode a) (sCode b) 1 (modsCode false 0 (precCode p)) (sImm2 a b))
  | .fsgnX g d a b p => some (encR 0x27 g (gCode d) (sCode a) (sCode b) 2 (modsCode false 0 (precCode p)) (sImm2 a b))
  | .fcmp g cc d a b p t => some (encR 0x28 g (pCode d) (sCode a) (sCode b) (fcondCode cc) (modsCode t 0 (precCode p)) (sImm2 a b))
  | .fcvt g dst src d a rm t => some (encR 0x29 g (gCode d) (sCode a) 0 (cvtCode dst ++ cvtCode src) (modsCode t (rmCode rm) false) (sImm a))
  | .fclass g d a p => some (encR 0x2a g (gCode d) (sCode a) 0 0 (modsCode false 0 (precCode p)) (sImm a))
  | .frnd g d a m => some (encR 0x2b g (gCode d) (sCode a) 0 0 (fmodsCode m) (sImm a))
  | .br g ovl idx => some (encC 0x30 g 0 ovl idx)
  | .bri g a => some (encR 0x31 g 0 (gCode a) 0 0 0 0)
  | .briL g d a => some (encR 0x31 g (gCode d) (gCode a) 0 1 0 0)
  | .call g d ovl idx => some (encC 0x32 g (gCode d) ovl idx)
  | .callo g d ovl idx => some (encC 0x33 g (gCode d) ovl idx)
  | .ret g a => some (encR 0x34 g 0 (gCode a) 0 0 0 0)
  | .loop g d ovl idx => some (encC 0x35 g (gCode d) ovl idx)
  | .nop g => some (encR 0x36 g 0 0 0 0 0 0)
  | .done g => some (encR 0x37 g 0 0 0 0 0 0)
  | .ld g d m w c mig sx => some (encM 0x40 g (gCode d) m (widCode w) (rcCode c) mig sx)
  | .st g v m w c mig => some (encM 0x41 g (sCode v) m (widCode w) (rcCode c) mig false)
  | .ldl g d m w sx => some (encM 0x42 g (gCode d) m (widCode w) 0 false sx)
  | .stl g v m w => some (encM 0x43 g (sCode v) m (widCode w) 2 false false)
  | .ldx g d m w c mig sx => some (encM 0x44 g (gCode d) m (widCode w) (rcCode c) mig sx)
  | .stx g d m w c mig => some (encM 0x45 g (gCode d) m (widCode w) (rcCode c) mig false)
  | .ldg g d m w c sx => some (encM 0x46 g (gCode d) m (widCode w) (rcCode c) false sx)
  | .stg g v m w c => some (encM 0x47 g (sCode v) m (widCode w) (rcCode c) false false)
  | .pref g m c => some (encM 0x48 g 0 m 0 (rcCode c) false false)
  | .fence g => some (encR 0x49 g 0 0 0 0 0 0)
  | .clfl g m => some (encM 0x4a g 0 m 0 0 false false)
  | .amo g op d base disp b w u mig => some { op := 0x4B, grd := g, d := gCode d, a := gCode base, b := sCode b, x := xM (amoCode op) (widCode w) 0 mig 0 u disp }
  | .grantRange g d a b nc lp => some (encR 0x60 g (gCode d) (gCode a) (sCode b) 0 (0#18 ++ BitVec.ofBool lp ++ BitVec.ofBool nc) (sImm b))
  | .grantLock g d a b => some (encR 0x60 g (gCode d) (sCode a) (sCode b) 1 0 (sImm2 a b))
  | .grantMslot g d a b => some (encR 0x60 g (gCode d) (sCode a) (sCode b) 4 0 (sImm2 a b))
  | .grantFslot g d a b => some (encR 0x60 g (gCode d) (sCode a) (sCode b) 5 0 (sImm2 a b))
  | .grantEvq g d a b => some (encR 0x60 g (gCode d) (sCode a) (sCode b) 7 0 (sImm2 a b))
  | .renew g d a b => some (encR 0x61 g (gCode d) (gCode a) (sCode b) 0 0 (sImm b))
  | .life g d a => some (encR 0x62 g (gCode d) (gCode a) 0 0 0 0)
  | .lock g d a b => some (encR 0x63 g (gCode d) (gCode a) (sCode b) 0 0 (sImm b))
  | .lockNw g d a b => some (encR 0x63 g (gCode d) (gCode a) (sCode b) 1 0 (sImm b))
  | .route g d a b => some (encR 0x64 g (gCode d) (gCode a) (sCode b) 0 0 (sImm b))
  | .send g a b => some (encR 0x65 g 0 (gCode a) (gCode b) 0 0 0)
  | .recv g d a b => some (encR 0x66 g (gCode d) (gCode a) (gCode b) 0 0 0)
  | .poll g d a b => some (encR 0x67 g (gCode d) (gCode a) (gCode b) 0 0 0)
  | .migr g a => some (encR 0x68 g 0 (sCode a) 0 0 0 (sImm a))
  | .mhdt g a => some (encR 0x69 g 0 (gCode a) 0 0 0 0)
  | .mhdrB g a b k => some (encR 0x6a g 0 (gCode a) (gCode b) 0 (BitVec.ofNat 20 k.val) 0)
  | .mhdrP g a b k => some (encR 0x6a g 0 (gCode a) (gCode b) 1 (BitVec.ofNat 20 k.val) 0)
  | .vshp g f a b => some (encR 0x70 g 0 (gCode a) (sCode b) (shpCode f) 0 (sImm b))
  | .vmov g d a => some (encR 0x71 g (gCode d) (gCode a) 0 0 0 0)
  | .vadd g d a b sat => some (encR 0x72 g (gCode d) (gCode a) (gCode b) 0 (modsCode sat 0 false) 0)
  | .vsub g d a b sat => some (encR 0x73 g (gCode d) (gCode a) (gCode b) 0 (modsCode sat 0 false) 0)
  | .vmul g d a b sat => some (encR 0x74 g (gCode d) (gCode a) (gCode b) 0 (modsCode sat 0 false) 0)
  | .vfma g d a b sat => some (encR 0x75 g (gCode d) (gCode a) (gCode b) 0 (modsCode sat 0 false) 0)
  | .vdiv g d a b sat => some (encR 0x76 g (gCode d) (gCode a) (gCode b) 0 (modsCode sat 0 false) 0)
  | .vmax g d a b sat => some (encR 0x77 g (gCode d) (gCode a) (gCode b) 0 (modsCode sat 0 false) 0)
  | .vmin g d a b sat => some (encR 0x78 g (gCode d) (gCode a) (gCode b) 0 (modsCode sat 0 false) 0)
  | .vabs g d a sat => some (encR 0x79 g (gCode d) (gCode a) 0 0 (modsCode sat 0 false) 0)
  | .vneg g d a sat => some (encR 0x7a g (gCode d) (gCode a) 0 0 (modsCode sat 0 false) 0)
  | .vexp g d a sat => some (encR 0x7b g (gCode d) (gCode a) 0 0 (modsCode sat 0 false) 0)
  | .vlog g d a sat => some (encR 0x7c g (gCode d) (gCode a) 0 0 (modsCode sat 0 false) 0)
  | .vrsq g d a sat => some (encR 0x7d g (gCode d) (gCode a) 0 0 (modsCode sat 0 false) 0)
  | .vrcp g d a sat => some (encR 0x7e g (gCode d) (gCode a) 0 0 (modsCode sat 0 false) 0)
  | .vcmp g cc d a b => some (encR 0x7f g (gCode d) (gCode a) (gCode b) (fcondCode cc) 0 0)
  | .vsel g d a b => some (encR 0x80 g (gCode d) (gCode a) (gCode b) 0 0 0)
  | .vand g d a b => some (encR 0x81 g (gCode d) (gCode a) (gCode b) 0 0 0)
  | .vor g d a b => some (encR 0x82 g (gCode d) (gCode a) (gCode b) 0 0 0)
  | .vxor g d a b => some (encR 0x83 g (gCode d) (gCode a) (gCode b) 0 0 0)
  | .vshl g d a b => some (encR 0x84 g (gCode d) (gCode a) (sCode b) 0 0 (sImm b))
  | .vshr g d a b => some (encR 0x85 g (gCode d) (gCode a) (sCode b) 0 0 (sImm b))
  | .vcvt g d a rm sat => some (encR 0x86 g (gCode d) (gCode a) 0 0 (modsCode sat (rmCode rm) false) 0)
  | .vred g o d a => some (encR 0x87 g (gCode d) (gCode a) 0 (redCode o) 0 0)
  | .vscan g o d a sat => some (encR 0x88 g (gCode d) (gCode a) 0 (redCode o) (modsCode sat 0 false) 0)
  | .vbcast g d a sat => some (encR 0x89 g (gCode d) (sCode a) 0 0 (modsCode sat 0 false) (sImm a))
  | .viota g d a b sat => some (encR 0x8a g (gCode d) (sCode a) (sCode b) 0 (modsCode sat 0 false) (sImm2 a b))
  | .vclamp g d a b => some (encR 0x8b g (gCode d) (gCode a) (sCode b) 0 0 (sImm b))
  | .vscale g d a b sat => some (encR 0x8c g (gCode d) (gCode a) (sCode b) 0 (modsCode sat 0 false) (sImm b))
  | .vtrn g d a => some (encR 0x8d g (gCode d) (gCode a) 0 0 0 0)
  | .vdot g d a b => some (encR 0x8e g (gCode d) (gCode a) (gCode b) 0 0 0)
  | .copy g d a b => some (encR 0xa0 g (gCode d) (gCode a) (gzCode b) 0 0 0)
  | .gath g d a b => some (encR 0xa1 g (gCode d) (gCode a) (gzCode b) 0 0 0)
  | .scat g d a b => some (encR 0xa2 g (gCode d) (gCode a) (gzCode b) 0 0 0)
  | .fill g d a b => some (encR 0xa3 g (gCode d) (sCode a) (gzCode b) 0 0 (sImm a))
  | .ovld g fr a b => some (encR 0xa4 g 0 (sCode a) (gzCode b) 0 (match fr with | some n => 4 + BitVec.ofNat 20 n.val | none => 0) (sImm a))
  | .qfence g q ws => some (encR 0xa5 g 0 0 0 (BitVec.ofNat 8 q.val) (0#16 ++ ws) 0)
  | .mlda g a b => some (encR 0xb0 g 0 (sCode a) (gCode b) 0 0 (sImm a))
  | .mldaG g n a b k m => some (encR 0xb0 g 0 (gCode a) (gCode b) 1 (BitVec.ofNat 20 n.val) (0#8 ++ m ++ k))
  | .mldb g a b => some (encR 0xb1 g 0 (sCode a) (gCode b) 0 0 (sImm a))
  | .mldbG g n a b k => some (encR 0xb1 g 0 (gCode a) (gCode b) 1 (BitVec.ofNat 20 n.val) (0#16 ++ k))
  | .mscl g a b => some (encR 0xb2 g 0 (gCode a) (sCode b) 0 0 (sImm b))
  | .mlut g a b => some (encR 0xb3 g 0 (gCode a) (sCode b) 0 0 (sImm b))
  | .mcfg g a => some (encR 0xb4 g 0 (sCode a) 0 0 0 (sImm a))
  | .mma g d a b => some (encR 0xb5 g (gCode d) (sCode a) (gCode b) 0 0 (sImm a))
  | .mmaX g d a b => some (encR 0xb5 g (gCode d) (sCode a) (sCode b) 1 0 (sImm2 a b))
  | .mmv g d a b x => some (encR 0xb6 g (gCode d) (gCode a) (gCode b) 0 (BitVec.ofNat 20 x.val) 0)
  | .mzro g d => some (encR 0xb7 g (gCode d) 0 0 0 0 0)
  | .mwb g d a sat => some (encR 0xb8 g (gCode d) (gCode a) 0 0 (modsCode sat 0 false) 0)
  | .mrds g d a b => some (encR 0xb9 g (gCode d) (gCode a) (sCode b) 0 0 (sImm b))
  | .fork g a b => some (encR 0xba g 0 (sCode a) (sCode b) 0 0 (sImm2 a b))
  | .rdzv g => some (encR 0xbb g 0 0 0 0 0 0)
  | .semp g a => some (encR 0xbc g 0 (sCode a) 0 0 0 (sImm a))
  | .semw g a => some (encR 0xbd g 0 (sCode a) 0 0 0 (sImm a))
  | .finit g d a b => some (encR 0xc0 g (gCode d) (sCode a) (sCode b) 0 0 (sImm2 a b))
  | .fupd g d a q => some (encQ 0xc1 g d a q)
  | .fdwn g d a q => some (encQ 0xc2 g d a q)
  | .ftrs g d a q => some (encQ 0xc3 g d a q)
  | .ftrb g d a q => some (encQ 0xc4 g d a q)
  | .frd g d a q => some (encQ 0xc5 g d a q)
  | .fwr g d a q => some (encQ 0xc6 g d a q)
  | .fdia g d a => some (encR 0xc7 g (gCode d) (gCode a) 0 0 0 0)
  | .dreg g d a b => some (encR 0xc8 g (gCode d) (gCode a) (sCode b) 0 0 (sImm b))
  | .dregMove g d a b => some (encR 0xc8 g (gCode d) (gCode a) (sCode b) 1 0 (sImm b))
  | .solicit g c d a b => some (encR 0xc9 g (gCode d) (gCode a) (gCode b) (combCode c) 0 0)
  | .respond g a b => some (encR 0xca g 0 (gCode a) (sCode b) 0 0 (sImm b))
  | .cnsq g d a => some (encR 0xcb g (gCode d) (sCode a) 0 0 0 (sImm a))
  | .cnsqN g d => some (encR 0xcb g (gCode d) 0 0 1 0 0)
  | .spawn g d a b => some (encR 0xd0 g (gCode d) (gCode a) (sCode b) 0 0 (sImm b))
  | .decp g a b => some (encR 0xd1 g 0 (gCode a) (sCode b) 0 0 (sImm b))
  | .launch g d a => some (encR 0xd2 g (gCode d) (gCode a) 0 0 0 0)
  | .cancel g d a => some (encR 0xd3 g (gCode d) (gCode a) 0 0 0 0)
  | .cntrOpen g d a b => some (encR 0xd4 g (gCode d) (gCode a) (gCode b) 0 0 0)
  | .cntrSeal g a => some (encR 0xd4 g 0 (gCode a) 0 1 0 0)
  | .cntrRead g d a => some (encR 0xd4 g (gCode d) (gCode a) 0 2 0 0)
  | .bar g d a => some (encR 0xd5 g (gCode d) (gCode a) 0 0 0 0)
  | .trap g a => some (encR 0xe0 g 0 (sCode a) 0 0 0 (sImm a))
  | .brk g => some (encR 0xe1 g 0 0 0 0 0 0)
  | .srr g d sr => some (encR 0xe2 g (gCode d) sr.code 0 0 0 0)
  | .srw g sr a => some (encR 0xe3 g sr.code (sCode a) 0 0 0 (sImm a))
  | .park g d a b => some (encR 0xe4 g (gCode d) (gCode a) (gCode b) 0 0 0)
  | .parkNt g d a => some (encR 0xe4 g (gCode d) (gCode a) 0 0 1 0)
  | .waitdt g a => some (encR 0xe5 g 0 (gCode a) 0 0 0 0)
  | .waitdtRel g a => some (encR 0xe5 g 0 (sCode a) 0 0 1 (sImm a))
  | .gstop g d a b => some (encR 0xe6 g (gCode d) (gCode a) (gCode b) 0 0 0)
  | .gstopGo g d a => some (encR 0xe6 g (gCode d) (gCode a) 0 1 0 0)
  | .replay g d a m => some (encR 0xe7 g (gCode d) (gCode a) 0 0 (replayCode m) 0)
  | _ => none

/-- The 96-bit word of an instruction. -/
def encode (i : Instr) : Option IWord := (encodeFields i).map Fields.toWord

/-- The 12 bytes of a word, lowest address first (R1, R66). -/
def wordBytes (w : IWord) : List Byte := (List.range 12).map fun k => w.extractLsb' (8 * k) 8

/-- The word that 12 bytes make, lowest address first (R1, R66). -/
def wordOfBytes (bs : List Byte) : IWord := BitVec.ofNat 96 (bs.foldr (fun b acc => b.toNat + 256 * acc) 0)

end Sys2Proof
end

