-- ==== Sys2Proof/Machine/State.lean ====
section
/-! DEFINITION. The state of the Kuzen K4: every piece of state the spec names, as plain data in nested parts, one part for
each chapter; and the state after reset. Tables by number are `Sparse`: entries equal to the default are not listed. -/

namespace Sys2Proof.Machine

/-- A machine fault. None is raised: every stop the spec describes is a trap, a record or a reply of the machine. -/
inductive Fault where
  /-- Raised by no instruction: kept so that the type has a member. Safe. -/
  | unreachable
  deriving DecidableEq, Repr

/-- Why a step has no meaning. -/
inductive Refusal where
  /-- Raised by the arm of an instruction that has no meaning yet, and by nothing else. Safe: the machine stops. -/
  | notModelled (mnemonic : String)
  deriving DecidableEq, Repr

/-- Trap causes (R104). -/
inductive Cause where
  | illegalOpcode | reservedBits | badOperand | misaligned | pageFault | protection | lapsed | windowRefused | overlayMiss
  | streamDesync | scaleRange | factorIndefinite | factorShape | atomicUncarried | divideZero | fpTrap | cancelled | peerGone
  | censusLimit | step | brk | softError | exhausted
  deriving DecidableEq, Repr

/-- A trap condition an instruction meets: the cause, the step of R392, INFO0, INFO1 where it is not the default layout, the
access detail bits of R105 (1 load, 2 store, 4 atomic, 8 handle operation), FLAGS.SW of a TRAP (R114), a class of Fatal whatever the
cause (R149, R250), and for a page fault the range and the address (R351). -/
structure Exc where
  cause : Cause
  step : Nat := 8
  info0 : Word := 0
  info1 : Option Word := none
  detail : Nat := 0
  sw : Bool := false
  fatal : Bool := false
  range : Word := 0
  va : Nat := 0
  deriving DecidableEq, Repr

/-- A 32-byte codelet record (R297). -/
structure Rec where
  code : BitVec 32 := 0
  prio : Byte := 0
  flags : Byte := 0
  launch : BitVec 16 := 0
  frame : Word := 0
  join : Word := 0
  graph : BitVec 32 := 0
  phase : BitVec 32 := 0
  deriving DecidableEq, Repr

/-- The registers an instruction works on: of a strand's image (R91) or of a stream (R248). `iw` is the word being
performed. -/
structure Ctx where
  g : Vector Word 16 := Vector.replicate 16 0
  p : Byte := 1
  pc : BitVec 32 := 0
  pts : Nat := 0
  iw : IWord := 0
  deriving DecidableEq, Repr

/-- A floating-point value: a NaN, an infinity, or the exact number `(-1)^neg * m * 2^e` (R120). -/
inductive FVal where
  | nan (sig : Bool)
  | inf (neg : Bool)
  | fin (neg : Bool) (m : Nat) (e : Int)
  deriving DecidableEq, Repr

/-- Who acts (R19, R247). -/
inductive Agent where
  | none
  | strand (core slot : Nat)
  | stream (cluster : Nat) (compute : Bool)
  deriving DecidableEq, Repr

/-- A 32-byte message or record in a queue: its bytes as a number, its timestamp, and the route it came on (R171, R222). -/
structure Msg where
  bytes : BitVec 256 := 0
  ts : Nat := 0
  route : Word := 0
  dtag : Nat := 0
  deriving DecidableEq, Repr

/-- A strand's name in a request: core, slot and generation of its tag (R93). -/
structure Tag where
  core : Nat := 0
  slot : Nat := 0
  gen : Nat := 0
  park : Bool := false
  deriving DecidableEq, Repr

/-- A shape record as read, with the pointer it was read at; `fmt` is its element format (R185). -/
structure Shape where
  ptr : Word
  base : Nat
  e0 : Nat
  e1 : Nat
  e2 : Nat
  e3 : Nat
  s1 : Int
  s2 : Int
  s3 : Int
  flags : Nat
  spare : Bool
  fmt : Nat
  deriving DecidableEq, Repr

/-- A vector instruction whose accesses are made in turns of their own (R190, R191): its shape records, the bytes of its channel source
and EXPR as they stood at issue (R192), the beat it is in, the values this beat has read and how many it has stored, and what the
earlier beats have made: flags, count, elements and the running value. -/
structure VProg where
  xs : List Shape := []
  msgs : Nat := 0
  expr : Word := 0
  beat : Nat := 0
  vals : List Nat := []
  stored : Nat := 0
  fl : Nat := 0
  zeros : Nat := 0
  out : List Nat := []
  acc : Option (FVal × FVal × Int) := none
  deriving DecidableEq, Repr

/-- What a strand out of rotation waits for (R92, R94, R127, R151). `room`: the tickets of pushes it has made, from `first` up to before
`last`, to rings or stage queues that were full (R299). `held`: its arrival at a barrier cell is held (R320). `beats`: accesses of its vector instruction are still to be made (R190). -/
inductive Wait where
  | none
  | rot (n : Nat)
  | reply
  | recv
  | park (deadline : Option Nat)
  | waitdt (t : Nat)
  | again
  | woken
  | overlay (target : BitVec 32)
  | barrier (core off : Nat)
  | held
  | parkFull (e : Exc)
  | room (first last : Nat)
  | sem
  | beats
  deriving DecidableEq, Repr

/-- A strand: its context image (R91, R92) and its binding. `st` is STATE. `got` is what a wake flit or a reply has brought
and the strand has not yet taken; `want` is how many messages its wait is for. `steps` is 1 when REPLAY.STEP has resumed it and 2 once the stepped instruction has
issued (R111). `prog`: its vector instruction in progress. `former` are tags it had before, which still name accumulator slots (R30, R34, R252). -/
structure Strand where
  ctx : Ctx := {}
  st : Nat := 0
  evict : Bool := false
  restart : Bool := false
  steps : Nat := 0
  stepPc : BitVec 32 := 0
  lastCause : Nat := 0
  lhit : Nat := 0
  ctxh : Word := 0
  privb : Word := 0
  dtlast : Nat := 0
  hold : Nat := 0
  record : Rec := {}
  region : Nat := 0
  resp : Option (Nat × Nat) := none
  wait : Wait := .none
  got : List Msg := []
  gotQ : Word := 0
  want : Nat := 1
  prog : Option VProg := none
  lastIssue : Nat := 0
  former : List Tag := []
  deriving DecidableEq, Repr

/-- An entry of a ready ring (R297, R299): a record, with the former tags of its strand when it restarts one (R103), or a resume entry
holding the strand. -/
inductive RingEntry where
  | record (r : Rec) (since : Nat) (pushed : Nat) (resp : Option (Nat × Nat)) (restart : Option (List Tag))
  | resume (t : Strand) (since : Nat)
  deriving DecidableEq, Repr

/-- A push that waits outside a full ring of a core, or outside a full stage queue of a launch (R299, R307), with its ticket. -/
structure Outside where
  stage : Option (Nat × Nat)
  core : Nat
  prio : Nat
  entry : RingEntry
  ticket : Nat
  deriving DecidableEq, Repr

/-- A park entry (R108). -/
structure Park where
  used : Bool := false
  gen : Nat := 0
  record : Rec := {}
  pts : Nat := 0
  ovl : Nat := 0
  resp : Option (Nat × Nat) := none
  ctxh : Word := 0
  former : List Tag := []
  deriving DecidableEq, Repr

/-- A trap record on its way to the launch's trap queue (R107). -/
structure TrapRec where
  bytes : BitVec 256
  fatal : Bool
  launch : Nat
  tq : Word
  ctxh : Word
  deriving DecidableEq, Repr

/-- A request in transit to a unit's memory, and how its reply completes (R47, R54, R64). -/
inductive MemKind where
  | read
  | renew (cw : Nat)
  | write (v : Nat)
  | own
  | amo (op : AmoOp) (opnd cmp : Nat) (u : Bool)
  | ncRead
  | ncWrite (v : Nat)
  deriving DecidableEq, Repr

/-- What becomes of the data of a reply: registers of a load, nothing, or the instruction again. -/
inductive Post where
  | load (d : GReg) (w : Wid) (sx : Bool)
  | loadPair (d : GReg) (w : Wid) (sx : Bool)
  | store
  | amo (d : GReg) (w : Wid)
  | again
  | hub (agent : Nat)
  deriving DecidableEq, Repr

/-- A memory request of a strand, of hub agent `hub`, or of engine `engine`. -/
structure MemReq where
  seq : Nat := 0
  nc : Bool := false
  plain : Bool := false
  detail : Nat := 1
  tag : Tag
  pa : Nat
  n : Nat
  kind : MemKind
  pts : Nat
  ctxh : Word := 0
  range : Word := 0
  ptr : Word := 0
  ll : Nat := 8
  post : Post
  hub : Option Nat := none
  engine : Option Nat := none
  deriving DecidableEq, Repr

/-- What a reply does to its strand. -/
inductive ReplyAct where
  | regs (ws : List (Nat × Word)) (pts : Nat)
  | life (d expiry pts : Nat)
  | exc (e : Exc)
  | again
  deriving DecidableEq, Repr

/-- A reply on its way to a strand, from a home slice or from elsewhere (R55). -/
structure Reply where
  tag : Tag
  act : ReplyAct
  home : Option Nat := none
  deriving DecidableEq, Repr

/-- The outcome of an engine's request that waited in a sector's queue (R54): its bytes and timestamp, or its refusal. -/
structure Served where
  engine : Nat
  v : Nat
  ts : Nat
  exc : Option Exc
  deriving DecidableEq, Repr

/-- Directory state of a sector (R54). -/
inductive DirSt where
  | h
  | o (c : Nat)
  | t (c : Nat) (asked : Bool)
  deriving DecidableEq, Repr

/-- A sector at its home slice (R47, R54). -/
structure Dir where
  present : Bool := false
  st : DirSt := .h
  wts : Nat := 0
  rts : Nat := 0
  queue : List MemReq := []
  deriving DecidableEq, Repr

/-- A sector in an L1 (R53): leased, owned or a non-coherent copy. `e` is the lease end, or RTS when owned. -/
structure L1 where
  kind : Nat := 0
  data : Nat := 0
  wts : Nat := 0
  e : Nat := 0
  dirty : Bool := false
  range : Word := 0
  deriving DecidableEq, Repr

/-- Timestamps of a scratchpad sector (R49). -/
structure Stamp where
  wts : Nat := 0
  rts : Nat := 0
  deriving DecidableEq, Repr

/-- A recall, or a message from a core to a home about a sector (R54 to R58). -/
inductive Coh where
  | ask (core sector : Nat)
  | data (core sector : Nat) (v : Nat) (wts rts : Nat)
  | notHeld (core sector : Nat)
  | writeBack (core sector : Nat) (v : Option Nat) (wts rts : Nat)
  deriving DecidableEq, Repr

/-- A page-table entry (R348). -/
structure Pte where
  st : Nat := 0
  rd : Bool := false
  wr : Bool := false
  nc : Bool := false
  far : Bool := false
  purge : Bool := false
  pn : Nat := 0
  route : Word := 0
  large : Bool := false
  deriving DecidableEq, Repr

/-- A cached translation (R37): the entry as read, and its stamp. -/
structure Tlb where
  pte : Pte := {}
  large : Bool := false
  stamp : Nat := 0
  tl : Nat := 0
  range : Word := 0
  deriving DecidableEq, Repr

/-- An unmap in progress (R38, R353): its number, what it was written for, the frame its page had, and who has not acknowledged. -/
structure Unmap where
  num : Nat
  pte : Nat
  old : Nat
  home : Nat
  at_ : Nat
  tl : Nat
  holders : List Nat
  freed : Option Nat
  move : Option Nat
  large : Bool
  ncChange : Bool := false
  deriving DecidableEq, Repr

/-- A page whose backing has been asked for (R349, R352): the keys of its entry and range, its tier and size, and the store
of REQ that waits for the outcome, with its timestamp and the sector as it stored it (R359). -/
structure Backing where
  pte : Nat
  range : Nat
  far : Bool
  large : Bool
  waiter : Option (MemReq × Nat × Nat) := none
  deriving DecidableEq, Repr

/-- Hotness of a page in HBM (R354). -/
structure Hot where
  c0 : Nat := 0
  c1 : Nat := 0
  c2 : Nat := 0
  c3 : Nat := 0
  moved : Nat := 0
  deriving DecidableEq, Repr

/-- A range record (R347), with the virtual base and size the range has. -/
structure Range where
  base : Nat := 0
  size : Nat := 0
  nc : Bool := false
  lp : Bool := false
  pager : Bool := false
  pfb : Nat := 16
  pft : Nat := 128
  fq : Word := 0
  faults : Nat := 0
  drops : Nat := 0
  deriving DecidableEq, Repr

/-- An open fault entry at a range's home (R351): `at_` is the device time of its posting, `sent` that its record has been sent. -/
structure FaultEntry where
  range : Word
  va : Nat
  write : Bool
  engine : Bool
  count : Nat
  tag : Tag
  linked : List Tag
  span : Nat
  at_ : Nat
  sent : Bool
  deriving DecidableEq, Repr

/-- A life-table entry (R24 to R31). `st`: 0 DARK, 1 LIVE, 2 DUSK, 3 reserved for a move (R323). -/
structure Life where
  st : Nat := 0
  expiry : Nat := 0
  gen : Nat := 0
  owner : Word := 0
  darkAt : Nat := 0
  deriving DecidableEq, Repr

/-- A waiter of a lock (R166). -/
structure LockWait where
  tag : Tag
  term : Nat
  d : GReg
  pts : Nat
  deriving DecidableEq, Repr

/-- A lock entry (R165). -/
structure Lock where
  queue : List LockWait := []
  deriving DecidableEq, Repr

/-- A SEND, or a channel destination's request for k credits, waiting at a route's home (R171, R196). -/
structure SendWait where
  tag : Tag
  msgs : List (BitVec 256)
  ts : Nat
  fl : Nat := 0
  zeros : Nat := 0
  deriving DecidableEq, Repr

/-- A route (R167 to R172). `caps`: which atomics an aperture route carries (ADD, SWAP, CAS at 32 and at 64 bits). -/
structure Route where
  dtype : Nat := 0
  peer : Nat := 0
  dtag : Nat := 0
  devq : Word := 0
  peerid : Word := 0
  credits : Nat := 8
  gone : Bool := false
  caps : BitVec 6 := 0
  waiting : List SendWait := []
  deriving DecidableEq, Repr

/-- A strand blocked in RECV, or waiting in a channel source, at an event queue's home (R175, R195), and the issue that it waits in. -/
structure Blocked where
  tag : Tag
  want : Nat
  issue : Nat := 0
  deriving DecidableEq, Repr

/-- An event queue (R222). -/
structure Evq where
  cap : Nat := 0
  recs : List Msg := []
  blocked : List Blocked := []
  waiting : List Msg := []
  parked : List Tag := []
  deriving DecidableEq, Repr

/-- A record on its way to an event queue (R221), and the context it was sent under. -/
structure Arrive where
  q : Word
  ctxh : Word
  msg : Msg
  deriving DecidableEq, Repr

/-- A wake flit (R88, R175): its strand, the queue, the records it carries, and the issue that they were taken for. -/
structure Wake where
  tag : Tag
  q : Word := 0
  msgs : List Msg := []
  issue : Nat := 0
  deriving DecidableEq, Repr

/-- A request on a holding, in transit to its home (R162 to R168); `served`: a strand has left those who wait at the home of a
route or a queue, which serves those behind it (R171, R175). -/
inductive HoldOp where
  | grantRange (d : GReg) (size term : Nat) (nc lp : Bool)
  | grantLock (d : GReg) (home term : Nat)
  | grantEvq (d : GReg) (cap term : Nat)
  | grantSlot (d : GReg) (factor : Bool) (which term : Nat)
  | renew (d : GReg) (h : Word) (term : Nat)
  | life (d : GReg) (h : Word)
  | lock (d : GReg) (h : Word) (term : Nat) (nw : Bool)
  | route (d : GReg) (desc : Route) (term : Nat)
  | send (h : Word) (msgs : List (BitVec 256)) (fl zeros : Nat)
  | served (key : Nat)
  deriving DecidableEq, Repr

/-- A request on a holding with the strand that waits for it. -/
structure HoldReq where
  tag : Tag
  ctxh : Word
  pts : Nat
  op : HoldOp
  deriving DecidableEq, Repr

/-- A message travelling on a route (R171, R172). -/
structure Flight where
  route : Word
  msg : Msg
  deriving DecidableEq, Repr

/-- One stage of a launch (R307). -/
structure Stage where
  hi : Nat
  lo : Nat
  clusters : List Nat
  ts : Nat := 0
  queue : List RingEntry
  deriving DecidableEq, Repr

/-- A launch entry (R302, R315, R316). `st`: 0 free, 2 SEALED, 3 CANCELLING. -/
structure Launch where
  st : Nat := 0
  out : Nat := 0
  ended : Nat := 0
  ctxh : Word := 0
  evq : Word := 0
  cts : Nat := 0
  cause : Nat := 0
  killed : Bool := false
  tq : Word := 0
  privsz : Nat := 65536
  tl : Nat := 4096
  ll : Nat := 8
  fused : Bool := false
  privb : Nat := 0
  imgb : Nat := 0
  rgn : Nat := 0
  cmask : Nat := 0
  graph : Nat := 0
  phase : Nat := 0
  bundle : Nat := 0
  used : List Nat := []
  stages : List Stage := []
  halted : Bool := false
  issued : Sparse Nat := []
  lastDt : Sparse Nat := []
  deriving DecidableEq, Repr

/-- A counter entry (R301, R302). `st`: 0 free, 1 OPEN, 2 SEALED, 3 CANCELLING. -/
structure Counter where
  st : Nat := 0
  level : Nat := 0
  parent : Nat := 0
  out : Nat := 0
  ended : Nat := 0
  ctxh : Word := 0
  evq : Word := 0
  cts : Nat := 0
  cause : Nat := 0
  gen : Nat := 0
  killed : Bool := false
  deriving DecidableEq, Repr

/-- A cancel token (R304); `kill` says that a power kill sent it (R311). -/
structure Token where
  level : Nat
  id : Nat
  kill : Bool := false
  deriving DecidableEq, Repr

/-- A token broadcast: who has not taken it, who has not acknowledged, and the strand that waits (R305). -/
structure Broadcast where
  token : Token
  toTake : List Nat
  left : List Nat
  waiter : Option Tag
  deriving DecidableEq, Repr

/-- A unit's end on its way to its launch entry or census (R303, R328). -/
structure UnitEnd where
  launch : Nat
  ts : Nat
  cause : Nat
  deriving DecidableEq, Repr

/-- A strand's wait at a barrier cell (R320); `released` is the strand's last issue as it was released, `left` that a gang stop has
ended the wait before the release. -/
structure BarWait where
  core : Nat
  off : Nat
  tag : Tag
  d : GReg
  released : Option Nat
  left : Bool := false
  deriving DecidableEq, Repr

/-- A gang stop in progress (R109, R118). -/
structure Halt where
  launch : Nat
  evq : Word
  waiter : Option (Tag × GReg)
  left : List Nat
  landed : Nat
  dropped : Bool
  deriving DecidableEq, Repr

/-- A copy descriptor (R216) with the format its endpoint takes (R217). -/
structure CopyDesc where
  ptr : Word := 0
  count : Nat := 0
  stride : Int := 0
  aux : Word := 0
  fmt : Nat := 0
  rt : Bool := false
  deriving DecidableEq, Repr

/-- What a queued command does (R215, R228, R282). -/
inductive CmdOp where
  | copy (d s : CopyDesc)
  | gath (d s : CopyDesc)
  | scat (d s : CopyDesc)
  | fill (d : CopyDesc) (v : Word)
  | ovld (ovl : Nat) (frame : Option Nat)
  | qfence (set : BitVec 4) (targets : List (Nat × Nat))
  | finit (slot : Word) (n : Nat) (lam : BitVec 32)
  | fupd (slot shape : Word) (bits : Nat)
  | fdwn (slot shape : Word) (bits : Nat)
  | ftrs (slot shape : Word) (bits : Nat)
  | ftrb (slot shape : Word) (bits : Nat)
  | frd (slot shape : Word) (bits : Nat)
  | fwr (slot shape : Word) (bits : Nat)
  | fdia (slot : Word) (d : GReg)
  deriving DecidableEq, Repr

/-- What an engine takes of a launch at issue, so that a queued command does not depend on the launch entry (R214, R315). -/
structure Env where
  privsz : Nat := 65536
  tl : Nat := 4096
  ll : Nat := 8
  bundle : Nat := 0
  deriving DecidableEq, Repr

/-- A command in an engine queue with its issuer (R214, R219, R280). `plain`: the strand waits for its result; `stop`: a token that the
engine took and has since removed stops it with this STATUS (R224, R292, R304). -/
structure Cmd where
  op : CmdOp
  tag : Tag
  core : Nat
  ctxh : Word
  record : Rec
  privb : Word
  pts : Nat
  evq : Word
  own : Bool := false
  plain : Bool := false
  stop : Nat := 0
  thr : BitVec 32 := 0
  env : Env := {}
  deriving DecidableEq, Repr

/-- The operation at the head of a queue (R219, R225, R285). `vals` and `pos`: the values its accesses have read, and the
accesses made, in the current beat; `pend`, `pendAt`: bytes of a remote copy not yet sent, and their address; `out`, `acked`:
its packets with their sizes and addresses, and those answered; `peer`: the K-link peer of its route as it started; `wait`: it awaits a peer's reply; `fault`: what has refused it,
with INFO; `fin`: its end, as STATUS, CAUSE and INFO, once its packets are answered. -/
structure Run where
  started : Bool := false
  ets : Nat := 0
  beat : Nat := 0
  bytes : Nat := 0
  phase : Nat := 0
  pos : Nat := 0
  vals : List Nat := []
  work : List (BitVec 32) := []
  frame : Nat := 0
  pend : List Byte := []
  pendAt : Nat := 0
  out : List (Nat × Nat × Nat) := []
  acked : List Nat := []
  peer : Nat := 0
  fault : Option (Exc × Word) := none
  fin : Option (Nat × Nat × Word) := none
  wait : Bool := false
  deriving DecidableEq, Repr

/-- A command waiting to enter a queue, its strand's or its core's own (R20). -/
structure QWait where
  core : Nat
  cmd : Cmd
  deriving DecidableEq, Repr

/-- An engine queue of a cluster (R20, R61, R62). -/
structure Queue where
  cmds : List Cmd := []
  waits : List QWait := []
  last : Nat := 3
  run : Run := {}
  ets : Nat := 0
  done : Nat := 0
  deriving DecidableEq, Repr

/-- A buffer of the matrix engine (R236): WB0 to WB3, XB0 and XB1. -/
structure Buf where
  filled : Bool := false
  fmt : Nat := 0
  k : Nat := 0
  m : Nat := 0
  elems : List Nat := []
  deriving DecidableEq, Repr

/-- A hardware semaphore and who waits for it (R273). -/
structure Sem where
  count : Nat := 0
  ets : Nat := 0
  queue : List Agent := []
  deriving DecidableEq, Repr

/-- A stream of the sequencer pair (R248, R249). `st`: 0 not running, 1 running, 2 at DONE, 3 faulted, 4 stopped. `head`: what
its instruction took as it began; `vals` and `pos`: what its accesses have read, last first, and how many it has made; `fence`: what a QFENCE waits for; `load`: a
buffer load that has been read (R261), `into`: the buffer a load in progress goes to; `sent`: it awaits a peer's reply; `rest`: it
waits where a stop abandons the instruction (R249); `doomed`: its SEMW is to fault (R274). -/
structure Stream where
  ctx : Ctx := {}
  st : Nat := 0
  busy : Bool := false
  wait : Bool := false
  stop : Bool := false
  fetched : Bool := false
  head : List Nat := []
  vals : List Nat := []
  pos : Nat := 0
  fence : Option (List (Nat × Nat)) := none
  load : Option (Nat × Buf) := none
  into : Option Nat := none
  sent : Bool := false
  rest : Bool := false
  doomed : Bool := false
  refused : Option Exc := none
  deriving DecidableEq, Repr

/-- The fault a pair holds (R250). -/
structure PairFault where
  cause : Cause
  info0 : Word
  info1 : Word
  deriving DecidableEq, Repr

/-- A sequencer pair with the matrix engine of its cluster (R236, R249). `st`: 0 IDLE, 1 RUN, 2 HALF, 3 JOINABLE,
4 FAULTED. `sdone`, `kdone`, `sets`, `kets`: the instructions that its streams have performed, and their largest final ETS (R62). -/
structure Pair where
  st : Nat := 0
  owner : Tag := {}
  ctxh : Word := 0
  record : Rec := {}
  privb : Word := 0
  ended : Bool := false
  fault : Option PairFault := none
  staging : Stream := {}
  compute : Stream := {}
  forks : List Tag := []
  fifo : List (List Byte) := []
  zmap : List Bool := []
  mcfg : Word := 0x22
  sems : Sparse Sem := []
  bufs : Sparse Buf := []
  env : Env := {}
  sdone : Nat := 0
  kdone : Nat := 0
  sets : Nat := 0
  kets : Nat := 0
  deriving DecidableEq, Repr

/-- An accumulator slot's tag and parking (R236, R252). -/
structure Mslot where
  tag : Tag := {}
  parked : Bool := false
  deriving DecidableEq, Repr

/-- A directory entry (R322, R323). -/
structure Dirent where
  key : Word := 0
  tile : Word := 0
  code : BitVec 32 := 0
  prio : Nat := 0
  frn : Nat := 0
  frb : Nat := 0
  launch : Nat := 0
  answered : List Nat := []
  deriving DecidableEq, Repr

/-- A wave of a census (R326). -/
structure Wave where
  num : Nat
  key : Word
  comb : Comb
  d : Nat
  arg : List Byte
  evq : Word
  resp : Nat
  ctxh : Word
  pts : Nat
  deriving DecidableEq, Repr

/-- One responder of a census at a core (R328, R332, R335): its wave, the entry as it matched with its number, generation and
owner, its frame, whether it is late, whether it has been spawned and has ended, and its answer. -/
structure Responder where
  id : Nat
  wave : Wave
  index : Nat
  gen : Nat
  ent : Dirent
  owner : Word
  frame : Option Nat := none
  late : Bool := false
  spawned : Bool := false
  ended : Bool := false
  answer : Option (List Nat) := none
  ts : Nat := 0
  deriving DecidableEq, Repr

/-- An outgoing move of a directory entry (R334, R335). `phase`: 0 asked, 1 reserved, 2 refused, 3 detached, 4 sent, 5 arrived.
`lates` are the late responders whose end the acknowledgment awaits, `newh` the entry's handle at the target. -/
structure Move where
  src : Nat
  dst : Nat
  index : Nat
  gen : Nat
  dindex : Nat := 0
  tile : Word
  tag : Tag
  d : GReg
  phase : Nat := 0
  expiry : Nat := 0
  owner : Word := 0
  ent : Dirent := {}
  lates : List Nat := []
  newh : Word := 0
  deriving DecidableEq, Repr

/-- A core's part in the censuses (R323 to R335): the waves it has taken, its responders, its slots in use and their last
sequence numbers. -/
structure CoreCensus where
  seen : List Wave := []
  resp : List Responder := []
  slots : List Nat := []
  seqs : Sparse Nat := []
  deriving DecidableEq, Repr

/-- A census at the root (R324, R332): the cores that have not taken the wave, those that have not reported, the reports as
core, value, MATCHES, ANSWERS and TS, and, once its record has been posted, the cores that have not taken the close. -/
structure Census where
  wave : Wave
  toTake : List Nat
  left : List Nat
  reports : List (Nat × List Nat × Nat × Nat × Nat) := []
  closing : Option (List Nat) := none
  deriving DecidableEq, Repr

/-- A K-link port (R360 to R368). `st`: 0 DOWN, 1 TRAINING, 2 UP, 3 RETRAIN. `lanes` have failed; `width` lanes from `base` are in
use; `since` is the tick of the last entry to TRAINING or RETRAIN; `buffer` is the replay buffer; `rx` are accepted packets not yet
acted on, `tx` packets not yet sent, `wire` packets sent that the peer has not taken; `owed`: an ACK is due. Of the request that is
being performed `pos` accesses have been made, `got` holding their sizes and values; `ets` is the timestamp of the last (R61, R368). -/
structure Port where
  st : Nat := 0
  lanes : List Nat := []
  width : Nat := 0
  base : Nat := 0
  since : Nat := 0
  nextSeq : Nat := 0
  lastAcc : Nat := 0xFFF
  nakSent : Bool := false
  buffer : List Packet := []
  ackTick : Nat := 0
  replays : Nat := 0
  import_ : Word := 0
  peerId : Word := 0
  rx : List Packet := []
  tx : List Packet := []
  wire : List Packet := []
  owed : Bool := false
  ets : Nat := 0
  pos : Nat := 0
  got : List (Nat × Nat) := []
  deriving DecidableEq, Repr

/-- A transaction of this device awaiting a peer's reply (R366, R368) or a completer's completion (R169), of `n` bytes. -/
structure Trans where
  port : Nat
  xid : Nat
  tag : Tag
  route : Word
  ptr : Word
  post : Post
  cluster : Option Nat
  n : Nat := 0
  deriving DecidableEq, Repr

/-- A PCIe transaction of an aperture access (R169). -/
inductive BusOp where
  | read (n : Nat)
  | write (n v : Nat)
  | atomic (op : AmoOp) (n opnd cmp : Nat)
  deriving DecidableEq, Repr

/-- A PCIe transaction that has been sent, to a completer behind root port `port - 9` or, of port 15, through the host endpoint. -/
structure Bus where
  xid : Nat
  port : Nat := 0
  completer : Word := 0
  addr : Nat
  op : BusOp
  deriving DecidableEq, Repr

/-- A sensor (R388). `since` is the tick at which its raw value last changed, `refs` its neighbours' raw values then. -/
structure Sensor where
  raw : Int := 0
  flags : Nat := 0
  since : Nat := 0
  refs : List (Nat × Int) := []
  deriving DecidableEq, Repr

/-- A THERMTAB record (R389). -/
structure Therm where
  amber : Nat := 95
  crimson : Nat := 105
  budget : Nat := 750
  ocl : Nat := 1250
  deriving DecidableEq, Repr

/-- A cluster's thermal state (R309): 0 NORMAL, 1 AMBER, 2 CRIMSON. -/
structure ThermCluster where
  st : Nat := 0
  withheld : Bool := false
  bias : Nat := 0
  deriving DecidableEq, Repr

/-- A die's current samples and alarm (R390). -/
structure Alarm where
  above : Nat := 0
  below : Nat := 0
  raised : Bool := false
  budget : Bool := false
  seen : Option Nat := none
  deriving DecidableEq, Repr

/-- A loaded bundle (R375): where firmware keeps it, and its overlays (id, device address, code length). -/
structure Bundle where
  ctxh : Word
  number : Nat
  base : Nat := 2 ^ 62
  ovls : List (Nat × Nat × Nat)
  deriving DecidableEq, Repr

/-- A saved page of a range (R377): its number in the range, its entry, its bytes. -/
structure SavedPage where
  page : Nat
  pte : Pte
  bytes : Nat
  deriving DecidableEq, Repr

/-- A saved range (R377, R378). -/
structure SavedRange where
  handle : Word
  rec_ : Range
  pages : List SavedPage
  deriving DecidableEq, Repr

/-- What firmware holds of a checkpoint image, by the handle of its range (R377, R378). -/
structure Image where
  range : Word
  ranges : List SavedRange
  deriving DecidableEq, Repr

/-- A long command that runs (R372, R377, R378). -/
structure Long where
  entry : Nat
  restore : Bool
  ctxh : Word
  hold : Bool
  image : Word
  term : Nat
  buf : Nat
  buflen : Nat
  launches : List Nat
  deriving DecidableEq, Repr

/-- Device time (R21) and the units that run ahead of it by one or two ticks (R22). -/
structure TimePart where
  dt : Nat := 0
  early : Sparse Nat := []
  deriving DecidableEq, Repr

/-- Memory and coherence (R39 to R65). `served`: outcomes that engines have not yet taken; `failed`: words of 8 bytes with an
uncorrectable error, by address, and `hit`: one that the access being made has touched (R106). -/
structure MemPart where
  dir : Sparse Dir := []
  l1 : Sparse L1 := []
  stamps : Sparse Stamp := []
  owners : Sparse (List Nat) := []
  grantq : Sparse (List MemReq) := []
  mts : Sparse Nat := []
  net : List MemReq := []
  coh : List (Nat × Coh) := []
  sent : Nat := 0
  replies : List Reply := []
  hubPts : Sparse Nat := []
  hubOut : List (Nat × Nat) := []
  served : List Served := []
  failed : List Nat := []
  hit : Option Nat := none
  writebacks : List Nat := []
  deriving DecidableEq, Repr

/-- Strands and cores (R91 to R111, R172, R176). Keys: core, core and slot, core and priority. -/
structure CorePart where
  slots : Sparse Strand := []
  slotGen : Sparse Nat := []
  slotOff : Sparse Bool := []
  idle : List Nat := []
  rings : Sparse (List RingEntry) := []
  ringTs : Sparse Nat := []
  park : Sparse Park := []
  held : Sparse (List TrapRec) := []
  ovt : Sparse Nat := []
  ovUse : Sparse Nat := []
  beatNext : Sparse Nat := []
  icnt : Sparse Nat := []
  stale : Sparse Nat := []
  bconf : Sparse Nat := []
  layout : Sparse (BitVec 32) := []
  chan : Sparse (List Msg) := []
  chanWait : Sparse (List Msg) := []
  filter : Sparse (List Token) := []
  loadEnds : List (Nat × Nat × Bool) := []
  outside : List Outside := []
  tickets : Nat := 0
  soft : Sparse (List Nat) := []
  routeCount : Sparse (Nat × Nat) := []
  migr : List (Nat × Strand) := []
  deriving DecidableEq, Repr

/-- The special registers that SRW writes (R99, R101, R205, R233, R279) and that no other instruction changes. -/
structure SregPart where
  win : Sparse Word := []
  bfmt : Sparse (BitVec 4) := []
  expr : Sparse Word := []
  fctl : Sparse Word := []
  deriving DecidableEq, Repr

/-- The status registers that software clears by writing ones (R101, R189, R238). -/
structure StatPart where
  vstat : Sparse Word := []
  mstat : Sparse Word := []
  deriving DecidableEq, Repr

/-- Holdings (R24 to R36, R161 to R175, R222). Keys: a handle without its generation. -/
structure HoldPart where
  lives : Sparse Life := []
  locks : Sparse Lock := []
  routes : Sparse Route := []
  evqs : Sparse Evq := []
  ranges : Sparse Range := []
  reqs : List HoldReq := []
  withdrawals : List (Nat × Tag) := []
  arriving : List Arrive := []
  wakes : List Wake := []
  returns : List Wake := []
  flights : List Flight := []
  drops : List Word := []
  credits : List Word := []
  notices : List (Nat × Nat × Word) := []
  noticed : Sparse (List Word) := []
  dropped : Nat := 0
  lapsedCtx : List Word := []
  images : List Image := []
  deriving DecidableEq, Repr

/-- Ranges, pages and translations (R345 to R358). Keys: context and virtual page number. `purges` and `acks`: a holder, a page and the
number of an unmap; `asked`: pages whose backing the engine has asked for and whose unmap is not complete, with the range (R352);
`waits`: engines, each with the page of which it has posted the fault it waits for (R351). -/
structure PagePart where
  pte : Sparse Pte := []
  tlb : Sparse Tlb := []
  purges : List (Nat × Nat × Nat) := []
  acks : List (Nat × Nat × Nat) := []
  unmaps : List Unmap := []
  unmapNo : Nat := 0
  asked : List (Nat × Nat) := []
  backing : List Backing := []
  stores : List MemReq := []
  faults : List FaultEntry := []
  waits : List (Nat × Nat) := []
  hot : Sparse Hot := []
  pref : Sparse Nat := []
  touched : Sparse Nat := []
  moving : List (Nat × Nat) := []
  examined : Sparse Nat := []
  deriving DecidableEq, Repr

/-- Launches, counters, cancellation, stops, barriers, the thermal control, loaded bundles (R297 to R311, R109, R375). -/
structure WorkPart where
  launches : Sparse Launch := []
  counters : Sparse Counter := []
  ends : List UnitEnd := []
  tokens : List Token := []
  casts : List Broadcast := []
  retires : List (Token × List Nat) := []
  bars : List BarWait := []
  halts : List Halt := []
  therm : Sparse ThermCluster := []
  rank : Sparse (List Nat) := []
  evaluated : Sparse Nat := []
  governed : Nat := 0
  kills : List Word := []
  thermTab : Sparse Therm := []
  bundles : List Bundle := []
  deriving DecidableEq, Repr

/-- Cluster engines (R20, R213 to R228, R236 to R252, R277). -/
structure EnginePart where
  copyq : Sparse Queue := []
  facq : Sparse Queue := []
  pairs : Sparse Pair := []
  acc : Sparse (BitVec 32) := []
  mslots : Sparse Mslot := []
  codebook : Sparse (BitVec 16) := []
  fac : Sparse (BitVec 32) := []
  order : Sparse Nat := []
  svc : Sparse Nat := []
  deriving DecidableEq, Repr

/-- Key directories and censuses (R322 to R335). -/
structure CensusPart where
  dirents : Sparse Dirent := []
  cores : Sparse CoreCensus := []
  open_ : List Census := []
  moves : List Move := []
  next : Nat := 0
  deriving DecidableEq, Repr

/-- K-link and PCIe (R360 to R368, R169). -/
structure LinkPart where
  ports : Sparse Port := []
  trans : List Trans := []
  bus : List Bus := []
  sent : List (Nat × Nat × Word) := []
  xid : Nat := 0
  pcie : Sparse Bool := []
  completers : List (Nat × Word × BitVec 6) := []
  hostAtomics : Bool := false
  deriving DecidableEq, Repr

/-- The hub die and firmware (R369 to R391). `barOut`: reads of BAR0, offset and value, as the host has received them; `cxl`: the
capacity present at each CXL port in frames (R16); `reserved`: runs of frames that firmware has reserved, each a first frame and a
number of frames (R358); `tables`: the bytes of the page-table reserve (R346). -/
structure HubPart where
  fw : Nat := 0
  testMode : Bool := false
  cqbase : Word := 0
  cqsize : Nat := 0
  cqtail : Nat := 0
  cqhead : Nat := 0
  apprun : BitVec 16 := 0
  barOut : List (Nat × Nat) := []
  cxl : Sparse Nat := []
  reserved : List (Nat × Nat) := []
  tables : Nat := 0
  ready : Sparse Nat := []
  therm : Vector Therm 4 := Vector.replicate 4 {}
  alarm : Sparse Alarm := []
  sensors : Sparse Sensor := []
  long : Option Long := none
  snap : List (BitVec 512) := []
  snapNum : Nat := 0
  snapAt : Option Nat := none
  linkWait : Option Nat := none
  cancelWait : Option (List Token) := none
  identified : Bool := false
  deriving DecidableEq, Repr

/-- What comes next: a strand's or stream's turn, an indivisible event, or an input from outside (log entry 1). -/
inductive Act where
  | turn (a : Agent) (far : Bool)
  | event (i : Instr)
  | evict (core sector : Nat)
  | early (unit : Nat)
  | conflict (core : Nat)
  | hostBytes (addr : Nat) (bs : List Byte)
  | hub (agent : Nat) (pa n : Nat) (store : Option Nat)
  | hubAtomic (agent : Nat) (pa n : Nat) (op : AmoOp) (opnd cmp : Nat)
  | sense (id : Nat) (raw : Int)
  | badCommand
  | landOutside (n : Nat)
  | sendFault (n : Nat)
  | softError (core word : Nat) (failed : Bool)
  | readBar0 (off : Nat)
  | failCommand
  | completer (port : Nat) (id : Word) (caps : BitVec 6)
  | peerTakes (port n : Nat)
  | messageTaken (port xid : Nat)
  deriving DecidableEq, Repr

/-- The whole machine. `mem` is every byte the device and its host hold, in one list of cells in canonical form. `agenda`,
`cur`, `far` and `fresh` are the model's own (log entries 1, 2 and 6). -/
structure State where
  time : TimePart := {}
  hub : HubPart := {}
  sregs : SregPart := {}
  mem : List Host.Cell := []
  coh : MemPart := {}
  core : CorePart := {}
  stat : StatPart := {}
  hold : HoldPart := {}
  page : PagePart := {}
  work : WorkPart := {}
  eng : EnginePart := {}
  census : CensusPart := {}
  link : LinkPart := {}
  agenda : List Act := []
  cur : Agent := .none
  far : Bool := false
  issues : Nat := 0
  turnNo : Nat := 0
  fresh : Nat := 0
  deriving DecidableEq, Repr

/-- The machine after reset: bring-up at phase ROMCHK, device time 0, nothing held, nothing loaded (R21, R370, R379,
R381). -/
def State.reset : State := {}

end Sys2Proof.Machine
end

