-- ==== Sys2Proof/Machine/Sparse.lean ====
section
/-! DEFINITION. Tables by number, the list of memory cells, and byte order (R1). -/

namespace Sys2Proof.Machine
open Sys2Proof

/-- The entry of a key, if the table lists one. -/
def tfind {α : Type} : Sparse α → Nat → Option α
  | [], _ => none
  | (j, w) :: r, k => if j = k then some w else tfind r k

/-- The table with the key's entry set, keys kept in rising order. -/
def tput {α : Type} : Sparse α → Nat → α → Sparse α
  | [], k, v => [(k, v)]
  | (j, w) :: r, k, v =>
    if k < j then (k, v) :: (j, w) :: r
    else if k = j then (k, v) :: r
    else (j, w) :: tput r k v

/-- The table without the key's entry. -/
def tdel {α : Type} (m : Sparse α) (k : Nat) : Sparse α := m.filter fun e => e.1 != k

/-- What the table holds for a key: its entry, or the default. -/
def tget {α : Type} (d : α) (m : Sparse α) (k : Nat) : α := (tfind m k).getD d

/-- The table holding `v` for a key; the default is not listed. -/
def tset {α : Type} [DecidableEq α] (d : α) (m : Sparse α) (k : Nat) (v : α) : Sparse α :=
  if v = d then tdel m k else tput m k v

/-- The canonical form of the memory: addresses strictly rising, no cell equal to what an unlisted address reads as. -/
def Memory.wf : List Host.Cell → Bool
  | [] => true
  | [c] => c.2 != 0
  | c :: d :: r => c.2 != 0 && decide (c.1 < d.1) && Memory.wf (d :: r)

/-- What a byte that nothing has written reads as (log entry 3). -/
def unlisted : Byte := 0

/-- One byte of memory. -/
def memByte (m : List Host.Cell) (a : Nat) : Byte := tget unlisted m a

/-- Memory with one byte written. -/
def memPut (m : List Host.Cell) (a : Nat) (b : Byte) : List Host.Cell := tset unlisted m a b

/-- `n` bytes from `a` up, as the number they make little-endian (R1). -/
def memRead (m : List Host.Cell) : Nat → Nat → Nat
  | _, 0 => 0
  | a, n + 1 => (memByte m a).toNat + 256 * memRead m (a + 1) n

/-- Memory with the low `n` bytes of `v` written from `a` up, little-endian (R1). -/
def memWrite (m : List Host.Cell) : Nat → Nat → Nat → List Host.Cell
  | _, 0, _ => m
  | a, n + 1, v => memWrite (memPut m a (BitVec.ofNat 8 v)) (a + 1) n (v / 256)

/-- `n` bytes from `a` up, lowest address first. -/
def memBytes (m : List Host.Cell) : Nat → Nat → List Byte
  | _, 0 => []
  | a, n + 1 => memByte m a :: memBytes m (a + 1) n

/-- Memory with a list of bytes written from `a` up. -/
def memPuts (m : List Host.Cell) : Nat → List Byte → List Host.Cell
  | _, [] => m
  | a, b :: r => memPuts (memPut m a b) (a + 1) r

/-- The number that bytes make, lowest first (R1). -/
def ofBytes : List Byte → Nat
  | [] => 0
  | b :: r => b.toNat + 256 * ofBytes r

/-- The low `n` bytes of a number, lowest first (R1). -/
def toBytes : Nat → Nat → List Byte
  | 0, _ => []
  | n + 1, v => BitVec.ofNat 8 v :: toBytes n (v / 256)

/-- A byte of the scratchpad of a core, as an address of the one memory (R14, R39). -/
def scratchAt (core off : Nat) : Nat := 2 ^ 60 + core * 2 ^ 19 + off
/-- A byte of an overlay frame (R73). -/
def frameAt (core frame off : Nat) : Nat := 2 ^ 61 + (core * 4 + frame) * 65536 + off
/-- A byte of the application boot memory (R369). -/
def bootAt (off : Nat) : Nat := 2 ^ 63 + off
/-- A byte of host memory (R371). -/
def hostAt (a : Nat) : Nat := 2 ^ 66 + a

/-- The first element that satisfies `p`, with its position. -/
def findPos {α : Type} (p : α → Bool) : List α → Nat → Option (Nat × α)
  | [], _ => none
  | x :: r, i => if p x then some (i, x) else findPos p r (i + 1)

/-- The list with element `n` changed. -/
def setAt {α : Type} : List α → Nat → α → List α
  | [], _, _ => []
  | _ :: r, 0, v => v :: r
  | x :: r, n + 1, v => x :: setAt r n v

/-- The list without its element `n`. -/
def dropAt {α : Type} : List α → Nat → List α
  | [], _ => []
  | _ :: r, 0 => r
  | x :: r, n + 1 => x :: dropAt r n

/-- The least number from `k` on, among `fuel` candidates, that satisfies `p`. -/
def leastFrom (p : Nat → Bool) : Nat → Nat → Option Nat
  | _, 0 => none
  | k, fuel + 1 => if p k then some k else leastFrom p (k + 1) fuel

end Sys2Proof.Machine
end

