-- ==== Sys2Proof/Machine/Ops.lean ====
section
/-! DEFINITION. The named operations of the machine: units and homes, registers of the acting agent, event queues and rings,
the end of a unit, taking a trap (R103 to R108) and the return from one by REPLAY (R119). -/

namespace Sys2Proof.Machine
open Sys2Proof

/-! ### Units (R12, R13) -/

/-- The UNIT field of a unit id (R12). -/
def unitOf (u : Nat) : Nat := u / 4 % 64
/-- The die of a unit id (R12). -/
def dieOf (u : Nat) : Nat := u / 256
/-- The number under which a cluster's state is kept: the unit id of its core 0, divided by 4. -/
def clusterOf (core : Nat) : Nat := core / 4
/-- The readiness code of a function (R382): 0 ABSENT, 1 STARTING, 2 READY, 3 FAILED. Cores and slices are named by unit id. -/
def readyCode (s : State) (k : Nat) : Nat := tget 0 s.hub.ready k
/-- Key of a cluster's readiness code. -/
def kCluster (c : Nat) : Nat := 2000 + c
/-- Key of HBM stack k of die d. -/
def kHbm (d k : Nat) : Nat := 3000 + 3 * d + k
/-- Key of K-link port p. -/
def kLink (p : Nat) : Nat := 3100 + p
/-- Key of CXL port p. -/
def kCxl (p : Nat) : Nat := 3110 + p
/-- Key of PCIe root port p. -/
def kPcie (p : Nat) : Nat := 3120 + p
/-- Key of application core i. -/
def kApp (i : Nat) : Nat := 3130 + i
/-- Key of the time, census and halt tree and the cancel broadcast. -/
def kTree (i : Nat) : Nat := 3150 + i
/-- A present core (R13, R382). -/
def corePresent (s : State) (u : Nat) : Bool :=
  decide (u < 1024) && decide (unitOf u ≤ 47) && readyCode s u == 2 && readyCode s (kCluster (clusterOf u)) == 2
/-- A present home slice (R12, R13). -/
def slicePresent (s : State) (u : Nat) : Bool :=
  decide (u < 1024) && decide (48 ≤ unitOf u) && decide (unitOf u ≤ 51) && readyCode s u == 2
/-- A present cluster, named by the unit id of its core 0. -/
def clusterPresent (s : State) (u : Nat) : Bool :=
  decide (u < 1024) && decide (unitOf u ≤ 47) && u % 4 == 0 && readyCode s (kCluster (clusterOf u)) == 2
/-- The unit id of home slice `i` of die `d` (R12). -/
def sliceId (d i : Nat) : Nat := d * 256 + 0xC0 + i
/-- A slice that is left out: excluded, not fitted, or failed (R13, R382). -/
def sliceOut (s : State) (u : Nat) : Bool := readyCode s u == 0 || readyCode s u == 3
/-- Home slice `i` of a die, or the next in ascending order modulo 16 that is not left out (R17). -/
def presentSlice (s : State) (d i : Nat) : Nat :=
  match leastFrom (fun k => !sliceOut s (sliceId d ((i + k) % 16))) 0 16 with
  | some k => sliceId d ((i + k) % 16)
  | none => sliceId d (i % 16)
/-- The default slice of a core (R163). -/
def defaultSlice (s : State) (core : Nat) : Nat := presentSlice s (dieOf core) (unitOf core % 16)
/-- The device time held at a unit (R21, R22). -/
def localDt (s : State) (u : Nat) : Nat := s.time.dt + tget 0 s.time.early u

/-! ### Handles and life entries (R24, R26) -/

/-- The entry a handle names: the handle without its generation. -/
def hKey (h : Word) : Nat := h.toNat / 65536
/-- GEN. -/
def hGen (h : Word) : Nat := h.toNat % 65536
/-- KIND. -/
def hKind (h : Word) : Nat := h.toNat / 2 ^ 60
/-- HOME. -/
def hHome (h : Word) : Nat := h.toNat / 2 ^ 50 % 1024
/-- INDEX. -/
def hIndex (h : Word) : Nat := h.toNat / 65536 % 2 ^ 34
/-- The key of entry `i` of a kind at a home. -/
def entryKey (kind home i : Nat) : Nat := kind * 2 ^ 44 + home * 2 ^ 34 + i
/-- A handle. -/
def mkHandle (key gen : Nat) : Word := BitVec.ofNat 64 (key * 65536 + gen)
/-- The life entry of a key. -/
def lifeOf (s : State) (key : Nat) : Life := tget {} s.hold.lives key
/-- The state with a life entry set. -/
def setLife (s : State) (key : Nat) (x : Life) : State := { s with hold.lives := tset {} s.hold.lives key x }
/-- The home of an entry key. -/
def keyHome (key : Nat) : Nat := key / 2 ^ 34 % 1024
/-- The handle of the entry's current generation. -/
def curHandle (s : State) (key : Nat) : Word := mkHandle key (lifeOf s key).gen
/-- A LIVE entry as its home sees it (R27, R31). -/
def isLive (s : State) (key : Nat) : Bool :=
  let x := lifeOf s key
  x.st == 1 && decide (localDt s (keyHome key) ≤ x.expiry)
/-- The handle names the entry's current generation and the entry is LIVE (R25, check 6). -/
def liveHandle (s : State) (h : Word) : Bool := (lifeOf s (hKey h)).gen == hGen h && isLive s (hKey h)
/-- The next generation of an entry (R24). -/
def nextGen (g : Nat) : Nat := if (g + 1) % 65536 == 0 then 1 else (g + 1) % 65536

/-! ### The acting agent's registers (R68, R91, R248) -/

/-- The strand bound to a slot. -/
def strandAt (s : State) (core slot : Nat) : Option Strand := tfind s.core.slots (core * 16 + slot)
/-- The state with a slot's strand set. -/
def putStrand (s : State) (core slot : Nat) (t : Strand) : State :=
  { s with core.slots := tput s.core.slots (core * 16 + slot) t }
/-- The state with a slot's strand changed. -/
def mapStrand (s : State) (core slot : Nat) (f : Strand → Strand) : State :=
  match strandAt s core slot with
  | some t => putStrand s core slot (f t)
  | none => s
/-- The sequencer pair of a cluster. -/
def pairAt (s : State) (k : Nat) : Pair := tget {} s.eng.pairs k
/-- The state with a pair set. -/
def putPair (s : State) (k : Nat) (p : Pair) : State := { s with eng.pairs := tset {} s.eng.pairs k p }
/-- One stream of a pair. -/
def Pair.stream (p : Pair) (compute : Bool) : Stream := if compute then p.compute else p.staging
/-- A pair with one stream set. -/
def Pair.setStream (p : Pair) (compute : Bool) (x : Stream) : Pair :=
  if compute then { p with compute := x } else { p with staging := x }
/-- A stream has performed an instruction: it is counted, and its final ETS kept (R61, R62). -/
def Pair.performed (p : Pair) (compute : Bool) : Pair :=
  let t := (p.stream compute).ctx.pts
  if compute then { p with kdone := p.kdone + 1, kets := max p.kets t } else { p with sdone := p.sdone + 1, sets := max p.sets t }
/-- The registers of the acting agent. -/
def curCtx (s : State) : Ctx :=
  match s.cur with
  | .strand c i => match strandAt s c i with
    | some t => t.ctx
    | none => {}
  | .stream k cp => ((pairAt s k).stream cp).ctx
  | .none => {}
/-- The state with the acting agent's registers changed. -/
def mapCtx (s : State) (f : Ctx → Ctx) : State :=
  match s.cur with
  | .strand c i => mapStrand s c i fun t => { t with ctx := f t.ctx }
  | .stream k cp =>
    let p := pairAt s k
    let x := p.stream cp
    putPair s k (p.setStream cp { x with ctx := f x.ctx })
  | .none => s
/-- A general register of the acting agent. -/
def rG (s : State) (r : GReg) : Word := (curCtx s).g.get r
/-- The state with a general register written. -/
def wG (s : State) (r : GReg) (v : Word) : State := mapCtx s fun c => { c with g := c.g.set r v }
/-- A predicate of the acting agent; p0 reads true (R68). -/
def rP (s : State) (p : PReg) : Bool := p.val == 0 || (curCtx s).p.getLsbD p.val
/-- The byte with one bit set to a value. -/
def setBit8 (b : Byte) (n : Nat) (v : Bool) : Byte :=
  if v then b ||| BitVec.ofNat 8 (2 ^ n) else b &&& ~~~(BitVec.ofNat 8 (2 ^ n))
/-- The state with a predicate written; p0 keeps its 1. -/
def wP (s : State) (p : PReg) (v : Bool) : State := mapCtx s fun c => { c with p := setBit8 c.p p.val v ||| 1 }
/-- The PTS, or ETS, of the acting agent (R46, R61). -/
def rPts (s : State) : Nat := (curCtx s).pts
/-- A strand with its PTS set; a change restarts the count of lease hits (R48). -/
def Strand.withPts (t : Strand) (n : Nat) : Strand :=
  { t with ctx := { t.ctx with pts := n }, lhit := if n == t.ctx.pts then t.lhit else 0 }
/-- The state with the PTS set. -/
def wPts (s : State) (n : Nat) : State :=
  match s.cur with
  | .strand c i => mapStrand s c i (·.withPts n)
  | _ => mapCtx s fun c => { c with pts := n }
/-- The word the acting agent performs. -/
def curWord (s : State) : IWord := (curCtx s).iw
/-- PC.OVL and PC.IDX (R73). -/
def pcOvl (pc : BitVec 32) : Nat := pc.toNat / 65536
/-- PC.IDX (R73). -/
def pcIdx (pc : BitVec 32) : Nat := pc.toNat % 65536
/-- A PC. -/
def mkPc (ovl idx : Nat) : BitVec 32 := BitVec.ofNat 32 (ovl % 65536 * 65536 + idx % 65536)
/-- The PC of the next instruction: IDX + 1, no carry into OVL (R74). -/
def nextPc (pc : BitVec 32) : BitVec 32 := mkPc (pcOvl pc) (pcIdx pc + 1)
/-- The state with the PC at the next instruction (R74). -/
def advance (s : State) : State := mapCtx s fun c => { c with pc := nextPc c.pc }
/-- The state with the PC at a target. -/
def jump (s : State) (pc : BitVec 32) : State := mapCtx s fun c => { c with pc := pc }
/-- The core the acting agent issues from: a stream's is its forking strand's (R248, R253). -/
def curCore (s : State) : Nat :=
  match s.cur with
  | .strand c _ => c
  | .stream k _ => (pairAt s k).owner.core
  | .none => 0
/-- The generation of a slot (R93). -/
def slotGenOf (s : State) (core slot : Nat) : Nat := tget 0 s.core.slotGen (core * 16 + slot)
/-- The acting strand's tag, or the tag of a stream's forking strand. -/
def curTag (s : State) : Tag :=
  match s.cur with
  | .strand c i => { core := c, slot := i, gen := slotGenOf s c i }
  | .stream k _ => (pairAt s k).owner
  | .none => {}
/-- A tag as a u32 (R93). -/
def tagBits (t : Tag) : Nat := t.gen % 65536 * 65536 + t.core % 1024 * 64 + (if t.park then 32 else 0) + t.slot % 32
/-- The tag a u32 names (R93). -/
def tagOf (v : Nat) : Tag :=
  { gen := v / 65536 % 65536, core := v / 64 % 1024, park := v / 32 % 2 == 1, slot := v % 32 }
/-- The strand a tag names, when the tag is of a slot and not stale (R93). -/
def tagged (s : State) (t : Tag) : Option Strand :=
  if !t.park && decide (t.slot < 16) && slotGenOf s t.core t.slot == t.gen then strandAt s t.core t.slot else none
/-- The context of the acting agent (R29, R248). -/
def curCtxh (s : State) : Word :=
  match s.cur with
  | .strand c i => match strandAt s c i with
    | some t => t.ctxh
    | none => 0
  | .stream k _ => (pairAt s k).ctxh
  | .none => 0
/-- The record the acting agent descends from. -/
def curRec (s : State) : Rec :=
  match s.cur with
  | .strand c i => match strandAt s c i with
    | some t => t.record
    | none => {}
  | .stream k _ => (pairAt s k).record
  | .none => {}
/-- The base of the acting agent's private region (R41, R253). -/
def curPrivb (s : State) : Word :=
  match s.cur with
  | .strand c i => match strandAt s c i with
    | some t => t.privb
    | none => 0
  | .stream k _ => (pairAt s k).privb
  | .none => 0
/-- A launch entry (R302). -/
def launchAt (s : State) (n : Nat) : Launch := tget {} s.work.launches n
/-- The state with a launch entry set. -/
def putLaunch (s : State) (n : Nat) (l : Launch) : State := { s with work.launches := tset {} s.work.launches n l }
/-- The launch of the acting agent. -/
def curLaunch (s : State) : Launch := launchAt s (curRec s).launch.toNat
/-- The acting strand is out of rotation in STATE `st`, waiting for `w` (R92). -/
def suspend (s : State) (st : Nat) (w : Wait) : State :=
  match s.cur with
  | .strand c i => mapStrand s c i fun t => { t with st := st, wait := w }
  | .stream k cp =>
    let p := pairAt s k
    putPair s k (p.setStream cp { p.stream cp with wait := true })
  | .none => s
/-- A count in a table, raised by one. -/
def bump (m : Sparse Nat) (k : Nat) : Sparse Nat := tset 0 m k (tget 0 m k + 1)
/-- A flit or request dropped as stale is counted (R93). -/
def countStale (s : State) (core : Nat) : State := { s with core.stale := bump s.core.stale core }
/-- A service counter of a cluster raised by `n` (R384). -/
def countSvc (s : State) (cluster idx n : Nat) : State :=
  { s with eng.svc := tset 0 s.eng.svc (cluster * 32 + idx) (tget 0 s.eng.svc (cluster * 32 + idx) + n) }
/-- DTIME as a strand would read it (R23). -/
def strandDt (s : State) (core : Nat) (t : Strand) : Nat := max (localDt s core) t.dtlast

/-! ### Records (R297) -/

/-- A record from its 32 bytes. -/
def recOf (b : BitVec 256) : Rec :=
  { code := b.extractLsb' 0 32, prio := b.extractLsb' 32 8, flags := b.extractLsb' 40 8, launch := b.extractLsb' 48 16,
    frame := b.extractLsb' 64 64, join := b.extractLsb' 128 64, graph := b.extractLsb' 192 32, phase := b.extractLsb' 224 32 }
/-- A record's 32 bytes. -/
def recBits (r : Rec) : BitVec 256 :=
  r.phase ++ r.graph ++ r.join ++ r.frame ++ r.launch ++ r.flags ++ r.prio ++ r.code
/-- A record's priority, 0 to 15. -/
def recPrio (r : Rec) : Nat := r.prio.toNat % 16
/-- The code pointer names an instruction (R73, R297). -/
def codeOk (pc : Nat) : Bool :=
  decide (pc < 2 ^ 32) && pc / 65536 != 0 && pc / 65536 != 0xFFFF && decide (pc % 65536 ≤ 5460)
/-- The fields software writes are as R297 has them. -/
def recOk (r : Rec) : Bool := codeOk r.code.toNat && decide (r.prio.toNat < 16) && decide (r.flags.toNat < 16)
/-- The record, of a unit of launch entry, graph and phase, matches the token (R305). -/
def matchesToken (r : Rec) (t : Token) : Bool :=
  match t.level with
  | 0 => r.launch.toNat == t.id
  | 1 => r.graph.toNat == t.id
  | 2 => r.phase.toNat == t.id
  | _ => false
/-- The core has taken a token the record matches (R304, R305). -/
def filtered (s : State) (core : Nat) (r : Rec) : Bool := (tget [] s.core.filter core).any (matchesToken r)

/-! ### Event queues (R222, R175) and messages -/

/-- The event queue of a key. -/
def evqAt (s : State) (key : Nat) : Evq := tget {} s.hold.evqs key
/-- The state with an event queue set. -/
def putEvq (s : State) (key : Nat) (q : Evq) : State := { s with hold.evqs := tset {} s.hold.evqs key q }
/-- A record sent to an event queue under a context (R221): it is in transit until the home takes it. -/
def postEvq (s : State) (q ctxh : Word) (m : Msg) : State :=
  { s with hold.arriving := s.hold.arriving ++ [{ q := q, ctxh := ctxh, msg := m }] }
/-- The strands waiting in PARK on a queue are woken by an arrival (R97, R116). -/
def wakeParked (s : State) (key : Nat) : State :=
  let q := evqAt s key
  { putEvq s key { q with parked := [] } with
    hold.wakes := s.hold.wakes ++ q.parked.map fun t => { tag := t, q := mkHandle key 0 } }
/-- The queue's records are served to the longest blocked takers, then waiting arrivals are admitted (R172, R175, R222). The
number of rounds is bounded by what there is to serve. -/
def serveEvq (s : State) (key : Nat) : Nat → State
  | 0 => s
  | n + 1 =>
    let q := evqAt s key
    match q.blocked with
    | b :: bs =>
      if b.want ≤ q.recs.length then
        serveEvq { putEvq s key { q with blocked := bs, recs := q.recs.drop b.want } with
          hold.wakes := s.hold.wakes ++ [{ tag := b.tag, q := curHandle s key, msgs := q.recs.take b.want, issue := b.issue }] } key n
      else match q.waiting with
        | w :: ws =>
          if q.recs.length < q.cap then serveEvq (putEvq s key { q with recs := q.recs ++ [w], waiting := ws }) key n else s
        | [] => s
    | [] => match q.waiting with
      | w :: ws =>
        if q.recs.length < q.cap then serveEvq (putEvq s key { q with recs := q.recs ++ [w], waiting := ws }) key n else s
      | [] => s
/-- Rounds enough to serve a queue. -/
def evqFuel (q : Evq) : Nat := q.blocked.length + q.waiting.length + 1
/-- A record taken by the queue's home: at the tail, or waiting outside while the queue is full (R222). -/
def landRecord (s : State) (key : Nat) (m : Msg) : State :=
  let q := evqAt s key
  let q' : Evq := { q with waiting := q.waiting ++ [m] }
  wakeParked (serveEvq (putEvq s key q') key (evqFuel q')) key
/-- Records free in a queue. -/
def evqFree (q : Evq) : Nat := q.cap - q.recs.length
/-- What stands for the route of a message that a K-link port has delivered: its port and transaction id (R368). No ROUTE handle equals it, so
that of a message for a strand no RECV or POLL is told and its place in the channel buffer stays taken (DESIGN CHOICE, log entry 50). -/
def importRoute (port xid : Nat) : Word := BitVec.ofNat 64 (14 * 2 ^ 60 + port * 2 ^ 32 + xid % 2 ^ 32)
/-- The message came through a route of this device. -/
def ownRoute (h : Word) : Bool := h != 0 && hKind h != 14
/-- The credit of a route's message goes back to the route's home (R172). -/
def returnCredit (s : State) (m : Msg) : State :=
  if !ownRoute m.route then s else { s with hold.credits := s.hold.credits ++ [m.route] }

/-! ### Ready rings (R299, R46) -/

/-- The ring of a core and priority. -/
def ringAt (s : State) (core prio : Nat) : List RingEntry := tget [] s.core.rings (core * 16 + prio)
/-- The state with a ring set. -/
def putRing (s : State) (core prio : Nat) (r : List RingEntry) : State :=
  { s with core.rings := tset [] s.core.rings (core * 16 + prio) r }
/-- The push timestamp of a ring (R46). -/
def ringTsOf (s : State) (core prio : Nat) : Nat := tget 0 s.core.ringTs (core * 16 + prio)
/-- The stage queue a record of FLAGS.STG goes to, as its launch's stage number (R307). -/
def recStage (r : Rec) : Option Nat := if r.flags.getLsbD 0 then some (r.flags.toNat / 2 % 8) else none
/-- The entries a ready ring, or a stage queue, holds at most (R299, R307). -/
def ringSize : Nat := 4096
/-- An entry as it joins a ring or queue at a device time: a record takes the largest timestamp pushed there (R46). -/
def RingEntry.join (x : RingEntry) (dt ts : Nat) : RingEntry :=
  match x with
  | .record r _ pushed resp restart => .record r dt (max ts pushed) resp restart
  | .resume t _ => .resume t dt
/-- The push timestamp an entry leaves with the ring or queue it joins (R46). -/
def RingEntry.ringTs (x : RingEntry) (ts : Nat) : Nat :=
  match x with
  | .record _ _ pushed _ _ => max ts pushed
  | .resume _ _ => ts
/-- An entry joins the ring of a core and priority at its tail (R299). -/
def joinRing (s : State) (core prio : Nat) (x : RingEntry) : State :=
  let ts := ringTsOf s core prio
  putRing { s with core.ringTs := tset 0 s.core.ringTs (core * 16 + prio) (x.ringTs ts), core.idle := s.core.idle.filter (· != core) }
    core prio (ringAt s core prio ++ [x.join (localDt s core) ts])
/-- An entry joins the queue of a stage of a launch at its tail (R307). -/
def joinStage (s : State) (n k core : Nat) (x : RingEntry) : State :=
  let l := launchAt s n
  match l.stages[k]? with
  | some g =>
    putLaunch { s with core.idle := s.core.idle.filter fun c => !g.clusters.contains (clusterOf c) } n
      { l with stages := setAt l.stages k { g with ts := x.ringTs g.ts, queue := g.queue ++ [x.join (localDt s core) g.ts] } }
  | none => s
/-- The ring, or the stage queue, is full. -/
def ringFull (s : State) (stage : Option (Nat × Nat)) (core prio : Nat) : Bool :=
  match stage with
  | some (n, k) => ((launchAt s n).stages[k]?).any fun g => decide (ringSize ≤ g.queue.length)
  | none => decide (ringSize ≤ (ringAt s core prio).length)
/-- An entry joins where it belongs. -/
def joinEntry (s : State) (stage : Option (Nat × Nat)) (core prio : Nat) (x : RingEntry) : State :=
  match stage with
  | some (n, k) => joinStage s n k core x
  | none => joinRing s core prio x
/-- The push waits behind another outside the same ring or queue. -/
def Outside.same (o : Outside) (stage : Option (Nat × Nat)) (core prio : Nat) : Bool :=
  o.stage == stage && (stage.isSome || (o.core == core && o.prio == prio))
/-- An entry is pushed: on a ring or queue with room, else it waits outside in the order of the pushes (R299, R307). -/
def pushEntry (s : State) (stage : Option (Nat × Nat)) (core prio : Nat) (x : RingEntry) : State :=
  if ringFull s stage core prio || s.core.outside.any (·.same stage core prio) then
    { s with core.outside := s.core.outside ++ [{ stage := stage, core := core, prio := prio, entry := x, ticket := s.core.tickets }],
             core.tickets := s.core.tickets + 1 }
  else joinEntry s stage core prio x
/-- The `n`-th push that waits outside joins its ring or queue, when that has room and none waits there before it (R299). -/
def landOutside (s : State) (n : Nat) : State :=
  match s.core.outside[n]? with
  | some o =>
    if ringFull s o.stage o.core o.prio || (s.core.outside.take n).any (·.same o.stage o.core o.prio) then s
    else joinEntry { s with core.outside := dropAt s.core.outside n } o.stage o.core o.prio o.entry
  | none => s
/-- A record pushed on the ring of its priority at a core, with a push timestamp (R299). -/
def pushRing (s : State) (core : Nat) (r : Rec) (ts : Nat) (resp : Option (Nat × Nat)) (restart : Option (List Tag)) : State :=
  pushEntry s none core (recPrio r) (.record r 0 ts resp restart)
/-- A record pushed where it belongs: its stage's queue, or the ring (R299, R307). -/
def pushRecord (s : State) (core : Nat) (r : Rec) (ts : Nat) : State :=
  let n := r.launch.toNat
  match recStage r with
  | some k =>
    if ((launchAt s n).stages[k]?).isSome then pushEntry s (some (n, k)) core 0 (.record r 0 ts none none)
    else pushRing s core r ts none none
  | none => pushRing s core r ts none none
/-- The pusher of what has had to wait outside a full ring since `tickets` were given waits with it (R299). -/
def awaitRoom (tickets : Nat) (t : State) : State :=
  if tickets < t.core.tickets then suspend t 1 (.room tickets t.core.tickets) else t
/-- A strand queued as a resume entry on its core's ring at PRIO (R96, R98). -/
def pushResume (s : State) (core : Nat) (t : Strand) : State := pushEntry s none core (recPrio t.record) (.resume t 0)

/-! ### The end of a unit (R95, R303, R328) -/

/-- A responder of a census ends (R328): its frame is freed and the census told. -/
def responderEnds (s : State) (core id : Nat) : State :=
  let c := tget {} s.census.cores core
  let c := { c with resp := c.resp.map fun r => if r.id == id then { r with ended := true } else r }
  { s with census.cores := tset {} s.census.cores core c }
/-- A unit's end, told to its launch entry or, for a responder, to its census (R303, R328). -/
def unitEnds (s : State) (r : Rec) (ts cause : Nat) (resp : Option (Nat × Nat)) : State :=
  match resp with
  | some (core, id) => responderEnds s core id
  | none => { s with work.ends := s.work.ends ++ [{ launch := r.launch.toNat, ts := ts, cause := cause }] }
/-- A ready ring of the core, or a stage queue its cluster serves, holds a record of the launch (R300). -/
def hasRecords (s : State) (l : Launch) (n core : Nat) : Bool :=
  (List.range 16).any (fun p => (ringAt s core p).any fun
    | .record r .. => r.launch.toNat == n
    | .resume .. => false) || l.stages.any fun g => !g.queue.isEmpty && g.clusters.contains (clusterOf core)
/-- The region of a started strand is freed (R316): a core with records of the launch may bind again (R300). -/
def freeRegion (s : State) (t : Strand) : State :=
  let n := t.record.launch.toNat
  let l := launchAt s n
  putLaunch { s with core.idle := s.core.idle.filter fun c => !hasRecords s l n c } n { l with used := l.used.filter (· != t.region) }
/-- Accumulator slots tagged to a strand that ends, under any of the tags it has had, are orphaned and parked (R34, R252). -/
def orphan (s : State) (tags : List Tag) : State :=
  { s with eng.mslots := s.eng.mslots.map fun e => (e.1, if tags.contains e.2.tag then { e.2 with parked := true } else e.2) }
/-- The tags of a strand, its own and former ones, that accumulator slots still bear: kept when it is bound anew (R30, R34). -/
def keptTags (s : State) (tag : Tag) (former : List Tag) : List Tag :=
  (tag :: former).filter fun t => s.eng.mslots.any fun e => e.2.tag == t
/-- A pair whose forking strand has ended, or whose work is cancelled, goes IDLE once no stream runs; a fault it still holds is
counted as delivered to nobody (R249, R384). Another pair stays as it is. -/
def settlePair (s : State) (k : Nat) : State :=
  let p := pairAt s k
  if p.ended && p.st != 0 && p.staging.st != 1 && p.compute.st != 1 then
    let s := if p.fault.isSome then countSvc s k 23 1 else s
    putPair s k { p with st := 0, fifo := [], fault := none, ended := false }
  else s
/-- An open fork of the strand runs on without it, and a FORK it waits for is withdrawn (R249). -/
def abandonForks (s : State) (tag : Tag) : State :=
  let k := clusterOf tag.core
  let p := pairAt s k
  let p := { p with forks := p.forks.filter (· != tag) }
  if p.st != 0 && p.owner == tag then settlePair (putPair s k { p with ended := true }) k else putPair s k p
/-- The strand leaves the semaphores of its cluster (R273). -/
def leaveSems (s : State) (tag : Tag) : State :=
  let k := clusterOf tag.core
  let p := pairAt s k
  putPair s k { p with sems := p.sems.map fun e => (e.1, { e.2 with queue := e.2.queue.filter (· != .strand tag.core tag.slot) }) }
/-- The slot is freed: the binding is gone, whatever waited for the strand finds its tag stale when the slot binds anew. -/
def freeSlot (s : State) (core slot : Nat) : State :=
  { s with core.slots := tdel s.core.slots (core * 16 + slot), core.idle := s.core.idle.filter (· != core) }
/-- The tag of a LOCK request with its lock, for a LOCK; a SEND's tag (R166, R171). -/
def HoldReq.sendOf (r : HoldReq) (tag : Tag) : Bool := r.tag == tag && match r.op with | .send .. => true | _ => false
/-- The lock that a strand's LOCK request in transit asks for. -/
def HoldReq.lockOf (r : HoldReq) (tag : Tag) : Option Nat :=
  if r.tag == tag then match r.op with | .lock _ h _ _ => some (hKey h) | _ => none else none
/-- The strand leaves the lists of those who wait at a home, which serves those behind it as it takes the news, and it withdraws requests
that are on the way: a SEND then sends nothing, and a withdrawal follows a LOCK to its home (R171, R175, R166, R195, R196, R273). -/
def withdraw (s : State) (tag : Tag) : State :=
  let left := (s.hold.evqs.filter fun e => e.2.blocked.any fun b => b.tag == tag).map (·.1)
    ++ (s.hold.routes.filter fun e => e.2.waiting.any fun w => w.tag == tag).map (·.1)
  let s := leaveSems s tag
  { s with
    hold.evqs := s.hold.evqs.map fun e =>
      (e.1, { e.2 with blocked := e.2.blocked.filter (fun b => b.tag != tag), parked := e.2.parked.filter (· != tag) })
    hold.routes := s.hold.routes.map fun e => (e.1, { e.2 with waiting := e.2.waiting.filter fun w => w.tag != tag })
    hold.reqs := s.hold.reqs.filter (fun r => !r.sendOf tag) ++ left.map fun key => { tag := {}, ctxh := 0, pts := 0, op := .served key }
    hold.withdrawals := s.hold.withdrawals ++
      (s.hold.locks.filter fun e => e.2.queue.any fun w => w.tag == tag).map (fun e => (e.1, tag))
      ++ (s.hold.reqs.filterMap (·.lockOf tag)).map fun k => (k, tag) }
/-- Records taken for a strand that can no longer take them go back to their queue's home (R175). -/
def giveBack (s : State) (tag : Tag) (t : Strand) : State :=
  if t.got.isEmpty then s else { s with hold.returns := s.hold.returns ++ [{ tag := tag, q := t.gotQ, msgs := t.got }] }
/-- A strand ends: its image is discarded and its slot freed, its unit ends (R95, R303). -/
def endStrand (s : State) (core slot cause : Nat) : State :=
  match strandAt s core slot with
  | some t =>
    let tag : Tag := { core := core, slot := slot, gen := slotGenOf s core slot }
    let s := giveBack (withdraw (orphan (abandonForks s tag) (tag :: t.former)) tag) tag t
    freeSlot (freeRegion (unitEnds s t.record t.ctx.pts cause t.resp) t) core slot
  | none => s

/-! ### Taking a trap (R103 to R108) -/

/-- The cause's code (R104). -/
def causeCode : Cause → Nat
  | .illegalOpcode => 0x01 | .reservedBits => 0x02 | .badOperand => 0x03 | .misaligned => 0x04 | .pageFault => 0x05
  | .protection => 0x06 | .lapsed => 0x07 | .windowRefused => 0x08 | .overlayMiss => 0x09 | .streamDesync => 0x0A
  | .scaleRange => 0x0B | .factorIndefinite => 0x0C | .factorShape => 0x0D | .atomicUncarried => 0x0E | .divideZero => 0x0F
  | .fpTrap => 0x10 | .cancelled => 0x11 | .peerGone => 0x12 | .censusLimit => 0x13 | .step => 0x14 | .brk => 0x15
  | .softError => 0x16 | .exhausted => 0x17
/-- The cause of a code (R104, R363). -/
def causeOf? (n : Nat) : Option Cause :=
  [Cause.illegalOpcode, .reservedBits, .badOperand, .misaligned, .pageFault, .protection, .lapsed, .windowRefused,
   .overlayMiss, .streamDesync, .scaleRange, .factorIndefinite, .factorShape, .atomicUncarried, .divideZero, .fpTrap,
   .cancelled, .peerGone, .censusLimit, .step, .brk, .softError, .exhausted][n - 1]?

/-- What becomes of a strand that traps (R103). -/
inductive TrapClass where
  | restart | resume | fatal | quiet
  deriving DecidableEq, Repr

/-- The class of a trap (R103, R104); BREAK is Fatal from TRAP (R114). -/
def trapClass (e : Exc) : TrapClass :=
  if e.fatal then .fatal else match e.cause with
  | .pageFault | .overlayMiss => .restart
  | .lapsed | .windowRefused | .atomicUncarried | .divideZero | .fpTrap | .factorIndefinite | .peerGone | .censusLimit
  | .step => .resume
  | .brk => if e.sw then .fatal else .resume
  | .cancelled => .quiet
  | .illegalOpcode | .reservedBits | .badOperand | .misaligned | .protection | .streamDesync | .scaleRange | .factorShape
  | .softError | .exhausted => .fatal

/-- INFO1 in the default layout (R105). -/
def defaultInfo1 (iw : IWord) (e : Exc) : Word :=
  BitVec.ofNat 64 ((iw.extractLsb' 64 32).toNat + e.step % 256 * 2 ^ 32 + e.detail % 256 * 2 ^ 40)
/-- INFO1 of a trap (R106): its own, or the default layout. -/
def excInfo1 (iw : IWord) (e : Exc) : Word := e.info1.getD (defaultInfo1 iw e)
/-- The 32 bytes of a trap record (R105): FLAGS are FATAL, RESTART, HELD and SW. -/
def trapBytes (t : Strand) (tag : Tag) (dtlo : Nat) (e : Exc) (fatal restart held : Bool) : BitVec 256 :=
  let flags := (if fatal then 1 else 0) + (if restart then 2 else 0) + (if held then 4 else 0) + (if e.sw then 8 else 0)
  BitVec.ofNat 256 (causeCode e.cause + flags * 256 + t.ctx.pc.toNat * 2 ^ 32 + tagBits tag * 2 ^ 64
    + dtlo % 2 ^ 32 * 2 ^ 96 + e.info0.toNat * 2 ^ 128 + (excInfo1 t.ctx.iw e).toNat * 2 ^ 192)
/-- A record is marked HELD (R105, R107). -/
def markHeld (b : BitVec 256) : BitVec 256 := b ||| BitVec.ofNat 256 (4 * 256)
/-- The queue admits a trap record: 1 entry free for a fatal one, 2 for another (R107). -/
def trapRoom (q : Evq) (fatal : Bool) : Bool := if fatal then decide (1 ≤ evqFree q) else decide (2 ≤ evqFree q)
/-- A trap record lands in its queue, or is dropped when the queue has lapsed (R34, R107). -/
def landTrap (s : State) (r : TrapRec) : State :=
  if liveHandle s r.tq then landRecord s (hKey r.tq) { bytes := r.bytes }
  else { s with hold.dropped := s.hold.dropped + 1 }
/-- R107 admits a record to its trap queue; one whose queue has lapsed is dropped there. -/
def admitsRecord (s : State) (r : TrapRec) : Bool := !liveHandle s r.tq || trapRoom (evqAt s (hKey r.tq)) r.fatal
/-- A trap record raised at a core: it lands when R107 admits it and none it must follow to its queue is held there, else it is
held. -/
def raiseRecord (s : State) (core : Nat) (r : TrapRec) : State :=
  let held := tget [] s.core.held core
  let first := !held.any fun h => h.tq == r.tq && (h.fatal || !r.fatal)
  if first && admitsRecord s r then landTrap s r
  else { s with core.held := tset [] s.core.held core (held ++ [{ r with bytes := markHeld r.bytes }]) }
/-- A free park entry of a core, the lowest (R108). -/
def freePark (s : State) (core : Nat) : Option Nat :=
  leastFrom (fun i => !(tget {} s.core.park (core * 32 + i)).used) 0 32
/-- A park entry takes a record and a timestamp under a new tag (R108); the tag is answered. -/
def parkRecord (s : State) (core i slot : Nat) (t : Strand) (ovl : Nat) : State × Tag :=
  let p := tget {} s.core.park (core * 32 + i)
  let g := nextGen p.gen
  let e : Park := { used := true, gen := g, record := t.record, pts := t.ctx.pts, ovl := ovl, resp := t.resp, ctxh := t.ctxh,
                    former := keptTags s { core := core, slot := slot, gen := slotGenOf s core slot } t.former }
  ({ s with core.park := tset {} s.core.park (core * 32 + i) e },
   { core := core, slot := i, gen := g, park := true })
/-- The overlay is in the bundle of a context (R103, R375): its address and length there. -/
def bundleEntry (s : State) (ctxh : Word) (bundle ovl : Nat) : Option (Nat × Nat) :=
  ((s.work.bundles.find? fun b => b.number == bundle && b.ctxh == ctxh).bind fun b => b.ovls.find? fun o => o.1 == ovl).map (·.2)
/-- The overlay is in the launch's bundle. -/
def inBundle (s : State) (l : Launch) (ovl : Nat) : Bool := (bundleEntry s l.ctxh l.bundle ovl).isSome
/-- The copy queue of a cluster (false) or its factor queue (true). -/
def queueAt (s : State) (k : Nat) (factor : Bool) : Queue := tget {} (if factor then s.eng.facq else s.eng.copyq) k
/-- The state with an engine queue set. -/
def putQueue (s : State) (k : Nat) (factor : Bool) (q : Queue) : State :=
  if factor then { s with eng.facq := tset {} s.eng.facq k q } else { s with eng.copyq := tset {} s.eng.copyq k q }
/-- The key of a page-table entry: its context and virtual page number (R348). -/
def pteKey (ctxh : Word) (vpn : Nat) : Nat := hKey ctxh * 2 ^ 40 + vpn
/-- A page-table entry. -/
def pteAt (s : State) (ctxh : Word) (vpn : Nat) : Pte := tget {} s.page.pte (pteKey ctxh vpn)
/-- A range record (R347). -/
def rangeAt (s : State) (key : Nat) : Range := tget {} s.hold.ranges key
/-- The state with a range record set. -/
def putRange (s : State) (key : Nat) (r : Range) : State := { s with hold.ranges := tset {} s.hold.ranges key r }
/-- PRESENT pages among `n` from a page number up (R352). -/
def residents (s : State) (ctxh : Word) (vpn : Nat) : Nat → Nat
  | 0 => 0
  | n + 1 => (if (pteAt s ctxh (vpn + n)).st == 1 then 1 else 0) + residents s ctxh vpn n
/-- The prefetcher's span, log2 of its bytes (R352): doubled while the enclosing block is inside the range and resident
enough. -/
def spanLog (s : State) (ctxh : Word) (r : Range) (va : Nat) : Nat → Nat → Nat
  | k, 0 => k
  | k, fuel + 1 =>
    let b := va / 2 ^ (k + 1) * 2 ^ (k + 1)
    if k < r.pfb && decide (r.base ≤ b) && decide (b + 2 ^ (k + 1) ≤ r.base + r.size)
        && decide (r.pft * 2 ^ (k + 1 - 16) ≤ 256 * residents s ctxh (b / 65536) (2 ^ (k + 1 - 16))) then
      spanLog s ctxh r va (k + 1) fuel
    else k
/-- The span proposed for a fault at an address: 2 MiB pages take one page (R352). -/
def spanOf (s : State) (ctxh : Word) (r : Range) (va : Nat) : Nat := if r.lp then 21 else spanLog s ctxh r va 16 6
/-- A fault-queue record (R351). -/
def faultBits (f : FaultEntry) (dtlo : Nat) : BitVec 256 :=
  BitVec.ofNat 256 (1 + ((if f.write then 1 else 0) + (if f.engine then 2 else 0)) * 2 ^ 8 + f.count % 65536 * 2 ^ 16
    + (if f.engine && f.tag == ({} : Tag) then 0 else tagBits f.tag) * 2 ^ 32 + f.va * 2 ^ 64 + f.range.toNat * 2 ^ 128
    + f.span % 256 * 2 ^ 192 + dtlo % 2 ^ 32 * 2 ^ 224)
/-- The page of an address of a range. -/
def pageBase (r : Range) (va : Nat) : Nat := if r.lp then va / 2 ^ 21 * 2 ^ 21 else va / 65536 * 65536
/-- The fault queue of a range passes R25 for the range's context (R351). -/
def faultQueueOk (s : State) (r : Range) (owner : Word) : Bool :=
  hKind r.fq == 7 && slicePresent s (hHome r.fq) && liveHandle s r.fq && (lifeOf s (hKey r.fq)).owner == owner
/-- A counter of a die's prefetcher raised by one (R384, page 2). -/
def countPref (s : State) (die i : Nat) : State := { s with page.pref := bump s.page.pref (die * 8 + i) }
/-- A span of more than the faulting page is proposed (R352): counted in the prefetcher's counter 0 (R384). -/
def countSpan (s : State) (key : Nat) (r : Range) : State := if r.lp then s else countPref s (dieOf (keyHome key)) 0
/-- A fault on a pager-backed range: posted to the range's fault queue, merged with the page's open entry, or dropped when
the queue fails R25 (R351). `tag` is the faulter's park entry; an engine has none. -/
def postFault (s : State) (range : Word) (va : Nat) (write : Bool) (tag : Option Tag) : State :=
  let key := hKey range
  let r := rangeAt s key
  let owner := (lifeOf s key).owner
  let page := pageBase r va
  match findPos (fun f => f.range == range && f.va == page) s.page.faults 0 with
  | some (n, f) =>
    let f : FaultEntry :=
      { f with write := f.write || write, engine := f.engine || tag.isNone, count := min 65535 (f.count + 1),
               linked := f.linked ++ tag.toList }
    { s with page.faults := setAt s.page.faults n f }
  | none =>
    let f : FaultEntry := { range := range, va := page, write := write, engine := tag.isNone, count := 1,
                            tag := tag.getD {}, linked := [], span := spanOf s owner r va, at_ := localDt s (keyHome key), sent := false }
    if faultQueueOk s r owner then
      countSpan { putRange s key { r with faults := r.faults + 1 } with page.faults := s.page.faults ++ [f] } key r
    else putRange s key { r with drops := r.drops + 1 }
/-- The record of the `n`-th open entry is sent, with what has merged into it so far, once those its home posted before it have been
(R351; log entry 44). -/
def sendFault (s : State) (n : Nat) : State :=
  match s.page.faults[n]? with
  | some f =>
    let home := hHome f.range
    if f.sent || (s.page.faults.take n).any (fun g => !g.sent && hHome g.range == home) then s
    else
      postEvq { s with page.faults := setAt s.page.faults n { f with sent := true } } (rangeAt s (hKey f.range)).fq
        (lifeOf s (hKey f.range)).owner { bytes := faultBits f f.at_ }
  | none => s
/-- The entry at a position leaves the list; a record it has not sent goes first (R351). -/
def dropFault (s : State) (n : Nat) : State :=
  let s := (List.range (n + 1)).foldl (fun s i =>
    if (s.page.faults[i]?).any (fun f => (s.page.faults[n]?).any fun g => hHome f.range == hHome g.range) then sendFault s i else s) s
  { s with page.faults := dropAt s.page.faults n }
/-- A strand traps: what R103 says of the class, with the trap record of R105 and R106. DTLO of a Restart trap that has waited for a
park entry is the device time at which the entry frees (DESIGN CHOICE, log entry 43). -/
def trapStrand (s : State) (core slot : Nat) (e : Exc) : State :=
  match strandAt s core slot with
  | none => s
  | some t =>
    let l := launchAt s t.record.launch.toNat
    let tag : Tag := { core := core, slot := slot, gen := slotGenOf s core slot }
    let dtlo := strandDt s core t
    let ovl := pcOvl t.ctx.pc
    let mk (tg : Tag) (fatal restart : Bool) : TrapRec :=
      { bytes := trapBytes t tg dtlo e fatal restart false, fatal := fatal, launch := t.record.launch.toNat, tq := l.tq, ctxh := t.ctxh }
    let fatal := raiseRecord (endStrand s core slot (causeCode e.cause)) core (mk tag true false)
    match trapClass e with
    | .quiet => endStrand s core slot 0
    | .fatal => fatal
    | .resume =>
      raiseRecord (putStrand s core slot
        { t with st := 5, wait := .none, steps := 0, lastCause := causeCode e.cause }) core (mk tag false false)
    | .restart =>
      if e.cause == .overlayMiss && !inBundle s l e.info0.toNat then fatal
      else match freePark s core with
        | none => putStrand s core slot { t with st := 1, wait := .parkFull e }
        | some i =>
          let miss := e.cause == .overlayMiss
          let (s, ptag) := parkRecord s core i slot t (if miss then ovl else 0)
          let s := freeSlot (freeRegion (withdraw (abandonForks s tag) tag) t) core slot
          if miss then s
          else postFault (raiseRecord s core (mk ptag false true)) e.range e.va (e.detail == 2 || e.detail == 4) (some ptag)
/-- A stream faults (R250): the pair keeps the first fault, and the other stream stops at its next boundary: an operation in progress
completes, an instruction that waits to begin is abandoned (R249). -/
def faultStream (s : State) (k : Nat) (compute : Bool) (e : Exc) : State :=
  let p := pairAt s k
  let x := p.stream compute
  let layout : Word := BitVec.ofNat 64 (pcIdx x.ctx.pc * 2 ^ 48 + (if compute then 2 ^ 40 else 0) + 0xFF * 65536 + 0xFFFF)
  let info1 : Word := if e.cause == .streamDesync || e.cause == .scaleRange then e.info1.getD layout else layout
  let p := { p with fault := some (p.fault.getD { cause := e.cause, info0 := e.info0, info1 := info1 }) }
  let p := p.setStream compute { x with st := 3, wait := false }
  let other := p.stream (!compute)
  let stopNow := other.st == 1 && !other.busy && (!other.wait || other.rest)
  let p := if stopNow then p.setStream (!compute) { other with st := 4, wait := false }
           else p.setStream (!compute) { other with stop := other.st == 1 }
  settlePair (putPair s k (if (p.stream (!compute)).st == 1 then p else { p with st := 4 })) k
/-- A stream waits in a SEMW on a count of 0 (R273). -/
def Pair.semStarved (p : Pair) (k : Nat) (compute : Bool) : Bool :=
  (p.stream compute).st == 1 && (p.stream compute).wait && p.sems.any fun e => e.2.count == 0 && e.2.queue.contains (.stream k compute)
/-- A stream whose partner is DONE, and which waits in SEMW on a count of 0, is decided to fault, whatever SEMPs come (R274). -/
def doomStarved (s : State) (k : Nat) : State :=
  [false, true].foldl (fun s cp =>
    let p := pairAt s k
    if (p.stream (!cp)).st == 2 && p.semStarved k cp then putPair s k (p.setStream cp { p.stream cp with doomed := true }) else s) s
/-- A stream reaches DONE (R248, R249): a SEMW of the other that waits on a count of 0 is decided to fault (R274). -/
def streamDone (s : State) (k : Nat) (compute : Bool) : State :=
  let p := pairAt s k
  let p := p.setStream compute { p.stream compute with st := 2, wait := false }
  let other := (p.stream (!compute)).st
  let st := if other == 2 then 3 else if other == 3 || other == 4 then 4 else 2
  settlePair (doomStarved (putPair s k { p with st := st }) k) k
/-- A trap condition of the acting agent: a strand traps, a stream faults. -/
def raise (e : Exc) (s : State) : State :=
  match s.cur with
  | .strand c i => trapStrand s c i e
  | .stream k cp => faultStream s k cp e
  | .none => s

/-- A single-stepped strand whose instruction has completed traps STEP (R111). -/
def stepTrap (s : State) (core slot : Nat) : State :=
  match strandAt s core slot with
  | some t =>
    if t.steps == 2 && t.st == 0 && t.wait == .none then
      trapStrand s core slot { cause := .step, info0 := t.stepPc.zeroExtend 64, info1 := some 0 }
    else s
  | none => s
/-- A reply sent to a strand (R94). -/
def sendReply (s : State) (tag : Tag) (act : ReplyAct) : State :=
  { s with coh.replies := s.coh.replies ++ [{ tag := tag, act := act }] }
/-- A reply of a sector's home sent to a strand (R55). -/
def homeReply (s : State) (home : Nat) (tag : Tag) (act : ReplyAct) : State :=
  { s with coh.replies := s.coh.replies ++ [{ tag := tag, act := act, home := some home }] }
/-- The reply at a position of those in transit is not the first from its home to its core (R55). -/
def replyBehind (l : List Reply) (n : Nat) : Bool :=
  (l[n]?).any fun r => r.home.isSome && (l.take n).any fun q => q.home == r.home && q.tag.core == r.tag.core

/-! ### Performing an instruction (R69, R70, R247) -/

/-- Where an instruction is admitted (R247). -/
inductive Place where
  | strand | any | staging | compute | strandOrCompute
  deriving DecidableEq, Repr

/-- The acting agent stands in an admitted place (R247). -/
def placeOk : Place → Agent → Bool
  | _, .none => false
  | .any, _ => true
  | .strand, .strand _ _ => true
  | .strandOrCompute, .strand _ _ => true
  | .strandOrCompute, .stream _ cp => cp
  | .staging, .stream _ cp => !cp
  | .compute, .stream _ cp => cp
  | _, _ => false
/-- The guard holds (R69). -/
def guardHolds (s : State) (g : Guard) : Bool :=
  rP s ⟨g.toNat % 8, Nat.mod_lt _ (by decide)⟩ == !g.getLsbD 3
/-- BAD_OPERAND of steps 1 to 6: INFO0 holds the word's bits [63:0] (R106). -/
def wordExc (s : State) (c : Cause) (step : Nat) : Exc :=
  { cause := c, step := step, info0 := (curWord s).extractLsb' 0 64 }
/-- BAD_OPERAND at step 8 with INFO0 the offending value (R106, R392). -/
def bad (v : Word) : Exc := { cause := .badOperand, info0 := v }
/-- What an instruction that is no SRW leaves alone by construction: device time, the hub's registers, and the special
registers that SRW alone writes. What an access has noted of a failed word goes no further (log entry 45). -/
def confine (s t : State) : State := { t with time := s.time, hub := s.hub, sregs := s.sregs, coh.hit := s.coh.hit }
/-- Steps 6 to 8 of R70: the place, the static checks, the guard, then the instruction's own effect. -/
def perform (pl : Place) (g : Guard) (static : Option Exc) (body : State → State) (s : State) : State :=
  if !placeOk pl s.cur then raise (wordExc s .badOperand 6) s
  else match static with
    | some e => raise e s
    | none => if guardHolds s g then body s else advance s
/-- SOFT_ERROR of an access that meets a failed word of the one memory: INFO0 is its physical address, or 0 where it has none (R106,
R392; log entry 45). -/
def softExc (word : Nat) : Exc := { cause := .softError, step := 7, info0 := if 8 * word < 2 ^ 52 then BitVec.ofNat 64 (8 * word) else 0 }
/-- The first failed word that `n` bytes from `a` up touch. -/
def softWord (s : State) (a n : Nat) : Option Nat := s.coh.failed.find? fun w => decide (8 * w < a + n) && decide (a < 8 * w + 8)
/-- The state with a touched failed word remembered until the instruction has been performed (R106). -/
def noteSoft (s : State) (a n : Nat) : State :=
  if s.coh.failed.isEmpty then s else { s with coh.hit := s.coh.hit.or (softWord s a n) }
/-- A trap in place of the instruction's effect when an access of it has met a failed word. -/
def orSoft (s t : State) : State :=
  if s.coh.failed.isEmpty then t else match t.coh.hit with
    | some w => raise (softExc w) s
    | none => t
/-- A check that follows an access: SOFT_ERROR when the access has met a failed word (R106). -/
def softCheck (t : State) : Except Exc Unit :=
  if t.coh.failed.isEmpty then .ok () else match t.coh.hit with
    | some w => .error (softExc w)
    | none => .ok ()
/-- The effect of an instruction's checks and computation: the next state, or the trap they end in. -/
def orTrap (s : State) : Except Exc State → State
  | .ok t => orSoft s t
  | .error e => raise e s
/-- An instruction that reads and writes what `confine` lets it. -/
def run (pl : Place) (g : Guard) (static : Option Exc) (body : State → Except Exc State) (s : State) :
    Host.Outcome State Fault Refusal :=
  .next (confine s (perform pl g static (fun s => orTrap s (body s)) s))
/-- A condition that must hold, or the trap it ends in. -/
def need (b : Bool) (e : Exc) : Except Exc Unit := if b then .ok () else .error e

/-! ### The return from a trap (R111, R119, R351) -/

/-- The record of a park entry is pushed on its core's ring and the entry freed (R119). -/
def pushParked (s : State) (core i pts : Nat) : State :=
  let p := tget {} s.core.park (core * 32 + i)
  if p.used then
    pushRing { s with core.park := tset {} s.core.park (core * 32 + i) { gen := p.gen } } core p.record (max p.pts pts) p.resp
      (some p.former)
  else s
/-- The fault-queue entry whose first faulter has this tag closes, and its linked faulters are pushed with it (R351). -/
def closeFault (s : State) (tag : Tag) (pts : Nat) (push : Bool) : State :=
  match findPos (fun f => f.tag == tag) s.page.faults 0 with
  | none => s
  | some (n, f) =>
    let s := dropFault s n
    if push then f.linked.foldl (fun s t => if (tget {} s.core.park (t.core * 32 + t.slot)).gen == t.gen
      then pushParked s t.core t.slot pts else s) s
    else s
/-- A park entry is freed and its unit ends (R103, R119). -/
def dropParked (s : State) (core i : Nat) : State :=
  let p := tget {} s.core.park (core * 32 + i)
  unitEnds (orphan { s with core.park := tset {} s.core.park (core * 32 + i) { gen := p.gen } } p.former) p.record p.pts 0 p.resp
/-- The tag's GEN is not that of its slot or park entry (R93). -/
def staleTag (s : State) (t : Tag) : Bool :=
  if t.park then (tget {} s.core.park (t.core * 32 + t.slot)).gen != t.gen else decide (t.slot < 16) && slotGenOf s t.core t.slot != t.gen
/-- A request with this tag finds no strand it may act on; a stale tag is counted (R93). The tag of a slot that is free and not bound again is
not stale for a REPLAY (DESIGN CHOICE, log entry 50). -/
def missTag (s : State) (t : Tag) : State := if staleTag s t then countStale s t.core else s
/-- REPLAY's effect on the strand a tag names, with the issuer's PTS: the result for gd (R119). Of the rows for 1 and 2 that for .SKIP and
.STEP on a park entry comes first (DESIGN CHOICE, log entry 50). -/
def replayTag (s : State) (tag : Tag) (m : ReplayMod) (pts : Nat) : State × Nat :=
  if tag.park then
    let p := tget {} s.core.park (tag.core * 32 + tag.slot)
    if m == .skip || m == .step then (s, 2)
    else if !p.used || p.gen != tag.gen then (missTag s tag, 1)
    else if m == .stop then (dropParked (closeFault s tag pts false) tag.core tag.slot, 0)
    else (closeFault (pushParked s tag.core tag.slot pts) tag pts true, 0)
  else match tagged s tag with
    | none => (missTag s tag, 1)
    | some t =>
      if t.st != 5 then (s, 1)
      else
        let t := t.withPts (max t.ctx.pts pts)
        let c := t.ctx
        match m with
        | .stop => (endStrand s tag.core tag.slot 0, 0)
        | .plain => (putStrand s tag.core tag.slot { t with ctx := c, st := 0, wait := .none }, 0)
        | .skip => (putStrand s tag.core tag.slot { t with ctx := { c with pc := nextPc c.pc }, st := 0, wait := .none }, 0)
        | .step => (putStrand s tag.core tag.slot { t with ctx := c, st := 0, wait := .none, steps := 1 }, 0)

end Sys2Proof.Machine
end

