-- ==== Sys2Proof/Machine/Operands.lean ====
section
/-! DEFINITION. Every operand form: source fields (R68, R126), class-M pointers (R67), handles (R25), generic pointers (R39,
R40) and the windows of a scratchpad (R99, R100). -/

namespace Sys2Proof.Machine
open Sys2Proof

/-- A source whose IMM32 is sign-extended (R126, S). -/
def srcS (s : State) : Src → Word
  | .reg r => rG s r
  | .imm n => BitVec.ofNat 64 n.val
  | .wide v => v.signExtend 64
/-- A source whose IMM32 is zero-extended (R126, Z). -/
def srcZ (s : State) : Src → Word
  | .reg r => rG s r
  | .imm n => BitVec.ofNat 64 n.val
  | .wide v => v.zeroExtend 64
/-- The class-M pointer: A + (B << SHIFT) + sext(DISP, 32), modulo 2^64 (R67). -/
def memPtr (s : State) (m : MemOp) : Word :=
  rG s m.base + (match m.index with | some r => rG s r <<< m.shift.val | none => 0) + m.disp.signExtend 64

/-! ### Handles (R25, R26) -/

/-- The capacity of the life table of a kind. -/
def kindCap (kind : Nat) : Nat :=
  match kind with
  | 0 => 4096 | 1 => 4096 | 2 => 1024 | 3 => 256 | 4 => 8 | 5 => 4 | 6 => 128 | 7 => 4096 | _ => 0
/-- HOME is a present unit of the type R26 gives the kind. -/
def homePresent (s : State) (kind home : Nat) : Bool :=
  if kind == 4 || kind == 5 then clusterPresent s home
  else if kind == 6 then corePresent s home
  else slicePresent s home
/-- A handle operation's trap. -/
def hExc (c : Cause) (h : Word) : Exc := { cause := c, info0 := h, detail := 8 }
/-- Checks 1 to 4 of R25, at the issuing core. -/
def checkHandle (s : State) (kinds : List Nat) (h : Word) : Except Exc Unit :=
  need (hKind h ≤ 7 && kinds.contains (hKind h) && homePresent s (hKind h) (hHome h) && hGen h != 0) (hExc .badOperand h)
/-- Check 5 of R25, at the home. -/
def checkIndex (h : Word) : Except Exc Unit := need (decide (hIndex h < kindCap (hKind h))) (hExc .badOperand h)
/-- Checks 5 to 7 of R25, at the home, for a request under a context. -/
def checkHome (s : State) (ctxh : Word) (h : Word) : Except Exc Unit := do
  checkIndex h
  need (liveHandle s h) (hExc .lapsed h)
  need ((lifeOf s (hKey h)).owner == ctxh) (hExc .protection h)
/-- All the checks of R25 for the acting agent. -/
def checkAll (s : State) (kinds : List Nat) (h : Word) : Except Exc Unit := do
  checkHandle s kinds h
  checkHome s (curCtxh s) h
/-- A u32 value of an operand, or BAD_OPERAND with INFO0 the value (R161). -/
def u32 (v : Word) : Except Exc Nat := if v.toNat < 2 ^ 32 then .ok v.toNat else .error (bad v)

/-! ### Generic pointers (R39, R40) -/

/-- The space of a pointer. -/
def pSpace (p : Word) : Nat := p.toNat / 2 ^ 60
/-- The trap of a pointer check; `detail` as in R105. -/
def pExc (c : Cause) (p : Word) (detail : Nat) : Exc := { cause := c, info0 := p, detail := detail }
/-- The must-be-zero bits are 0 (R39). -/
def pZeroOk (p : Word) : Bool :=
  let v := p.toNat % 2 ^ 60
  match pSpace p with
  | 0 => decide (v < 2 ^ 56)
  | 1 => decide (v < 2 ^ 19)
  | 2 => decide (v < 2 ^ 50) && v / 2 ^ 19 % 2 ^ 29 == 0
  | 3 => decide (v < 2 ^ 58) && v / 2 ^ 19 % 2 ^ 29 == 0
  | 4 => decide (v < 2 ^ 32)
  | _ => false
/-- The core whose scratchpad a pointer of space 1, 2 or 3 names, for an access from a core (R39). -/
def pCore (core : Nat) (p : Word) : Nat :=
  match pSpace p with
  | 2 => core / 4 * 4 + p.toNat / 2 ^ 48 % 4
  | 3 => p.toNat / 2 ^ 48 % 1024
  | _ => core
/-- The scratchpad offset of a pointer. -/
def pOff (p : Word) : Nat := p.toNat % 2 ^ 19
/-- The pointer names a scratchpad. -/
def pScratch (p : Word) : Bool := pSpace p == 1 || pSpace p == 2 || pSpace p == 3
/-- Steps 1 to 3 of R40. A space-2 pointer to a core of the own cluster that is not present passes step 3, which names space 3 alone, and the
access is made under that core's windows (DESIGN CHOICE, log entry 43). -/
def checkPtr3 (s : State) (p : Word) (detail : Nat) : Except Exc Unit := do
  need (decide (pSpace p ≤ 4)) (pExc .badOperand p detail)
  need (pZeroOk p) (pExc .badOperand p detail)
  need (pSpace p != 3 || corePresent s (pCore 0 p)) { cause := .badOperand, info0 := p, detail := detail }
/-- Steps 1 to 4 of R40: alignment to `n` bytes last. -/
def checkPtr (s : State) (p : Word) (n detail : Nat) : Except Exc Unit := do
  checkPtr3 s p detail
  need (p.toNat % n == 0) (pExc .misaligned p detail)
/-- A pointer to the issuing core's own scratchpad aligned to `n`, or BAD_OPERAND (R170, R178, R218): its offset. -/
def ownPtr (s : State) (p : Word) (n : Nat) : Except Exc Nat :=
  if pScratch p && pZeroOk p && pCore (curCore s) p == curCore s && p.toNat % n == 0 then .ok (pOff p) else .error (bad p)

/-! ### Windows (R99, R100) -/

/-- A window register. -/
def winOf (s : State) (core n : Nat) : Word := tget 0 s.sregs.win (core * 8 + n)
/-- The window admits an access of `w` bytes at offset `o` from a core: RD for a read, WR for a write (R100). -/
def winAdmits (v : Word) (owner from_ o w : Nat) (rd wr : Bool) : Bool :=
  let scope := v.toNat / 2 ^ 59 % 4
  v.getLsbD 63 && (!rd || v.getLsbD 62) && (!wr || v.getLsbD 61)
    && decide (v.toNat % 2 ^ 20 ≤ o) && decide (o + w ≤ v.toNat / 2 ^ 20 % 2 ^ 20)
    && (scope == 0 || (scope == 1 && clusterOf owner == clusterOf from_) || (scope == 2 && dieOf owner == dieOf from_))
/-- The access of a core to a scratchpad is permitted: its own always, another's by a window (R42, R100). -/
def winOk (s : State) (owner from_ o w : Nat) (rd wr : Bool) : Bool :=
  owner == from_ || (List.range 8).any fun n => winAdmits (winOf s owner n) owner from_ o w rd wr

end Sys2Proof.Machine
end

