-- ==== Sys2Proof/Machine/Control.lean ====
section
/-! DEFINITION. Control instructions (R147 to R150). -/

namespace Sys2Proof.Machine
open Sys2Proof

/-- A class-C target names an instruction: OVL is not 0xFFFF and IDX ≤ 5,460 (R147, step 6). -/
def targetOk (ovl idx : BitVec 16) : Bool := ovl != 0xFFFF && decide (idx.toNat ≤ 5460)
/-- A class-C target: OVL 0 names the current overlay (R147). -/
def targetPc (s : State) (ovl idx : BitVec 16) : BitVec 32 :=
  mkPc (if ovl == 0 then pcOvl (curCtx s).pc else ovl.toNat) idx.toNat
/-- The static check of a class-C target (R147). -/
def targetStatic (s : State) (ovl idx : BitVec 16) : Option Exc :=
  if targetOk ovl idx then none else some (wordExc s .badOperand 6)
/-- A register target (R147): bits [63:32] are 0 and the rest names an instruction. -/
def regTarget (v : Word) : Except Exc (BitVec 32) := if codeOk v.toNat then .ok (v.extractLsb' 0 32) else .error (bad v)
/-- The code pointer of the next instruction (R148). -/
def linkOf (s : State) : Word := BitVec.ofNat 64 (pcOvl (curCtx s).pc * 65536 + (pcIdx (curCtx s).pc + 1))
/-- A core's overlay table maps the overlay: its frame (R73). -/
def frameOf (s : State) (core ovl : Nat) : Option Nat :=
  if ovl == 0 then none else leastFrom (fun f => tget 0 s.core.ovt (core * 4 + f) == ovl) 0 4
/-- CALLO and RET: go to the target, or wait in STATE 1 for its overlay's load, or trap OVERLAY_MISS as Fatal when it is not
in the launch's bundle (R149). -/
def enter (s : State) (pc : BitVec 32) (link : State → State) : Except Exc State :=
  let core := curCore s
  let ovl := pcOvl pc
  if (frameOf s core ovl).isSome then .ok (jump (link s) pc)
  else if inBundle s (curLaunch s) ovl then
    .ok (suspend (link s) 1 (.overlay pc))
  else .error { cause := .overlayMiss, info0 := BitVec.ofNat 64 ovl, fatal := true }
/-- BR (R148). -/
def execBr (g : Guard) (ovl idx : BitVec 16) (s : State) : Host.Outcome State Fault Refusal :=
  run .any g (targetStatic s ovl idx) (fun s => .ok (jump s (targetPc s ovl idx))) s
/-- BRI (R148). -/
def execBri (g : Guard) (a : GReg) (s : State) : Host.Outcome State Fault Refusal :=
  run .strand g none (fun s => do
    let pc ← regTarget (rG s a)
    .ok (jump s pc)) s
/-- BRI.L: the target is read before the link is written (R148). -/
def execBriL (g : Guard) (d a : GReg) (s : State) : Host.Outcome State Fault Refusal :=
  run .strand g none (fun s => do
    let pc ← regTarget (rG s a)
    .ok (jump (wG s d (linkOf s)) pc)) s
/-- CALL (R148). -/
def execCall (g : Guard) (d : GReg) (ovl idx : BitVec 16) (s : State) : Host.Outcome State Fault Refusal :=
  run .strand g (targetStatic s ovl idx) (fun s => .ok (jump (wG s d (linkOf s)) (targetPc s ovl idx))) s
/-- CALLO (R148, R149). -/
def execCallo (g : Guard) (d : GReg) (ovl idx : BitVec 16) (s : State) : Host.Outcome State Fault Refusal :=
  run .strand g (targetStatic s ovl idx) (fun s => enter s (targetPc s ovl idx) fun s => wG s d (linkOf s)) s
/-- RET (R148, R149). -/
def execRet (g : Guard) (a : GReg) (s : State) : Host.Outcome State Fault Refusal :=
  run .strand g none (fun s => do
    let pc ← regTarget (rG s a)
    enter s pc id) s
/-- LOOP: gd less one, and the branch unless it is 0 (R148). -/
def execLoop (g : Guard) (d : GReg) (ovl idx : BitVec 16) (s : State) : Host.Outcome State Fault Refusal :=
  run .any g (targetStatic s ovl idx) (fun s =>
    let v := rG s d - 1
    let t := wG s d v
    .ok (if v != 0 then jump t (targetPc s ovl idx) else advance t)) s
/-- NOP (R150). -/
def execNop (g : Guard) (s : State) : Host.Outcome State Fault Refusal := run .any g none (fun s => .ok (advance s)) s
/-- DONE: the strand ends, or the stream (R95, R150, R248). -/
def execDone (g : Guard) (s : State) : Host.Outcome State Fault Refusal :=
  run .any g none (fun s => .ok (match s.cur with
    | .strand c i => endStrand s c i 0
    | .stream k cp => streamDone s k cp
    | .none => s)) s

end Sys2Proof.Machine
end

