-- ==== Sys2Proof/Machine/Float.lean ====
section
/-! DEFINITION. Exact floating-point arithmetic with one rounding (R120 to R124, R140, R186, R230). A value is an exact
number `(-1)^neg * m * 2^e`, an infinity or a NaN; a quotient or root keeps a last bit that says whether it is inexact. -/

namespace Sys2Proof.Machine
open Sys2Proof

/-- A binary format: exponent and fraction bits, bias, and its specials (0 IEEE 754, 1 E4M3, 2 none) (R120, R230). -/
structure FFmt where
  eb : Nat
  fb : Nat
  bias : Nat
  spec : Nat
  deriving DecidableEq, Repr

/-- FP32 (R120). -/
def f32 : FFmt := ⟨8, 23, 127, 0⟩
/-- FP64 (R120). -/
def f64 : FFmt := ⟨11, 52, 1023, 0⟩
/-- BF16 (R230). -/
def bf16 : FFmt := ⟨8, 7, 127, 0⟩
/-- E4M3 (R230). -/
def e4m3 : FFmt := ⟨4, 3, 7, 1⟩
/-- E5M2 (R230). -/
def e5m2 : FFmt := ⟨5, 2, 15, 0⟩
/-- E3M2 (R230). -/
def e3m2 : FFmt := ⟨3, 2, 3, 2⟩
/-- E2M3 (R230). -/
def e2m3 : FFmt := ⟨2, 3, 1, 2⟩
/-- E2M1 (R230). -/
def e2m1 : FFmt := ⟨2, 1, 1, 2⟩

/-- Exception flags (R123). -/
def flNV : Nat := 16
/-- Division by zero. -/
def flDZ : Nat := 8
/-- Overflow. -/
def flOF : Nat := 4
/-- Underflow. -/
def flUF : Nat := 2
/-- Inexact. -/
def flNX : Nat := 1

/-- 2^fb. -/
def FFmt.one (f : FFmt) : Nat := 2 ^ f.fb
/-- The code, sign apart, of the largest finite value. -/
def FFmt.maxCode (f : FFmt) : Nat :=
  match f.spec with
  | 0 => (2 ^ f.eb - 1) * f.one - 1
  | 1 => 2 ^ (f.eb + f.fb) - 2
  | _ => 2 ^ (f.eb + f.fb) - 1
/-- The code of +infinity. -/
def FFmt.infCode (f : FFmt) : Nat := (2 ^ f.eb - 1) * f.one
/-- The canonical NaN (R121, R186). -/
def FFmt.nanCode (f : FFmt) : Nat := if f.spec == 0 then f.infCode + f.one / 2 else 2 ^ (f.eb + f.fb) - 1
/-- The sign bit in place. -/
def FFmt.sign (f : FFmt) (neg : Bool) : Nat := if neg then 2 ^ (f.eb + f.fb) else 0

/-- The value of a bit pattern (R120, R230). -/
def FFmt.unpack (f : FFmt) (b : Nat) : FVal :=
  let neg := b / 2 ^ (f.eb + f.fb) % 2 == 1
  let E := b / f.one % 2 ^ f.eb
  let F := b % f.one
  if f.spec == 0 && E == 2 ^ f.eb - 1 then
    if F == 0 then .inf neg else .nan (decide (F < f.one / 2))
  else if f.spec == 1 && b % 2 ^ (f.eb + f.fb) == 2 ^ (f.eb + f.fb) - 1 then .nan false
  else if E == 0 then .fin neg F (1 - (f.bias : Int) - f.fb)
  else .fin neg (f.one + F) ((E : Int) - f.bias - f.fb)

/-- The number of bits of a number. -/
def bitLen (n : Nat) : Nat := if n == 0 then 0 else Nat.log2 n + 1

/-- Rounding of `n + r/2^k` where `half` compares r with one half (0 below, 1 equal, 2 above), `exact` says r = 0 (R122). -/
def roundUp (m : RMode) (neg : Bool) (n : Nat) (half : Nat) (exact : Bool) : Bool :=
  if exact then false
  else match m with
    | .rne => half == 2 || (half == 1 && n % 2 == 1)
    | .rtz => false
    | .rup => !neg
    | .rdn => neg

/-- `mag * 2^e` rounded to a multiple of `2^u`: the multiple, and whether it is exact. -/
def roundAt (m : RMode) (neg : Bool) (mag : Nat) (e u : Int) : Nat × Bool :=
  let sh := u - e
  if sh ≤ 0 then (mag * 2 ^ (-sh).toNat, true)
  else
    let k := sh.toNat
    let n := mag / 2 ^ k
    let r := mag % 2 ^ k
    let half := if r * 2 < 2 ^ k then 0 else if r * 2 == 2 ^ k then 1 else 2
    (if roundUp m neg n half (r == 0) then n + 1 else n, r == 0)

/-- rnd of R122 on a nonzero magnitude: the code with its sign, and the flags. -/
def FFmt.rnd (f : FFmt) (m : RMode) (neg : Bool) (mag : Nat) (e : Int) : Nat × Nat :=
  let emin : Int := 1 - (f.bias : Int)
  let top : Int := (bitLen mag : Int) - 1 + e
  let u : Int := max (top - f.fb) (emin - f.fb)
  let r := roundAt m neg mag e u
  let code : Nat := if r.1 < f.one then r.1 else ((u + f.fb + f.bias).toNat) * f.one + (r.1 - f.one)
  if f.maxCode < code then
    let toInf := match m with
      | .rne => true
      | .rtz => false
      | .rup => !neg
      | .rdn => neg
    (f.sign neg + (if toInf && f.spec == 0 then f.infCode else f.maxCode), flOF + flNX)
  else
    let wide := roundAt m neg mag e (top - f.fb)
    let tiny := decide (top < emin - 1) || (top == emin - 1 && wide.1 != 2 * f.one)
    (f.sign neg + code, if r.2 then 0 else flNX + (if tiny then flUF else 0))

/-- A value written to a format with one rounding (R140). -/
def FFmt.finish (f : FFmt) (m : RMode) (x : FVal × Nat) : Nat × Nat :=
  match x.1 with
  | .nan _ => (f.nanCode, x.2)
  | .inf neg => (f.sign neg + f.infCode, x.2)
  | .fin neg 0 _ => (f.sign neg, x.2)
  | .fin neg mag e => let r := f.rnd m neg mag e; (r.1, x.2 ||| r.2)

/-- The value is a NaN. -/
def FVal.isNan : FVal → Bool
  | .nan _ => true
  | _ => false
/-- The value is a signalling NaN. -/
def FVal.isSig : FVal → Bool
  | .nan s => s
  | _ => false
/-- The value is ±0. -/
def FVal.isZero : FVal → Bool
  | .fin _ m _ => m == 0
  | _ => false
/-- The sign. -/
def FVal.neg : FVal → Bool
  | .nan _ => false
  | .inf n => n
  | .fin n _ _ => n
/-- The negated value. -/
def FVal.negate : FVal → FVal
  | .nan s => .nan s
  | .inf n => .inf (!n)
  | .fin n m e => .fin (!n) m e
/-- The magnitude as a value. -/
def FVal.abs : FVal → FVal
  | .nan s => .nan s
  | .inf _ => .inf false
  | .fin _ m e => .fin false m e
/-- An integer as a value. -/
def FVal.ofInt (i : Int) : FVal := .fin (decide (i < 0)) i.natAbs 0
/-- A finite value's signed mantissa. -/
def signed (neg : Bool) (m : Nat) : Int := if neg then -(m : Int) else m
/-- The flag of a signalling operand. -/
def sigFlag (b : Bool) : Nat := if b then flNV else 0

/-- The exact sum of two finite values, with the sign of an exact zero (R140). -/
def addFin (m : RMode) (n1 : Bool) (m1 : Nat) (e1 : Int) (n2 : Bool) (m2 : Nat) (e2 : Int) : FVal :=
  if m1 == 0 && m2 == 0 then .fin (if n1 == n2 then n1 else m == .rdn) 0 0
  else
    let e := min e1 e2
    let x := signed n1 (m1 * 2 ^ (e1 - e).toNat) + signed n2 (m2 * 2 ^ (e2 - e).toNat)
    if x == 0 then .fin (m == .rdn) 0 0 else .fin (decide (x < 0)) x.natAbs e

/-- FADD (R140). -/
def fAdd (m : RMode) (a b : FVal) : FVal × Nat :=
  let s := sigFlag (a.isSig || b.isSig)
  match a, b with
  | .nan _, _ => (.nan false, s)
  | _, .nan _ => (.nan false, s)
  | .inf x, .inf y => if x == y then (.inf x, 0) else (.nan false, flNV)
  | .inf x, _ => (.inf x, 0)
  | _, .inf y => (.inf y, 0)
  | .fin n1 m1 e1, .fin n2 m2 e2 => (addFin m n1 m1 e1 n2 m2 e2, 0)

/-- FSUB (R140). -/
def fSub (m : RMode) (a b : FVal) : FVal × Nat := fAdd m a b.negate

/-- The exact product; NV for infinity times zero (R140). -/
def fMul (a b : FVal) : FVal × Nat :=
  let s := sigFlag (a.isSig || b.isSig)
  match a, b with
  | .nan _, _ => (.nan false, s)
  | _, .nan _ => (.nan false, s)
  | .inf x, .inf y => (.inf (x != y), 0)
  | .inf x, .fin y m _ => if m == 0 then (.nan false, flNV) else (.inf (x != y), 0)
  | .fin x m _, .inf y => if m == 0 then (.nan false, flNV) else (.inf (x != y), 0)
  | .fin n1 m1 e1, .fin n2 m2 e2 => (.fin (n1 != n2) (m1 * m2) (e1 + e2), 0)

/-- FFMA: a * b + c rounded once; an infinity times zero is invalid whatever c is (R140). -/
def fFma (m : RMode) (a b c : FVal) : FVal × Nat :=
  let s := sigFlag (a.isSig || b.isSig || c.isSig)
  let p := fMul a b
  match c with
  | .nan _ => (.nan false, s ||| p.2)
  | _ => if p.1.isNan then (.nan false, s ||| p.2) else
    let r := fAdd m p.1 c
    (r.1, s ||| r.2)

/-- The quotient of magnitudes to 130 bits with a last bit for the remainder. -/
def divMag (a b : Nat) : Nat × Int :=
  let k := 130 + bitLen b
  let q := a * 2 ^ k / b
  (2 * q + (if a * 2 ^ k % b == 0 then 0 else 1), -(k : Int) - 1)

/-- FDIV (R140). -/
def fDiv (a b : FVal) : FVal × Nat :=
  let s := sigFlag (a.isSig || b.isSig)
  match a, b with
  | .nan _, _ => (.nan false, s)
  | _, .nan _ => (.nan false, s)
  | .inf _, .inf _ => (.nan false, flNV)
  | .inf x, .fin y _ _ => (.inf (x != y), 0)
  | .fin x _ _, .inf y => (.fin (x != y) 0 0, 0)
  | .fin x m1 e1, .fin y m2 e2 =>
    if m2 == 0 then (if m1 == 0 then (.nan false, flNV) else (.inf (x != y), flDZ))
    else if m1 == 0 then (.fin (x != y) 0 0, 0)
    else let q := divMag m1 m2; (.fin (x != y) q.1 (q.2 + e1 - e2), 0)

/-- The integer square root of `n`, bit by bit: `r` is the root of the bits above 2k, k counts down. -/
def isqrtBits (n : Nat) : Nat → Nat → Nat
  | 0, r => r
  | k + 1, r =>
    let c := r + 2 ^ k
    isqrtBits n k (if c * c ≤ n then c else r)

/-- The integer square root. -/
def isqrt (n : Nat) : Nat := isqrtBits n (bitLen n / 2 + 1) 0

/-- FSQRT (R140). -/
def fSqrt (a : FVal) : FVal × Nat :=
  match a with
  | .nan s => (.nan false, sigFlag s)
  | .inf x => if x then (.nan false, flNV) else (.inf false, 0)
  | .fin x m e =>
    if m == 0 then (.fin x 0 0, 0)
    else if x then (.nan false, flNV)
    else
      let odd := e % 2 != 0
      let m' := (if odd then 2 * m else m) * 4 ^ 130
      let e' := (if odd then e - 1 else e) / 2 - 130
      let r := isqrt m'
      (.fin false (2 * r + (if r * r == m' then 0 else 1)) (e' - 1), 0)

/-- Comparison of two values that are no NaN: negative, zero or positive like a - b; -0 equals +0 (R144). -/
def fCmp (a b : FVal) : Int :=
  match a, b with
  | .nan _, _ => 0
  | _, .nan _ => 0
  | .inf x, .inf y => if x == y then 0 else if x then -1 else 1
  | .inf x, _ => if x then -1 else 1
  | _, .inf y => if y then 1 else -1
  | .fin n1 m1 e1, .fin n2 m2 e2 =>
    let e := min e1 e2
    signed n1 (m1 * 2 ^ (e1 - e).toNat) - signed n2 (m2 * 2 ^ (e2 - e).toNat)

/-- The order of R141: -0 stands below +0. -/
def fLess (a b : FVal) : Bool :=
  decide (fCmp a b < 0) || (fCmp a b == 0 && a.isZero && b.isZero && a.neg && !b.neg)

/-- FMIN (false) and FMAX (true) (R141). -/
def fMinMax (big : Bool) (a b : FVal) : FVal × Nat :=
  let s := sigFlag (a.isSig || b.isSig)
  if a.isNan && b.isNan then (.nan false, s)
  else if a.isNan then (b, s)
  else if b.isNan then (a, s)
  else if big then (if fLess a b then b else a, s)
  else (if fLess b a then b else a, s)

/-- A condition of R144, and the flags. -/
def fCond (cc : FCond) (a b : FVal) : Bool × Nat :=
  let un := a.isNan || b.isNan
  let sig := sigFlag (a.isSig || b.isSig)
  let any := sigFlag un
  let d := fCmp a b
  match cc with
  | .eq => (!un && d == 0, sig)
  | .ne => (un || d != 0, sig)
  | .lt => (!un && decide (d < 0), any)
  | .le => (!un && decide (d ≤ 0), any)
  | .gt => (!un && decide (0 < d), any)
  | .ge => (!un && decide (0 ≤ d), any)
  | .un => (un, sig)
  | .or => (!un, sig)

/-- A finite value rounded to an integer by a mode, and whether it is exact. -/
def roundInt (m : RMode) (neg : Bool) (mag : Nat) (e : Int) : Int × Bool :=
  let r := roundAt m neg mag e 0
  (signed neg r.1, r.2)

/-- Float to integer of the range lo to hi (R145): the value and the flags. -/
def toInt (m : RMode) (lo hi : Int) (a : FVal) : Int × Nat :=
  match a with
  | .nan _ => (0, flNV)
  | .inf neg => (if neg then lo else hi, flNV)
  | .fin neg mag e =>
    let r := roundInt m neg mag e
    if r.1 < lo then (lo, flNV)
    else if hi < r.1 then (hi, flNV)
    else (r.1, if r.2 then 0 else flNX)

/-- FRND (R146): the value rounded to an integral value of its own format. -/
def fRnd (m : RMode) (a : FVal) : FVal × Nat :=
  match a with
  | .nan s => (.nan false, sigFlag s)
  | .inf x => (.inf x, 0)
  | .fin neg mag e =>
    if mag == 0 then (a, 0)
    else
      let r := roundAt m neg mag e (max e 0)
      (.fin neg r.1 (max e 0), if r.2 then 0 else flNX)

/-- FCLASS of a bit pattern (R143). -/
def fClass (f : FFmt) (b : Nat) : Nat :=
  match f.unpack b with
  | .nan true => 2 ^ 8
  | .nan false => 2 ^ 9
  | .inf true => 2 ^ 0
  | .inf false => 2 ^ 7
  | .fin neg m _ =>
    if m == 0 then (if neg then 2 ^ 3 else 2 ^ 4)
    else if m < f.one then (if neg then 2 ^ 2 else 2 ^ 5)
    else (if neg then 2 ^ 1 else 2 ^ 6)

end Sys2Proof.Machine
end

