-- ==== Sys2Proof/Machine/Flags.lean ====
section
/-! DEFINITION. Floating-point operands, results and exception flags of the scalar instructions (R123, R124, R140), and the
status registers VSTAT and MSTAT that collect flags. -/

namespace Sys2Proof.Machine
open Sys2Proof

/-- The format of a precision (R120). -/
def precFmt : Prec → FFmt
  | .s => f32
  | .d => f64
/-- The bits of a register operand in a precision (R124). -/
def precBits (p : Prec) (v : Word) : Nat := match p with | .s => v.toNat % 2 ^ 32 | .d => v.toNat
/-- IMM32 as a value of a precision (R124): an FP32 pattern, and for FP64 a NaN pattern is the canonical NaN. -/
def wideVal (p : Prec) (v : BitVec 32) : FVal :=
  match p with
  | .s => f32.unpack v.toNat
  | .d => match f32.unpack v.toNat with
    | .nan _ => .nan false
    | x => x
/-- A float source operand's value (R124). -/
def fSrc (s : State) (p : Prec) : Src → FVal
  | .reg r => (precFmt p).unpack (precBits p (rG s r))
  | .imm n => .fin false n.val 0
  | .wide v => wideVal p v
/-- A float source operand's bit pattern (R142, R143). -/
def fBits (s : State) (p : Prec) : Src → Nat
  | .reg r => precBits p (rG s r)
  | .imm n => ((precFmt p).finish .rne (.fin false n.val 0, 0)).1
  | .wide v => match p with
    | .s => v.toNat
    | .d => (f64.finish .rne (wideVal .d v, 0)).1
/-- The flags trap under .T: NV, DZ or OF (R123). -/
def flTrap (t : Bool) (fl : Nat) : Bool := t && fl / 4 != 0
/-- FP_TRAP with the flag set in INFO0 (R106, R123), raised by the result: step 7 (R392). -/
def fpExc (fl : Nat) : Exc := { cause := .fpTrap, step := 7, info0 := BitVec.ofNat 64 fl }
/-- A flag set and the write that follows unless it traps (R123). -/
def fpDone (t : Bool) (fl : Nat) (st : State) : Except Exc State := if flTrap t fl then .error (fpExc fl) else .ok (advance st)
/-- A result of a precision written to a register, zero-extended (R124), unless its flags trap. -/
def fpWrite (s : State) (d : GReg) (t : Bool) (r : Nat × Nat) : Except Exc State := fpDone t r.2 (wG s d (BitVec.ofNat 64 r.1))

/-- VSTAT of a core (R189). -/
def vstatOf (s : State) (core : Nat) : Word := tget 0 s.stat.vstat core
/-- VSTAT with flags raised and its count raised, stopping at its top (R189). -/
def raiseVstat (s : State) (core fl zeros : Nat) : State :=
  let v := (vstatOf s core).toNat
  let count := min (v / 2 ^ 32 + zeros) (2 ^ 32 - 1)
  { s with stat.vstat := tset 0 s.stat.vstat core (BitVec.ofNat 64 (count * 2 ^ 32 + (v % 2 ^ 6 ||| fl % 2 ^ 6))) }
/-- MSTAT of a cluster (R238). -/
def mstatOf (s : State) (cluster : Nat) : Word := tget 0 s.stat.mstat cluster
/-- MSTAT with bits raised. -/
def raiseMstat (s : State) (cluster : Nat) (bits : Word) : State :=
  { s with stat.mstat := tset 0 s.stat.mstat cluster (mstatOf s cluster ||| bits) }

end Sys2Proof.Machine
end

