-- ==== Sys2Proof/Machine/System.lean ====
section
/-! DEFINITION. System instructions (R112 to R119) and the events of strands: replies, trap records, wake flits, halts. -/

namespace Sys2Proof.Machine
open Sys2Proof

/-! ### Special registers (R99, R101, R102) -/

/-- FCTL after reset: THR = 0x3580_0000 (R279). -/
def fctlReset : Word := 0x35800000
/-- FCTL of a cluster (R279). -/
def fctlOf (s : State) (cluster : Nat) : Word := tget fctlReset s.sregs.fctl cluster
/-- BFMT of a bank of a core (R233). -/
def bfmtOf (s : State) (core bank : Nat) : Nat := (tget 0 s.sregs.bfmt (core * 16 + bank)).toNat
/-- EXPR of a core (R205). -/
def exprOf (s : State) (core : Nat) : Word := tget 0 s.sregs.expr core
/-- STAT as a strand that issues reads it: STATE is 0 (R92). -/
def statOf (t : Strand) : Word :=
  BitVec.ofNat 64 (recPrio t.record * 2 ^ 28 + (if t.evict then 2 ^ 23 else 0) + (if t.restart then 2 ^ 22 else 0)
    + (if t.steps != 0 then 2 ^ 21 else 0) + t.lastCause % 256 * 256)
/-- OVT: the overlay of frame f in bits [16f+15:16f] (R101). -/
def ovtOf (s : State) (core : Nat) : Word :=
  BitVec.ofNat 64 ((List.range 4).foldr (fun f n => n + tget 0 s.core.ovt (core * 4 + f) % 65536 * 65536 ^ f) 0)
/-- The value of a special register to a strand (R101); DTIME under R23. -/
def sregOf (s : State) (core : Nat) (t : Strand) : SReg → Word
  | .dtime => BitVec.ofNat 64 (strandDt s core t)
  | .ptsr => BitVec.ofNat 64 t.ctx.pts
  | .coreid => BitVec.ofNat 64 core
  | .stag => BitVec.ofNat 64 (tagBits (curTag s))
  | .ctxh => t.ctxh
  | .privb => t.privb
  | .privsz => BitVec.ofNat 64 (launchAt s t.record.launch.toNat).privsz
  | .stat => statOf t
  | .tqh => (launchAt s t.record.launch.toNat).tq
  | .ovt => ovtOf s core
  | .icnt => BitVec.ofNat 64 (tget 0 s.core.icnt core)
  | .stale => BitVec.ofNat 64 (tget 0 s.core.stale core)
  | .bconf => BitVec.ofNat 64 (tget 0 s.core.bconf core)
  | .win n => winOf s core n.val
  | .bfmt n => BitVec.ofNat 64 (bfmtOf s core n.val)
  | .mstat => mstatOf s (clusterOf core)
  | .fctl => fctlOf s (clusterOf core)
  | .vstat => vstatOf s core
  | .expr => exprOf s core
/-- SRR (R115, R23). -/
def execSrr (g : Guard) (d : GReg) (r : SReg) (s : State) : Host.Outcome State Fault Refusal :=
  run .strand g none (fun s => .ok (match s.cur with
    | .strand c i => match strandAt s c i with
      | some t =>
        let s' := if r == .dtime then putStrand s c i { t with dtlast := strandDt s c t } else s
        advance (wG s' d (sregOf s c t r))
      | none => s
    | _ => s)) s
/-- The bits of a WIN register that are not reserved (R99). -/
def winMask : Word := 0xF80000FFFFFFFFFF#64
/-- A WIN value with EN = 1 keeps R99's limits. -/
def winLegal (v : Word) : Bool :=
  let base := v.toNat % 2 ^ 20
  let limit := v.toNat / 2 ^ 20 % 2 ^ 20
  !v.getLsbD 63 || (v.toNat / 2 ^ 59 % 4 != 3 && base % 64 == 0 && limit % 64 == 0 && decide (limit ≤ 0x80000)
    && decide (base < limit))
/-- A bank format code is assigned (R233). -/
def bfmtLegal (v : Word) : Bool := v.toNat % 16 != 15
/-- EXPR.SPLIT is at most 16 (R205). -/
def exprLegal (v : Word) : Bool := decide (v.toNat % 32 ≤ 16)
/-- FCTL.THR is a non-negative finite value below 1 (R279). -/
def fctlLegal (v : Word) : Bool := decide (v.toNat % 2 ^ 32 < 0x3F800000)
/-- The effect of SRW on a register of the issuing core or its cluster (R99, R101, R102, R189, R205, R233, R238, R279). -/
def srwTo (s : State) (core : Nat) (r : SReg) (v : Word) : Except Exc State :=
  match r with
  | .win n => if winLegal v then .ok { s with sregs.win := tset 0 s.sregs.win (core * 8 + n.val) (v &&& winMask) }
      else .error (bad v)
  | .bfmt n => if bfmtLegal v then .ok { s with sregs.bfmt := tset 0 s.sregs.bfmt (core * 16 + n.val) (v.setWidth 4) }
      else .error (bad v)
  | .expr => if exprLegal v then .ok { s with sregs.expr := tset 0 s.sregs.expr core (v &&& 0x1F#64) } else .error (bad v)
  | .fctl => if fctlLegal v then
        .ok { s with sregs.fctl := tset fctlReset s.sregs.fctl (clusterOf core) (v &&& 0xFFFFFFFF#64) }
      else .error (bad v)
  | .mstat => .ok { s with stat.mstat := tset 0 s.stat.mstat (clusterOf core) (mstatOf s (clusterOf core) &&& ~~~(v &&& 0xF#64)) }
  | .vstat =>
    let old := vstatOf s core
    let keep := if v.toNat / 2 ^ 32 != 0 then old &&& 0xFFFFFFFF#64 else old
    .ok { s with stat.vstat := tset 0 s.stat.vstat core (keep &&& ~~~(v &&& 0x3F#64)) }
  | _ => .error (wordExc s .badOperand 5)
/-- SRW leaves device time and the hub's registers as they are. -/
def confineSrw (s t : State) : State := { t with time := s.time, hub := s.hub, coh.hit := s.coh.hit }
/-- SRW (R102, R115). -/
def execSrw (g : Guard) (r : SReg) (a : Src) (s : State) : Host.Outcome State Fault Refusal :=
  .next (confineSrw s (perform .strand g none (fun s => orTrap s (do
    let t ← srwTo s (curCore s) r (srcZ s a)
    .ok (advance t))) s))

/-! ### TRAP and BRK (R114) -/

/-- TRAP. -/
def execTrap (g : Guard) (a : Src) (s : State) : Host.Outcome State Fault Refusal :=
  run .strand g none (fun s => do
    let n ← u32 (srcZ s a)
    .error { cause := .brk, step := 7, info0 := BitVec.ofNat 64 n, sw := true }) s
/-- BRK. -/
def execBrk (g : Guard) (s : State) : Host.Outcome State Fault Refusal :=
  run .strand g none (fun _ => .error { cause := .brk, step := 7 }) s

/-! ### PARK and WAITDT (R116, R117) -/

/-- The local device time of the issuing core. -/
def curDt (s : State) : Nat := localDt s (curCore s)
/-- PARK with or without a deadline (R116). -/
def parkOn (d a : GReg) (deadline : Option Nat) (s : State) : Except Exc State := do
  let h := rG s a
  checkAll s [7] h
  let key := hKey h
  let q := evqAt s key
  let tag := curTag s
  let leave (s : State) : State := putEvq s key { q with parked := q.parked.filter (· != tag) }
  if !q.recs.isEmpty then .ok (advance (wG (leave s) d 1))
  else if deadline.any (fun dl => decide (dl ≤ curDt s)) then .ok (advance (wG (leave s) d 0))
  else .ok (suspend (putEvq s key { q with parked := q.parked.filter (· != tag) ++ [tag] }) 3 (.park deadline))
/-- PARK. -/
def execPark (g : Guard) (d a b : GReg) (s : State) : Host.Outcome State Fault Refusal :=
  run .strand g none (fun s => parkOn d a (some (rG s b).toNat) s) s
/-- PARK.NT. -/
def execParkNt (g : Guard) (d a : GReg) (s : State) : Host.Outcome State Fault Refusal :=
  run .strand g none (fun s => parkOn d a none s) s
/-- WAITDT until a device time (R117). -/
def waitUntil (t : Nat) (s : State) : State := if t ≤ curDt s then advance s else suspend s 4 (.waitdt t)
/-- WAITDT. -/
def execWaitdt (g : Guard) (a : GReg) (s : State) : Host.Outcome State Fault Refusal :=
  run .strand g none (fun s => .ok (waitUntil (rG s a).toNat s)) s
/-- WAITDT.REL; one that issues again after an eviction or a gang stop counts from that issue (DESIGN CHOICE, log entry 50). -/
def execWaitdtRel (g : Guard) (a : Src) (s : State) : Host.Outcome State Fault Refusal :=
  run .strand g none (fun s => do
    let n ← u32 (srcZ s a)
    .ok (waitUntil (curDt s + n) s)) s
/-- WAITDT_WAKE: the core's device time has reached what the strand waits for, and the WAITDT completes (R97, R117), with no issue counted
anew (DESIGN CHOICE, log entry 50). -/
def execWaitdtWake (core slot : Nat) (s : State) : Host.Outcome State Fault Refusal :=
  .next (confine s (match strandAt s core slot with
    | some t => match t.wait with
      | .waitdt dl =>
        if t.st == 4 && decide (dl ≤ localDt s core) then
          stepTrap (putStrand s core slot
            { t with ctx := { t.ctx with pc := nextPc t.ctx.pc }, st := 0, wait := .none }) core slot
        else s
      | _ => s
    | none => s))

/-! ### The gang stop (R109, R110, R118) -/

/-- The slots of the device that hold a strand of a launch, as core and slot. -/
def launchSlots (s : State) (n : Nat) : List (Nat × Nat) :=
  (s.core.slots.filter fun e => e.2.record.launch.toNat == n).map fun e => (e.1 / 16, e.1 % 16)
/-- A queued command belongs to a launch. -/
def Cmd.ofLaunch (n : Nat) (c : Cmd) : Bool := !c.own && c.record.launch.toNat == n
/-- The partition of a launch: cores with its strands or engine work (R109), in ascending order. Its strands are those bound, and those in
resume entries (DESIGN CHOICE, log entry 50). -/
def partition (s : State) (n : Nat) : List Nat :=
  let slots := (launchSlots s n).map (·.1)
  let resumes := (s.core.rings.filter fun e => e.2.any fun
    | .resume t _ => t.record.launch.toNat == n
    | _ => false).map fun e => e.1 / 16
  let queued := (s.eng.copyq ++ s.eng.facq).flatMap fun e => (e.2.cmds.filter (Cmd.ofLaunch n)).map (·.core)
  let forked := (s.eng.pairs.filter fun e => e.2.st != 0 && e.2.record.launch.toNat == n).map fun e => e.2.owner.core
  (List.range 1024).filter fun c => (slots ++ resumes ++ queued ++ forked).contains c
/-- The launch index of an instance name of LEVEL 0 in ga (R118), checked at the issuing core: not the issuing strand's own launch. -/
def stopName (s : State) (v : Word) : Except Exc Nat := do
  need (decide (v.toNat < 65536) && v.toNat != (curRec s).launch.toNat) (bad v)
  .ok v.toNat
/-- The checks of R118 at the launch's home: it is present, and of the issuing strand's context. INFO0 of PROTECTION is ga (DESIGN
CHOICE, log entry 43). -/
def stopTarget (s : State) (v : Word) : Except Exc Unit := do
  let l := launchAt s v.toNat
  need (l.st != 0) (bad v)
  need (l.ctxh == curCtxh s) { cause := .protection, info0 := v }
/-- The key of a core's counts of messages on a route: the route's whole handle, so that a handle issued anew counts from 0. -/
def routeCountKey (core : Nat) (h : Word) : Nat := core * 2 ^ 64 + h.toNat
/-- A core's count of messages sent on a route raised by one (R110). -/
def countSent (s : State) (core : Nat) (h : Word) : State :=
  let k := routeCountKey core h
  let c := tget (0, 0) s.core.routeCount k
  { s with core.routeCount := tset (0, 0) s.core.routeCount k (c.1 + 1, c.2) }
/-- A core's count of messages received on a route raised by one (R110). -/
def countReceived (s : State) (core : Nat) (h : Word) : State :=
  let k := routeCountKey core h
  let c := tget (0, 0) s.core.routeCount k
  { s with core.routeCount := tset (0, 0) s.core.routeCount k (c.1, c.2 + 1) }
/-- A halt record of a core (R110, TYPE 0). -/
def haltCore (l : Launch) (core : Nat) : BitVec 256 :=
  BitVec.ofNat 256 (core * 2 ^ 16 + tget 0 l.lastDt core * 2 ^ 64 + tget 0 l.issued core * 2 ^ 128)
/-- The halt records of the routes a launch holds at a core (R110, TYPE 1; log entry 13). -/
def haltRoutes (s : State) (l : Launch) (core : Nat) : List (BitVec 256) :=
  let route (k : Nat) : Word := BitVec.ofNat 64 k
  (s.core.routeCount.filter fun e =>
      e.1 / 2 ^ 64 == core && liveHandle s (route e.1) && (lifeOf s (hKey (route e.1))).owner == l.ctxh).map
    fun e => BitVec.ofNat 256 (1 + core * 2 ^ 16 + (route e.1).toNat * 2 ^ 64 + e.2.1 * 2 ^ 128 + e.2.2 * 2 ^ 192)
/-- A halt record lands in the queue, or is dropped when it is full (R118) or has lapsed (R34). -/
def landHalt (s : State) (h : Halt) (b : BitVec 256) : State × Halt :=
  if !liveHandle s h.evq then ({ s with hold.dropped := s.hold.dropped + 1 }, h)
  else
    let q := evqAt s (hKey h.evq)
    if decide (1 ≤ evqFree q) && q.waiting.isEmpty then (landRecord s (hKey h.evq) { bytes := b }, { h with landed := h.landed + 1 })
    else (s, { h with dropped := true })
/-- The strand waits at a barrier cell for the release, or to be counted there (R320). -/
def Strand.atBarrier (t : Strand) : Bool := t.st == 1 && match t.wait with | .barrier .. | .held => true | _ => false
/-- Its wait at a barrier cell ends before the release: the arrival stays counted, and its core acknowledges (R320). -/
def quitBar (s : State) (tag : Tag) : State :=
  { s with work.bars := s.work.bars.map fun b => if b.tag == tag && b.released.isNone then { b with left := true } else b }
/-- A strand stops for a gang stop: one in rotation, waiting in STATE 2, 3 or 4 or at a barrier is halted, and one that waits for a
reply completes first (R97, R109, R320). -/
def haltStrand (s : State) (core slot : Nat) : State :=
  match strandAt s core slot with
  | some t =>
    let tag : Tag := { core := core, slot := slot, gen := slotGenOf s core slot }
    let s := if t.st == 0 || (2 ≤ t.st && t.st ≤ 4) || (t.st == 1 && t.wait == .sem) || t.atBarrier then
        let s := quitBar (giveBack (withdraw s tag) tag t) tag
        putStrand s core slot { t with st := 6, wait := .none, got := [] }
      else s
    s
  | none => s
/-- The value GSTOP returns (R118). -/
def haltResult (h : Halt) : Word := BitVec.ofNat 64 (h.landed + if h.dropped then 2 ^ 63 else 0)
/-- The stop has ended: its issuer is answered (R118). -/
def haltDone (s : State) (h : Halt) : State :=
  match h.waiter with
  | some (tag, d) => match tagged s tag with
    | some t => sendReply s tag (.regs [(d.val, haltResult h)] t.ctx.pts)
    | none => s
  | none => s
/-- GSTOP (R118). -/
def execGstop (g : Guard) (d a b : GReg) (s : State) : Host.Outcome State Fault Refusal :=
  run .strand g none (fun s => do
    let n ← stopName s (rG s a)
    checkHandle s [7] (rG s b)
    stopTarget s (rG s a)
    checkHome s (curCtxh s) (rG s b)
    let l := launchAt s n
    if l.halted then .ok (advance (wG s d 0))
    else
      let cores := partition s n
      let s := putLaunch s n { l with halted := true }
      if cores.isEmpty then .ok (advance (wG s d 0))
      else
        let h : Halt := { launch := n, evq := rG s b, waiter := some (curTag s, d), left := cores, landed := 0, dropped := false }
        .ok (suspend { s with work.halts := s.work.halts ++ [h] } 1 .reply)) s
/-- Halted strands of the launch go on where they stopped (R109). -/
def resumeLaunch (s : State) (n : Nat) : State :=
  (launchSlots s n).foldl (fun s e => mapStrand s e.1 e.2 fun t => if t.st == 6 then { t with st := 0, wait := .none } else t) s
/-- GSTOP.GO (R118). -/
def execGstopGo (g : Guard) (d a : GReg) (s : State) : Host.Outcome State Fault Refusal :=
  run .strand g none (fun s => do
    let n ← stopName s (rG s a)
    stopTarget s (rG s a)
    let l := launchAt s n
    if l.halted then
      let cores := partition s n
      let open_ := s.work.halts.filter fun h => h.launch == n
      let s := putLaunch { s with work.halts := s.work.halts.filter fun h => h.launch != n } n { l with halted := false }
      let s := open_.foldl haltDone s
      .ok (advance (wG (resumeLaunch s n) d (BitVec.ofNat 64 cores.length)))
    else .ok (advance (wG s d 0))) s
/-- HALT_ACK: a core of the partition stops the launch's strands, writes its halt records and acknowledges (R109, R110,
R118); the stop of a CHECKPOINT, which has no queue, writes none (R377). `n` counts the cores still to acknowledge, over all stops. -/
def execHaltAck (n : Nat) (s : State) : Host.Outcome State Fault Refusal :=
  .next (confine s
    (match (s.work.halts.flatMap fun h => h.left.map fun c => (h, c))[n]? with
    | some (h, c) =>
      let l := launchAt s h.launch
      let s1 := (List.range 16).foldl (fun s i =>
        match strandAt s c i with
        | some t => if t.record.launch.toNat == h.launch then haltStrand s c i else s
        | none => s) s
      let records := if h.evq == 0 then [] else haltCore l c :: haltRoutes s1 l c
      let (s2, h2) := records.foldl (fun x b => landHalt x.1 x.2 b) (s1, h)
      let h3 := { h2 with left := h2.left.filter (· != c) }
      if h3.left.isEmpty then haltDone { s2 with work.halts := s2.work.halts.filter (· != h) } h3
      else { s2 with work.halts := s2.work.halts.map fun x => if x == h then h3 else x }
    | none => s))

/-! ### REPLAY (R119) -/

/-- The context of the strand, or of the restart-parked record, that a tag names. -/
def tagCtxh (s : State) (t : Tag) : Option Word :=
  if t.park then
    let p := tget {} s.core.park (t.core * 32 + t.slot)
    if p.used && p.gen == t.gen then some p.ctxh else none
  else (tagged s t).map (·.ctxh)
/-- REPLAY (R119). INFO0 of PROTECTION is the value of ga (DESIGN CHOICE, log entry 43). -/
def execReplay (g : Guard) (d a : GReg) (m : ReplayMod) (s : State) : Host.Outcome State Fault Refusal :=
  run .strand g none (fun s => do
    let v := rG s a
    need (decide (v.toNat < 2 ^ 32)) (bad v)
    let tag := tagOf v.toNat
    need (corePresent s tag.core) (bad (BitVec.ofNat 64 tag.core))
    need ((tagCtxh s tag).all (· == curCtxh s)) { cause := .protection, info0 := v }
    let r := replayTag s tag m (rPts s)
    .ok (awaitRoom s.core.tickets (advance (wG r.1 d (BitVec.ofNat 64 r.2))))) s

/-! ### Events of strands -/

/-- A reply takes effect on its strand (R94): registers and PTS with the PC at the next instruction, a trap, or the
instruction again. -/
def takeReply (s : State) (core slot : Nat) (t : Strand) : ReplyAct → State
  | .regs ws pts => replyRegs ws pts
  | .life d expiry pts =>
    replyRegs [(d, BitVec.ofNat 64 (expiry - localDt s core))] pts
  | .exc e => trapStrand s core slot e
  | .again => putStrand s core slot { t with st := 1, wait := .again }
where
  /-- The registers and the PTS a reply brings. -/
  replyRegs (ws : List (Nat × Word)) (pts : Nat) : State :=
    let g := ws.foldl (fun (g : Vector Word 16) w => g.set (w.1 % 16) w.2 (Nat.mod_lt _ (by decide))) t.ctx.g
    let t := t.withPts pts
    stepTrap (putStrand s core slot
      { t with ctx := { t.ctx with g := g, pc := nextPc t.ctx.pc }, st := 0, wait := .none }) core slot
/-- REPLY_ARRIVAL: the first reply for a slot arrives (R32, R94), after those that its home sent to its core before it (R55); a stale
one is dropped and counted (R93). -/
def execReplyArrival (core slot : Nat) (s : State) : Host.Outcome State Fault Refusal :=
  .next (confine s (match findPos (fun r => r.tag.core == core && r.tag.slot == slot) s.coh.replies 0 with
    | some (n, r) =>
      if replyBehind s.coh.replies n then s
      else
      let s' := { s with coh.replies := dropAt s.coh.replies n }
      match tagged s r.tag with
      | some t => if t.st == 1 && t.wait == .reply then takeReply s' core slot t r.act else s'
      | none => countStale s' core
    | none => s))
/-- TRAP_RECORD_LAND: the first record a core holds that R107 admits lands, fatal ones before others. -/
def execTrapRecordLand (core : Nat) (s : State) : Host.Outcome State Fault Refusal :=
  .next (confine s
    (let held := tget [] s.core.held core
    match (findPos (fun r => r.fatal && admitsRecord s r) held 0).or (findPos (admitsRecord s) held 0) with
    | some (n, r) => landTrap { s with core.held := tset [] s.core.held core (dropAt held n) } r
    | none => s))
/-- A strand that a wake flit finds waiting goes to its next issue with what the flit brought (R88, R97, R175). -/
def wakeStrand (t : Strand) (w : Wake) : Strand := { t with st := 0, wait := .woken, got := w.msgs, gotQ := w.q }
/-- The strand can take what a wake flit brings: it waits in STATE 2 or 3, or in a channel source, neither is it cancelled nor has its
context lapsed, and records were taken for the wait that it is in, not for one that a gang stop has ended (R97, R175). -/
def canTake (s : State) (core : Nat) (t : Strand) (w : Wake) : Bool :=
  (w.msgs.isEmpty || (t.gotQ == w.q && t.lastIssue == w.issue)) && (t.st == 2 || t.st == 3 || (t.st == 1 && t.wait == .recv)) && !filtered s core t.record && liveHandle s t.ctxh
/-- WAKE_FLIT: a flit arrives at its strand's core; one with a stale tag is dropped and counted, and records it carries for
a strand that cannot take them go back to the queue's home (R88, R93, R97, R175). -/
def execWakeFlit (n : Nat) (s : State) : Host.Outcome State Fault Refusal :=
  .next (confine s (match s.hold.wakes[n]? with
    | some w =>
      let s' := { s with hold.wakes := dropAt s.hold.wakes n }
      let back (s : State) : State := if w.msgs.isEmpty then s else { s with hold.returns := s.hold.returns ++ [w] }
      match tagged s w.tag with
      | none => back (countStale s' w.tag.core)
      | some t =>
        if canTake s w.tag.core t w then putStrand s' w.tag.core w.tag.slot (wakeStrand t w)
        else if (t.st == 2 || t.st == 3) && (filtered s w.tag.core t.record || !liveHandle s t.ctxh) then back (putStrand s' w.tag.core w.tag.slot { t with st := 0, wait := .woken })
        else back s'
    | none => s))
/-- RECORD_RETURN: records that nobody took go back to the head of their queue and are served at once, and strands in PARK on it
wake (R97, R116, R175); those of a queue that has gone DARK since are discarded as it was (R222). -/
def execRecordReturn (n : Nat) (s : State) : Host.Outcome State Fault Refusal :=
  .next (confine s (match s.hold.returns[n]? with
    | some w =>
      let key := hKey w.q
      let q := evqAt s key
      let q' : Evq := { q with recs := w.msgs ++ q.recs }
      let s := { s with hold.returns := dropAt s.hold.returns n }
      if (lifeOf s key).gen == hGen w.q && (lifeOf s key).st != 0 then wakeParked (serveEvq (putEvq s key q') key (evqFuel q')) key
      else { s with hold.drops := s.hold.drops ++ (w.msgs.filter fun m => m.route != 0).map (·.route) }
    | none => s))
/-- ILLEGAL_OPCODE: the acting agent's word has an unassigned OP (R70 step 3, R71). -/
def execIllegalOpcode (s : State) : Host.Outcome State Fault Refusal :=
  .next (confine s (raise (wordExc s .illegalOpcode 3) s))
/-- OVERLAY_MISS: the acting agent's PC is in an overlay its core does not map (R70 step 2): a strand traps (R103), a stream
waits for the load, or faults when the overlay is not in the bundle of its fork's launch (R248). -/
def execOverlayMiss (s : State) : Host.Outcome State Fault Refusal :=
  .next (confine s
    (let ovl := pcOvl (curCtx s).pc
    let e : Exc := { cause := .overlayMiss, step := 2, info0 := BitVec.ofNat 64 ovl }
    match s.cur with
    | .stream k cp =>
      let p := pairAt s k
      if (bundleEntry s p.ctxh p.env.bundle ovl).isSome then
        putPair s k (p.setStream cp { p.stream cp with wait := true, rest := true })
      else raise e s
    | _ => raise e s))

end Sys2Proof.Machine
end

