-- ==== Sys2Proof/Machine/Pages.lean ====
section
/-! DEFINITION. Physical addresses and homes (R16, R17), sectors' timestamps and L1 copies (R47 to R53), ranges, translation,
the system region and unmap writes (R345 to R353). -/

namespace Sys2Proof.Machine
open Sys2Proof

/-! ### Physical addresses and homes (R16, R17) -/

/-- A populated address (R16): of a stack that is READY, or of a CXL port that is, within the capacity present behind it. HBM frames
begin at die·2^22 + stack·2^20, CXL frames at 2^28 + port·2^25, in frames of 64 KiB. -/
def paOk (s : State) (pa : Nat) : Bool :=
  if pa < 2 ^ 40 then pa / 2 ^ 36 % 4 != 3 && readyCode s (kHbm (pa / 2 ^ 38) (pa / 2 ^ 36 % 4)) == 2
  else decide (2 ^ 44 ≤ pa) && decide (pa < 2 ^ 44 + 2 ^ 43) && readyCode s (kCxl ((pa - 2 ^ 44) / 2 ^ 41)) == 2
    && decide (pa % 2 ^ 41 / 65536 < tget 0 s.hub.cxl ((pa - 2 ^ 44) / 2 ^ 41))
/-- The stack or port of an address is STARTING: an access waits (R382). -/
def starting (s : State) (pa : Nat) : Bool :=
  if pa < 2 ^ 40 then pa / 2 ^ 36 % 4 != 3 && readyCode s (kHbm (pa / 2 ^ 38) (pa / 2 ^ 36 % 4)) == 1
  else decide (2 ^ 44 ≤ pa) && decide (pa < 2 ^ 44 + 2 ^ 43) && readyCode s (kCxl ((pa - 2 ^ 44) / 2 ^ 41)) == 1
/-- The home die of a physical address (R16). -/
def homeDie (pa : Nat) : Nat := if pa < 2 ^ 40 then pa / 2 ^ 38 % 4 else (pa - 2 ^ 44) / 2 ^ 41 % 4
/-- Slice number of a line: PA[11:8] XOR PA[15:12] (R17). -/
def lineSlice (pa : Nat) : Nat := (pa / 256 % 16) ^^^ (pa / 4096 % 16)
/-- The address under which a sector of a context's system region is kept: its home, its context and its offset (R346). -/
def sysPa (home : Nat) (ctxh : Word) (off : Nat) : Nat := 2 ^ 120 + home * 2 ^ 100 + hKey ctxh * 2 ^ 50 + off
/-- The home slice of a line (R17), or of a sector of a system region. -/
def homeOf (s : State) (pa : Nat) : Nat :=
  if 2 ^ 120 ≤ pa then pa / 2 ^ 100 % 1024 else presentSlice s (homeDie pa) (lineSlice pa)
/-- The home of an address is READY to take a request; one that is STARTING takes it later (R17, R382). -/
def homeUp (s : State) (pa : Nat) : Bool := slicePresent s (homeOf s pa)
/-- A slice's memory timestamp (R50). -/
def mtsOf (s : State) (home : Nat) : Nat := tget 0 s.coh.mts home
/-- The entry kept for a sector. -/
def dirAt (s : State) (sec : Nat) : Dir := tget {} s.coh.dir sec
/-- The state with a sector's entry set. -/
def putDir (s : State) (sec : Nat) (d : Dir) : State := { s with coh.dir := tset {} s.coh.dir sec d }
/-- The entry of a sector in L2, filled from memory with WTS = RTS = MTS when absent (R50). -/
def filled (s : State) (sec : Nat) : Dir :=
  let d := dirAt s sec
  if d.present then d else
    let m := mtsOf s (homeOf s (sec * 64))
    { d with present := true, wts := m, rts := m }
/-- The sectors of a line (R17, R53). -/
def sectorsOf (line : Nat) : List Nat := (List.range 4).map (line * 4 + ·)
/-- The entry of a sector set at its home: the timestamps of one that is leaving L2, or is not the home's to serve, stay in MTS too (R50). -/
def putHome (s : State) (sec : Nat) (d : Dir) : State :=
  let home := homeOf s (sec * 64)
  let s := if d.st == .h then s else { s with coh.mts := tset 0 s.coh.mts home (max (mtsOf s home) (max d.wts d.rts)) }
  putDir s sec d
/-- Lines of 256 bytes that a slice of L2 holds at most: 4 MiB (R14). -/
def l2Size : Nat := 16384
/-- The lines in L2 at a slice, but those that are leaving it. -/
def l2Lines (s : State) (home : Nat) : List Nat :=
  (((s.coh.dir.filter fun e => e.2.present && homeOf s (e.1 * 64) == home).map fun e => e.1 / 4).eraseDups).filter fun l =>
    !s.coh.writebacks.contains l
/-- A sector's line is not in its slice of L2, which is full: another line must leave it first. -/
def l2Full (s : State) (sec : Nat) : Bool :=
  decide (l2Size ≤ s.coh.dir.length) && (sectorsOf (sec / 4)).all (fun x => !(dirAt s x).present)
    && decide (l2Size ≤ (l2Lines s (homeOf s (sec * 64))).length)
/-- The lines of a slice that can leave it: all four sectors are in H (R54). -/
def l2Victims (s : State) (home : Nat) : List Nat := (l2Lines s home).filter fun l => (sectorsOf l).all fun x => (dirAt s x).st == .h
/-- A line with all four sectors in H is selected as victim: it is written back, MTS is raised, and its sectors are in T until memory has
acknowledged (R50, R54). -/
def victimLeaves (s : State) (line : Nat) : State :=
  let home := homeOf s (line * 256)
  (sectorsOf line).foldl (fun s x =>
    let d := dirAt s x
    putDir { s with coh.mts := tset 0 s.coh.mts home (max (mtsOf s home) (max d.wts d.rts)) } x { d with st := .t 0 false })
    { s with coh.writebacks := s.coh.writebacks ++ [line] }
/-- Room in L2 for a sector's line: a full slice selects a victim of the hardware's choice, where R54 lets a line leave (R14; log entry
46). -/
def l2Room (s : State) (sec : Nat) : State :=
  if l2Full s sec then
    let vs := l2Victims s (homeOf s (sec * 64))
    match vs[Config.freeVictim s.fresh % vs.length]? with
    | some l => victimLeaves { s with fresh := s.fresh + 1 } l
    | none => s
  else s
/-- The unit has taken the lapse notice of the range (R36). -/
def hasNoticed (s : State) (unit : Nat) (range : Word) : Bool := (tget [] s.hold.noticed unit).contains range

/-! ### L1 (R48, R52, R53, R59) -/

/-- The core whose L1 holds a line: its own, or with fused L1 the one that bits [9:8] name (R15), be that core present or not (DESIGN CHOICE,
log entry 50). -/
def l1Core (fused : Bool) (core pa : Nat) : Nat := if fused then core / 4 * 4 + pa / 256 % 4 else core
/-- The key of a sector in a core's L1: the sector's physical address, so that no virtually tagged line arises (DESIGN CHOICE, log
entry 43; R37 leaves the tag open). -/
def l1Key (core sec : Nat) : Nat := core * 2 ^ 128 + sec
/-- A sector in an L1. `kind`: 0 invalid, 1 leased, 2 owned, 3 non-coherent copy. -/
def l1At (s : State) (core sec : Nat) : L1 := tget {} s.coh.l1 (l1Key core sec)
/-- The state with a sector in an L1 set. -/
def putL1 (s : State) (core sec : Nat) (x : L1) : State := { s with coh.l1 := tset {} s.coh.l1 (l1Key core sec) x }
/-- `n` bytes of a 64-byte sector from an address. -/
def sectorPart (data pa n : Nat) : Nat := data / 256 ^ (pa % 64) % 256 ^ n
/-- A sector with `n` bytes replaced. -/
def sectorWith (data pa n v : Nat) : Nat :=
  data - sectorPart data pa n * 256 ^ (pa % 64) + v % 256 ^ n * 256 ^ (pa % 64)
/-! ### Ranges, page frames and backing (R345, R352, R357, R358) -/

/-- The range of a context, its entry not DARK, that holds an address (R350): its key and record. -/
def rangeFor (s : State) (ctxh : Word) (va : Nat) : Option (Nat × Range) :=
  s.hold.ranges.find? fun e =>
    (lifeOf s e.1).owner == ctxh && (lifeOf s e.1).st != 0 && decide (e.2.base ≤ va) && decide (va < e.2.base + e.2.size)
/-- The page number under which a page's entry is kept (R348). -/
def vpnIn (r : Range) (va : Nat) : Nat := if r.lp then va / 2 ^ 21 * 32 else va / 65536
/-- The pages of a range in state PRESENT (R347). -/
def residentOf (s : State) (ctxh : Word) (r : Range) : Nat :=
  (s.page.pte.filter fun e =>
    e.2.st == 1 && decide (pteKey ctxh (r.base / 65536) ≤ e.1) && decide (e.1 < pteKey ctxh ((r.base + r.size) / 65536))).length
/-- A page leaves ABSENT: an open fault entry that an engine opened closes, and engines that wait for the page may post anew (R351). -/
def leaveAbsent (s : State) (ctxh : Word) (key vpn : Nat) : State :=
  let s := { s with page.waits := s.page.waits.filter fun w => w.2 != pteKey ctxh vpn }
  match findPos (fun f => f.tag == {} && f.range == curHandle s key && f.va == vpn * 65536) s.page.faults 0 with
  | some (n, _) => dropFault s n
  | none => s
/-- The fault of an engine's access on a page of a pager-backed range, posted once while it waits (R351). -/
def postOnce (s : State) (engine : Nat) (h : Word) (pte va : Nat) (write : Bool) : State :=
  if s.page.waits.contains (engine, pte) then s
  else postFault { s with page.waits := s.page.waits ++ [(engine, pte)] } h va write none
/-- The engine's own change of a page-table entry: a write of the home later than every access to it (R349). -/
def bumpEntry (s : State) (ctxh : Word) (key vpn : Nat) : State :=
  let home := keyHome key
  let sec := sysPa home ctxh (0x800000000000 + 16 * vpn) / 64
  let s := l2Room s sec
  let d := filled s sec
  let w := d.rts + 1
  putHome s sec { d with wts := w, rts := w }
/-- Backing is asked for a page as by a store of REQ: its entry goes to REQ, which is a write of the home (R349, R352). -/
def askBacking (s : State) (ctxh : Word) (key : Nat) (r : Range) (vpn : Nat) (far : Bool) : State :=
  let p := pteAt s ctxh vpn
  let p := { p with st := 2, rd := true, wr := true, nc := r.nc, far := far, large := r.lp, route := 0 }
  let s := bumpEntry (leaveAbsent s ctxh key vpn) ctxh key vpn
  { s with page.pte := tset {} s.page.pte (pteKey ctxh vpn) p,
           page.backing := s.page.backing ++ [{ pte := pteKey ctxh vpn, range := key, far := far, large := r.lp }] }
/-- The prefetcher backs every ABSENT page of a fault's span, in ascending address (R352), as if a REQ were stored to each: one whose
unmap is not complete waits for that (R349). The pages beside the faulting one are marked as prefetched (R384). -/
def backSpan (s : State) (ctxh : Word) (key : Nat) (r : Range) (va : Nat) : State :=
  let lg := spanOf s ctxh r va
  let die := dieOf (keyHome key)
  let first := va / 2 ^ lg * 2 ^ lg / 65536
  let pages := if r.lp then [first] else (List.range (2 ^ (lg - 16))).map (first + ·)
  pages.foldl (fun s v =>
    let pk := pteKey ctxh v
    let p := pteAt s ctxh v
    if p.st != 0 || (p.purge && s.page.asked.contains (pk, key)) then s
    else
      let s := if p.purge then { s with page.asked := s.page.asked ++ [(pk, key)] }
        else askBacking s ctxh key r v false
      if v == vpnIn r va then s
      else countPref { s with page.touched := tput s.page.touched pk 1 } die 1) (countSpan s key r)
/-- A fault on an ABSENT page of an engine-backed range: its span is backed, once for a page whose unmap is not complete (R350, R352). -/
def backPage (s : State) (ctxh : Word) (key : Nat) (r : Range) (va : Nat) : State :=
  if (pteAt s ctxh (vpnIn r va)).purge && s.page.asked.contains (pteKey ctxh (vpnIn r va), key) then s else backSpan s ctxh key r va
/-- The first access to a prefetched page (R384). -/
def touchPage (s : State) (key pte : Nat) : State :=
  match tfind s.page.touched pte with
  | some t =>
    let die := dieOf (keyHome key)
    let s := countPref { s with page.touched := tdel s.page.touched pte } die 2
    if localDt s (keyHome key) + 2 ≤ t + 256 then countPref s die 3 else s
  | none => s

/-! ### The system region (R346 to R349) -/

/-- The system region's addresses (R346). -/
def inSystem (va : Nat) : Bool := decide (0x00FF000000000000 ≤ va) && decide (va < 2 ^ 56)
/-- The range whose record an address of the first area lies in, for its own context. -/
def recordAt (s : State) (ctxh : Word) (va : Nat) : Option Nat :=
  let off := va - 0x00FF000000000000
  let n := off / 64
  let key := entryKey 0 (n / 4096) (n % 4096)
  if off < 2 ^ 47 && n < 1024 * 4096 && (lifeOf s key).owner == ctxh && (lifeOf s key).st != 0 then some key else none
/-- The page an address of the second area has the entry of: range key, range and virtual address of the page. -/
def entryAt (s : State) (ctxh : Word) (va : Nat) : Option (Nat × Range × Nat) :=
  if 0x00FF800000000000 ≤ va then
    let page := (va - 0x00FF800000000000) / 16 * 65536
    match rangeFor s ctxh page with
    | some (key, r) => if r.lp && page % 2 ^ 21 != 0 then none else some (key, r, page)
    | none => none
  else none
/-- A range record's 64 bytes (R347). -/
def recordBytes (s : State) (key : Nat) : Nat :=
  let r := rangeAt s key
  (curHandle s key).toNat + r.base * 2 ^ 64 + r.size * 2 ^ 128 + ((if r.nc then 1 else 0) + (if r.lp then 2 else 0)) * 2 ^ 192
    + (if r.pager then 1 else 0) * 2 ^ 200 + r.pfb * 2 ^ 208 + r.pft * 2 ^ 216 + r.fq.toNat * 2 ^ 256
    + residentOf s (lifeOf s key).owner r * 2 ^ 320 + r.faults * 2 ^ 384 + r.drops * 2 ^ 448
/-- Word 0 of a page-table entry (R348). -/
def pteWord (p : Pte) : Nat :=
  p.st * 2 ^ 60 + (if p.rd then 2 ^ 59 else 0) + (if p.wr then 2 ^ 58 else 0) + (if p.nc then 2 ^ 57 else 0)
    + (if p.far then 2 ^ 56 else 0) + (if p.purge then 2 ^ 55 else 0) + p.pn % 2 ^ 40
/-- The sector of the system region at an address, as a number: what R346 lets a context read. -/
def systemSector (s : State) (ctxh : Word) (va : Nat) : Nat :=
  let base := va / 64 * 64
  match recordAt s ctxh base with
  | some key => recordBytes s key
  | none =>
    let entry (i : Nat) : Nat := match entryAt s ctxh (base + 16 * i) with
      | some (_, r, page) =>
        let p := pteAt s ctxh (vpnIn r page)
        pteWord p + p.route.toNat * 2 ^ 64
      | none => 0
    entry 0 + entry 1 * 2 ^ 128 + entry 2 * 2 ^ 256 + entry 3 * 2 ^ 384
/-- The home of a sector of the system region; where no home slice holds what stands there, so that it reads 0, the context's (R346). -/
def systemHome (s : State) (ctxh : Word) (va : Nat) : Nat :=
  if va - 0x00FF000000000000 < 2 ^ 47 then
    let h := (va - 0x00FF000000000000) / 64 / 4096 % 1024
    if slicePresent s h then h else hHome ctxh
  else match entryAt s ctxh (va / 16 * 16) with
    | some (key, _, _) => keyHome key
    | none => hHome ctxh


/-! ### Translation (R37, R350) -/

/-- The holder of the translations of a cluster's copy engine, or of its staging sequencer (R37). -/
def copyHolder (cluster : Nat) : Nat := 1024 + cluster
/-- The holder of the translations of a cluster's sequencers. -/
def seqHolder (cluster : Nat) : Nat := 1280 + cluster
/-- The holder of the translations used for a K-link port's imports. -/
def portHolder (port : Nat) : Nat := 2000 + port
/-- The unit whose device time a holder goes by. -/
def holderUnit (h : Nat) : Nat :=
  if h < 1024 then h else if h < 1280 then (h - 1024) * 4 else if h < 2000 then (h - 1280) * 4 else 0xC0
/-- The key of a cached translation. -/
def tlbKey (holder : Nat) (ctxh : Word) (vpn : Nat) : Nat := holder * 2 ^ 96 + pteKey ctxh vpn
/-- A cached translation that may be used, by an access under a translation life (R37). -/
def tlbFind (s : State) (holder : Nat) (ctxh : Word) (tl va : Nat) : Option Tlb :=
  let ok (e : Tlb) : Bool := decide (localDt s (holderUnit holder) ≤ e.stamp + min e.tl tl)
  match tfind s.page.tlb (tlbKey holder ctxh (va / 65536)) with
  | some e => if ok e then some e else none
  | none => match tfind s.page.tlb (tlbKey holder ctxh (va / 2 ^ 21 * 32)) with
    | some e => if ok e && e.large then some e else none
    | none => none
/-- What a translation gives. -/
inductive Xlat where
  | mem (pa : Nat) (nc : Bool) (range : Word)
  | peer (route : Word) (addr : Nat)
  | wait
  | exc (e : Exc)
  deriving DecidableEq, Repr
/-- The address a PRESENT entry gives, with the rights it must have and the frame it must name (R16, R350). -/
def present (s : State) (p : Pte) (large : Bool) (va : Nat) (range : Word) (rd wr : Bool) (no : Exc) : Xlat :=
  let pa := p.pn * 65536 + va % (if large then 2 ^ 21 else 65536)
  if (rd && !p.rd) || (wr && !p.wr) then .exc no
  else if starting s pa then .wait
  else if !paOk s pa then .exc no else .mem pa p.nc range
/-- A translation of a context's address for a holder, with its page-table walk when it is not cached. An engine or stream
(`engine`, by its number at the holder) waits for a pager-backed page, a core takes PAGE_FAULT (R350, R351). -/
def translate (s : State) (holder : Nat) (ctxh : Word) (tl va : Nat) (rd wr : Bool) (engine : Option Nat) (p : Word) (detail : Nat) :
    State × Xlat :=
  let no : Exc := { cause := .protection, info0 := p, detail := detail }
  if inSystem va then (s, .mem (sysPa (systemHome s ctxh va) ctxh (va - 0x00FF000000000000)) false 0)
  else match tlbFind s holder ctxh tl va with
  | some e =>
    (touchPage s (hKey e.range) (pteKey ctxh (if e.large then va / 2 ^ 21 * 32 else va / 65536)), present s e.pte e.large va e.range rd wr no)
  | none => match rangeFor s ctxh va with
    | none => (s, .exc no)
    | some (key, r) =>
      let vpn := vpnIn r va
      let pte := pteAt s ctxh vpn
      let h := curHandle s key
      match pte.st with
      | 1 =>
        let e : Tlb := { pte := pte, large := r.lp, stamp := localDt s (keyHome key), tl := tl, range := h }
        (touchPage { s with page.tlb := tput s.page.tlb (tlbKey holder ctxh vpn) e } key (pteKey ctxh vpn),
          present s pte r.lp va h rd wr no)
      | 0 =>
        if !r.pager then (backPage s ctxh key r va, .wait)
        else match engine with
        | some unit => (postOnce s (holder * 4 + unit) h (pteKey ctxh vpn) va wr, .wait)
        | none => (s, .exc { cause := .pageFault, info0 := p, detail := detail, range := h, va := va })
      | 3 => (s, .exc { cause := .exhausted, info0 := p, info1 := some h, detail := detail })
      | 4 => (s, .peer pte.route (pte.pn * 65536 + va % (if r.lp then 2 ^ 21 else 65536)))
      | _ => (s, .wait)

/-- The context of an address kept for a system region. -/
def sysCtx (s : State) (pa : Nat) : Word := curHandle s (pa / 2 ^ 50 % 2 ^ 48)
/-- The virtual address of an address kept for a system region. -/
def sysVa (pa : Nat) : Nat := 0x00FF000000000000 + pa % 2 ^ 50
/-- The 64 bytes of a sector at its home. -/
def homeData (s : State) (sec : Nat) : Nat :=
  let pa := sec * 64
  if 2 ^ 120 ≤ pa then systemSector s (sysCtx s pa) (sysVa pa) else memRead s.mem pa 64
/-! ### Unmap writes (R38, R353) -/

/-- A page-table entry's key taken apart: the key of its context and its virtual page number. -/
def pteVpn (key : Nat) : Nat := key % 2 ^ 40
/-- The holders of a page's translation, or of a copy of one of its sectors (R37). -/
def holdersOf (s : State) (pte frame : Nat) (large : Bool) : List Nat :=
  let n := if large then 2 ^ 15 else 2 ^ 10
  let tlbs := (s.page.tlb.filter fun e => e.1 % 2 ^ 96 == pte).map fun e => e.1 / 2 ^ 96
  let l1s := (s.coh.l1.filter fun e => decide (frame * 1024 ≤ e.1 % 2 ^ 128) && decide (e.1 % 2 ^ 128 < frame * 1024 + n)).map
    fun e => e.1 / 2 ^ 128
  (tlbs ++ l1s).eraseDups
/-- The longest translation life that a context's launches give, or the default of R37 when it has none. -/
def contextTl (s : State) (ctxh : Word) : Nat :=
  match (s.work.launches.filter fun e => e.2.st != 0 && e.2.ctxh == ctxh).map fun e => e.2.tl with
  | [] => 4096
  | n :: ns => ns.foldl max n
/-- The longest translation life among some holders of a page: of their cached translations, and of a copy that remains in an L1,
what the page's context gives (R38). -/
def longestTl (s : State) (pte : Nat) (holders : List Nat) : Nat :=
  let mine := s.page.tlb.filter fun e => e.1 % 2 ^ 96 == pte
  let copies := holders.any fun h => mine.all fun e => e.1 / 2 ^ 96 != h
  mine.foldl (fun n e => max n e.2.tl) (if copies then contextTl s (curHandle s (pte / 2 ^ 40)) else 0)
/-- An unmap write: the new entry with PURGE = 1, and a purge to every holder (R353). -/
def unmapWrite (s : State) (pte home : Nat) (p : Pte) (oldPn : Nat) (freed move : Option Nat) (large ncChange : Bool) : State :=
  let hs := holdersOf s pte oldPn large
  let u : Unmap := { num := s.page.unmapNo, pte := pte, old := oldPn, home := home, at_ := localDt s home, tl := longestTl s pte hs
                     holders := hs, freed := freed, move := move, large := large, ncChange := ncChange }
  let s := if freed.isSome && (tfind s.page.touched pte).isSome then
      countPref { s with page.touched := tdel s.page.touched pte } (dieOf home) 4
    else s
  { s with page.pte := tset {} s.page.pte pte { p with purge := true }
           page.unmaps := s.page.unmaps ++ [u]
           page.unmapNo := s.page.unmapNo + 1
           page.purges := s.page.purges ++ hs.map fun h => (h, pte, u.num) }
/-- What a store to a page-table entry comes to (R349). -/
inductive PteOut where
  | stored (s : State)
  | backing (s : State)
  | wait
  | no
/-- The entry a word 0 describes; `pn` is kept where the word has none to give. -/
def wordPte (p : Pte) (v : Nat) : Pte :=
  { p with st := v / 2 ^ 60 % 16, rd := v / 2 ^ 59 % 2 == 1, wr := v / 2 ^ 58 % 2 == 1, nc := v / 2 ^ 57 % 2 == 1,
           far := v / 2 ^ 56 % 2 == 1, pn := v % 2 ^ 40 }
/-- A ROUTE handle of the context that passes R25 (R349). -/
def routeOk (s : State) (ctxh h : Word) : Bool :=
  hKind h == 2 && slicePresent s (hHome h) && hGen h != 0 && decide (hIndex h < kindCap 2) && liveHandle s h
    && (lifeOf s (hKey h)).owner == ctxh
/-- A store of word 0 of an entry (R349). -/
def storeWord0 (s : State) (ctxh : Word) (key : Nat) (r : Range) (page v : Nat) : PteOut :=
  let vpn := vpnIn r page
  let pk := pteKey ctxh vpn
  let p := pteAt s ctxh vpn
  let q := wordPte p v
  let put (q : Pte) : State := { s with page.pte := tset {} s.page.pte pk q }
  if p.st == 2 || p.st == 5 || p.purge then .wait
  else if v == pteWord p then .stored s
  else if v / 2 ^ 40 % 2 ^ 15 != 0 || v / 2 ^ 55 % 2 == 1 then .no
  else match p.st, q.st with
    | 0, 2 | 3, 2 =>
      if q.pn == 0 then .backing (leaveAbsent (put { q with large := r.lp, route := 0 }) ctxh key vpn) else .no
    | 0, 4 => if routeOk s ctxh p.route then .stored (leaveAbsent (put q) ctxh key vpn) else .no
    | 1, 0 => .stored (unmapWrite s pk (keyHome key) { q with pn := 0 } p.pn (some p.pn) none r.lp false)
    | 1, 1 =>
      let fewer := (!q.rd || p.rd) && (!q.wr || p.wr) && (q.rd != p.rd || q.wr != p.wr)
      if q.pn == p.pn && q.far == p.far && (fewer || q.nc != p.nc) then
        .stored (unmapWrite s pk (keyHome key) q p.pn none none r.lp (q.nc != p.nc))
      else .no
    | 4, 0 => .stored (unmapWrite s pk (keyHome key) { q with pn := 0, route := 0 } (2 ^ 40) none none r.lp false)
    | _, _ => .no
/-- A store to a range record (R347): the record as stored, or a refusal. -/
def storeRecord (s : State) (key va n v : Nat) : Option State :=
  let r := rangeAt s key
  let w := sectorWith (recordBytes s key) va n v
  let pfb := w / 2 ^ 208 % 256
  let pft := w / 2 ^ 216 % 256
  if decide (16 ≤ pfb) && decide (pfb ≤ 21) && decide (1 ≤ pft) then
    some (putRange s key
      { r with pager := w / 2 ^ 200 % 2 == 1, pfb := pfb, pft := pft, fq := BitVec.ofNat 64 (w / 2 ^ 256) })
  else none
/-- A store to the system region at its home (R346 to R349). `plain`: an ST.64 of class .W, the only store an entry takes. -/
def storeSystem (s : State) (ctxh : Word) (va n v : Nat) (plain : Bool) : PteOut :=
  match recordAt s ctxh va with
  | some key => match storeRecord s key va n v with
    | some t => .stored t
    | none => .no
  | none => match entryAt s ctxh (va / 16 * 16) with
    | none => .no
    | some (key, r, page) =>
      if !plain then .no
      else if va % 16 == 0 then storeWord0 s ctxh key r page v
      else
        let p := pteAt s ctxh (vpnIn r page)
        if p.st == 0 && p.purge then .wait
        else if p.st == 0 then
          .stored { s with page.pte := tset {} s.page.pte (pteKey ctxh (vpnIn r page)) { p with route := BitVec.ofNat 64 v } }
        else .no

end Sys2Proof.Machine
end

