-- ==== Sys2Proof/Machine/Access.lean ====
section
/-! DEFINITION. Requests at the homes of sectors (R47, R54, R57, R64) and accesses to scratchpad (R49). -/

namespace Sys2Proof.Machine
open Sys2Proof

/-! ### Answers of a home -/

/-- A load's register values (R154). -/
def loadRegs (d : GReg) (w : Wid) (sx : Bool) (v : Nat) : List (Nat × Word) := [(d.val, extLoad w sx v)]
where
  /-- A value of a width, extended (R154). -/
  extLoad (w : Wid) (sx : Bool) (v : Nat) : Word :=
    match w with
    | .w8 => if sx then (BitVec.ofNat 8 v).signExtend 64 else (BitVec.ofNat 8 v).zeroExtend 64
    | .w16 => if sx then (BitVec.ofNat 16 v).signExtend 64 else (BitVec.ofNat 16 v).zeroExtend 64
    | .w32 => if sx then (BitVec.ofNat 32 v).signExtend 64 else (BitVec.ofNat 32 v).zeroExtend 64
    | .w64 => BitVec.ofNat 64 v
/-- Bytes of a width (R67). -/
def widBytes : Wid → Nat
  | .w8 => 1 | .w16 => 2 | .w32 => 4 | .w64 => 8
/-- The register after one, of an even one's pair. -/
def pairReg (d : GReg) : Nat := d.val + 1
/-- The registers that the bytes of a reply go to (R154, R158). -/
def postRegs (v : Nat) : Post → List (Nat × Word)
  | .load d w sx => loadRegs d w sx v
  | .loadPair d w sx =>
    loadRegs d w sx (v % 256 ^ widBytes w) ++ [(pairReg d, loadRegs.extLoad w sx (v / 256 ^ widBytes w))]
  | .amo d w => loadRegs d w false v
  | _ => []
/-- The registers of a reply written for the acting strand. -/
def writeRegs (s : State) (ws : List (Nat × Word)) : State :=
  ws.foldl (fun s w => wG s ⟨w.1 % 16, Nat.mod_lt _ (by decide)⟩ w.2) s
/-- What a request comes to, for the engine that made it. -/
def serveEngine (s : State) (id v ts : Nat) (e : Option Exc) : State :=
  { s with coh.served := s.coh.served ++ [{ engine := id, v := v, ts := ts, exc := e }] }
/-- A home's answer to a request: to its strand, to a hub agent, whose PTS moves only upward (R46), or to an engine. -/
def answer (s : State) (r : MemReq) (v pts : Nat) : State :=
  match r.hub, r.engine with
  | some a, _ =>
    { s with coh.hubPts := tset 0 s.coh.hubPts a (max (tget 0 s.coh.hubPts a) pts), coh.hubOut := s.coh.hubOut ++ [(a, v)] }
  | none, some id => serveEngine s id v pts none
  | none, none => homeReply s (homeOf s r.pa) r.tag (match r.post with
    | .again => .again
    | p => .regs (postRegs v p) pts)
/-- The request faults at its home. -/
def refuse (s : State) (r : MemReq) (e : Exc) : State :=
  match r.hub, r.engine with
  | some a, _ => { s with coh.hubOut := s.coh.hubOut ++ [(a, 0)] }
  | none, some id => serveEngine s id 0 0 (some e)
  | none, none => homeReply s (homeOf s r.pa) r.tag (.exc e)
/-- The request is a strand's, whose L1 keeps a copy. -/
def MemReq.ofStrand (r : MemReq) : Bool := r.hub.isNone && r.engine.isNone

/-! ### Hotness (R354) -/

/-- The slice that keeps a page's counts (R354). -/
def hotSlice (s : State) (pa : Nat) : Nat := presentSlice s (homeDie pa) ((pa / 2 ^ 16 % 16) ^^^ (pa / 2 ^ 20 % 16))
/-- Counts with one die's raised by one, all halved first when it would reach 256. -/
def Hot.count (h : Hot) (die : Nat) : Hot :=
  let c := [h.c0, h.c1, h.c2, h.c3][die]?.getD 0
  let h := if c == 255 then { h with c0 := h.c0 / 2, c1 := h.c1 / 2, c2 := h.c2 / 2, c3 := h.c3 / 2 } else h
  match die with
  | 0 => { h with c0 := h.c0 + 1 }
  | 1 => { h with c1 := h.c1 + 1 }
  | 2 => { h with c2 := h.c2 + 1 }
  | _ => { h with c3 := h.c3 + 1 }
/-- The page-table entry that is PRESENT over a frame, with its key. -/
def pageOf (s : State) (frame : Nat) : Option (Nat × Pte) :=
  s.page.pte.find? fun e => e.2.st == 1 && decide (e.2.pn ≤ frame) && decide (frame < e.2.pn + if e.2.large then 32 else 1)
/-- A request of a core or cluster engine of a die to a page in HBM is counted. -/
def countHot (s : State) (pa die : Nat) : State :=
  if pa < 2 ^ 40 then match pageOf s (pa / 65536) with
    | some (_, p) => { s with page.hot := tset {} s.page.hot p.pn ((tget {} s.page.hot p.pn).count die) }
    | none => s
  else s

/-! ### Requests at a home (R47, R54, R57, R64) -/

/-- The sectors a slice's owner directory lists, in the order of their grants (R57). -/
def ownersOf (s : State) (home : Nat) : List Nat := tget [] s.coh.owners home
/-- The owner directory of a slice is full (R57). -/
def ownersFull (s : State) (home : Nat) : Bool := decide (65536 ≤ (ownersOf s home).length)
/-- An owner entry is freed. -/
def freeOwner (s : State) (sec : Nat) : State :=
  let home := homeOf s (sec * 64)
  { s with coh.owners := tset [] s.coh.owners home ((ownersOf s home).filter (· != sec)) }
/-- A message between a core and a home, in the order of sending (R55). -/
def sendCoh (s : State) (m : Coh) : State :=
  { s with coh.coh := s.coh.coh ++ [(s.coh.sent, m)], coh.sent := s.coh.sent + 1 }
/-- The value f(old, opnd) of an atomic at a width (R64, R159). -/
def amoValue (op : AmoOp) (u : Bool) (n old opnd cmp : Nat) : Nat :=
  let m := 256 ^ n
  let lt (a b : Nat) : Bool := if u then decide (a < b)
    else decide ((a + m / 2) % m < (b + m / 2) % m)
  let o := opnd % m
  match op with
  | .add => (old + o) % m
  | .and => old &&& o
  | .or => old ||| o
  | .xor => old ^^^ o
  | .min => if lt o old then o else old
  | .max => if lt old o then o else old
  | .swap => o
  | .cas => if old == cmp % m then o else old
/-- The owner a recall goes to, and the sector in T (R54). -/
def recallFrom (s : State) (sec c : Nat) : State :=
  let d := dirAt s sec
  sendCoh (putDir s sec { d with st := .t c true }) (.ask c sec)
/-- The sector of the least recently granted entry that is in O (R57). -/
def oldestOwned (s : State) (home : Nat) : Option (Nat × Nat) :=
  match findPos (fun sec => match (dirAt s sec).st with | .o _ => true | _ => false) (ownersOf s home) 0 with
  | some (_, sec) => match (dirAt s sec).st with
    | .o c => some (sec, c)
    | _ => none
  | none => none
/-- The recall of the sector that has been owned longest at a slice (R57). -/
def recallOldest (s : State) (home : Nat) : State :=
  match oldestOwned s home with
  | some (v, c) => recallFrom s v c
  | none => s

/-! ### Room in an L1 (R14, R53, R56) -/

/-- A sector leaves an L1: an owned one is written back (R56). -/
def dropL1 (s : State) (c sec : Nat) : State :=
  let x := l1At s c sec
  let s := putL1 s c sec {}
  if x.kind == 2 then sendCoh s (.writeBack c sec (if x.dirty then some x.data else none) x.wts x.e) else s
/-- Lines of 256 bytes that an L1 holds at most: 128 KiB (R14). -/
def l1Size : Nat := 512
/-- The lines an L1 holds. -/
def l1Lines (s : State) (c : Nat) : List Nat := ((s.coh.l1.filter fun e => e.1 / 2 ^ 128 == c).map fun e => e.1 % 2 ^ 128 / 4).eraseDups
/-- A sector in an L1 with its line: a line of the hardware's choice leaves a full L1 first (R14; log entry 46). -/
def fillL1 (s : State) (c sec : Nat) (x : L1) : State :=
  let ls := l1Lines s c
  if s.coh.l1.length < l1Size || ls.length < l1Size || ls.contains (sec / 4) then putL1 s c sec x
  else match ls[Config.freeVictim s.fresh % ls.length]? with
    | some l => putL1 ((sectorsOf l).foldl (fun s x => dropL1 s c x) { s with fresh := s.fresh + 1 }) c sec x
    | none => putL1 s c sec x
/-- The L1 a request's copy goes to. -/
def reqCore (s : State) (r : MemReq) : Nat :=
  l1Core ((tagged s r.tag).any fun t => (launchAt s t.record.launch.toNat).fused) r.tag.core r.pa
/-- Ownership of a sector in H given to the core a request came from (R54). -/
def grantOwner (s : State) (r : MemReq) (core : Nat) : State :=
  let sec := r.pa / 64
  let home := homeOf s r.pa
  let d := filled s sec
  let s := putDir s sec { d with st := .o core }
  let s := fillL1 s core sec { kind := 2, data := homeData s sec, wts := d.wts, e := d.rts, range := r.range }
  { s with coh.owners := tset [] s.coh.owners home (ownersOf s home ++ [sec]) }
/-- The storing core's leased copy of a sector it has stored to: what the store left, under lease [w, w] (R47, R359). -/
def storeCopy (s : State) (r : MemReq) (w data : Nat) : State :=
  let c := reqCore s r
  let x := l1At s c (r.pa / 64)
  if r.ofStrand && x.kind == 1 then putL1 s c (r.pa / 64) { x with data := data, wts := w, e := w } else s
/-- A store taken by the home of a sector of the system region: applied, waiting (R349), or refused. The storing core's copy holds the
word stored, not what the engine writes after it (R359). -/
def writeSystem (s : State) (r : MemReq) (v : Nat) (plain : Bool) : State :=
  let sec := r.pa / 64
  let d := filled s sec
  let w := max r.pts (d.rts + 1)
  let ctxh := sysCtx s r.pa
  let va := sysVa r.pa
  match storeSystem s ctxh va r.n v plain with
  | .stored t =>
    let u := putDir t sec { d with wts := w, rts := w }
    match entryAt s ctxh (va / 16 * 16) with
    | some (key, rg, page) =>
      let u := if t.page.unmaps.length == s.page.unmaps.length then u else bumpEntry u ctxh key (vpnIn rg page)
      answer (storeCopy u r w (sectorWith (homeData t sec) r.pa r.n v)) r 0 w
    | none => answer (storeCopy u r w (homeData t sec)) r 0 w
  | .backing t =>
    let data := sectorWith (homeData t sec) r.pa r.n v
    let t := storeCopy (putDir t sec { d with wts := w, rts := w }) r w data
    match entryAt s ctxh (va / 16 * 16) with
    | some (key, rg, page) =>
      let vpn := vpnIn rg page
      let b : Backing := { pte := pteKey ctxh vpn, range := key, far := (pteAt t ctxh vpn).far, large := rg.lp, waiter := some (r, w, data) }
      { t with page.backing := t.page.backing ++ [b] }
    | none => t
  | .wait => { s with page.stores := s.page.stores ++ [r] }
  | .no => refuse s r { cause := .protection, info0 := r.ptr, detail := r.detail }
/-- An atomic on the system region: a checked store of the record area, PROTECTION on an entry (R347, R349). -/
def amoSystem (s : State) (r : MemReq) (old v : Nat) : State :=
  let sec := r.pa / 64
  let d := filled s sec
  let w := max r.pts (d.rts + 1)
  match storeSystem s (sysCtx s r.pa) (sysVa r.pa) r.n v false with
  | .stored t => answer (putDir t sec { d with wts := w, rts := w }) r old w
  | _ => refuse s r { cause := .protection, info0 := r.ptr, detail := r.detail }
/-- The issuing core's copy of a page without coherence takes what its own access has written (R59). -/
def ncCopy (s : State) (r : MemReq) (v : Nat) : State :=
  let c := reqCore s r
  let x := l1At s c (r.pa / 64)
  if r.ofStrand && x.kind == 3 then putL1 s c (r.pa / 64) { x with data := sectorWith x.data r.pa r.n v } else s
/-- A request served in state H, or on a page without coherence (R47, R54, R59, R64). -/
def serveH (s : State) (r : MemReq) : State :=
  let sec := r.pa / 64
  let d := filled s sec
  let c := reqCore s r
  let keepCopy := r.ofStrand
  let value := sectorPart (homeData s sec) r.pa r.n
  match r.kind with
  | .read | .renew _ =>
    let ts := max r.pts d.wts
    let e := ts + r.ll
    let s := putDir s sec { d with rts := max d.rts e }
    let s := if keepCopy then
        fillL1 s c sec { kind := 1, data := homeData s sec, wts := d.wts, e := e, range := r.range }
      else s
    answer s r value ts
  | .write v => if 2 ^ 120 ≤ r.pa then writeSystem s r v (r.n == 8 && r.plain) else
    let w := max r.pts (d.rts + 1)
    let s := putDir { s with mem := memWrite s.mem r.pa r.n v } sec { d with wts := w, rts := w }
    let x := l1At s c sec
    let s := if keepCopy && x.kind == 1 then putL1 s c sec { x with data := homeData s sec, wts := w, e := w } else s
    answer s r 0 w
  | .own =>
    let home := homeOf s r.pa
    if ownersFull s home then
      recallOldest { s with coh.grantq := tset [] s.coh.grantq home (tget [] s.coh.grantq home ++ [r]) } home
    else answer (grantOwner s r c) r 0 r.pts
  | .amo op opnd cmp u =>
    let w := max r.pts (d.rts + 1)
    let old := value
    if 2 ^ 120 ≤ r.pa then amoSystem s r old (amoValue op u r.n old opnd cmp) else
    let s := { s with mem := memWrite s.mem r.pa r.n (amoValue op u r.n old opnd cmp) }
    answer (putDir s sec { d with wts := w, rts := w }) r old w
  | .ncRead =>
    let s := if keepCopy then fillL1 s c sec { kind := 3, data := homeData s sec, range := r.range } else s
    answer s r (memRead s.mem r.pa r.n) r.pts
  | .ncWrite v =>
    let s := { s with mem := memWrite s.mem r.pa r.n v }
    answer (ncCopy s r v) r 0 r.pts
/-- An atomic on a page without coherence (R59, R64). -/
def serveNcAmo (s : State) (r : MemReq) (op : AmoOp) (opnd cmp : Nat) (u : Bool) : State :=
  let old := memRead s.mem r.pa r.n
  let v := amoValue op u r.n old opnd cmp
  answer (ncCopy { s with mem := memWrite s.mem r.pa r.n v } r v) r old r.pts
/-- A request taken by the home arbiter of its sector in the state it finds (R54). -/
def dispatchReq (s : State) (r : MemReq) : State :=
  let sec := r.pa / 64
  let d := dirAt s sec
  match r.kind with
  | .ncRead | .ncWrite _ => serveH s r
  | _ => match d.st with
    | .h => serveH (l2Room s sec) r
    | .o c => recallFrom (putDir s sec { d with queue := d.queue ++ [r] }) sec c
    | .t _ _ => putDir s sec { d with queue := d.queue ++ [r] }
/-- A request taken by its home: the lapse notice of its range decides first (R36), a failed word is SOFT_ERROR (R106), and it is
counted (R354). -/
def takeReq (s : State) (r : MemReq) : State :=
  if hasNoticed s (homeOf s r.pa) r.range then refuse s r { cause := .lapsed, info0 := r.ptr, detail := r.detail }
  else match softWord s r.pa r.n with
  | some w => refuse s r { softExc w with detail := r.detail }
  | none =>
    let s := if r.hub.isSome || 2 ^ 120 ≤ r.pa then s else countHot s r.pa (dieOf r.tag.core)
    match r.nc, r.kind with
    | true, .amo op opnd cmp u => serveNcAmo s r op opnd cmp u
    | _, _ => dispatchReq s r
/-- Queued requests of a sector taken in turn (R54). -/
def serveQueue (s : State) (sec : Nat) : List MemReq → State
  | [] => s
  | r :: rs => serveQueue (dispatchReq s r) sec rs
/-- A sector's queue served after a recall resolved or a write-back was acknowledged. -/
def unqueue (s : State) (sec : Nat) : State :=
  let d := dirAt s sec
  serveQueue (putDir s sec { d with queue := [] }) sec d.queue
/-- The oldest waiting grant of a slice is made when an entry is free (R57). -/
def serveGrants (s : State) (home : Nat) : State :=
  match tget [] s.coh.grantq home with
  | r :: rs =>
    if ownersFull s home then s
    else dispatchReq { s with coh.grantq := tset [] s.coh.grantq home rs } r
  | [] => s

/-! ### Scratchpad (R49) -/

/-- The timestamps of a scratchpad sector. -/
def stampAt (s : State) (core off : Nat) : Stamp := tget {} s.coh.stamps (core * 8192 + off / 64)
/-- The state with the timestamps of a scratchpad sector set. -/
def putStamp (s : State) (core off : Nat) (x : Stamp) : State :=
  { s with coh.stamps := tset {} s.coh.stamps (core * 8192 + off / 64) x }
/-- A scratchpad load within one sector: the bytes and the access timestamp. -/
def spLoad (s : State) (core off n pts : Nat) : State × Nat × Nat :=
  let s := noteSoft s (scratchAt core off) n
  let x := stampAt s core off
  let ts := max pts x.wts
  (putStamp s core off { x with rts := max x.rts ts }, memRead s.mem (scratchAt core off) n, ts)
/-- A scratchpad store within one sector: the access timestamp. -/
def spStore (s : State) (core off n pts v : Nat) : State × Nat :=
  let s := noteSoft s (scratchAt core off) n
  let x := stampAt s core off
  let w := max pts (x.rts + 1)
  (putStamp { s with mem := memWrite s.mem (scratchAt core off) n v } core off { wts := w, rts := w }, w)
/-- A scratchpad access that reads and writes at one timestamp (R64, R298): the old bytes and the timestamp. -/
def spSwap (s : State) (core off n pts : Nat) (f : Nat → Nat) : State × Nat × Nat :=
  let s := noteSoft s (scratchAt core off) n
  let x := stampAt s core off
  let w := max pts (x.rts + 1)
  let old := memRead s.mem (scratchAt core off) n
  (putStamp { s with mem := memWrite s.mem (scratchAt core off) n (f old) } core off { wts := w, rts := w }, old, w)
/-- Scratchpad loads in ascending address, in pieces of at most 32 bytes: the bytes as a number and the timestamp. -/
def spLoads (s : State) (core : Nat) : Nat → Nat → Nat → State × Nat × Nat
  | _, 0, pts => (s, 0, pts)
  | off, k + 1, pts =>
    let r := spLoad s core off 32 pts
    let q := spLoads r.1 core (off + 32) k r.2.2
    (q.1, r.2.1 + 2 ^ 256 * q.2.1, q.2.2)


end Sys2Proof.Machine
end

