-- ==== Sys2Proof/Machine/Digest.lean ====
section
/-! DEFINITION. SHA-512, which R75, R380 and R387 name (PRESUMED: FIPS 180-4), and CRC-32C, which R363 names (PRESUMED: its usual
parameters); log entry 8. -/

namespace Sys2Proof.Machine
open Sys2Proof

/-- The round constants. -/
def shaK : List Word :=
    [0x428A2F98D728AE22, 0x7137449123EF65CD, 0xB5C0FBCFEC4D3B2F, 0xE9B5DBA58189DBBC,
     0x3956C25BF348B538, 0x59F111F1B605D019, 0x923F82A4AF194F9B, 0xAB1C5ED5DA6D8118,
     0xD807AA98A3030242, 0x12835B0145706FBE, 0x243185BE4EE4B28C, 0x550C7DC3D5FFB4E2,
     0x72BE5D74F27B896F, 0x80DEB1FE3B1696B1, 0x9BDC06A725C71235, 0xC19BF174CF692694] ++
    [0xE49B69C19EF14AD2, 0xEFBE4786384F25E3, 0x0FC19DC68B8CD5B5, 0x240CA1CC77AC9C65,
     0x2DE92C6F592B0275, 0x4A7484AA6EA6E483, 0x5CB0A9DCBD41FBD4, 0x76F988DA831153B5,
     0x983E5152EE66DFAB, 0xA831C66D2DB43210, 0xB00327C898FB213F, 0xBF597FC7BEEF0EE4,
     0xC6E00BF33DA88FC2, 0xD5A79147930AA725, 0x06CA6351E003826F, 0x142929670A0E6E70] ++
    [0x27B70A8546D22FFC, 0x2E1B21385C26C926, 0x4D2C6DFC5AC42AED, 0x53380D139D95B3DF,
     0x650A73548BAF63DE, 0x766A0ABB3C77B2A8, 0x81C2C92E47EDAEE6, 0x92722C851482353B,
     0xA2BFE8A14CF10364, 0xA81A664BBC423001, 0xC24B8B70D0F89791, 0xC76C51A30654BE30,
     0xD192E819D6EF5218, 0xD69906245565A910, 0xF40E35855771202A, 0x106AA07032BBD1B8] ++
    [0x19A4C116B8D2D0C8, 0x1E376C085141AB53, 0x2748774CDF8EEB99, 0x34B0BCB5E19B48A8,
     0x391C0CB3C5C95A63, 0x4ED8AA4AE3418ACB, 0x5B9CCA4F7763E373, 0x682E6FF3D6B2B8A3,
     0x748F82EE5DEFB2FC, 0x78A5636F43172F60, 0x84C87814A1F0AB72, 0x8CC702081A6439EC,
     0x90BEFFFA23631E28, 0xA4506CEBDE82BDE9, 0xBEF9A3F7B2C67915, 0xC67178F2E372532B] ++
    [0xCA273ECEEA26619C, 0xD186B8C721C0C207, 0xEADA7DD6CDE0EB1E, 0xF57D4F7FEE6ED178,
     0x06F067AA72176FBA, 0x0A637DC5A2C898A6, 0x113F9804BEF90DAE, 0x1B710B35131C471B,
     0x28DB77F523047D84, 0x32CAAB7B40C72493, 0x3C9EBE0A15C9BEBC, 0x431D67C49C100D4C,
     0x4CC5D4BECB3E42B6, 0x597F299CFC657E2A, 0x5FCB6FAB3AD6FAEC, 0x6C44198C4A475817]
/-- The eight working variables of SHA-512. -/
structure Sha where
  a : Word
  b : Word
  c : Word
  d : Word
  e : Word
  f : Word
  g : Word
  h : Word
/-- The initial hash value. -/
def shaInit : Sha := ⟨0x6A09E667F3BCC908, 0xBB67AE8584CAA73B, 0x3C6EF372FE94F82B, 0xA54FF53A5F1D36F1,
  0x510E527FADE682D1, 0x9B05688C2B3E6C1F, 0x1F83D9ABFB41BD6B, 0x5BE0CD19137E2179⟩
/-- The exclusive or of a word rotated right by three amounts. -/
def shaMix (x : Word) (i j k : Nat) : Word := x.rotateRight i ^^^ x.rotateRight j ^^^ x.rotateRight k
/-- The exclusive or of a word rotated right by two amounts and shifted right by a third. -/
def shaMixShift (x : Word) (i j k : Nat) : Word := x.rotateRight i ^^^ x.rotateRight j ^^^ x >>> k
/-- The message schedule, its latest word first, after `n` more words. -/
def shaSchedule : Nat → List Word → List Word
  | 0, w => w
  | n + 1, w =>
    let at_ (i : Nat) : Word := w[i]?.getD 0
    shaSchedule n ((shaMixShift (at_ 1) 19 61 6 + at_ 6 + shaMixShift (at_ 14) 1 8 7 + at_ 15) :: w)
/-- One round, with its constant and its word of the schedule. -/
def Sha.round (x : Sha) (kw : Word × Word) : Sha :=
  let t := x.h + shaMix x.e 14 18 41 + ((x.e &&& x.f) ^^^ (~~~x.e &&& x.g)) + kw.1 + kw.2
  let u := shaMix x.a 28 34 39 + ((x.a &&& x.b) ^^^ (x.a &&& x.c) ^^^ (x.b &&& x.c))
  ⟨t + u, x.a, x.b, x.c, x.d + t, x.e, x.f, x.g⟩
/-- The hash value after a block of 16 words. -/
def Sha.block (x : Sha) (w : List Word) : Sha :=
  let y := (shaK.zip (shaSchedule 64 w.reverse).reverse).foldl Sha.round x
  ⟨x.a + y.a, x.b + y.b, x.c + y.c, x.d + y.d, x.e + y.e, x.f + y.f, x.g + y.g, x.h + y.h⟩
/-- The bytes of a word, the most significant first. -/
def bigBytes (n : Nat) (v : Nat) : List Byte := (toBytes n v).reverse
/-- Bytes as words, each with its most significant byte first, `n` words. -/
def bigWords : Nat → List Byte → List Word
  | 0, _ => []
  | n + 1, bs => BitVec.ofNat 64 (ofBytes (bs.take 8).reverse) :: bigWords n (bs.drop 8)
/-- A message filled up to whole blocks of 128 bytes: a one bit, zeros, and its length in bits. -/
def shaPad (bs : List Byte) : List Byte :=
  bs ++ [0x80] ++ List.replicate ((128 - (bs.length + 17) % 128) % 128) 0 ++ bigBytes 16 (8 * bs.length)
/-- The hash value after `n` blocks. -/
def shaBlocks : Nat → List Byte → Sha → Sha
  | 0, _, x => x
  | n + 1, bs, x => shaBlocks n (bs.drop 128) (x.block (bigWords 16 bs))
/-- The SHA-512 digest of some bytes, as 64 bytes. -/
def sha512 (bs : List Byte) : List Byte :=
  let p := shaPad bs
  let x := shaBlocks (p.length / 128) p shaInit
  [x.a, x.b, x.c, x.d, x.e, x.f, x.g, x.h].flatMap fun w => bigBytes 8 w.toNat
/-- The digest as a number, its first byte the lowest. -/
def digest (bs : List Byte) : BitVec 512 := BitVec.ofNat 512 (ofBytes (sha512 bs))

/-- One bit of CRC-32C. -/
def crcBit (c : Nat) : Nat := if c % 2 == 1 then (c / 2) ^^^ 0x82F63B78 else c / 2
/-- CRC-32C of a list of bytes (R363). -/
def crc32c (bs : List Byte) : Nat :=
  bs.foldl (fun c b => (List.range 8).foldl (fun c _ => crcBit c) (c ^^^ b.toNat)) 0xFFFFFFFF ^^^ 0xFFFFFFFF

end Sys2Proof.Machine
end

