-- ==== Sys2Proof/Machine/Memory.lean ====
section
/-! DEFINITION. Loads, stores, atomics, PREF, FENCE and CLFL (R151 to R160), accesses through a peer (R65, R169, R350), and the
start of a migration (R98, R173). -/

namespace Sys2Proof.Machine
open Sys2Proof

/-! ### Migration (R98, R173) -/

/-- The launch admits a core: it is present and its cluster's bit of CMASK is 1 (R315). -/
def admits (s : State) (l : Launch) (core : Nat) : Bool :=
  corePresent s core && l.cmask.testBit (48 * dieOf core + unitOf core)
/-- The strand leaves its core for another: the old binding is dropped and the image is on its way (R98); an open
fork is lost (R271). -/
def depart (s : State) (core slot target : Nat) (t : Strand) : State :=
  let tag : Tag := { core := core, slot := slot, gen := slotGenOf s core slot }
  let s := abandonForks s tag
  freeSlot { s with core.migr := s.core.migr ++ [(target, { t with wait := .none, st := 0, former := keptTags s tag t.former })] } core slot
/-- The acting strand migrates, once the target has admitted it (R173). -/
def migrateTo (s : State) (target : Nat) : Except Exc State :=
  if admits s (curLaunch s) target then
    .ok (match s.cur with
      | .strand c i => match strandAt s c i with
        | some t => depart s c i target t
        | none => s
      | _ => s)
  else .error { cause := .protection, info0 := BitVec.ofNat 64 target }

/-! ### Accesses through a route to a peer or a PCIe completer (R65, R160, R169, R350, R368) -/

/-- A route (R167). -/
def routeAt (s : State) (h : Word) : Route := tget {} s.hold.routes (hKey h)
/-- What an access through a route asks for. -/
inductive PeerOp where
  | read (n : Nat)
  | write (n v : Nat)
  | amo (op : AmoOp) (u : Bool) (n opnd cmp : Nat)
/-- A number of a list of flags: ADD, SWAP and CAS at 32 and at 64 bits, the operations an aperture can carry (R65, R169). -/
def carried (r : Route) (op : AmoOp) (n : Nat) : Bool :=
  let i := match op with
    | .add => some 0 | .swap => some 1 | .cas => some 2 | _ => none
  r.dtype != 2 || i.any fun k => r.caps.getLsbD (k + if n == 8 then 3 else 0)
/-- MINOR of an atomic (R159). -/
def amoMinor : AmoOp → Nat
  | .add => 0 | .and => 1 | .or => 2 | .xor => 3 | .min => 4 | .max => 5 | .swap => 6 | .cas => 7
/-- Bytes filled up to whole flits of 64 (R363). -/
def flits (bs : List Byte) : List Byte := bs ++ List.replicate ((64 - bs.length % 64) % 64) 0
/-- A packet of a type and transaction with its payload (R363); `seq` and `ack` are the port's when it sends. -/
def packetOf (type xid : Nat) (payload : List Byte) : Packet :=
  { type := type, seq := 0, ack := 0, nak := false, aop := 0, status := 0, addr := 0, opnd := 0, cmp := 0, xid := xid,
    payload := flits payload, len := (payload.length + 63) / 64 }
/-- The packet of a request through K-link (R363). A write carries its bytes, and their number in OPND (DESIGN CHOICE, log entry 49). -/
def peerPacket (op : PeerOp) (addr xid : Nat) : Packet :=
  match op with
  | .read n => { packetOf 3 xid [] with addr := BitVec.ofNat 64 addr, opnd := BitVec.ofNat 64 n }
  | .write n v => { packetOf 1 xid (toBytes n v) with addr := BitVec.ofNat 64 addr, opnd := BitVec.ofNat 64 n }
  | .amo o u n opnd cmp =>
    { packetOf 5 xid [] with
      aop := amoMinor o + (if u then 8 else 0) + (if n == 8 then 16 else 0), addr := BitVec.ofNat 64 addr, opnd := BitVec.ofNat 64 opnd,
      cmp := if o == .cas then BitVec.ofNat 64 cmp else 0 }
/-- The bytes that the answer of a request brings. -/
def PeerOp.answer : PeerOp → Nat
  | .read n => n
  | .write _ _ => 0
  | .amo _ _ n _ _ => n
/-- A reply packet (R363). -/
def replyPacket (type xid status : Nat) (payload : List Byte) : Packet := { packetOf type xid payload with status := status }
/-- The bytes of a header flit before its CRC (R363). -/
def headerBytes (p : Packet) : List Byte :=
  [(p.type, 1), (p.len, 1), (p.seq, 2), (p.ack % 2 ^ 15 + if p.nak then 2 ^ 15 else 0, 2), (p.aop, 1), (p.status, 1), (p.addr.toNat, 8),
    (p.opnd.toNat, 8), (p.cmp.toNat, 8), (p.xid, 4), (p.rsv, 24)].flatMap fun f => toBytes f.2 f.1
/-- The CRC of a packet: over its header's bytes 0x00 to 0x3B and every payload flit (R363). -/
def packetCrc (p : Packet) : Nat := crc32c (headerBytes p ++ p.payload)
/-- A packet as it goes out, its CRC computed. -/
def withCrc (p : Packet) : Packet := { p with crc := packetCrc p }
/-- Packets that wait are sent, while the port is UP and fewer than 2,047 are unacknowledged: numbered, carrying the port's ACK,
and kept in the replay buffer (R364); as many rounds as packets wait. -/
def Port.pump (dt : Nat) : Nat → Port → Port
  | 0, x => x
  | n + 1, x =>
    match x.tx with
    | p :: r =>
      if x.st == 2 && x.buffer.length < 2047 then
        let q := withCrc { p with seq := x.nextSeq, ack := x.lastAcc, nak := false }
        Port.pump dt n { x with tx := r, buffer := x.buffer ++ [q], wire := x.wire ++ [q], nextSeq := (x.nextSeq + 1) % 4096, owed := false,
                                ackTick := if x.buffer.isEmpty then dt else x.ackTick, replays := if x.buffer.isEmpty then 0 else x.replays }
      else x
    | [] => x
/-- The state with a port set, what can be sent then being sent. -/
def putPort (s : State) (port : Nat) (x : Port) : State :=
  { s with link.ports := tset {} s.link.ports port (x.pump s.time.dt x.tx.length) }
/-- A packet queued for sending on a port; a port that is DOWN or TRAINING sends none (R366). -/
def queuePacket (s : State) (port : Nat) (p : Packet) : State :=
  let x := tget {} s.link.ports port
  if x.st == 2 || x.st == 3 then putPort s port { x with tx := x.tx ++ [p] } else s
/-- The port number under which an aperture's transactions are kept: 16 and up (R167: PEER 9 to 15). -/
def aperturePort (peer : Nat) : Nat := 16 + peer
/-- A request through a route, on behalf of a strand or of an engine of a cluster; its answer comes by event. -/
def sendPeer (s : State) (h : Word) (addr : Nat) (op : PeerOp) (tr : Trans) : State :=
  let r := routeAt s h
  let xid := s.link.xid % 2 ^ 32
  let tr := { tr with xid := xid, route := h, n := op.answer, port := if r.dtype == 2 then aperturePort r.peer else r.peer - 1 }
  let s := { s with link.xid := s.link.xid + 1, link.trans := s.link.trans ++ [tr] }
  if r.dtype == 2 then { s with link.bus := s.link.bus ++ [{ xid := xid, port := r.peer, completer := r.peerid, addr := addr, op := busOp op }] }
  else queuePacket s (r.peer - 1) (peerPacket op addr xid)
where
  /-- The PCIe transaction of a request (R169). -/
  busOp : PeerOp → BusOp
    | .read n => .read n
    | .write n v => .write n v
    | .amo o _ n opnd cmp => .atomic o n opnd cmp
/-- What a route does with an access before anything is sent (R25, R65, R169, R366). -/
def peerCheck (s : State) (h : Word) (p : Word) (addr : Nat) (op : PeerOp) (detail : Nat) : Except Exc Unit := do
  let r := routeAt s h
  need (liveHandle s h) { cause := .lapsed, info0 := p, detail := detail }
  need (!r.gone) { cause := .peerGone, info0 := h, detail := detail }
  match op with
  | .amo o _ n _ _ => need (carried r o n) { cause := .atomicUncarried, info0 := BitVec.ofNat 64 addr, info1 := some h }
  | _ => .ok ()

/-! ### Requests of a strand to homes (R55, R151) -/

/-- A core's earlier messages to a home, or a request of its own, are still on the way (R55). -/
def quiet (s : State) (core home : Nat) : Bool :=
  !(s.coh.net.any fun r => r.tag.core == core && homeOf s r.pa == home) &&
  !(s.coh.coh.any fun m => match m.2 with
    | .data c sec _ _ _ | .notHeld c sec | .writeBack c sec _ _ _ => c == core && homeOf s (sec * 64) == home
    | .ask _ _ => false)
/-- The last reply, when it is a strand's own and none of its home to its core is before it, arrives at once (R55). -/
def deliver (s : State) (tag : Tag) : State :=
  match s.coh.replies.getLast? with
  | some r =>
    if r.tag == tag && !replyBehind s.coh.replies (s.coh.replies.length - 1) then match tagged s tag with
      | some t => takeReply { s with coh.replies := s.coh.replies.dropLast } tag.core tag.slot t r.act
      | none => s
    else s
  | none => s
/-- A request can be served at its home at once: nothing is on the way before it, the home is READY and has room, and the sector is in H,
or its page is without coherence. -/
def nearHome (s : State) (core pa : Nat) (nc : Bool) : Bool :=
  !s.far && quiet s core (homeOf s pa) && homeUp s pa && (nc || (dirAt s (pa / 64)).st == .h)
/-- A request of the acting strand: it leaves rotation, and its home takes the request now, or when an event says so. -/
def submit (s : State) (r : MemReq) : State :=
  let near := nearHome s (curCore s) r.pa r.nc
  let r := { r with seq := s.coh.sent, tag := curTag s, ctxh := curCtxh s, ll := (curLaunch s).ll }
  let s := suspend { s with coh.sent := s.coh.sent + 1 } 1 .reply
  if near then deliver (takeReq s r) r.tag
  else { s with coh.net := s.coh.net ++ [r] }

/-! ### One access of a strand (R40, R154) -/

/-- What a strand's access does; `pair`: the store is STX's. -/
inductive Want where
  | load (post : Post)
  | store (v : Nat) (pair : Bool := false)
  | amo (op : AmoOp) (u : Bool) (opnd cmp : Nat) (d : GReg) (w : Wid)
  deriving DecidableEq, Repr
/-- The access detail of R105. -/
def Want.detail : Want → Nat
  | .load _ => 1 | .store _ _ => 2 | .amo .. => 4
/-- The access needs read rights: a load, an atomic, or any access of class .O (R153). -/
def Want.reads (w : Want) (c : ReqClass) : Bool := match w with | .store _ _ => c == .o | _ => true
/-- The access needs write rights (R153). -/
def Want.writes (w : Want) (c : ReqClass) : Bool := match w with | .load _ => c == .o | _ => true
/-- What becomes of a reply's bytes. -/
def Want.post : Want → Post
  | .load p => p
  | .store _ _ => .store
  | .amo _ _ _ _ d w => .amo d w
/-- The access completes with these bytes at this timestamp. -/
def complete (s : State) (w : Want) (v ts : Nat) : State := advance (wPts (writeRegs s (postRegs v w.post)) ts)
/-- An access to a scratchpad, its own or another core's, at the bank arbiter (R42, R49, R64). -/
def scratchAccess (s : State) (core off n : Nat) (w : Want) : State :=
  match w with
  | .load _ =>
    let r := spLoad s core off n (rPts s)
    complete r.1 w r.2.1 r.2.2
  | .store v _ =>
    let r := spStore s core off n (rPts s) v
    complete r.1 w 0 r.2
  | .amo op u opnd cmp _ _ =>
    let r := spSwap s core off n (rPts s) fun old => amoValue op u n old opnd cmp
    complete r.1 w r.2.1 r.2.2
/-- An access to a sector the core's L1 owns (R52). -/
def ownedAccess (s : State) (c pa n : Nat) (w : Want) : State :=
  let sec := pa / 64
  let x := l1At s c sec
  match w with
  | .store v _ =>
    let ts := max (rPts s) (x.e + 1)
    complete (putL1 s c sec { x with data := sectorWith x.data pa n v, wts := ts, e := ts, dirty := true }) w 0 ts
  | _ =>
    let ts := max (rPts s) x.wts
    complete (putL1 s c sec { x with e := max x.e ts }) w (sectorPart x.data pa n) ts
/-- The count of lease hits after one at this timestamp; the 32nd moves the PTS on (R48). A hit whose WTS is later than the PTS moves the
PTS itself and is not counted (DESIGN CHOICE, log entry 43). -/
def leaseHit (s : State) : State :=
  match s.cur with
  | .strand c i => mapStrand s c i fun t =>
    if t.lhit + 1 == 32 then t.withPts (t.ctx.pts + 1) else { t with lhit := t.lhit + 1 }
  | _ => s
/-- A load served from a leased copy (R48). -/
def leasedLoad (s : State) (c pa n : Nat) (w : Want) : State :=
  let x := l1At s c (pa / 64)
  let pts := rPts s
  let ts := max pts x.wts
  let t := complete s w (sectorPart x.data pa n) ts
  if ts == pts then leaseHit t else t
/-- A request of class .O: ownership is asked for, and where it is given at once the access follows (R54), unless the issuing core has
taken a lapse notice of the range, which the access made again finds (R36, R40). -/
def ownAccess (s : State) (r : MemReq) (c : Nat) (w : Want) : State :=
  let t := submit s { r with kind := .own, post := .again }
  match s.cur with
  | .strand core i => match strandAt t core i with
    | some x =>
      if x.st == 1 && x.wait == .again && !hasNoticed s core r.range && (l1At t c (r.pa / 64)).kind == 2 then
        ownedAccess (putStrand t core i { x with st := 0, wait := .none }) c r.pa r.n w
      else t
    | none => t
  | _ => t
/-- An access to a physical address (R48, R51, R52, R59, R64). -/
def globalAccess (s : State) (p : Word) (pa n : Nat) (nc : Bool) (range : Word) (c : ReqClass) (w : Want) : Except Exc State := do
  let core := curCore s
  need (nc || c != .n) { cause := .protection, info0 := p, detail := w.detail }
  let lapsed : Exc := { cause := .lapsed, info0 := p, detail := w.detail }
  let lc := l1Core (curLaunch s).fused core pa
  let x := l1At s lc (pa / 64)
  let sys := decide (2 ^ 120 ≤ pa)
  let r : MemReq := { tag := {}, pa := pa, n := n, kind := .read, pts := rPts s, range := range, ptr := p, post := w.post, nc := nc,
                      plain := c == .w && (match w with | .store _ pair => !pair | _ => true), detail := w.detail }
  match w with
  | .amo op u opnd cmp _ _ => .ok (submit s { r with kind := .amo op opnd cmp u })
  | .load _ =>
    if nc then
      if x.kind == 3 then do
        need (!hasNoticed s core range) lapsed
        .ok (complete s w (sectorPart x.data pa n) (rPts s))
      else .ok (submit s { r with kind := .ncRead })
    else if x.kind == 2 then do
      need (!hasNoticed s core range) lapsed
      .ok (ownedAccess s lc pa n w)
    else if c == .o && !sys then .ok (ownAccess s r lc w)
    else if x.kind == 1 && decide (rPts s ≤ x.e) then do
      need (!hasNoticed s core range) lapsed
      .ok (leasedLoad s lc pa n w)
    else .ok (submit s { r with kind := if x.kind == 1 then .renew x.wts else .read })
  | .store v _ =>
    if nc then .ok (submit s { r with kind := .ncWrite v })
    else if x.kind == 2 then do
      need (!hasNoticed s core range) lapsed
      .ok (ownedAccess s lc pa n w)
    else if c == .o && !sys then .ok (ownAccess s r lc w)
    else .ok (submit s { r with kind := .write v })
/-- An access through a PEER entry: the strand waits for the peer's reply, its PTS unchanged (R65, R160, R350). -/
def peerAccess (s : State) (p h : Word) (addr n : Nat) (w : Want) : Except Exc State := do
  let op : PeerOp := match w with
    | .load _ => .read n
    | .store v _ => .write n v
    | .amo op u opnd cmp _ _ => .amo op u n opnd cmp
  peerCheck s h p addr op w.detail
  .ok (suspend (sendPeer s h addr op { port := 0, xid := 0, tag := curTag s, route := h, ptr := p, post := w.post, cluster := none })
    1 .reply)
/-- An access at a virtual address: translated, made, or waiting for the page (R350). -/
def virtualAccess (s : State) (p : Word) (va n : Nat) (c : ReqClass) (w : Want) : Except Exc State :=
  match translate s (curCore s) (curCtxh s) (curLaunch s).tl va (w.reads c) (w.writes c) none p w.detail with
  | (s, .mem pa nc range) => globalAccess s p pa n nc range (if nc then .n else c) w
  | (s, .peer h addr) => peerAccess s p h addr n w
  | (s, .wait) => .ok (suspend s 1 .again)
  | (_, .exc e) => .error e
/-- An access to the scratchpad a pointer names, with R52's class check and R42's window check. -/
def spaceAccess (s : State) (p : Word) (n : Nat) (c : ReqClass) (w : Want) : Except Exc State := do
  let core := curCore s
  let owner := pCore core p
  need (c != .n) { cause := .protection, info0 := p, detail := w.detail }
  need (winOk s owner core (pOff p) n (w.reads .w) (w.writes .w)) { cause := .windowRefused, info0 := p, detail := w.detail }
  .ok (scratchAccess s owner (pOff p) n w)
/-- One access of a strand at a generic pointer (R40, R154). -/
def access (s : State) (p : Word) (n : Nat) (c : ReqClass) (mig : Bool) (w : Want) : Except Exc State := do
  checkPtr s p n w.detail
  let core := curCore s
  if mig && !(pSpace p == 2 || pSpace p == 3) then .error { cause := .badOperand, info0 := p, detail := w.detail }
  else if mig && pCore core p != core then migrateTo s (pCore core p)
  else if pScratch p then spaceAccess s p n c w
  else if pSpace p == 4 then do
    let o := p.toNat % 2 ^ 32
    need (decide (o + n ≤ (curLaunch s).privsz)) { cause := .protection, info0 := p, detail := w.detail }
    virtualAccess s p ((curPrivb s).toNat + o) n c w
  else virtualAccess s p (p.toNat % 2 ^ 56) n c w

/-! ### The instructions (R152, R153) -/

/-- RC that the form does not admit: RESERVED_BITS at step 6 (R51, R152). -/
def classStatic (s : State) (bad : Bool) : Option Exc := if bad then some (wordExc s .reservedBits 6) else none
/-- The low bytes of a register or small immediate to be stored. -/
def storeValue (s : State) (v : Src) (n : Nat) : Nat := (srcZ s v).toNat % 256 ^ n
/-- LD (R154). -/
def execLd (g : Guard) (d : GReg) (m : MemOp) (w : Wid) (c : ReqClass) (mig sx : Bool) (s : State) :
    Host.Outcome State Fault Refusal :=
  run .strand g (classStatic s (c == .w)) (fun s => access s (memPtr s m) (widBytes w) c mig (.load (.load d w sx))) s
/-- ST (R154). -/
def execSt (g : Guard) (v : Src) (m : MemOp) (w : Wid) (c : ReqClass) (mig : Bool) (s : State) :
    Host.Outcome State Fault Refusal :=
  run .strand g (classStatic s (c == .s)) (fun s => access s (memPtr s m) (widBytes w) c mig (.store (storeValue s v (widBytes w)))) s
/-- The own-scratchpad pointer of LDL and STL (R153). -/
def localPtr (s : State) (m : MemOp) : Except Exc Word :=
  let v := memPtr s m
  if decide (v.toNat < 0x80000) then .ok (v ||| 0x1000000000000000#64) else .error (bad v)
/-- The global pointer of LDG and STG (R153). -/
def globalPtr (s : State) (m : MemOp) : Except Exc Word :=
  let v := memPtr s m
  if decide (v.toNat < 2 ^ 56) then .ok v else .error (bad v)
/-- LDL (R153, R154). -/
def execLdl (g : Guard) (d : GReg) (m : MemOp) (w : Wid) (sx : Bool) (s : State) : Host.Outcome State Fault Refusal :=
  run .strand g none (fun s => do
    let p ← localPtr s m
    access s p (widBytes w) .s false (.load (.load d w sx))) s
/-- STL (R153, R154). -/
def execStl (g : Guard) (v : Src) (m : MemOp) (w : Wid) (s : State) : Host.Outcome State Fault Refusal :=
  run .strand g none (fun s => do
    let p ← localPtr s m
    access s p (widBytes w) .w false (.store (storeValue s v (widBytes w)))) s
/-- LDX (R153, R154). -/
def execLdx (g : Guard) (d : GReg) (m : MemOp) (w : Wid) (c : ReqClass) (mig sx : Bool) (s : State) :
    Host.Outcome State Fault Refusal :=
  run .strand g (classStatic s (c == .w)) (fun s =>
    access s (memPtr s m) (2 * widBytes w) c mig (.load (.loadPair d w sx))) s
/-- The value STX stores: the register's low half first (R154). -/
def pairValue (s : State) (d : GReg) (w : Wid) : Nat :=
  let b := 256 ^ widBytes w
  (rG s d).toNat % b + (rG s ⟨pairReg d % 16, Nat.mod_lt _ (by decide)⟩).toNat % b * b
/-- STX (R153, R154). -/
def execStx (g : Guard) (d : GReg) (m : MemOp) (w : Wid) (c : ReqClass) (mig : Bool) (s : State) :
    Host.Outcome State Fault Refusal :=
  run .strand g (classStatic s (c == .s)) (fun s =>
    access s (memPtr s m) (2 * widBytes w) c mig (.store (pairValue s d w) true)) s
/-- LDG (R153, R154). -/
def execLdg (g : Guard) (d : GReg) (m : MemOp) (w : Wid) (c : ReqClass) (sx : Bool) (s : State) :
    Host.Outcome State Fault Refusal :=
  run .strand g (classStatic s (c == .w)) (fun s => do
    let p ← globalPtr s m
    access s p (widBytes w) c false (.load (.load d w sx))) s
/-- STG (R153, R154). -/
def execStg (g : Guard) (v : Src) (m : MemOp) (w : Wid) (c : ReqClass) (s : State) : Host.Outcome State Fault Refusal :=
  run .strand g (classStatic s (c == .s)) (fun s => do
    let p ← globalPtr s m
    access s p (widBytes w) c false (.store (storeValue s v (widBytes w)))) s
/-- AMO (R158, R159). -/
def execAmo (g : Guard) (op : AmoOp) (d base : GReg) (disp : BitVec 32) (b : Src) (w : Wid) (u mig : Bool) (s : State) :
    Host.Outcome State Fault Refusal :=
  run .strand g none (fun s =>
    access s (rG s base + disp.signExtend 64) (widBytes w) .w mig
      (.amo op u (storeValue s b (widBytes w)) ((rG s d).toNat % 256 ^ widBytes w) d w)) s
/-- The sectors of a line (R53). -/
def lineSectors (pa : Nat) : List Nat := (List.range 4).map (pa / 256 * 4 + ·)
/-- The L1 already holds the sector as PREF would fetch it. -/
def prefHeld (s : State) (c sec : Nat) (cls : ReqClass) : Bool :=
  let x := l1At s c sec
  match cls with
  | .o => x.kind == 2
  | .n => x.kind == 3
  | _ => x.kind == 2 || (x.kind == 1 && decide (rPts s ≤ x.e))
/-- What PREF asks of a sector's home (R155). -/
def prefKind : ReqClass → MemKind
  | .o => .own
  | .n => .ncRead
  | _ => .read
/-- A sector that its home can give at once is fetched into the core's L1, as a request that is counted (R155, R354). -/
def prefNow (r : MemReq) (c : Nat) (s : State) : State :=
  let sec := r.pa / 64
  let s := if 2 ^ 120 ≤ r.pa then s else countHot s r.pa (dieOf (curCore s))
  match r.kind with
  | .ncRead => fillL1 s c sec { kind := 3, data := homeData s sec, range := r.range }
  | .own => grantOwner (l2Room s sec) r c
  | _ =>
    let s := l2Room s sec
    let d := filled s sec
    let e := max r.pts d.wts + r.ll
    fillL1 (putDir s sec { d with rts := max d.rts e }) c sec { kind := 1, data := homeData s sec, wts := d.wts, e := e, range := r.range }
/-- The sectors of the line fetched one after another (R155). The answer is `false` when one must be waited for: its request is at its
home or on the way there (R54, R57), and the instruction is performed again when it has been served. -/
def prefSectors (r : MemReq) (c : Nat) (cls : ReqClass) : State → List Nat → State × Bool
  | s, [] => (s, true)
  | s, sec :: secs =>
    let q := { r with pa := sec * 64 }
    if prefHeld s c sec cls then prefSectors r c cls s secs
    else if nearHome s (curCore s) q.pa q.nc && !(q.kind == .own && ownersFull s (homeOf s q.pa)) then
      prefSectors r c cls (prefNow q c s) secs
    else (submit s q, false)
/-- PREF at a virtual address: a page that is not PRESENT, or a peer's, ends it with no effect (R155). -/
def prefAt (s : State) (p : Word) (va : Nat) (c : ReqClass) : Except Exc State :=
  let core := curCore s
  let no : Exc := { cause := .protection, info0 := p, detail := 1 }
  let tl := (curLaunch s).tl
  let walk : State × Xlat := match tlbFind s core (curCtxh s) tl va, rangeFor s (curCtxh s) va with
    | none, some (_, r) => if (pteAt s (curCtxh s) (vpnIn r va)).st == 1 then
        translate s core (curCtxh s) tl va true (c == .o) none p 1 else (s, .exc { no with cause := .pageFault })
    | _, _ => translate s core (curCtxh s) tl va true (c == .o) none p 1
  match walk with
  | (s, .mem pa nc range) => do
    need (nc || c != .n) no
    let cls : ReqClass := if nc then .n else if 2 ^ 120 ≤ pa then .s else c
    let lc := l1Core (curLaunch s).fused core pa
    need (!hasNoticed s core range && !hasNoticed s (homeOf s pa) range) { cause := .lapsed, info0 := p, detail := 1 }
    let r : MemReq := { tag := {}, pa := pa, n := 64, kind := prefKind cls, pts := rPts s, ll := (curLaunch s).ll, range := range, ptr := p,
                        post := .again, nc := nc, detail := 1 }
    let x := prefSectors r lc cls s (lineSectors pa)
    .ok (if x.2 then advance x.1 else x.1)
  | (s, .wait) => .ok (suspend s 1 .again)
  | (s, .exc e) => if e.cause == .protection then .error e else .ok (advance s)
  | (s, _) => .ok (advance s)
/-- PREF (R155). -/
def execPref (g : Guard) (m : MemOp) (c : ReqClass) (s : State) : Host.Outcome State Fault Refusal :=
  run .strand g none (fun s => do
    let p := memPtr s m
    checkPtr3 s p 1
    if pScratch p then .ok (advance s)
    else if pSpace p == 4 then prefAt s p ((curPrivb s).toNat + p.toNat % 2 ^ 32) c
    else prefAt s p (p.toNat % 2 ^ 56) c) s
/-- The L1s that a core's FENCE and CLFL act on: its own, or its cluster's when fused (R15, R60). -/
def l1Group (s : State) : List Nat :=
  let core := curCore s
  if (curLaunch s).fused then (List.range 4).map (core / 4 * 4 + ·) else [core]
/-- FENCE (R60, R157): every NC line of the core's L1 is discarded. -/
def execFence (g : Guard) (s : State) : Host.Outcome State Fault Refusal :=
  run .strand g none (fun s =>
    let cores := l1Group s
    .ok (advance { s with coh.l1 := s.coh.l1.filter fun e => !(e.2.kind == 3 && cores.contains (e.1 / 2 ^ 128)) })) s
/-- A write-back of one of a line's sectors by these cores is on its way. -/
def flushing (s : State) (cores : List Nat) (pa : Nat) : Bool :=
  s.coh.coh.any fun m => match m.2 with
    | .writeBack c sec _ _ _ => cores.contains c && (lineSectors pa).contains sec
    | _ => false
/-- CLFL at a virtual address (R156). -/
def clflAt (s : State) (va : Nat) : State :=
  let ctxh := curCtxh s
  let pa : Option Nat :=
    if inSystem va then some (sysPa (systemHome s ctxh va) ctxh (va - 0x00FF000000000000))
    else match rangeFor s ctxh va with
      | none => none
      | some (_, r) =>
        let p := match tlbFind s (curCore s) ctxh (curLaunch s).tl va with
          | some e => e.pte
          | none => pteAt s ctxh (vpnIn r va)
        if p.st == 1 then some (p.pn * 65536 + va % (if r.lp then 2 ^ 21 else 65536)) else none
  match pa with
  | none => advance s
  | some pa =>
    let cores := l1Group s
    let s := cores.foldl (fun s c => (lineSectors pa).foldl (fun s sec => dropL1 s c sec) s) s
    if flushing s cores pa then suspend s 1 .again else advance s
/-- CLFL (R156). -/
def execClfl (g : Guard) (m : MemOp) (s : State) : Host.Outcome State Fault Refusal :=
  run .strand g none (fun s => do
    let p := memPtr s m
    checkPtr3 s p 0
    if pScratch p then .ok (advance s)
    else if pSpace p == 4 then .ok (clflAt s ((curPrivb s).toNat + p.toNat % 2 ^ 32))
    else .ok (clflAt s (p.toNat % 2 ^ 56))) s
/-- MIGR (R173). -/
def execMigr (g : Guard) (a : Src) (s : State) : Host.Outcome State Fault Refusal :=
  run .strand g none (fun s => do
    let v := srcZ s a
    need (decide (v.toNat < 1024) && corePresent s v.toNat) (bad v)
    if v.toNat == curCore s then .ok (advance s)
    else migrateTo (advance s) v.toNat) s

end Sys2Proof.Machine
end

