-- ==== Sys2Proof/Machine/Holdings.lean ====
section
/-! DEFINITION. Holdings: GRANT, RENEW, LIFE, LOCK, ROUTE (R161 to R168), what a home does with a request (R31), lapse and
DARK ticks with each kind's fate (R28, R34 to R36), lapse notices, translations' lives and purges (R37, R38). -/

namespace Sys2Proof.Machine
open Sys2Proof

/-! ### Issuing an entry (R24, R28, R162, R345) -/

/-- The entry of a context has gone DARK, or its handle is of an earlier generation. -/
def ctxDark (s : State) (h : Word) : Bool := (lifeOf s (hKey h)).gen != hGen h || (lifeOf s (hKey h)).st == 0
/-- A GRANT may issue the entry: it is DARK, and a lock's context is DARK too (R28, R165). -/
def issuable (s : State) (kind key : Nat) : Bool :=
  let x := lifeOf s key
  x.st == 0 && (kind != 1 || x.gen == 0 || ctxDark s x.owner)
/-- The lowest entry of a kind that a home may issue (log entry 7). -/
def freeEntry (s : State) (kind home : Nat) : Option Nat :=
  (leastFrom (fun i => issuable s kind (entryKey kind home i)) 0 (kindCap kind)).map (entryKey kind home)
/-- An entry issued: LIVE to an expiry, its generation the next one, under an owner (R24, R27, R29). -/
def issueEntry (s : State) (key : Nat) (owner : Word) (expiry : Nat) : State :=
  setLife s key { st := 1, expiry := expiry, gen := nextGen (lifeOf s key).gen, owner := owner }
/-- The home slices of a die that are present, in ascending order. -/
def dieSlices (s : State) (d : Nat) : List Nat := ((List.range 16).map (sliceId d)).filter (slicePresent s)
/-- The slice that takes a new range: of the first die, else of the next dies in ascending order (R345). -/
def rangeHome (s : State) (die : Nat) : Option Nat :=
  let homes := (List.range 4).flatMap fun k => dieSlices s ((die + k) % 4)
  homes.find? fun h => (freeEntry s 0 h).isSome
/-- A base may hold a range of a context: it lies in the range area and overlaps no range not DARK (R345). -/
def baseFree (s : State) (ctxh : Word) (base size : Nat) : Bool :=
  decide (0x10000000000 ≤ base) && decide (base + size ≤ 0xFF000000000000) &&
  s.hold.ranges.all fun e =>
    !((lifeOf s e.1).owner == ctxh && (lifeOf s e.1).st != 0) || decide (e.2.base + e.2.size ≤ base) || decide (base + size ≤ e.2.base)
/-- The lowest base for a range, among the start of the range area and the ends of the context's ranges (log entry 7). -/
def rangeBase (s : State) (ctxh : Word) (size : Nat) : Option Nat :=
  let up (n : Nat) : Nat := (n + (2 ^ 21 - 1)) / 2 ^ 21 * 2 ^ 21
  let cands := 0x10000000000 :: s.hold.ranges.map fun e => up (e.2.base + e.2.size)
  (cands.filter fun b => baseFree s ctxh b size).min?
/-- Bytes that the page table of a range takes of the reserve: 16 for each page (R346, R348; log entry 47). -/
def tableBytes (r : Range) : Nat := 16 * (r.size / if r.lp then 2 ^ 21 else 65536)
/-- The page-table reserve holds the tables of the ranges that are not DARK and one more (R346). -/
def tableFits (s : State) (r : Range) : Bool :=
  decide (s.hold.ranges.foldl (fun n e => if (lifeOf s e.1).st != 0 then n + tableBytes e.2 else n) (tableBytes r) ≤ s.hub.tables)
/-- A RANGE entry issued: no unit has taken a lapse notice of the handle's new generation, and no checkpoint image is kept under it
(R36, R162, R377). -/
def issueRange (s : State) (key : Nat) (owner : Word) (expiry : Nat) (r : Range) : State :=
  let s := putRange (issueEntry s key owner expiry) key r
  let h := curHandle s key
  { s with hold.noticed := (s.hold.noticed.map fun e => (e.1, e.2.filter (· != h))).filter fun e => !e.2.isEmpty
           hold.images := s.hold.images.filter fun i => i.range != h }
/-- A range granted under a context, its first die given (R162, R345, R346): the state, the handle and the base, or nothing. -/
def grantRange (s : State) (ctxh : Word) (die size term : Nat) (nc lp : Bool) : Option (State × Word × Nat) :=
  match rangeHome s die with
  | none => none
  | some home => match freeEntry s 0 home, rangeBase s ctxh size with
    | some key, some base =>
      let r : Range := { base := base, size := size, nc := nc, lp := lp }
      if tableFits s r then
        let s := issueRange s key ctxh (localDt s home + term) r
        some (s, curHandle s key, base)
      else none
    | _, _ => none
/-- Records of a slice's store that its event queues have taken (R222). -/
def storeUsed (s : State) (home : Nat) : Nat :=
  s.hold.evqs.foldl (fun n e => if keyHome e.1 == home && (lifeOf s e.1).st != 0 then n + e.2.cap else n) 0
/-- The slot a GRANT of an accumulator or factor slot takes: the one named, or the lowest DARK one (R162). -/
def slotEntry (s : State) (kind home which : Nat) : Option Nat :=
  if which < kindCap kind then
    if issuable s kind (entryKey kind home which) then some (entryKey kind home which) else none
  else freeEntry s kind home
/-- Waiters in the waiter table of a slice (R166). -/
def lockWaiters (s : State) (home : Nat) : Nat :=
  s.hold.locks.foldl (fun n e => if keyHome e.1 == home then n + e.2.queue.length else n) 0
/-- A lock entry. -/
def lockAt (s : State) (key : Nat) : Lock := tget {} s.hold.locks key
/-- The state with a lock entry set. -/
def putLock (s : State) (key : Nat) (x : Lock) : State := { s with hold.locks := tset {} s.hold.locks key x }
/-- The state with a route set. -/
def putRoute (s : State) (key : Nat) (r : Route) : State := { s with hold.routes := tset {} s.hold.routes key r }
/-- The key of an accumulator or factor slot's contents: cluster and slot. -/
def slotKey (key n : Nat) : Nat := clusterOf (keyHome key) * n + key % n

/-! ### Requests at a home (R25, R31) -/

/-- The home answers with registers. -/
def holdReply (s : State) (r : HoldReq) (ws : List (Nat × Word)) : State := sendReply s r.tag (.regs ws r.pts)
/-- The home answers with a trap. -/
def holdTrap (s : State) (r : HoldReq) (e : Exc) : State := sendReply s r.tag (.exc e)
/-- A message of a route on its way: to this device, or through a K-link port (R171). -/
def inject (s : State) (h : Word) (payload : BitVec 256) (ts : Nat) : State :=
  let rt := routeAt s h
  if rt.peer == 0 then { s with hold.flights := s.hold.flights ++ [{ route := h, msg := { bytes := payload, ts := ts, route := h } }] }
  else
    let xid := s.link.xid % 2 ^ 32
    let addr : Word := if rt.dtype == 1 then rt.devq else 0xF000000000000000#64 + BitVec.ofNat 64 rt.dtag
    let p : Packet := { packetOf 7 xid (toBytes 32 payload.toNat) with addr := addr }
    queuePacket { s with link.xid := s.link.xid + 1, link.sent := s.link.sent ++ [(rt.peer - 1, xid, h)] } (rt.peer - 1) p
/-- A SEND, or a channel destination, that has its credits: the messages are injected in order, each with the timestamp, and
its strand is answered; the flags of a channel destination reach VSTAT (R171, R189, R196). -/
def sendOk (s : State) (h : Word) (w : SendWait) : State :=
  let s := w.msgs.foldl (fun s m => countSent (inject s h m w.ts) w.tag.core h) s
  let s := if w.fl == 0 && w.zeros == 0 then s else raiseVstat s w.tag.core w.fl w.zeros
  sendReply s w.tag (.regs [] w.ts)
/-- A route's credits go to the SENDs that have waited longest (R171, R196); as many rounds as wait. -/
def serveCredits (s : State) (h : Word) : Nat → State
  | 0 => s
  | n + 1 =>
    let rt := routeAt s h
    match rt.waiting with
    | w :: ws =>
      if rt.credits < w.msgs.length || rt.gone then s
      else serveCredits (sendOk (putRoute s (hKey h) { rt with credits := rt.credits - w.msgs.length, waiting := ws }) h w) h n
    | [] => s
/-- The credits of a route served. -/
def serveCredit (s : State) (h : Word) : State := serveCredits s h (routeAt s h).waiting.length
/-- A request on a holding taken by its home's arbiter (R31, R162, R164, R166, R168, R171). Credits go to requests of one or more strictly in
the order of their coming (DESIGN CHOICE, log entry 50). -/
def serveHold (s : State) (r : HoldReq) : State :=
  let core := r.tag.core
  match r.op with
  | .grantRange d size term nc lp =>
    match grantRange s r.ctxh (dieOf core) size term nc lp with
    | some (s, h, base) => holdReply s r [(d.val, h), (pairReg d, BitVec.ofNat 64 base)]
    | none => holdReply s r [(d.val, 0), (pairReg d, 0)]
  | .grantLock d home term =>
    match freeEntry s 1 home with
    | some key =>
      let s := issueEntry s key r.ctxh (localDt s home + term)
      holdReply s r [(d.val, curHandle s key)]
    | none => holdReply s r [(d.val, 0)]
  | .grantEvq d cap term =>
    let home := defaultSlice s core
    match freeEntry s 7 home with
    | some key =>
      if storeUsed s home + cap ≤ 65536 then
        let s := putEvq (issueEntry s key r.ctxh (localDt s home + term)) key { cap := cap }
        holdReply s r [(d.val, curHandle s key)]
      else holdReply s r [(d.val, 0)]
    | none => holdReply s r [(d.val, 0)]
  | .grantSlot d factor which term =>
    let home := core / 4 * 4
    let kind := if factor then 5 else 4
    match slotEntry s kind home which with
    | some key =>
      let s := issueEntry s key r.ctxh (localDt s home + term)
      let s := if factor then s
        else { s with eng.mslots := tset {} s.eng.mslots (slotKey key 8) { tag := r.tag, parked := false } }
      holdReply s r [(d.val, curHandle s key)]
    | none => holdReply s r [(d.val, 0)]
  | .renew d h term =>
    match checkHome s r.ctxh h with
    | .error e => holdTrap s r e
    | .ok _ =>
      let key := hKey h
      let x := localDt s (hHome h) + term
      let s := setLife s key { lifeOf s key with expiry := x }
      let s := if hKind h == 4 then
          { s with eng.mslots := tset {} s.eng.mslots (slotKey key 8) { tag := r.tag, parked := false } }
        else s
      holdReply s r [(d.val, BitVec.ofNat 64 x)]
  | .life d h =>
    let x := lifeOf s (hKey h)
    match checkIndex h with
    | .error e => holdTrap s r e
    | .ok _ =>
      if x.gen != hGen h then sendReply s r.tag (.life d.val 0 r.pts)
      else if x.owner != r.ctxh then holdTrap s r (hExc .protection h)
      else sendReply s r.tag (.life d.val (if isLive s (hKey h) then x.expiry else 0) r.pts)
  | .lock d h term nw =>
    let key := hKey h
    let x := lifeOf s key
    match checkIndex h with
    | .error e => holdTrap s r e
    | .ok _ =>
      if x.owner != r.ctxh || x.gen == 0 then holdTrap s r (hExc .protection h)
      else if x.st == 0 && (lockAt s key).queue.isEmpty then
        let s := issueEntry s key x.owner (localDt s (hHome h) + term)
        holdReply s r [(d.val, curHandle s key)]
      else if nw || 16384 ≤ lockWaiters s (hHome h) then holdReply s r [(d.val, 0)]
      else putLock s key { queue := (lockAt s key).queue ++ [{ tag := r.tag, term := term, d := d, pts := r.pts }] }
  | .route d desc term =>
    let home := defaultSlice s core
    match freeEntry s 2 home with
    | some key =>
      let s := putRoute (issueEntry s key r.ctxh (localDt s home + term)) key desc
      holdReply s r [(d.val, curHandle s key)]
    | none => holdReply s r [(d.val, 0)]
  | .served key => if key / 2 ^ 44 == 7 then serveEvq s key (evqFuel (evqAt s key)) else serveCredit s (curHandle s key)
  | .send h msgs fl zeros =>
    match checkHome s r.ctxh h with
    | .error e => holdTrap s r e
    | .ok _ =>
      let rt := routeAt s h
      let w : SendWait := { tag := r.tag, msgs := msgs, ts := r.pts, fl := fl, zeros := zeros }
      if rt.dtype == 2 then holdTrap s r (bad h)
      else if rt.gone then holdTrap s r { cause := .peerGone, info0 := h, detail := 8 }
      else if rt.credits < msgs.length || !rt.waiting.isEmpty then putRoute s (hKey h) { rt with waiting := rt.waiting ++ [w] }
      else sendOk (putRoute s (hKey h) { rt with credits := rt.credits - msgs.length }) h w
/-- A request of the acting strand on a holding, at a timestamp that is its PTS once the home has answered: it leaves rotation, and the home
takes the request now or at HOME_REQUEST (R32, log entry 2). A trap of the home leaves the PTS as it was (R8). -/
def submitHoldAt (s : State) (pts : Nat) (op : HoldOp) : State :=
  let r : HoldReq := { tag := curTag s, ctxh := curCtxh s, pts := pts, op := op }
  let s := suspend s 1 .reply
  if s.far then { s with hold.reqs := s.hold.reqs ++ [r] } else deliver (serveHold s r) r.tag
/-- The same at the strand's PTS. -/
def submitHold (s : State) (op : HoldOp) : State := submitHoldAt s (rPts s) op
/-- HOME_REQUEST: a home takes a request on a holding. -/
def execHomeRequest (n : Nat) (s : State) : Host.Outcome State Fault Refusal :=
  .next (confine s (match s.hold.reqs[n]? with
    | some r => serveHold { s with hold.reqs := dropAt s.hold.reqs n } r
    | none => s))

/-! ### The instructions (R161 to R168) -/

/-- GRANT.RANGE. -/
def execGrantRange (g : Guard) (d a : GReg) (b : Src) (nc lp : Bool) (s : State) : Host.Outcome State Fault Refusal :=
  run .strand g none (fun s => do
    let size := (rG s a).toNat
    let page := if lp then 2 ^ 21 else 2 ^ 16
    need (size != 0 && size % page == 0 && decide (size ≤ 2 ^ 43)) (bad (rG s a))
    let term ← u32 (srcZ s b)
    .ok (submitHold s (.grantRange d size term nc lp))) s
/-- GRANT.LOCK. -/
def execGrantLock (g : Guard) (d : GReg) (a b : Src) (s : State) : Host.Outcome State Fault Refusal :=
  run .strand g none (fun s => do
    let v := srcZ s a
    need (v == 0 || (decide (v.toNat < 1024) && slicePresent s v.toNat)) (bad v)
    let term ← u32 (srcZ s b)
    .ok (submitHold s (.grantLock d (if v == 0 then defaultSlice s (curCore s) else v.toNat) term))) s
/-- GRANT.MSLOT. -/
def execGrantMslot (g : Guard) (d : GReg) (a b : Src) (s : State) : Host.Outcome State Fault Refusal :=
  run .strand g none (fun s => do
    let v := srcZ s a
    need (decide (v.toNat ≤ 8)) (bad v)
    let term ← u32 (srcZ s b)
    .ok (submitHold s (.grantSlot d false v.toNat term))) s
/-- GRANT.FSLOT. -/
def execGrantFslot (g : Guard) (d : GReg) (a b : Src) (s : State) : Host.Outcome State Fault Refusal :=
  run .strand g none (fun s => do
    let v := srcZ s a
    need (decide (v.toNat ≤ 4)) (bad v)
    let term ← u32 (srcZ s b)
    .ok (submitHold s (.grantSlot d true v.toNat term))) s
/-- GRANT.EVQ. -/
def execGrantEvq (g : Guard) (d : GReg) (a b : Src) (s : State) : Host.Outcome State Fault Refusal :=
  run .strand g none (fun s => do
    let v := srcZ s a
    need (decide (4 ≤ v.toNat) && decide (v.toNat ≤ 4096)) (bad v)
    let term ← u32 (srcZ s b)
    .ok (submitHold s (.grantEvq d v.toNat term))) s
/-- RENEW (R164). -/
def execRenew (g : Guard) (d a : GReg) (b : Src) (s : State) : Host.Outcome State Fault Refusal :=
  run .strand g none (fun s => do
    checkHandle s [0, 1, 2, 4, 5, 6, 7] (rG s a)
    let term ← u32 (srcZ s b)
    .ok (submitHold s (.renew d (rG s a) term))) s
/-- LIFE (R33, R164). -/
def execLife (g : Guard) (d a : GReg) (s : State) : Host.Outcome State Fault Refusal :=
  run .strand g none (fun s => do
    checkHandle s [0, 1, 2, 3, 4, 5, 6, 7] (rG s a)
    .ok (submitHold s (.life d (rG s a)))) s
/-- LOCK with or without .NW (R166). -/
def lockOn (d a : GReg) (b : Src) (nw : Bool) (s : State) : Except Exc State := do
  checkHandle s [1] (rG s a)
  let term ← u32 (srcZ s b)
  .ok (submitHold s (.lock d (rG s a) term nw))
/-- LOCK. -/
def execLock (g : Guard) (d a : GReg) (b : Src) (s : State) : Host.Outcome State Fault Refusal :=
  run .strand g none (lockOn d a b false) s
/-- LOCK.NW. -/
def execLockNw (g : Guard) (d a : GReg) (b : Src) (s : State) : Host.Outcome State Fault Refusal :=
  run .strand g none (lockOn d a b true) s
/-- A K-link port (R360). -/
def portAt (s : State) (p : Nat) : Port := tget {} s.link.ports p
/-- The port of a route's PEER can carry it: a K-link port UP, a PCIe port READY with its link up (R168). -/
def peerUp (s : State) (peer : Nat) : Bool :=
  if peer == 0 then true
  else if peer ≤ 8 then (portAt s (peer - 1)).st == 2
  else (peer == 15 || readyCode s (kPcie (peer - 9)) == 2) && tget false s.link.pcie (peer - 9)
/-- The atomics an aperture route carries (R169). -/
def apertureCaps (s : State) (peer : Nat) (id : Word) : BitVec 6 :=
  if peer == 15 then (if s.link.hostAtomics then 0x3F#6 else 0#6)
  else match s.link.completers.find? fun e => e.1 == peer - 9 && e.2.1 == id with
    | some e => e.2.2
    | none => 0
/-- A route descriptor's checks, field by field and at the home of a local DEVQ last (R167, R168, R392): the route, or BAD_OPERAND with the offending field's value; of a DTYPE and
a PEER that do not go together, PEER's (DESIGN CHOICE, log entry 43). -/
def routeOf (s : State) (b : Nat) : Except Exc Route := do
  let f (off n : Nat) : Nat := b / 256 ^ off % 256 ^ n
  let dtype := f 0 1
  let peer := f 1 1
  let no (v : Nat) : Exc := bad (BitVec.ofNat 64 v)
  need (decide (dtype ≤ 2)) (no dtype)
  need (decide (peer ≤ 15) && (if dtype == 2 then decide (9 ≤ peer) else decide (peer ≤ 8)) && peerUp s peer) (no peer)
  need (f 2 2 == 0) (no (f 2 2))
  need (if dtype == 0 then corePresent s (tagOf (f 4 4)).core else f 4 4 == 0) (no (f 4 4))
  let q := BitVec.ofNat 64 (f 8 8)
  if dtype == 1 then if peer == 0 then checkHandle s [7] q else .ok ()
  else need (q == 0) (no (f 8 8))
  let id := BitVec.ofNat 64 (f 16 8)
  need (if peer == 0 || peer == 15 then id == 0
        else if peer ≤ 8 then id == (portAt s (peer - 1)).peerId
        else decide (f 16 8 < 2 ^ 16) && s.link.completers.any fun e => e.1 == peer - 9 && e.2.1 == id) (no (f 16 8))
  need (f 24 8 == 0) (no (f 24 8))
  if dtype == 1 && peer == 0 then checkHome s (curCtxh s) q else .ok ()
  .ok { dtype := dtype, peer := peer, dtag := f 4 4, devq := q, peerid := id,
        caps := if dtype == 2 then apertureCaps s peer id else 0 }
/-- ROUTE (R168): the descriptor is read as one scratchpad load. -/
def execRoute (g : Guard) (d a : GReg) (b : Src) (s : State) : Host.Outcome State Fault Refusal :=
  run .strand g none (fun s => do
    let off ← ownPtr s (rG s a) 32
    let term ← u32 (srcZ s b)
    let r := spLoad s (curCore s) off 32 (rPts s)
    softCheck r.1
    let desc ← routeOf s r.2.1
    .ok (submitHold (wPts r.1 r.2.2) (.route d desc term))) s

/-! ### Lapse ticks (R28, R31, R34 to R36) -/

/-- The units of the device that take lapse notices: every home slice and core that is READY or STARTING (R36). -/
def noticeUnits (s : State) : List Nat :=
  let up (k : Nat) : Bool := readyCode s k == 1 || readyCode s k == 2
  (List.range 1024).filter fun u => up u && (if unitOf u ≤ 47 then up (kCluster (clusterOf u)) else decide (unitOf u ≤ 51))
/-- The flits that wake the strands blocked on a queue or parked on it. -/
def wakeQueue (s : State) (key : Nat) : State :=
  let q := evqAt s key
  let h := curHandle s key
  { putEvq s key { q with blocked := [], parked := [] } with
    hold.wakes := s.hold.wakes ++ q.blocked.map (fun b => { tag := b.tag, q := h }) ++ q.parked.map fun t => { tag := t, q := h } }
/-- The strand blocked in RECV on a route, at the route's destination, is woken (R34). -/
def wakeReceiver (s : State) (h : Word) : State :=
  let tag := tagOf (routeAt s h).dtag
  match tagged s tag with
  | some t => if t.gotQ == h && (t.st == 2 || t.wait == .recv) then { s with hold.wakes := s.hold.wakes ++ [{ tag := tag, q := h }] } else s
  | none => s
/-- SENDs waiting at a route's home are answered with a trap. -/
def failSends (s : State) (key : Nat) (e : Exc) : State :=
  let rt := tget {} s.hold.routes key
  rt.waiting.foldl (fun s w => sendReply s w.tag (.exc e)) (putRoute s key { rt with waiting := [] })
/-- The strand waits in a lock's queue or for a route's credit, or its request for one is on the way (R151). -/
def waitsAtHome (s : State) (tag : Tag) : Bool :=
  (s.hold.reqs.any fun r => r.sendOf tag || (r.lockOf tag).isSome) || (s.hold.locks.any fun e => e.2.queue.any fun w => w.tag == tag) || (s.hold.routes.any fun e => e.2.waiting.any fun w => w.tag == tag)
/-- Trap records a core holds for a strand or park entry are dropped (R103). -/
def dropHeld (s : State) (tag : Tag) : State :=
  let held := tget [] s.core.held tag.core
  { s with core.held := tset [] s.core.held tag.core (held.filter fun r => r.fatal || r.bytes.toNat / 2 ^ 64 % 2 ^ 32 != tagBits tag) }
/-- A strand whose work is cancelled, or whose context has lapsed: trap-parked or waiting at a home or a barrier it ends, blocked it is
woken; one whose instruction has issued completes it (R97, R103, R127, R151, R166, R320). -/
def stopStrand (s : State) (core slot : Nat) : State :=
  match strandAt s core slot with
  | none => s
  | some t =>
    let tag : Tag := { core := core, slot := slot, gen := slotGenOf s core slot }
    if t.st == 5 then endStrand (dropHeld s tag) core slot 0
    else if (t.st == 1 && waitsAtHome s tag) || t.atBarrier || (t.st == 1 && match t.wait with | .parkFull _ => true | _ => false) then
      endStrand s core slot 0
    else if (2 ≤ t.st && t.st ≤ 4) || (t.st == 1 && (t.wait == .recv || t.wait == .sem)) then
      putStrand (withdraw s tag) core slot { t with st := 0, wait := .woken }
    else s
/-- Park entries of a core that satisfy a condition are freed and their units end (R103). -/
def stopParked (s : State) (core : Nat) (p : Park → Bool) : State :=
  (List.range 32).foldl (fun s i =>
    let e := tget {} s.core.park (core * 32 + i)
    if e.used && p e then
      let tag : Tag := { core := core, slot := i, gen := e.gen, park := true }
      dropParked (closeFault (dropHeld s tag) tag 0 false) core i
    else s) s
/-- The strands, parked records and waits of a lapsed context (R34, R103, R166). -/
def lapseContext (s : State) (h : Word) : State :=
  let slots := (s.core.slots.filter fun e => e.2.ctxh == h).map (·.1)
  let s := slots.foldl (fun s k => stopStrand s (k / 16) (k % 16)) s
  let cores := (s.core.park.map fun e => e.1 / 32).eraseDups
  let s := cores.foldl (fun s c => stopParked s c fun p => p.ctxh == h) s
  { s with hold.lapsedCtx := s.hold.lapsedCtx ++ [h] }
/-- A lapsing lock's tenure passes to its longest waiter, from `t` on (R35). -/
def handOff (s : State) (key t : Nat) (w : LockWait) (ws : List LockWait) : State :=
  let s := putLock s key { queue := ws }
  let s := issueEntry s key (lifeOf s key).owner (t + w.term)
  sendReply s w.tag (.regs [(w.d.val, curHandle s key)] w.pts)
/-- What becomes of an entry at its lapse tick besides going DUSK (R34). -/
def applyFate (s : State) (kind key : Nat) : State :=
  let h := curHandle s key
  match kind with
  | 0 => { s with hold.notices := s.hold.notices ++ (noticeUnits s).map fun u => (u, (lifeOf s key).expiry + 33, h) }
  | 2 => wakeReceiver (failSends s key { cause := .lapsed, info0 := h, detail := 8 }) h
  | 3 => lapseContext s h
  | 7 => wakeQueue s key
  | _ => s
/-- LAPSE_TICK: an entry whose home DT has passed its expiry meets its fate (R31, R34, R35). -/
def execLapseTick (kind home index : Nat) (s : State) : Host.Outcome State Fault Refusal :=
  .next (confine s
    (let key := entryKey kind home index
    let x := lifeOf s key
    let t := localDt s home
    if x.st == 1 && decide (x.expiry < t) then
      match kind, (lockAt s key).queue with
      | 1, w :: ws => handOff s key t w ws
      | _, _ => setLife (applyFate s kind key) key { x with st := 2, darkAt := t + 256 }
    else s))
/-- The records of an event queue that goes DARK: discarded, those of routes dropped with a notice, those still waiting
counted (R222). -/
def dropQueue (s : State) (key : Nat) : State :=
  let q := evqAt s key
  let routes := ((q.recs ++ q.waiting).filter fun m => m.route != 0).map (·.route)
  { s with hold.evqs := tdel s.hold.evqs key, hold.drops := s.hold.drops ++ routes, hold.dropped := s.hold.dropped + q.waiting.length }
/-- The pages of a range that goes DARK are unmapped (R36, R353), whatever unmap, rights change or move of theirs is in progress; a move
is given up, and a page not mapped is forgotten. -/
def unmapRange (s : State) (key : Nat) : State :=
  let r := rangeAt s key
  let ctxh := (lifeOf s key).owner
  let lo := pteKey ctxh (r.base / 65536)
  let hi := pteKey ctxh ((r.base + r.size) / 65536)
  let mine (pte : Nat) : Bool := decide (lo ≤ pte) && decide (pte < hi)
  let es := s.page.pte.filter fun e => mine e.1
  let s := { s with page.moving := s.page.moving.filter (fun m => !mine m.1)
                    page.unmaps := s.page.unmaps.map fun u => if mine u.pte then { u with move := none } else u
                    page.asked := s.page.asked.filter fun a => a.2 != key }
  es.foldl (fun s e =>
    if e.2.st == 1 || e.2.st == 5 then unmapWrite s e.1 (keyHome key) {} e.2.pn (some e.2.pn) none r.lp false
    else if e.2.st == 4 then unmapWrite s e.1 (keyHome key) {} (2 ^ 40) none none r.lp false
    else if e.2.purge then { s with page.pte := tset {} s.page.pte e.1 { purge := true } }
    else { s with page.pte := tdel s.page.pte e.1 }) s
/-- Every core and cluster engine that takes cancel tokens: core ids, and 1024 plus a cluster's number. -/
def cancelUnits (s : State) : List Nat :=
  (List.range 1024).filter (corePresent s) ++ ((List.range 1024).filter (clusterPresent s)).map fun u => 1024 + clusterOf u
/-- The token of a completed instance, when one is in force, is retired at every unit that has it (R304). -/
def retireToken (s : State) (level id : Nat) : State :=
  match s.work.tokens.find? fun t => t.level == level && t.id == id && !(s.work.retires.any fun r => r.1 == t) with
  | some t =>
    { s with work.retires := s.work.retires ++ [(t, cancelUnits s)] }
  | none => s
/-- The tokens of the instances of a context are retired as the instances are freed (R301, R304). -/
def retireContext (s : State) (h : Word) : State :=
  let s := s.work.launches.foldl (fun s e => if e.2.ctxh == h then retireToken s 0 e.1 else s) s
  s.work.counters.foldl (fun s e => if e.2.ctxh == h then retireToken s e.2.level (e.1 * 16384 + e.2.gen) else s) s
/-- The entries of a context that goes DARK are freed (R301). -/
def freeContext (s : State) (h : Word) : State :=
  let s := retireContext s h
  { s with work.bundles := s.work.bundles.filter fun b => b.ctxh != h
           work.launches := s.work.launches.filter fun e => e.2.ctxh != h
           work.counters := s.work.counters.map fun e => (e.1, if e.2.ctxh == h then { gen := e.2.gen } else e.2) }
/-- What is reclaimed when an entry goes DARK (R34, R36, R165, R222, R301). -/
def reclaim (s : State) (kind key : Nat) : State :=
  match kind with
  | 0 => unmapRange s key
  | 3 => freeContext s (curHandle s key)
  | 4 => { s with eng.acc := s.eng.acc.filter (fun e => e.1 / 8192 != slotKey key 8)
                  eng.mslots := tdel s.eng.mslots (slotKey key 8) }
  | 5 => { s with eng.fac := s.eng.fac.filter (fun e => e.1 / 4096 != slotKey key 4)
                  eng.order := tdel s.eng.order (slotKey key 4) }
  | 6 => { s with census.dirents := tdel s.census.dirents (keyHome key * 128 + key % 128) }
  | 7 => dropQueue s key
  | _ => s
/-- DARK_TICK: the end of an entry's DUSK (R28, R31, R34, R35). -/
def execDarkTick (kind home index : Nat) (s : State) : Host.Outcome State Fault Refusal :=
  .next (confine s
    (let key := entryKey kind home index
    let x := lifeOf s key
    let t := localDt s home
    if x.st == 2 && decide (x.darkAt ≤ t) then
      match kind, (lockAt s key).queue with
      | 1, w :: ws => handOff s key t w ws
      | _, _ => setLife (reclaim s kind key) key { x with st := 0 }
    else s))
/-- LOCK_WITHDRAWAL: a lock's home takes the withdrawal of a waiter, after the request it follows (R166). -/
def execLockWithdrawal (n : Nat) (s : State) : Host.Outcome State Fault Refusal :=
  .next (confine s (match s.hold.withdrawals[n]? with
    | some (key, tag) =>
      if s.hold.reqs.any fun r => r.lockOf tag == some key then s
      else putLock { s with hold.withdrawals := dropAt s.hold.withdrawals n } key
        { queue := (lockAt s key).queue.filter fun w => w.tag != tag }
    | none => s))
/-- A unit takes a lapse notice. -/
def takeNotice (s : State) (u : Nat) (h : Word) : State :=
  { s with hold.noticed := tset [] s.hold.noticed u (tget [] s.hold.noticed u ++ [h]) }
/-- LAPSE_NOTICE: a home slice or core takes a lapse notice (R36). -/
def execLapseNotice (n : Nat) (s : State) : Host.Outcome State Fault Refusal :=
  .next (confine s (match s.hold.notices[n]? with
    | some (u, _, h) => takeNotice { s with hold.notices := dropAt s.hold.notices n } u h
    | none => s))

/-! ### Lives of translations, purges, unmaps (R37, R38, R353) -/

/-- TRANSLATION_EXPIRY: a cached translation past its life is dropped (R37). -/
def execTranslationExpiry (n : Nat) (s : State) : Host.Outcome State Fault Refusal :=
  .next (confine s (match s.page.tlb[n]? with
    | some (k, e) =>
      if e.stamp + e.tl < localDt s (holderUnit (k / 2 ^ 96)) then { s with page.tlb := tdel s.page.tlb k } else s
    | none => s))
/-- The sectors of a frame in a core's L1. -/
def frameSectors (s : State) (core frame : Nat) (large : Bool) : List Nat :=
  let n := if large then 2 ^ 15 else 2 ^ 10
  (s.coh.l1.filter fun e => e.1 / 2 ^ 128 == core && decide (frame * 1024 ≤ e.1 % 2 ^ 128) && decide (e.1 % 2 ^ 128 < frame * 1024 + n)).map
    fun e => e.1 % 2 ^ 128
/-- PURGE: a holder drops a translation, with the copies its L1 holds under it while the unmap is not complete, and acknowledges (R38,
R353). -/
def execPurge (n : Nat) (s : State) : Host.Outcome State Fault Refusal :=
  .next (confine s (match s.page.purges[n]? with
    | some (holder, pte, num) =>
      let s := { s with page.purges := dropAt s.page.purges n, page.tlb := tdel s.page.tlb (holder * 2 ^ 96 + pte),
                        page.acks := s.page.acks ++ [(holder, pte, num)] }
      match s.page.unmaps.find? fun u => u.num == num with
      | some u => if holder < 1024 then (frameSectors s holder u.old u.large).foldl (fun s sec => dropL1 s holder sec) s else s
      | none => s
    | none => s))
/-- PURGE_ACK: the memory engine takes a purge acknowledgment, which counts for the unmap it answers alone (R38). -/
def execPurgeAck (n : Nat) (s : State) : Host.Outcome State Fault Refusal :=
  .next (confine s (match s.page.acks[n]? with
    | some (holder, _, num) =>
      { s with page.acks := dropAt s.page.acks n
               page.unmaps := s.page.unmaps.map fun u => if u.num == num then { u with holders := u.holders.filter (· != holder) } else u }
    | none => s))

end Sys2Proof.Machine
end

