-- ==== Sys2Proof/Machine/Integer.lean ====
section
/-! DEFINITION. Integer, address and predicate instructions (R128 to R138). -/

namespace Sys2Proof.Machine
open Sys2Proof

/-- An instruction that writes one general register from its sources, in one issue. -/
def alu (g : Guard) (d : GReg) (f : State → Word) (s : State) : Host.Outcome State Fault Refusal :=
  run .any g none (fun s => .ok (advance (wG s d (f s)))) s
/-- An instruction that writes one predicate. -/
def alup (g : Guard) (d : PReg) (f : State → Bool) (s : State) : Host.Outcome State Fault Refusal :=
  run .any g none (fun s => .ok (advance (wP s d (f s)))) s
/-- A strand leaves rotation for `n` rotations, its result in place (R127); a stream goes on. -/
def rotate (n : Nat) (s : State) : State :=
  match s.cur with
  | .strand _ _ => suspend s 1 (.rot n)
  | _ => s
/-- The division group: DIVIDE_ZERO for a zero divisor, else the result after 4 rotations (R127, R130). -/
def divide (g : Guard) (d : GReg) (fa fb : State → Word) (f : Word → Word → Word) (s : State) :
    Host.Outcome State Fault Refusal :=
  run .any g none (fun s => do
    need (fb s != 0) { cause := .divideZero }
    .ok (rotate 4 (advance (wG s d (f (fa s) (fb s)))))) s
/-- The 128-bit signed product's upper half (R129). -/
def mulHigh (a b : Word) : Word := (a.signExtend 128 * b.signExtend 128).extractLsb' 64 64
/-- The 128-bit unsigned product's upper half (R129). -/
def mulHighU (a b : Word) : Word := (a.zeroExtend 128 * b.zeroExtend 128).extractLsb' 64 64
/-- A shift count: b[5:0] (R129). -/
def shCount (b : Word) : Nat := b.toNat % 64
/-- The smaller of two signed values. -/
def minS (a b : Word) : Word := if a.slt b then a else b
/-- The larger of two signed values. -/
def maxS (a b : Word) : Word := if a.slt b then b else a
/-- The smaller of two unsigned values. -/
def minU (a b : Word) : Word := if a < b then a else b
/-- The larger of two unsigned values. -/
def maxU (a b : Word) : Word := if a < b then b else a
/-- The number of leading zeros among the low `n` bits. -/
def leadingZeros (a : Word) : Nat → Nat
  | 0 => 0
  | n + 1 => if a.getLsbD n then 0 else 1 + leadingZeros a n
/-- The number of trailing zeros from bit `i` on, among `n` bits. -/
def trailingZeros (a : Word) (i : Nat) : Nat → Nat
  | 0 => 0
  | n + 1 => if a.getLsbD i then 0 else 1 + trailingZeros a (i + 1) n
/-- The number of 1 bits among the low `n` bits. -/
def popCount (a : Word) : Nat → Nat
  | 0 => 0
  | n + 1 => (if a.getLsbD n then 1 else 0) + popCount a n
/-- The low `w` bits, sign-extended (1 ≤ w ≤ 64). -/
def sextTo (v : Word) (w : Nat) : Word := (v <<< (64 - w)).sshiftRight (64 - w)
/-- The low `w` bits, zero-extended (1 ≤ w ≤ 64). -/
def zextTo (v : Word) (w : Nat) : Word := (v <<< (64 - w)) >>> (64 - w)
/-- A field spec: pos in [5:0], width in [14:8], other bits 0, 1 ≤ width, pos + width ≤ 64 (R131). -/
def fieldSpec (v : Word) : Except Exc (Nat × Nat) :=
  let pos := v.toNat % 64
  let w := v.toNat / 256 % 128
  if v.toNat == pos + 256 * w && 1 ≤ w && pos + w ≤ 64 then .ok (pos, w) else .error (bad v)
/-- An instruction on a field spec (R131). -/
def field (g : Guard) (d : GReg) (b : Src) (f : State → Nat → Nat → Word) (s : State) : Host.Outcome State Fault Refusal :=
  run .any g none (fun s => do
    let pw ← fieldSpec (srcZ s b)
    .ok (advance (wG s d (f s pw.1 pw.2)))) s
/-- SEXT and ZEXT: a width of 1 to 64 (R132). -/
def extend (g : Guard) (d : GReg) (b : Src) (f : State → Nat → Word) (s : State) : Host.Outcome State Fault Refusal :=
  run .any g none (fun s => do
    let n := srcZ s b
    need (decide (1 ≤ n.toNat) && decide (n.toNat ≤ 64)) (bad n)
    .ok (advance (wG s d (f s n.toNat)))) s
/-- The mask of a field of width `w` at `pos` (R131). -/
def fieldMask (pos w : Nat) : Word := BitVec.ofNat 64 ((2 ^ w - 1) * 2 ^ pos)

/-- ADD (R129). -/
def execAdd (g : Guard) (d : GReg) (a b : Src) (s : State) := alu g d (fun s => srcS s a + srcS s b) s
/-- SUB (R129). -/
def execSub (g : Guard) (d : GReg) (a b : Src) (s : State) := alu g d (fun s => srcS s a - srcS s b) s
/-- MUL (R129). -/
def execMul (g : Guard) (d : GReg) (a b : Src) (s : State) := alu g d (fun s => srcS s a * srcS s b) s
/-- MULH (R129). -/
def execMulh (g : Guard) (d : GReg) (a b : Src) (s : State) := alu g d (fun s => mulHigh (srcS s a) (srcS s b)) s
/-- MULHU (R129). -/
def execMulhu (g : Guard) (d : GReg) (a b : Src) (s : State) := alu g d (fun s => mulHighU (srcZ s a) (srcZ s b)) s
/-- DIV (R130): truncated; the most negative value over -1 gives itself. -/
def execDiv (g : Guard) (d : GReg) (a b : Src) (s : State) := divide g d (srcS · a) (srcS · b) BitVec.sdiv s
/-- DIVU (R130). -/
def execDivu (g : Guard) (d : GReg) (a b : Src) (s : State) := divide g d (srcZ · a) (srcZ · b) BitVec.udiv s
/-- REM (R130): the sign of a, or 0. -/
def execRem (g : Guard) (d : GReg) (a b : Src) (s : State) := divide g d (srcS · a) (srcS · b) BitVec.srem s
/-- REMU (R130). -/
def execRemu (g : Guard) (d : GReg) (a b : Src) (s : State) := divide g d (srcZ · a) (srcZ · b) BitVec.umod s
/-- AND (R129). -/
def execAnd (g : Guard) (d : GReg) (a b : Src) (s : State) := alu g d (fun s => srcZ s a &&& srcZ s b) s
/-- OR (R129). -/
def execOr (g : Guard) (d : GReg) (a b : Src) (s : State) := alu g d (fun s => srcZ s a ||| srcZ s b) s
/-- XOR (R129). -/
def execXor (g : Guard) (d : GReg) (a b : Src) (s : State) := alu g d (fun s => srcZ s a ^^^ srcZ s b) s
/-- ANDN (R129). -/
def execAndn (g : Guard) (d : GReg) (a b : Src) (s : State) := alu g d (fun s => srcZ s a &&& ~~~(srcZ s b)) s
/-- SHL (R129). -/
def execShl (g : Guard) (d : GReg) (a b : Src) (s : State) := alu g d (fun s => srcZ s a <<< shCount (srcZ s b)) s
/-- SHR (R129). -/
def execShr (g : Guard) (d : GReg) (a b : Src) (s : State) := alu g d (fun s => srcZ s a >>> shCount (srcZ s b)) s
/-- SAR (R129). -/
def execSar (g : Guard) (d : GReg) (a b : Src) (s : State) := alu g d (fun s => (srcZ s a).sshiftRight (shCount (srcZ s b))) s
/-- ROTL (R129). -/
def execRotl (g : Guard) (d : GReg) (a b : Src) (s : State) := alu g d (fun s => (srcZ s a).rotateLeft (shCount (srcZ s b))) s
/-- MIN (R129). -/
def execMin (g : Guard) (d : GReg) (a b : Src) (s : State) := alu g d (fun s => minS (srcS s a) (srcS s b)) s
/-- MAX (R129). -/
def execMax (g : Guard) (d : GReg) (a b : Src) (s : State) := alu g d (fun s => maxS (srcS s a) (srcS s b)) s
/-- MINU (R129). -/
def execMinu (g : Guard) (d : GReg) (a b : Src) (s : State) := alu g d (fun s => minU (srcZ s a) (srcZ s b)) s
/-- MAXU (R129). -/
def execMaxu (g : Guard) (d : GReg) (a b : Src) (s : State) := alu g d (fun s => maxU (srcZ s a) (srcZ s b)) s
/-- CLZ: 64 for 0 (R129). -/
def execClz (g : Guard) (d a : GReg) (s : State) := alu g d (fun s => BitVec.ofNat 64 (leadingZeros (rG s a) 64)) s
/-- CTZ: 64 for 0 (R129). -/
def execCtz (g : Guard) (d a : GReg) (s : State) := alu g d (fun s => BitVec.ofNat 64 (trailingZeros (rG s a) 0 64)) s
/-- POPC (R129). -/
def execPopc (g : Guard) (d a : GReg) (s : State) := alu g d (fun s => BitVec.ofNat 64 (popCount (rG s a) 64)) s
/-- BFX (R131). -/
def execBfx (g : Guard) (d a : GReg) (b : Src) (s : State) := field g d b (fun s pos w => zextTo (rG s a >>> pos) w) s
/-- BFXS (R131). -/
def execBfxs (g : Guard) (d a : GReg) (b : Src) (s : State) := field g d b (fun s pos w => sextTo (rG s a >>> pos) w) s
/-- BFI (R131): gd is read and written. -/
def execBfi (g : Guard) (d : GReg) (a b : Src) (s : State) :=
  field g d b (fun s pos w => (rG s d &&& ~~~(fieldMask pos w)) ||| ((srcZ s a <<< pos) &&& fieldMask pos w)) s
/-- SEXT (R132). -/
def execSext (g : Guard) (d a : GReg) (b : Src) (s : State) := extend g d b (fun s n => sextTo (rG s a) n) s
/-- ZEXT (R132). -/
def execZext (g : Guard) (d a : GReg) (b : Src) (s : State) := extend g d b (fun s n => zextTo (rG s a) n) s
/-- LIMM (R133). -/
def execLimm (g : Guard) (d : GReg) (v : BitVec 56) (s : State) := alu g d (fun _ => v.signExtend 64) s
/-- LIMM.Z (R133). -/
def execLimmZ (g : Guard) (d : GReg) (v : BitVec 56) (s : State) := alu g d (fun _ => v.zeroExtend 64) s
/-- LIMM.H: gd[63:56] is set and gd[55:0] kept (R133). -/
def execLimmH (g : Guard) (d : GReg) (v : BitVec 8) (s : State) := alu g d (fun s => v ++ (rG s d).extractLsb' 0 56) s
/-- LEA (R134): an address, checked by no one. -/
def execLea (g : Guard) (d : GReg) (m : MemOp) (s : State) := alu g d (fun s => memPtr s m) s
/-- MOV (R135). -/
def execMov (g : Guard) (d : GReg) (a : Src) (s : State) := alu g d (fun s => srcS s a) s
/-- MOV.PR (R135). -/
def execMovPr (g : Guard) (d : GReg) (s : State) := alu g d (fun s => ((curCtx s).p ||| 1).zeroExtend 64) s
/-- MOV.RP (R135): p1 to p7 are a[1] to a[7]. -/
def execMovRp (g : Guard) (a : Src) (s : State) : Host.Outcome State Fault Refusal :=
  run .any g none (fun s => .ok (advance (mapCtx s fun c => { c with p := (srcZ s a).extractLsb' 0 8 ||| 1 }))) s
/-- SEL (R136). -/
def execSel (g : Guard) (d : GReg) (neg : Bool) (p : PReg) (a b : Src) (s : State) :=
  alu g d (fun s => if rP s p != neg then srcS s a else srcS s b) s
/-- The comparison SETP makes (R137). -/
def icond (cc : ICond) (a b : Word) : Bool :=
  match cc with
  | .eq => a == b
  | .ne => a != b
  | .lt => a.slt b
  | .le => !b.slt a
  | .gt => b.slt a
  | .ge => !a.slt b
  | .ltu => decide (a < b)
  | .leu => decide (a ≤ b)
  | .gtu => decide (b < a)
  | .geu => decide (b ≤ a)
  | .tst => (a &&& b) != 0
/-- The extension of SETP's immediates (R137). -/
def icondSrc (cc : ICond) (s : State) (v : Src) : Word :=
  match cc with
  | .eq | .ne | .lt | .le | .gt | .ge => srcS s v
  | .ltu | .leu | .gtu | .geu | .tst => srcZ s v
/-- SETP (R137). -/
def execSetp (g : Guard) (cc : ICond) (d : PReg) (a b : Src) (s : State) :=
  alup g d (fun s => icond cc (icondSrc cc s a) (icondSrc cc s b)) s
/-- PAND (R138). -/
def execPand (g : Guard) (d a b : PReg) (s : State) := alup g d (fun s => rP s a && rP s b) s
/-- POR (R138). -/
def execPor (g : Guard) (d a b : PReg) (s : State) := alup g d (fun s => rP s a || rP s b) s
/-- PXOR (R138). -/
def execPxor (g : Guard) (d a b : PReg) (s : State) := alup g d (fun s => rP s a != rP s b) s
/-- PNOT (R138). -/
def execPnot (g : Guard) (d a : PReg) (s : State) := alup g d (fun s => !rP s a) s

end Sys2Proof.Machine
end

