-- ==== Sys2Proof/Machine/Channels.lean ====
section
/-! DEFINITION. SEND, RECV, POLL (R170 to R175), header layouts (R176 to R178), and the events of messages and event queues. -/

namespace Sys2Proof.Machine
open Sys2Proof

/-! ### SEND, RECV, POLL -/

/-- SEND (R171): the payload is read as a scratchpad load, then the route's home is asked. The message carries the PTS that this load
leaves (DESIGN CHOICE, log entry 43). -/
def execSend (g : Guard) (a b : GReg) (s : State) : Host.Outcome State Fault Refusal :=
  run .strand g none (fun s => do
    checkHandle s [2] (rG s a)
    let off ← ownPtr s (rG s b) 32
    let r := spLoad s (curCore s) off 32 (rPts s)
    .ok (submitHoldAt r.1 r.2.2 (.send (rG s a) [BitVec.ofNat 256 r.2.1] 0 0))) s
/-- The records that a wake flit has brought the acting strand from a queue. -/
def curGot (s : State) (q : Word) : List Msg :=
  match s.cur with
  | .strand c i => match strandAt s c i with
    | some t => if t.gotQ == q then t.got else []
    | none => []
  | _ => []
/-- The acting strand as a waiter for `k` records at an event queue's home: of its present issue. -/
def curWaiter (s : State) (k : Nat) : Blocked :=
  { tag := curTag s, want := k, issue := match s.cur with
      | .strand c i => match strandAt s c i with
        | some t => t.lastIssue
        | none => 0
      | _ => 0 }
/-- The acting strand has taken what a wake flit brought. -/
def clearGot (s : State) : State :=
  match s.cur with
  | .strand c i => mapStrand s c i fun t => { t with got := [] }
  | _ => s
/-- A record taken: the PTS follows its timestamp, it is stored to the buffer as one store, and gd is written (R174). -/
def takeMsg (s : State) (d : GReg) (off : Nat) (m : Msg) (recv : Bool) : State :=
  let core := curCore s
  let s := if ownRoute m.route then countReceived s core m.route else s
  let r := spStore s core off 32 (max (rPts s) m.ts) m.bytes.toNat
  advance (wG (wPts r.1 r.2) d (if recv then m.bytes.setWidth 64 else 1))
/-- No record is held: POLL answers 0, RECV blocks in STATE 2 on a queue or route (R174, R175). -/
def takeNone (s : State) (d : GReg) (h : Word) (recv : Bool) : State :=
  if recv then
    match (suspend s 2 .recv).cur with
    | .strand c i => mapStrand (suspend s 2 .recv) c i fun t => { t with gotQ := h, want := 1 }
    | _ => s
  else advance (wG s d 0)
/-- The first record of an event queue is taken by a non-blocking take, and waiting arrivals are admitted (R175, R222); a channel source that
waits there for more records than the queue holds does not keep them (DESIGN CHOICE, log entry 50). -/
def takeEvq (s : State) (key : Nat) : Option (State × Msg) :=
  let q := evqAt s key
  match q.recs with
  | m :: ms =>
    let q' : Evq := { q with recs := ms }
    some (returnCredit (serveEvq (putEvq s key q') key (evqFuel q')) m, m)
  | [] => none
/-- A message that cannot be delivered to its strand is dropped: its route's home is told (R172). -/
def dropMessage (s : State) (m : Msg) : State := if m.route == 0 then s else { s with hold.drops := s.hold.drops ++ [m.route] }
/-- The messages of a route for a strand that a channel buffer holds. -/
def heldFor (buf : List Msg) (route : Word) (dtag : Nat) : List Msg := buf.filter fun m => m.route == route && m.dtag == dtag
/-- A message enters the channel buffer of its core, and a strand blocked on its route is re-inserted once it holds all that the strand
waits for (R88, R172, R174, R195); a message whose tag has become stale is dropped and counted. -/
def enterChannel (s : State) (m : Msg) : State :=
  let tag := tagOf m.dtag
  match tagged s tag with
  | none => dropMessage (countStale s tag.core) m
  | some t =>
    let buf := tget [] s.core.chan tag.core ++ [m]
    let s := { s with core.chan := tset [] s.core.chan tag.core buf }
    if t.gotQ == m.route && (t.st == 2 || (t.st == 1 && t.wait == .recv)) && decide (t.want ≤ (heldFor buf m.route m.dtag).length) then
      putStrand s tag.core tag.slot { t with st := 0, wait := .woken }
    else s
/-- Messages that waited at a core's input enter its channel buffer while it has room, in arrival order (R172); as many rounds as wait. -/
def admitChannel (s : State) (core : Nat) : Nat → State
  | 0 => s
  | n + 1 =>
    match tget [] s.core.chanWait core with
    | m :: ms =>
      if (tget [] s.core.chan core).length < 64 then
        admitChannel (enterChannel { s with core.chanWait := tset [] s.core.chanWait core ms } m) core n
      else s
    | [] => s
/-- The input of a core served. -/
def serveInput (s : State) (core : Nat) : State := admitChannel s core (tget [] s.core.chanWait core).length
/-- The oldest message of a route that the core's channel buffer holds for a strand is taken (R174). -/
def takeChannel (s : State) (h : Word) : Option (State × Msg) :=
  let core := curCore s
  let buf := tget [] s.core.chan core
  match findPos (fun m => m.route == h && m.dtag == tagBits (curTag s)) buf 0 with
  | some (n, m) =>
    some (returnCredit (serveInput { s with core.chan := tset [] s.core.chan core (dropAt buf n) } core) m, m)
  | none => none
/-- RECV and POLL (R174). -/
def receive (d a b : GReg) (recv : Bool) (s : State) : Except Exc State := do
  let h := rG s a
  checkHandle s [2, 7] h
  let off ← ownPtr s (rG s b) 32
  match curGot s h with
  | m :: _ => .ok (takeMsg (returnCredit (clearGot s) m) d off m recv)
  | [] =>
    if hKind h == 7 then do
      checkHome s (curCtxh s) h
      match takeEvq s (hKey h) with
      | some (t, m) => .ok (takeMsg t d off m recv)
      | none =>
        let q := evqAt s (hKey h)
        let t := if recv then putEvq s (hKey h) { q with blocked := q.blocked ++ [curWaiter s 1] } else s
        .ok (takeNone t d h recv)
    else do
      checkIndex h
      let rt := routeAt s h
      if !liveHandle s h then
        match takeChannel s h with
        | some (t, m) => .ok (takeMsg t d off m recv)
        | none => .error (hExc .lapsed h)
      else do
        need ((lifeOf s (hKey h)).owner == curCtxh s) (hExc .protection h)
        need (rt.dtype == 0 && rt.peer == 0 && rt.dtag == tagBits (curTag s)) (hExc .badOperand h)
        match takeChannel s h with
        | some (t, m) => .ok (takeMsg t d off m recv)
        | none => .ok (takeNone s d h recv)
/-- RECV. -/
def execRecv (g : Guard) (d a b : GReg) (s : State) : Host.Outcome State Fault Refusal := run .strand g none (receive d a b true) s
/-- POLL. -/
def execPoll (g : Guard) (d a b : GReg) (s : State) : Host.Outcome State Fault Refusal := run .strand g none (receive d a b false) s

/-! ### Header layouts (R176 to R178) -/

/-- Field descriptor fields: width and offset (R176). -/
def fldW (d : BitVec 32) : Nat := d.toNat / 2 ^ 16 % 64 + 1
/-- OFF. -/
def fldOff (d : BitVec 32) : Nat := d.toNat % 2 ^ 11
/-- The descriptor keeps R176: reserved bits 0, and with V = 1 the field lies in the header, on byte boundaries with LE. -/
def fldOk (d : BitVec 32) : Bool :=
  d.toNat / 2 ^ 22 % 2 ^ 7 == 0 && d.toNat / 2 ^ 11 % 2 ^ 5 == 0 &&
  (!d.getLsbD 31 || (decide (fldOff d + fldW d ≤ 2048) && (!d.getLsbD 30 || (fldOff d % 8 == 0 && fldW d % 8 == 0))))
/-- MHDT (R177). -/
def execMhdt (g : Guard) (a : GReg) (s : State) : Host.Outcome State Fault Refusal :=
  run .strand g none (fun s => do
    let off ← ownPtr s (rG s a) 64
    need (decide (off + 512 ≤ 2 ^ 19)) (bad (rG s a))
    let core := curCore s
    let r := spLoads s core off 16 (rPts s)
    let s := wPts r.1 r.2.2
    let desc (i : Nat) : BitVec 32 := BitVec.ofNat 32 (r.2.1 / 2 ^ (32 * i))
    softCheck s
    match (List.range 128).find? fun i => !fldOk (desc i) with
    | some i => .error (bad ((desc i).setWidth 64))
    | none => .ok (rotate 2 (advance ((List.range 128).foldl (fun s i =>
        { s with core.layout := tset 0 s.core.layout (core * 128 + i) (desc i) }) s)))) s
/-- The place of header bit `b` in the header's bytes read as one number (R176). -/
def hdrBit (b : Nat) : Nat := 8 * (b / 8) + 7 - b % 8
/-- The value of a field of a header (R178). -/
def fldGet (h : Nat) (d : BitVec 32) : Nat :=
  let w := fldW d
  if d.getLsbD 30 then h / 2 ^ fldOff d % 2 ^ w
  else (List.range w).foldl (fun v i => 2 * v + (if h.testBit (hdrBit (fldOff d + i)) then 1 else 0)) 0
/-- A header with one bit set to a value. -/
def putBit (h k : Nat) (v : Bool) : Nat := h - (if h.testBit k then 2 ^ k else 0) + if v then 2 ^ k else 0
/-- A header with a field set (R178). -/
def fldPut (h v : Nat) (d : BitVec 32) : Nat :=
  let w := fldW d
  (List.range w).foldl (fun h i =>
    if d.getLsbD 30 then putBit h (fldOff d + i) (v.testBit i)
    else putBit h (hdrBit (fldOff d + i)) (v.testBit (w - 1 - i))) h
/-- The value of a field as .P stores it (R178). -/
def fldValue (h : Nat) (d : BitVec 32) : Word :=
  let v := fldGet h d
  if d.getLsbD 29 && v.testBit (fldW d - 1) then BitVec.ofNat 64 (v + (2 ^ 64 - 2 ^ fldW d)) else BitVec.ofNat 64 v
/-- The bytes of the header that a field covers. -/
def fldBytes (d : BitVec 32) : List Nat :=
  (List.range ((fldOff d + fldW d - 1) / 8 - fldOff d / 8 + 1)).map (fldOff d / 8 + ·)
/-- Scratchpad loads of single bytes, in order: the timestamps move (R49). -/
def spTouch (s : State) (core : Nat) : List Nat → Nat → State × Nat
  | [], pts => (s, pts)
  | o :: os, pts =>
    let r := spLoad s core o 1 pts
    spTouch r.1 core os r.2.2
/-- Scratchpad stores of single bytes, in order. -/
def spPuts (s : State) (core : Nat) : List (Nat × Nat) → Nat → State × Nat
  | [], pts => (s, pts)
  | (o, v) :: os, pts =>
    let r := spStore s core o 1 pts v
    spPuts r.1 core os r.2
/-- The offsets of the header and of the values, or BAD_OPERAND (R178). -/
def hdrPtrs (s : State) (a b : GReg) : Except Exc (Nat × Nat) := do
  let h ← ownPtr s (rG s a) 8
  need (decide (h + 256 ≤ 2 ^ 19)) (bad (rG s a))
  let v ← ownPtr s (rG s b) 8
  need (decide (v + 128 ≤ 2 ^ 19)) (bad (rG s b))
  .ok (h, v)
/-- The valid fields of layout `k` with their numbers, in ascending order. -/
def fields (s : State) (core : Nat) (k : Fin 8) : List (Nat × BitVec 32) :=
  ((List.range 16).map fun i => (i, tget 0 s.core.layout (core * 128 + k.val * 16 + i))).filter fun e => e.2.getLsbD 31
/-- The source bytes read, then the destination bytes written, in ascending address; the strand is out for 2 rotations. -/
def moveBytes (s : State) (src : List Nat) (dst : List (Nat × Nat)) : State :=
  let core := curCore s
  let r := spTouch s core src (rPts s)
  let w := spPuts r.1 core dst r.2
  rotate 2 (advance (wPts w.1 w.2))
/-- MHDR.P: the values of a layout's fields taken from a header (R178). -/
def execMhdrP (g : Guard) (a b : GReg) (k : Fin 8) (s : State) : Host.Outcome State Fault Refusal :=
  run .strand g none (fun s => do
    let (h, v) ← hdrPtrs s a b
    let core := curCore s
    let fs := fields s core k
    let hdr := memRead s.mem (scratchAt core h) 256
    let src := (List.range 256).filter fun j => fs.any fun f => (fldBytes f.2).contains j
    let dst := fs.flatMap fun f => (List.range 8).map fun j => (v + 8 * f.1 + j, (fldValue hdr f.2).toNat / 256 ^ j % 256)
    .ok (moveBytes s (src.map (h + ·)) dst)) s
/-- MHDR.B: the fields of a header built from values; a byte that a field covers in part keeps its other bits (R178), which are merged
without an access of their own (DESIGN CHOICE, log entry 43). -/
def execMhdrB (g : Guard) (a b : GReg) (k : Fin 8) (s : State) : Host.Outcome State Fault Refusal :=
  run .strand g none (fun s => do
    let (h, v) ← hdrPtrs s a b
    let core := curCore s
    let fs := fields s core k
    let hdr := memRead s.mem (scratchAt core h) 256
    let val (i : Nat) : Nat := memRead s.mem (scratchAt core (v + 8 * i)) 8
    let new := fs.foldl (fun x f => fldPut x (val f.1) f.2) hdr
    let src := fs.flatMap fun f => (List.range ((fldW f.2 + 7) / 8)).map fun j => v + 8 * f.1 + j
    let dst := (List.range 256).filter fun j => fs.any fun f => (fldBytes f.2).contains j
    .ok (moveBytes s src (dst.map fun j => (h + j, new / 256 ^ j % 256)))) s

/-! ### Events -/

/-- EVQ_RECORD_ARRIVAL: a queue's home takes a record, in the order of sending; one for a lapsed queue, or one of another
context, is dropped and counted (R34, R221). -/
def execEvqRecordArrival (n : Nat) (s : State) : Host.Outcome State Fault Refusal :=
  .next (confine s (match s.hold.arriving[n]? with
    | some r =>
      if (s.hold.arriving.take n).any fun x => x.q == r.q then s
      else
        let s := { s with hold.arriving := dropAt s.hold.arriving n }
        if liveHandle s r.q && (lifeOf s (hKey r.q)).owner == r.ctxh then landRecord s (hKey r.q) r.msg
        else { s with hold.dropped := s.hold.dropped + 1 }
    | none => s))
/-- A message for a strand arrives at its core: into the channel buffer, or, while that is full, behind those that wait at the core's
input (R172, R93). -/
def deliverTag (s : State) (m : Msg) (dtag : Nat) : State :=
  let tag := tagOf dtag
  let m := { m with dtag := dtag }
  if (tagged s tag).isNone then dropMessage (countStale s tag.core) m
  else
    let wait := tget [] s.core.chanWait tag.core
    if decide ((tget [] s.core.chan tag.core).length < 64) && wait.isEmpty then enterChannel s m
    else { s with core.chanWait := tset [] s.core.chanWait tag.core (wait ++ [m]) }
/-- A message for an event queue arrives at its home (R172). -/
def deliverEvq (s : State) (m : Msg) (q : Word) : State :=
  if liveHandle s q then landRecord s (hKey q) m
  else
    dropMessage { s with hold.dropped := s.hold.dropped + 1 } m
/-- MESSAGE_DELIVERY: a message of a route is delivered, in the order of its route (R171, R172). -/
def execMessageDelivery (n : Nat) (s : State) : Host.Outcome State Fault Refusal :=
  .next (confine s (match s.hold.flights[n]? with
    | some f =>
      if (s.hold.flights.take n).any fun x => x.route == f.route then s
      else
        let s := { s with hold.flights := dropAt s.hold.flights n }
        let rt := routeAt s f.route
        if rt.dtype == 0 then deliverTag s f.msg rt.dtag else deliverEvq s f.msg rt.devq
    | none => s))
/-- The route's home sets GONE and returns the credit in one step; SENDs that wait are answered PEER_GONE (R172). -/
def routeGone (s : State) (h : Word) : State :=
  if (lifeOf s (hKey h)).gen == hGen h then
    let rt := routeAt s h
    failSends (putRoute s (hKey h) { rt with gone := true, credits := min 8 (rt.credits + 1) }) (hKey h)
      { cause := .peerGone, info0 := h, detail := 8 }
  else s
/-- DROP_NOTICE: a route's home takes it; for a message from a peer the answer is a DROP packet (R172, R368). -/
def execDropNotice (n : Nat) (s : State) : Host.Outcome State Fault Refusal :=
  .next (confine s (match s.hold.drops[n]? with
    | some h =>
      let s := { s with hold.drops := dropAt s.hold.drops n }
      if ownRoute h then routeGone s h else queuePacket s (h.toNat / 2 ^ 32 % 8) (replyPacket 8 (h.toNat % 2 ^ 32) 0 [])
    | none => s))
/-- CREDIT_RETURN (R172). -/
def execCreditReturn (n : Nat) (s : State) : Host.Outcome State Fault Refusal :=
  .next (confine s (match s.hold.credits[n]? with
    | some h =>
      let s := { s with hold.credits := dropAt s.hold.credits n }
      if (lifeOf s (hKey h)).gen == hGen h then
        let rt := routeAt s h
        serveCredit (putRoute s (hKey h) { rt with credits := min 8 (rt.credits + 1) }) h
      else s
    | none => s))

end Sys2Proof.Machine
end

