-- ==== Sys2Proof/Machine/MemoryEngine.lean ====
section
/-! DEFINITION. The memory engine's events: stores to page-table entries that waited, backing, completed unmaps, walks,
hotness and page moves (R349 to R358). -/

namespace Sys2Proof.Machine
open Sys2Proof

/-! ### The pool (R358) -/

/-- The frames in use, as first frame and count: those firmware has reserved, pages PRESENT or MOVING, frames an unmap has not yet
freed, targets of moves. -/
def usedFrames (s : State) : List (Nat × Nat) :=
  let n (large : Bool) : Nat := if large then 32 else 1
  ((s.page.pte.filter fun e => e.2.st == 1 || e.2.st == 5).map fun e => (e.2.pn, n e.2.large))
    ++ s.page.unmaps.filterMap (fun u => u.freed.map fun f => (f, n u.large))
    ++ s.page.moving.map (fun m => (m.2, n (tget {} s.page.pte m.1).large)) ++ s.hub.reserved
/-- `n` frames from one on are free. -/
def framesFree (used : List (Nat × Nat)) (f n : Nat) : Bool :=
  used.all fun u => decide (u.1 + u.2 ≤ f) || decide (f + n ≤ u.1)
/-- The lowest free frame, or aligned block of 32, among `count` frames from `base` on (log entry 7). -/
def lowestFrame (used : List (Nat × Nat)) (base count n : Nat) : Option Nat :=
  let fuel := min (count / n) (used.foldl (fun k u => k + u.2) 1)
  (leastFrom (fun i => framesFree used (base + i * n) n) 0 fuel).map fun i => base + i * n
/-- A frame of a die's HBM. -/
def hbmFrame (s : State) (d : Nat) (large : Bool) : Option Nat :=
  let n := if large then 32 else 1
  (List.range 3).findSome? fun k =>
    if readyCode s (kHbm d k) == 2 then lowestFrame (usedFrames s) (d * 2 ^ 22 + k * 2 ^ 20) (2 ^ 20) n else none
/-- A frame for a page: of the range's home die, else of the other dies in ascending order; a FAR page of the lowest CXL port
that has one within its capacity (R16, R357, R358). -/
def allocFrame (s : State) (home : Nat) (far large : Bool) : Option Nat :=
  let n := if large then 32 else 1
  if far then
    (List.range 4).findSome? fun p =>
      if readyCode s (kCxl p) == 2 then lowestFrame (usedFrames s) (2 ^ 28 + p * 2 ^ 25) (min (2 ^ 25) (tget 0 s.hub.cxl p)) n
      else none
  else (List.range 4).findSome? fun k => hbmFrame s ((dieOf home + k) % 4) large
/-- The sectors of a frame forgotten by L2, their timestamps kept in MTS (R50). -/
def forgetFrame (s : State) (frame n : Nat) : State :=
  let mine := s.coh.dir.filter fun e => decide (frame * 1024 ≤ e.1) && decide (e.1 < (frame + n) * 1024)
  let s := mine.foldl (fun s e =>
    let home := homeOf s (e.1 * 64)
    { s with coh.mts := tset 0 s.coh.mts home (max (mtsOf s home) (max e.2.wts e.2.rts)) }) s
  { s with coh.dir := s.coh.dir.filter fun e => !(decide (frame * 1024 ≤ e.1) && decide (e.1 < (frame + n) * 1024)) }
/-- Frames filled with zeros (R50, R162). -/
def zeroFrame (s : State) (frame n : Nat) : State :=
  { forgetFrame s frame n with
    mem := s.mem.filter fun c => !(decide (frame * 65536 ≤ c.1) && decide (c.1 < (frame + n) * 65536)) }
/-- The context of a page-table entry's key. -/
def pteCtx (s : State) (pte : Nat) : Word := curHandle s (pte / 2 ^ 40)

/-! ### Events -/

/-- PTE_STORE: a store that waited on REQ, MOVING or PURGE is taken anew, and applied under its row (R349). -/
def execPteStore (n : Nat) (s : State) : Host.Outcome State Fault Refusal :=
  .next (confine s (match s.page.stores[n]? with
    | some r => match r.kind with
      | .write v =>
        match storeSystem s (sysCtx s r.pa) (sysVa r.pa) r.n v (r.n == 8 && r.plain) with
        | .wait => s
        | _ => dispatchReq { s with page.stores := dropAt s.page.stores n } r
      | _ => s
    | none => s))
/-- The waiter of a page's backing is answered (R349), its core's copy of the sector being what it stored (R359). -/
def answerBacking (s : State) (b : Backing) : State :=
  match b.waiter with
  | some (r, w, data) => answer (storeCopy s r w data) r 0 w
  | none => s
/-- PAGE_BACKED: a page asked for takes a frame, zero-filled, and is PRESENT; or EXH when no frame exists (R349, R358). -/
def execPageBacked (n : Nat) (s : State) : Host.Outcome State Fault Refusal :=
  .next (confine s (match s.page.backing[n]? with
    | some b =>
      let s := { s with page.backing := dropAt s.page.backing n }
      let p := tget {} s.page.pte b.pte
      let ctxh := pteCtx s b.pte
      if p.st != 2 then answerBacking s b
      else match allocFrame s (keyHome b.range) b.far b.large with
        | some f =>
          let k := if b.large then 32 else 1
          let s := zeroFrame s f k
          let touched := if (tfind s.page.touched b.pte).isSome then
            tput s.page.touched b.pte (localDt s (keyHome b.range) + 2) else s.page.touched
          let s := { s with page.pte := tset {} s.page.pte b.pte { p with st := 1, pn := f }
                            page.hot := tdel s.page.hot f
                            page.touched := touched }
          answerBacking (bumpEntry s ctxh b.range (pteVpn b.pte)) b
        | none =>
          let s := { s with page.pte := tset {} s.page.pte b.pte { p with st := 3 } }
          answerBacking (bumpEntry s ctxh b.range (pteVpn b.pte)) b
    | none => s))
/-- Owned sectors of a frame are recalled; true when none is owned or in a recall. -/
def recallFrame (s : State) (frame n : Nat) : State × Bool :=
  let mine := s.coh.dir.filter fun e => decide (frame * 1024 ≤ e.1) && decide (e.1 < (frame + n) * 1024) && e.2.st != .h
  (mine.foldl (fun s e => match e.2.st with
    | .o c => recallFrom s e.1 c
    | _ => s) s, mine.isEmpty)
/-- The old translations and copies of an unmapped page are gone. -/
def dropCopies (s : State) (pte frame n : Nat) : State :=
  { s with page.tlb := s.page.tlb.filter (fun e => e.1 % 2 ^ 96 != pte)
           coh.l1 := s.coh.l1.filter fun e => !(decide (frame * 1024 ≤ e.1 % 2 ^ 128) && decide (e.1 % 2 ^ 128 < (frame + n) * 1024)) }
/-- A request to a frame is on its way to its home, or waits there (R38, R54, R57). -/
def frameAsked (s : State) (frame n : Nat) : Bool :=
  let mine (r : MemReq) : Bool := decide (frame * 65536 ≤ r.pa) && decide (r.pa < (frame + n) * 65536)
  s.coh.net.any mine || (s.coh.grantq.any fun e => e.2.any mine) || s.coh.dir.any fun e => e.2.queue.any mine
/-- The pages asked for that waited for an unmap of theirs to complete are backed, when their range is not DARK (R349, R352). -/
def askWaiting (s : State) (pte : Nat) : State :=
  (s.page.asked.filter fun a => a.1 == pte).foldl (fun s a =>
    let ctxh := pteCtx s pte
    if (tget {} s.page.pte pte).st == 0 && (lifeOf s a.2).st != 0 && (lifeOf s a.2).owner == ctxh then
      askBacking s ctxh a.2 (rangeAt s a.2) (pteVpn pte) false
    else s) { s with page.asked := s.page.asked.filter fun a => a.1 != pte }
/-- UNMAP_COMPLETE: every holder has acknowledged, or W + TL + 2 has come, and no request made through the old mapping is still to be
served (R38; log entry 48); owned sectors of a page whose frame is freed
or moved, or whose NC bit changes, have been recalled (R59, R353, R356). The last unmap of a page clears PURGE. -/
def execUnmapComplete (n : Nat) (s : State) : Host.Outcome State Fault Refusal :=
  .next (confine s (match s.page.unmaps[n]? with
    | some u =>
      if u.holders.isEmpty || decide (u.at_ + u.tl + 2 ≤ localDt s u.home) then
        let k := if u.large then 32 else 1
        let clean := u.freed.isSome || u.move.isSome || u.ncChange
        let (s1, done) := if clean then recallFrame s u.old k else (s, true)
        if done && !frameAsked s u.old k then
          let s1 := { s1 with page.unmaps := dropAt s1.page.unmaps n }
          let s1 := if clean then dropCopies s1 u.pte u.old k
            else { s1 with page.tlb := s1.page.tlb.filter fun e => e.1 % 2 ^ 96 != u.pte }
          let s1 := if u.freed.isSome then forgetFrame s1 u.old k else s1
          let p := tget {} s1.page.pte u.pte
          if s1.page.unmaps.any fun v => v.pte == u.pte then s1
          else
            let s1 := { s1 with page.pte := tset {} s1.page.pte u.pte { p with purge := false } }
            let s1 := match rangeFor s1 (pteCtx s1 u.pte) (pteVpn u.pte * 65536) with
              | some (key, _) => bumpEntry s1 (pteCtx s1 u.pte) key (pteVpn u.pte)
              | none => s1
            askWaiting s1 u.pte
        else s1
      else s
    | none => s))
/-- TRANSLATION_WALK: a holder reads the entry of a page of a context and caches it when PRESENT; an ABSENT page of an
engine-backed range is backed (R37, R350, R352). The copy's life is the longest that a launch of the context has: an access uses it
only within its own launch's. -/
def execTranslationWalk (holder ctx vpn : Nat) (s : State) : Host.Outcome State Fault Refusal :=
  .next (confine s
    (let ctxh := curHandle s ctx
    let unit := holderUnit holder
    match rangeFor s ctxh (vpn * 65536) with
    | some (key, r) =>
      let v := vpnIn r (vpn * 65536)
      let p := pteAt s ctxh v
      if !corePresent s unit then s
      else if p.st == 1 then
        let e : Tlb := { pte := p, large := r.lp, stamp := localDt s (keyHome key), tl := contextTl s ctxh, range := curHandle s key }
        { s with page.tlb := tput s.page.tlb (tlbKey holder ctxh v) e }
      else if p.st == 0 && !r.pager then backPage s ctxh key r (vpn * 65536)
      else s
    | none => s))
/-- The target die of a page's counts (R355). -/
def hotTarget (h : Hot) (home : Nat) : Nat :=
  let n := h.c0 + h.c1 + h.c2 + h.c3
  let pick (twice own : Nat) : Nat := if n < twice then 1 else if twice < n then 0 else own
  pick (2 * (h.c1 + h.c3)) (home % 2) + 2 * pick (2 * (h.c2 + h.c3)) (home / 2)
/-- A page is examined, and a move of it started when R355 says so (R355, R356 step 1). -/
def examine (s : State) (dt frame : Nat) (h : Hot) : State :=
  let die := homeDie (frame * 65536)
  let n := h.c0 + h.c1 + h.c2 + h.c3
  let target := hotTarget h die
  match pageOf s frame with
  | some (pte, p) =>
    if decide (32 ≤ n) && target != die && (h.moved == 0 || decide (h.moved + 4096 ≤ dt + 1)) && !p.purge && p.pn == frame then
      match hbmFrame s target p.large with
      | none =>
        { s with page.hot := tset {} s.page.hot frame { h with c0 := h.c0 / 2, c1 := h.c1 / 2, c2 := h.c2 / 2, c3 := h.c3 / 2 } }
      | some f =>
        let home := match rangeFor s (pteCtx s pte) (pteVpn pte * 65536) with
          | some (key, _) => keyHome key
          | none => hotSlice s (frame * 65536)
        let s := unmapWrite { s with page.moving := s.page.moving ++ [(pte, f)] } pte home { p with st := 5 } frame none (some frame) p.large false
        match rangeFor s (pteCtx s pte) (pteVpn pte * 65536) with
        | some (key, _) => bumpEntry s (pteCtx s pte) key (pteVpn pte)
        | none => s
    else s
  | none => s
/-- HOTNESS_EXAMINATION: a counter slice examines its pages, once in 256 ticks (R354, R355). -/
def execHotnessExamination (slice : Nat) (s : State) : Host.Outcome State Fault Refusal :=
  .next (confine s
    (let dt := localDt s slice
    if tget 0 s.page.examined slice < dt / 256 then
      (s.page.hot.filter fun e => hotSlice s (e.1 * 65536) == slice).foldl (fun s e => examine s dt e.1 e.2)
        { s with page.examined := tset 0 s.page.examined slice (dt / 256) }
    else s))
/-- The sectors and bytes of a frame at a new one (R50, R356): absent sectors are no older there, by its slices' MTS. -/
def moveFrame (s : State) (old new n : Nat) : State :=
  let inOld (a : Nat) : Bool := decide (old * 65536 ≤ a) && decide (a < (old + n) * 65536)
  let inNew (a : Nat) : Bool := decide (new * 65536 ≤ a) && decide (a < (new + n) * 65536)
  let cells := s.mem.filter fun c => inOld c.1
  let secs := s.coh.dir.filter fun e => inOld (e.1 * 64)
  let s := forgetFrame (forgetFrame s old n) new n
  let m := (dieSlices s (homeDie (old * 65536))).foldl (fun k h => max k (mtsOf s h)) 0
  let s := (dieSlices s (homeDie (new * 65536))).foldl (fun s h =>
    { s with coh.mts := tset 0 s.coh.mts h (max m (mtsOf s h)) }) s
  let s := { s with mem := cells.foldr (fun c m => memPut m (c.1 - old * 65536 + new * 65536) c.2) (s.mem.filter fun c => !inNew c.1) }
  secs.foldr (fun e s =>
    let x := e.1 - old * 1024 + new * 1024
    putDir (l2Room s x) x e.2) s
/-- PAGE_MOVE: a page whose move's unmap is complete is copied and PRESENT at its new frame (R356 steps 2 and 3). -/
def execPageMove (n : Nat) (s : State) : Host.Outcome State Fault Refusal :=
  .next (confine s (match s.page.moving[n]? with
    | some (pte, new) =>
      let p := tget {} s.page.pte pte
      let k := if p.large then 32 else 1
      let unsettled (frame : Nat) : Bool :=
        s.coh.dir.any fun e => decide (frame * 1024 ≤ e.1) && decide (e.1 < (frame + k) * 1024) && e.2.st != .h
      let busy := s.page.unmaps.any fun u => u.pte == pte
      if busy then s
      else if p.st != 5 then { s with page.moving := dropAt s.page.moving n }
      else if unsettled p.pn || unsettled new then (recallFrame (recallFrame s p.pn k).1 new k).1
      else
        let s := { moveFrame s p.pn new k with page.moving := dropAt s.page.moving n }
        let dt := localDt s (hotSlice s (new * 65536))
        let s := { s with page.pte := tset {} s.page.pte pte { p with st := 1, pn := new, purge := false }
                          page.hot := tset {} (tdel s.page.hot p.pn) new { moved := dt + 1 } }
        match rangeFor s (pteCtx s pte) (pteVpn pte * 65536) with
        | some (key, _) => bumpEntry s (pteCtx s pte) key (pteVpn pte)
        | none => s
    | none => s))

end Sys2Proof.Machine
end

