-- ==== Sys2Proof/Machine/Scheduler.lean ====
section
/-! DEFINITION. Launches and counters (R301 to R303), cancellation (R304, R305), records and join cells (R297, R298, R313,
R314), LAUNCH (R315, R316), barriers (R319, R320), binding and eviction (R95, R96, R98, R300), stage queues (R307, R308),
the dispenser and thermal control (R309 to R311). -/

namespace Sys2Proof.Machine
open Sys2Proof

/-! ### Launch and counter entries (R301, R302) -/

/-- The home slice of a launch index (R301). -/
def launchHome (n : Nat) : Nat := sliceId (n / 16384 % 4) (n / 1024 % 16)
/-- A counter entry of a counter id's home and entry number, whatever its generation. -/
def counterAt (s : State) (id : Nat) : Counter := tget {} s.work.counters (id / 16384)
/-- The state with a counter entry set. -/
def putCounter (s : State) (id : Nat) (c : Counter) : State := { s with work.counters := tset {} s.work.counters (id / 16384) c }
/-- The counter id names the entry's current generation, and the entry is not free (R302). -/
def counterLive (s : State) (id : Nat) : Bool := (counterAt s id).st != 0 && (counterAt s id).gen == id % 16384
/-- An instance name (R301). -/
def instanceName (level id : Nat) : Word := BitVec.ofNat 64 (level * 2 ^ 32 + id)
/-- The next generation of a counter entry: 1 to 16,383 (R301). -/
def nextCounterGen (g : Nat) : Nat := if (g + 1) % 16384 == 0 then 1 else (g + 1) % 16384
/-- A completion record (R221). -/
def complBits (status op cause tag bytes ets : Nat) (info : Word) : BitVec 256 :=
  BitVec.ofNat 256 (status + op * 2 ^ 8 + cause * 2 ^ 16 + tag * 2 ^ 32 + bytes % 2 ^ 64 * 2 ^ 64 + ets % 2 ^ 64 * 2 ^ 128 + info.toNat * 2 ^ 192)
/-- STATUS of a launch's or counter's completion record (R302). -/
def complStatus (st cause : Nat) (killed : Bool) : Nat :=
  if st == 3 then (if killed then 4 else 3) else if cause != 0 then 2 else 0
/-- A counter's child ends (R302); when that leaves it complete its own record is posted and its parent's child ends. `fuel`
bounds the levels above it. -/
def counterChildEnds (s : State) (id m cause : Nat) : Nat → State
  | 0 => s
  | fuel + 1 =>
    if !counterLive s id then s
    else
      let c := counterAt s id
      let c := { c with out := c.out - 1, ended := c.ended + 1, cts := max c.cts m, cause := if c.cause == 0 then cause else c.cause }
      if c.out == 0 && c.st != 1 then
        let s := if c.evq == 0 then s else postEvq s c.evq c.ctxh
          { bytes := complBits (complStatus c.st c.cause c.killed) 0xD4 c.cause 0 c.ended c.cts (instanceName c.level id), ts := c.cts }
        let s := retireToken (putCounter s id { gen := c.gen, cts := c.cts, ctxh := c.ctxh }) c.level id
        counterChildEnds s c.parent c.cts c.cause fuel
      else putCounter s id c
/-- A counter that is SEALED or CANCELLING with no children completes (R302). -/
def settleCounter (s : State) (id : Nat) : State :=
  let c := counterAt s id
  if counterLive s id && c.out == 0 && c.st != 1 then
    let s := if c.evq == 0 then s else postEvq s c.evq c.ctxh
      { bytes := complBits (complStatus c.st c.cause c.killed) 0xD4 c.cause 0 c.ended c.cts (instanceName c.level id), ts := c.cts }
    let s := retireToken (putCounter s id { gen := c.gen, cts := c.cts, ctxh := c.ctxh }) c.level id
    counterChildEnds s c.parent c.cts c.cause 3
  else s
/-- A unit of a launch ends (R302, R303). -/
def launchChildEnds (s : State) (n m cause : Nat) : State :=
  let l := launchAt s n
  if l.st == 0 then s
  else
    let l := { l with out := l.out - 1, ended := l.ended + 1, cts := max l.cts m, cause := if l.cause == 0 then cause else l.cause }
    if l.out == 0 then
      let s := if l.evq == 0 then s else postEvq s l.evq l.ctxh
        { bytes := complBits (complStatus l.st l.cause l.killed) 0xD2 l.cause 0 l.ended l.cts (instanceName 0 n), ts := l.cts }
      let s := retireToken (putLaunch s n { cts := l.cts, ctxh := l.ctxh }) 0 n
      counterChildEnds s l.graph l.cts l.cause 3
    else putLaunch s n l
/-- CHILD_ENDS: a launch's home takes the end of a unit (R302, R303). -/
def execChildEnds (n : Nat) (s : State) : Host.Outcome State Fault Refusal :=
  .next (confine s (match s.work.ends[n]? with
    | some e => launchChildEnds { s with work.ends := dropAt s.work.ends n } e.launch e.ts e.cause
    | none => s))

/-! ### Counters: CNTR (R318) -/

/-- A free counter entry of a slice, the lowest (log entry 7): its id of the next generation. -/
def freeCounter (s : State) (home : Nat) : Option Nat :=
  let base := (dieOf home * 16 + (home - 0xC0) % 16) * 4096
  (leastFrom (fun i => (tget {} s.work.counters (base + i)).st == 0) 0 4096).map fun i =>
    (base + i) * 16384 + nextCounterGen (tget ({} : Counter) s.work.counters (base + i)).gen
/-- The home slice of a counter id (R301). -/
def counterHome (id : Nat) : Nat := sliceId (id / 2 ^ 30 % 4) (id / 2 ^ 26 % 16)
/-- A counter entry is created OPEN under a parent (R302, R318). -/
def openCounter (s : State) (id level parent : Nat) (ctxh evq : Word) : State :=
  let s := putCounter s id { st := 1, level := level, parent := parent, ctxh := ctxh, evq := evq, gen := id % 16384 }
  if level == 3 then s
  else
    let p := counterAt s parent
    putCounter s parent { p with out := p.out + 1 }
/-- The level and id of an instance name (R301): a reserved level, or bits that must be 0, is BAD_OPERAND. -/
def parseName (v : Word) : Except Exc (Nat × Nat) := do
  let level := v.toNat / 2 ^ 32
  let id := v.toNat % 2 ^ 32
  need (decide (level ≤ 3) && (level != 0 || decide (id < 65536))) (bad v)
  .ok (level, id)
/-- State, OUT and context of the instance a name names; state 0 when it is free or stale. -/
def instanceAt (s : State) (level id : Nat) : Nat × Nat × Word :=
  if level == 0 then
    let l := launchAt s id
    (l.st, l.out, l.ctxh)
  else
    let c := counterAt s id
    if counterLive s id && c.level == level then (c.st, c.out, c.ctxh) else (0, 0, 0)
/-- CNTR.OPEN (R318). -/
def execCntrOpen (g : Guard) (d a b : GReg) (s : State) : Host.Outcome State Fault Refusal :=
  run .strand g none (fun s => do
    let v := rG s a
    let q := rG s b
    let ctxh := curCtxh s
    let done (s : State) (r : Word) : State := advance (wG s d r)
    if v == 0 then do
      if q == 0 then .ok () else checkAll s [7] q
      match freeCounter s (defaultSlice s (curCore s)) with
      | some id => .ok (done (openCounter s id 3 0 ctxh q) (instanceName 3 id))
      | none => .ok (done s 0)
    else do
      let (level, id) ← parseName v
      need (decide (2 ≤ level)) (bad v)
      if q == 0 then .ok () else checkHandle s [7] q
      let (st, _, owner) := instanceAt s level id
      need (st == 0 || owner == ctxh) { cause := .protection, info0 := v }
      if q == 0 then .ok () else checkHome s ctxh q
      match st, freeCounter s (counterHome id) with
      | 1, some new => .ok (done (openCounter s new (level - 1) id ctxh q) (instanceName (level - 1) new))
      | _, _ => .ok (done s 0)) s
/-- CNTR.SEAL (R318). -/
def execCntrSeal (g : Guard) (a : GReg) (s : State) : Host.Outcome State Fault Refusal :=
  run .strand g none (fun s => do
    let v := rG s a
    let (level, id) ← parseName v
    let (st, _, owner) := instanceAt s level id
    need (st == 0 || owner == curCtxh s) { cause := .protection, info0 := v }
    if level != 0 && st == 1 then
      .ok (advance (settleCounter (putCounter s id { counterAt s id with st := 2 }) id))
    else .ok (advance s)) s
/-- CTS of an instance's last completion, while the home still holds it (R318). -/
def lastCts (s : State) (level id : Nat) : Nat :=
  if level == 0 then (launchAt s id).cts
  else if (counterAt s id).gen == id % 16384 && (counterAt s id).st == 0 then (counterAt s id).cts else 0
/-- CNTR.READ (R318). -/
def execCntrRead (g : Guard) (d a : GReg) (s : State) : Host.Outcome State Fault Refusal :=
  run .strand g none (fun s => do
    let (level, id) ← parseName (rG s a)
    let (st, out, _) := instanceAt s level id
    let t := if st == 0 then wPts s (max (rPts s) (lastCts s level id)) else s
    .ok (advance (wG t d (BitVec.ofNat 64 (st * 2 ^ 62 + out % 2 ^ 32))))) s

/-! ### Cancellation (R304, R305, R317) -/

/-- The counters not free whose parent is one of these, as ids. -/
def childCounters (s : State) (parents : List Nat) : List Nat :=
  (s.work.counters.filter fun e => e.2.st != 0 && e.2.level != 3 && parents.contains e.2.parent).map fun e => e.1 * 16384 + e.2.gen
/-- An instance and every instance below it that is not free: its counters and its launches (R304). -/
def family (s : State) (level id : Nat) : List Nat × List Nat :=
  if level == 0 then ([], [id])
  else
    let k1 := if level == 1 then [] else childCounters s [id]
    let k2 := if level == 2 then [] else childCounters s k1
    let cs := id :: (k1 ++ k2)
    (cs, (s.work.launches.filter fun e => e.2.st != 0 && cs.contains e.2.graph).map (·.1))
/-- The tokens that a cancellation broadcasts (R304): a phase of a job that has one in force already has no second. -/
def cancelTokens (s : State) (level id : Nat) (kill : Bool) : List Token :=
  if level == 3 then (childCounters s [id]).map fun p =>
    (s.work.tokens.find? fun t => t.level == 2 && t.id == p).getD { level := 2, id := p, kill := kill }
  else [{ level := level, id := id, kill := kill }]
/-- Instances marked CANCELLING in one step (R304). -/
def markFamily (s : State) (f : List Nat × List Nat) (kill : Bool) : State :=
  let s := f.1.foldl (fun s id =>
    let c := counterAt s id
    if c.st == 3 then s else putCounter s id { c with st := 3, killed := kill }) s
  f.2.foldl (fun s n =>
    let l := launchAt s n
    if l.st == 3 then s else putLaunch s n { l with st := 3, killed := kill }) s
/-- An instance cancelled: marked with its family, its tokens broadcast, and what is complete completed (R304). `none` when
the tokens do not fit. -/
def cancelInstance (s : State) (level id : Nat) (waiter : Option Tag) (kill : Bool) : Option State :=
  let ts := cancelTokens s level id kill
  let new := ts.filter fun t => !s.work.tokens.contains t
  if 256 < s.work.tokens.length + new.length then none
  else
    let f := family s level id
    let units := cancelUnits s
    let s := markFamily s f kill
    let s := { s with work.tokens := s.work.tokens ++ new
                      work.casts := s.work.casts ++ ts.map fun t => { token := t, toTake := units, left := units, waiter := waiter } }
    some (f.1.reverse.foldl settleCounter s)
/-- CANCEL (R317). -/
def execCancel (g : Guard) (d a : GReg) (s : State) : Host.Outcome State Fault Refusal :=
  run .strand g none (fun s => do
    let v := rG s a
    let (level, id) ← parseName v
    let (st, _, owner) := instanceAt s level id
    need (st == 0 || owner == curCtxh s) { cause := .protection, info0 := v }
    let now (s : State) (n : Nat) : Except Exc State := .ok (advance (wG s d (BitVec.ofNat 64 n)))
    match st with
    | 0 => now s 3
    | 3 => now s 2
    | _ => match cancelInstance s level id (some (curTag s)) false with
      | none => now s 0
      | some t =>
        if (cancelTokens s level id false).isEmpty || (cancelUnits s).isEmpty then now t 1
        else .ok (mapCtx (suspend t 1 .reply) fun c => { c with g := c.g.set d 1 })) s
/-- A waiter of a barrier leaves (R97, R320): what it left at the cell is settled by its acknowledgment. -/
def barAt (s : State) (tag : Tag) : Option BarWait := s.work.bars.find? fun b => b.tag == tag
/-- A pair whose record matches is stopped at its streams' next boundaries and goes IDLE (R249). -/
def cancelPair (s : State) (k : Nat) : State :=
  let p := pairAt s k
  if (p.st == 1 || p.st == 2) && filtered s (1024 + k) p.record then
    let halt (x : Stream) : Stream :=
      if x.st != 1 then x else if !x.busy && (!x.wait || x.rest) then { x with st := 4, wait := false } else { x with stop := true }
    settlePair (putPair s k { p with ended := true, staging := halt p.staging, compute := halt p.compute }) k
  else s
/-- CANCEL_TOKEN: a core, or the engines of a cluster, take token `n` of those broadcast (R103, R305, R249). -/
def execCancelToken (core n : Nat) (s : State) : Host.Outcome State Fault Refusal :=
  .next (confine s (match s.work.casts[n]? with
    | some b =>
      if b.toTake.contains core then
        let s := { s with work.casts := setAt s.work.casts n { b with toTake := b.toTake.filter (· != core) }
                          core.filter := tset [] s.core.filter core ((tget [] s.core.filter core).filter (· != b.token) ++ [b.token]) }
        if 1024 ≤ core then cancelPair s (core - 1024)
        else
          let s := (List.range 16).foldl (fun s i =>
            match strandAt s core i with
            | some t => if matchesToken t.record b.token then stopStrand s core i else s
            | none => s) s
          stopParked s core fun p => matchesToken p.record b.token
      else s
    | none => s))
/-- CANCEL_ACKNOWLEDGMENT: the home takes acknowledgment `n` of those on the way; with the last, the CANCEL replies (R305). -/
def execCancelAcknowledgment (n : Nat) (s : State) : Host.Outcome State Fault Refusal :=
  .next (confine s
    (match (s.work.casts.flatMap fun b => (b.left.filter fun u => !b.toTake.contains u).map fun u => (b, u))[n]? with
    | some (b, u) =>
      let b' := { b with left := b.left.filter (· != u) }
      if b'.left.isEmpty then
        let s := { s with work.casts := s.work.casts.erase b }
        match b.waiter with
        | some tag =>
          if s.work.casts.any fun c => c.waiter == b.waiter then s
          else match tagged s tag with
            | some t => sendReply s tag (.regs [] t.ctx.pts)
            | none => s
        | none => s
      else { s with work.casts := s.work.casts.map fun c => if c == b then b' else c }
    | none => s))
/-- A cluster's engines remove a token: the commands queued by then, which it stops as they are met, are marked (R224, R292, R304). -/
def rememberStop (s : State) (u : Nat) (t : Token) : State :=
  if u < 1024 then s
  else [false, true].foldl (fun s f =>
    let q := queueAt s (u - 1024) f
    putQueue s (u - 1024) f { q with cmds := q.cmds.map fun c =>
      if !c.own && c.stop == 0 && matchesToken c.record t then { c with stop := if t.kill then 4 else 3 } else c }) s
/-- CANCEL_RETIRE: a unit that has taken a retired token removes it; the last removal ends its being in force (R304). `n`
counts the removals on the way. -/
def execCancelRetire (n : Nat) (s : State) : Host.Outcome State Fault Refusal :=
  .next (confine s
    (match (s.work.retires.flatMap fun r => r.2.map fun u => (r, u))[n]? with
    | some (r, u) =>
      if s.work.casts.any fun b => b.token == r.1 && b.toTake.contains u then s
      else
        let s := rememberStop { s with core.filter := tset [] s.core.filter u ((tget [] s.core.filter u).filter (· != r.1)) } u r.1
        let left := r.2.filter (· != u)
        if left.isEmpty then { s with work.retires := s.work.retires.erase r, work.tokens := s.work.tokens.erase r.1 }
        else { s with work.retires := s.work.retires.map fun x => if x == r then (r.1, left) else x }
    | none => s))

/-! ### SPAWN and DECP (R298, R312 to R314) -/

/-- A cell pointer (R312): its core and offset. -/
def cellPtr (s : State) (p : Word) : Except Exc (Nat × Nat) := do
  let core := curCore s
  need (pScratch p && pZeroOk p && p.toNat % 64 == 0 && corePresent s (pCore core p)) (bad p)
  .ok (pCore core p, pOff p)
/-- The cell is the issuing core's own, or a window admits reading and writing it (R298, R100). -/
def cellOk (s : State) (core off : Nat) (p : Word) : Except Exc Unit :=
  need (winOk s core (curCore s) off 64 true true) { cause := .windowRefused, info0 := p, detail := 4 }
/-- The record that SPAWN reads, with its checks (R297, R313). -/
def spawnRec (bits : BitVec 256) : Except Exc Rec := do
  let r := recOf bits
  need (codeOk r.code.toNat) (bad (r.code.zeroExtend 64))
  need (decide (r.prio.toNat < 16)) (bad (r.prio.zeroExtend 64))
  need (decide (r.flags.toNat < 16)) (bad (r.flags.zeroExtend 64))
  .ok r
/-- The launch entry's checks on a child (R302, R313). -/
def checkChild (s : State) (r : Rec) (core : Nat) (cell : Word) : Except Exc Unit := do
  let l := launchAt s r.launch.toNat
  need (l.st != 0) (bad (r.launch.zeroExtend 64))
  need (l.ctxh == curCtxh s) { cause := .protection, info0 := r.launch.zeroExtend 64 }
  need (admits s l core) (bad cell)
/-- The launch entry counts a child (R302). -/
def addChild (s : State) (n : Nat) : State := putLaunch s n { launchAt s n with out := (launchAt s n).out + 1 }
/-- A record with the graph and phase of its launch (R313). -/
def ofLaunch (s : State) (r : Rec) : Rec :=
  { r with graph := BitVec.ofNat 32 (launchAt s r.launch.toNat).graph, phase := BitVec.ofNat 32 (launchAt s r.launch.toNat).phase }
/-- A cell's sector with COUNT, STATE and RECORD written (R298). -/
def armCell (old n : Nat) (r : Rec) : Nat :=
  old / 2 ^ 40 % 2 ^ 216 * 2 ^ 40 + n + 2 ^ 32 + (recBits r).toNat * 2 ^ 256
/-- The count that SPAWN adds and undoes: a "child ends" goes to the launch entry (R313), and nothing else is left of the SPAWN (R8). -/
def undoChild (s : State) (n : Nat) : State :=
  { addChild s n with work.ends := s.work.ends ++ [{ launch := n, ts := rPts s, cause := 0 }] }
/-- What SPAWN does at its cell (R298, R313). -/
def armAt (s t : State) (core coff : Nat) (cell : Word) (n : Nat) (r : Rec) : Except Exc State := do
  cellOk s core coff cell
  let r := { r with join := BitVec.ofNat 64 (3 * 2 ^ 60 + core * 2 ^ 48 + coff) }
  let (u, old, w) := spSwap t core coff 64 (rPts t) fun old => armCell old n r
  softCheck u
  need (old / 2 ^ 32 % 256 != 1) (bad cell)
  .ok (advance (wPts u w))
/-- SPAWN (R313). -/
def execSpawn (g : Guard) (d a : GReg) (b : Src) (s : State) : Host.Outcome State Fault Refusal :=
  run .strand g none (fun s => do
    let off ← ownPtr s (rG s d) 32
    let cell := rG s a
    let (core, coff) ← cellPtr s cell
    let (t, bytes, pts) := spLoad s (curCore s) off 32 (rPts s)
    softCheck t
    let r ← spawnRec (BitVec.ofNat 256 bytes)
    let n ← u32 (srcZ s b)
    checkChild s r core cell
    let r := ofLaunch s r
    let t := addChild (wPts t pts) r.launch.toNat
    if n == 0 then
      .ok (awaitRoom s.core.tickets (advance (pushRecord t core { r with join := 0 } pts)))
    else match armAt s t core coff cell n r with
      | .ok u => .ok u
      | .error e => .ok (raise e (undoChild s r.launch.toNat))) s
/-- DECP (R314). -/
def execDecp (g : Guard) (a : GReg) (b : Src) (s : State) : Host.Outcome State Fault Refusal :=
  run .strand g none (fun s => do
    let cell := rG s a
    let (core, coff) ← cellPtr s cell
    let k ← u32 (srcZ s b)
    need (k != 0) (bad 0)
    cellOk s core coff cell
    let old := memRead s.mem (scratchAt core coff) 64
    let count := old % 2 ^ 32
    let fired := k == count
    let (t, _, w) := spSwap s core coff 64 (rPts s) fun old => old - k + if fired then 2 ^ 32 else 0
    softCheck t
    need (old / 2 ^ 32 % 256 == 1 && decide (k ≤ count)) (bad cell)
    let t := advance (wPts t w)
    if fired then .ok (awaitRoom s.core.tickets (pushRecord t core (recOf (BitVec.ofNat 256 (old / 2 ^ 256))) w))
    else .ok t) s

/-! ### LAUNCH (R315, R316) -/

/-- A field of a launch descriptor: `n` bytes from an offset. -/
def descField (b off n : Nat) : Nat := b / 256 ^ off % 256 ^ n
/-- The present cores that a CMASK admits, in ascending order (R315). -/
def maskCores (s : State) (mask : Nat) : List Nat :=
  (List.range 1024).filter fun c => corePresent s c && mask.testBit (48 * dieOf c + unitOf c)
/-- The range that a handle of a descriptor names holds at least `n` bytes. -/
def rangeHolds (s : State) (h : Word) (n : Nat) : Bool := decide (n ≤ (rangeAt s (hKey h)).size)
/-- The checks of R315 at the issuing core in the order of the descriptor: its plain values, and by `check` its handles and by `stgt` its
stage table. -/
def checkFields (s : State) (check : List Nat → Word → Except Exc Unit) (stgt : Nat → Except Exc Unit) (b : Nat) : Except Exc Unit := do
  let f := descField b
  let no (v : Nat) : Exc := bad (BitVec.ofNat 64 v)
  let h (off : Nat) : Word := BitVec.ofNat 64 (f off 8)
  need (codeOk (f 0 4)) (no (f 0 4))
  need (decide (f 4 1 < 16)) (no (f 4 1))
  need (decide (f 5 1 < 2)) (no (f 5 1))
  need (f 6 2 != 0) (no 0)
  if h 0x18 == 0 then .ok () else check [7] (h 0x18)
  check [7] (h 0x20)
  let privsz := f 0x28 4
  need (privsz != 0 && privsz % 65536 == 0 && decide (privsz ≤ 2 ^ 24)) (no privsz)
  need (decide (64 ≤ f 0x2C 4) && decide (f 0x2C 4 ≤ 65536)) (no (f 0x2C 4))
  need (decide (1 ≤ f 0x30 1) && decide (f 0x30 1 ≤ 64)) (no (f 0x30 1))
  need (f 0x31 7 == 0) (no (f 0x31 7))
  check [0] (h 0x38)
  check [0] (h 0x40)
  need (decide (1 ≤ f 0x48 4) && decide (f 0x48 4 ≤ 65535)) (no (f 0x48 4))
  need (f 0x4C 4 == 0) (no (f 0x4C 4))
  need (!(maskCores s (f 0x50 24)).isEmpty) (no (f 0x50 8))
  stgt (f 0x68 8)
  need (f 0x70 16 == 0) (no (f 0x70 8))
/-- The pointer and the size of a descriptor's stage table (R315). -/
def checkStgt (s : State) (v : Nat) : Except Exc Unit :=
  if v == 0 then .ok () else do
    let o ← ownPtr s (BitVec.ofNat 64 (v % 2 ^ 61)) 8
    need (decide (o + 8 * (v / 2 ^ 61 + 1) ≤ 2 ^ 19)) (bad (BitVec.ofNat 64 v))
/-- The checks of a descriptor at the homes, in the order of its fields (R25, R315, R392): the graph is of the issuer's context. -/
def checkHomes (s : State) (b : Nat) : Except Exc Unit := do
  let h (off : Nat) : Word := BitVec.ofNat 64 (descField b off 8)
  let ctxh := curCtxh s
  let graph := descField b 0x14 4
  need (!counterLive s graph || (counterAt s graph).ctxh == ctxh) { cause := .protection, info0 := BitVec.ofNat 64 graph }
  need (!counterLive s graph || (counterAt s graph).level == 1) (bad (BitVec.ofNat 64 graph))
  if h 0x18 == 0 then .ok () else checkHome s ctxh (h 0x18)
  checkHome s ctxh (h 0x20)
  checkHome s ctxh (h 0x38)
  need (rangeHolds s (h 0x38) (descField b 0x28 4 * descField b 0x48 4)) (bad (h 0x38))
  checkHome s ctxh (h 0x40)
  need (rangeHolds s (h 0x40) (256 * descField b 0x48 4)) (bad (h 0x40))
/-- A stage table's entries, 8 bytes each, checked (R307). -/
def stageEntries : List Nat → Except Exc (List (Nat × Nat × Nat))
  | [] => .ok []
  | e :: es => do
    let hi := e % 65536
    let lo := e / 65536 % 65536
    need (decide (lo < hi) && decide (hi ≤ 4096) && e / 2 ^ 40 == 0) (bad (BitVec.ofNat 64 e))
    let r ← stageEntries es
    .ok ((hi, lo, e / 2 ^ 32 % 256) :: r)
/-- Clusters dealt to stages in ascending order, each taking its initial count (R307). -/
def dealStages : List (Nat × Nat × Nat) → List Nat → List Stage
  | [], _ => []
  | (hi, lo, n) :: es, cs => { hi := hi, lo := lo, clusters := cs.take n, queue := [] } :: dealStages es (cs.drop n)
/-- A free launch entry of a slice (log entry 7): the lowest, entry 0 last; one with a token in force is not issued. -/
def freeLaunch (s : State) (home : Nat) : Option Nat :=
  let base := (dieOf home * 16 + (home - 0xC0) % 16) * 1024
  (leastFrom (fun i => (launchAt s (base + i % 1024)).st == 0
      && !(s.work.tokens.any fun t => t.level == 0 && t.id == base + i % 1024)) 1 1024).map
    (base + · % 1024)
/-- The start records of a launch pushed in order (R316). -/
def pushStarts (s : State) (n b : Nat) (cores : List Nat) (pts : Nat) : State :=
  let l := launchAt s n
  let f := descField b
  (List.range (f 6 2)).foldl (fun s i =>
    match cores[i % cores.length]? with
    | some core =>
      pushRecord s core
        { code := BitVec.ofNat 32 (f 0 4), prio := BitVec.ofNat 8 (f 4 1), flags := BitVec.ofNat 8 (f 5 1), launch := BitVec.ofNat 16 n,
          frame := BitVec.ofNat 64 (f 8 8 + i * f 0x10 4), join := 0, graph := BitVec.ofNat 32 l.graph, phase := BitVec.ofNat 32 l.phase } pts
    | none => s) s
/-- A launch entry created from a descriptor's bytes, a child of its graph, and its start records pushed (R302, R315, R316).
`none` when the graph is not OPEN or no entry is free. -/
def createLaunch (s : State) (ctxh : Word) (b : Nat) (stages : List (Nat × Nat × Nat)) (bundle pts : Nat) : Option (State × Nat) :=
  let f := descField b
  let graph := f 0x14 4
  if !(counterLive s graph && (counterAt s graph).st == 1 && (counterAt s graph).level == 1) then none
  else match freeLaunch s (counterHome graph) with
    | none => none
    | some n =>
      let c := counterAt s graph
      let cores := maskCores s (f 0x50 24)
      let base (off : Nat) : Nat := (rangeAt s (hKey (BitVec.ofNat 64 (f off 8)))).base
      let l : Launch :=
        { st := 2, out := f 6 2, ctxh := ctxh, evq := BitVec.ofNat 64 (f 0x18 8), tq := BitVec.ofNat 64 (f 0x20 8), privsz := f 0x28 4,
          tl := f 0x2C 4, ll := f 0x30 1, fused := f 5 1 % 2 == 1, privb := base 0x38, imgb := base 0x40, rgn := f 0x48 4,
          cmask := f 0x50 24, graph := graph, phase := c.parent, bundle := bundle,
          stages := dealStages stages (cores.map clusterOf).eraseDups }
      let s := putLaunch (putCounter s graph { c with out := c.out + 1 }) n l
      some (pushStarts s n b cores pts, n)
/-- The 8-byte entries of a stage table read as scratchpad loads. -/
def readTable (s : State) (core : Nat) : Nat → Nat → Nat → State × List Nat × Nat
  | _, 0, pts => (s, [], pts)
  | off, n + 1, pts =>
    let r := spLoad s core off 8 pts
    let q := readTable r.1 core (off + 8) n r.2.2
    (q.1, r.2.1 :: q.2.1, q.2.2)
/-- The stage table of a descriptor, if it names one, read as scratchpad loads. -/
def loadTable (s : State) (core stgt pts : Nat) : State × List Nat × Nat :=
  if stgt == 0 then (s, [], pts) else readTable s core (stgt % 2 ^ 19) (stgt / 2 ^ 61 + 1) pts
/-- LAUNCH (R315, R316). -/
def execLaunch (g : Guard) (d a : GReg) (s : State) : Host.Outcome State Fault Refusal :=
  run .strand g none (fun s => do
    let off ← ownPtr s (rG s a) 64
    need (decide (off + 128 ≤ 2 ^ 19)) (bad (rG s a))
    let core := curCore s
    let (t, b, pts) := spLoads s core off 4 (rPts s)
    softCheck t
    checkFields s (checkHandle s) (checkStgt s) b
    let (t, table, pts) := loadTable t core (descField b 0x68 8) pts
    softCheck t
    let stages ← stageEntries table
    checkHomes s b
    let t := wPts t pts
    match createLaunch t (curCtxh s) b stages (curLaunch s).bundle pts with
    | some (u, n) => .ok (advance (wG u d (instanceName 0 n)))
    | none => .ok (advance (wG t d 0))) s

/-! ### Barriers (R319, R320) -/

/-- A field of a barrier cell: N, ARR, WAIT, PEND or PHASE. -/
def barField (b off : Nat) : Nat := b / 256 ^ off % 2 ^ 32
/-- A barrier cell's first 20 bytes from its fields, the rest kept. -/
def barWith (old arr wait pend phase : Nat) : Nat :=
  old / 2 ^ 160 * 2 ^ 160 + phase * 2 ^ 128 + pend % 2 ^ 32 * 2 ^ 96 + wait % 2 ^ 32 * 2 ^ 64 + arr % 2 ^ 32 * 2 ^ 32 + old % 2 ^ 32
/-- A strand waiting at the barrier is released at a timestamp: it is answered with its sense and its PTS (R320). The acknowledgment of one
that has left, or is gone, is counted by PEND from then on. -/
def releaseBar (core off w : Nat) (s : State) (b : BarWait) : State :=
  if b.core == core && b.off == off && b.released.isNone then
    let mark (k : Nat) : State := { s with work.bars := s.work.bars.map fun x => if x == b then { b with released := some k } else x }
    match b.left, tagged s b.tag with
    | false, some t =>
      let sense := t.ctx.g.get b.d
      sendReply (putStrand (mark t.lastIssue) b.tag.core b.tag.slot { t with wait := .reply }) b.tag (.regs [(b.d.val, 1 - sense)] (max t.ctx.pts w))
    | _, _ => mark 0
  else s
/-- BAR (R320). -/
def execBar (g : Guard) (d a : GReg) (s : State) : Host.Outcome State Fault Refusal :=
  run .strand g none (fun s => do
    let sense := rG s d
    need (decide (sense.toNat < 2)) (bad sense)
    let cell := rG s a
    let (core, off) ← cellPtr s cell
    cellOk s core off cell
    let old := memRead s.mem (scratchAt core off) 64
    let n := barField old 0
    let arr := barField old 4
    let wait := barField old 8
    let pend := barField old 12
    let phase := old / 2 ^ 128 % 2
    softCheck (spSwap s core off 64 (rPts s) id).1
    need (n != 0 && decide (arr < n) && sense.toNat == phase) (bad cell)
    if pend != 0 then .ok (suspend s 1 .held)
    else if arr + 1 == n then
      let (t, _, w) := spSwap s core off 64 (rPts s) fun old => barWith old 0 0 wait (old / 2 ^ 128 % 2 ^ 32 ^^^ 1)
      let t := s.work.bars.foldl (releaseBar core off w) t
      .ok (advance (wG (wPts t w) d (1 - sense)))
    else
      let (t, _, w) := spSwap s core off 64 (rPts s) fun old => barWith old (arr + 1) (wait + 1) 0 (old / 2 ^ 128 % 2 ^ 32)
      let t := { t with work.bars := t.work.bars ++ [{ core := core, off := off, tag := curTag s, d := d, released := none }] }
      .ok (suspend (wPts t w) 1 (.barrier core off))) s
/-- A barrier waiter's core sends its acknowledgment: the strand has issued since its release, or is gone, or its launch is
stopped (R320). -/
def barLeaves (s : State) (b : BarWait) : Bool :=
  b.left || match tagged s b.tag with
  | none => true
  | some t => match b.released with
    | some k => t.lastIssue != k || (launchAt s t.record.launch.toNat).halted
    | none => false
/-- BARRIER_ACK: a barrier's arbiter takes an acknowledgment: PEND less one, or WAIT for a waiter that left before its
release (R320). -/
def execBarrierAck (n : Nat) (s : State) : Host.Outcome State Fault Refusal :=
  .next (confine s (match s.work.bars[n]? with
    | some b =>
      if barLeaves s b then
        let f (old : Nat) : Nat :=
          let k := if b.released.isSome then 2 ^ 96 else 2 ^ 64
          if old / k % 2 ^ 32 == 0 then old else old - k
        let (t, _, _) := spSwap s b.core b.off 64 0 f
        { t with work.bars := dropAt t.work.bars n }
      else s
    | none => s))

end Sys2Proof.Machine
end

