-- ==== Sys2Proof/Machine/Elements.lean ====
section
/-! DEFINITION. Element formats (R80, R185), the written results of R186 to R188, and the functions of R204 and R206. -/

namespace Sys2Proof.Machine
open Sys2Proof

/-! ### Formats (R80, R185, R217) -/

/-- A float format of the vector unit: FP32, BF16, E4M3, E5M2. -/
def floatFmt (f : Nat) : Bool := 1 ≤ f && f ≤ 4
/-- INT8 or UINT8. -/
def intFmt (f : Nat) : Bool := f == 8 || f == 9
/-- A format of R185. -/
def anyFmt (f : Nat) : Bool := f == 0 || floatFmt f || intFmt f
/-- The layout of a float format. -/
def fmtOf (f : Nat) : FFmt :=
  match f with
  | 1 => f32 | 2 => bf16 | 3 => e4m3 | 4 => e5m2 | 5 => e3m2 | 6 => e2m3 | _ => e2m1
/-- The element size z (R185, R217). -/
def fmtSize (f : Nat) : Nat :=
  match f with
  | 1 => 4 | 2 => 2 | _ => 1
/-- The lanes of one beat for an element size (R185). -/
def lanes (z : Nat) : Nat := 128 / z
/-- The value of an integer element. -/
def intVal (f b : Nat) : Int := if f == 8 && 128 ≤ b % 256 then (b % 256 : Int) - 256 else b % 256
/-- The range of an integer format. -/
def intLo (f : Nat) : Int := if f == 8 then -128 else 0
/-- The top of the range of an integer format. -/
def intHi (f : Nat) : Int := if f == 8 then 127 else 255
/-- The value of a float element. -/
def floatVal (f b : Nat) : FVal := (fmtOf f).unpack b

/-! ### Results (R186 to R188) -/

/-- VSTAT's SAT bit (R189). -/
def flSAT : Nat := 32
/-- wr of R186: the element's bits and the flags, SAT among them. -/
def wr (f : Nat) (m : RMode) (sat : Bool) (x : FVal × Nat) : Nat × Nat :=
  let q := fmtOf f
  match x.1 with
  | .nan _ => (q.nanCode, x.2)
  | .inf n =>
    if sat then (q.sign n + q.maxCode, x.2 ||| flSAT)
    else if q.spec == 1 then (q.nanCode, x.2 ||| flNV)
    else (q.sign n + q.infCode, x.2)
  | .fin n 0 _ => (q.sign n, x.2)
  | .fin n mag e =>
    let r := q.rnd m n mag e
    if sat && q.spec == 0 && r.1 == q.sign n + q.infCode then (q.sign n + q.maxCode, x.2 ||| r.2 ||| flSAT) else (r.1, x.2 ||| r.2)
/-- The exact result is finite and not zero (R188). -/
def FVal.counts : FVal → Bool
  | .fin _ m _ => m != 0
  | _ => false
/-- The element written counts for ZCNT (R188): ±0 in E4M3 or E5M2 for a result that is not. -/
def zeroed (f bits : Nat) (nonzero : Bool) : Nat := if (f == 3 || f == 4) && bits % 128 == 0 && nonzero then 1 else 0
/-- A float result written: bits, flags, count. -/
def putFloat (f : Nat) (m : RMode) (sat : Bool) (x : FVal × Nat) : Nat × Nat × Nat :=
  let r := wr f m sat x
  (r.1, r.2, zeroed f r.1 x.1.counts)
/-- An integer result written (R187): bits, flags, count. -/
def putInt (f : Nat) (sat : Bool) (x : Int) : Nat × Nat × Nat :=
  if sat && x < intLo f then ((intLo f % 256).toNat, flSAT, 0)
  else if sat && intHi f < x then ((intHi f % 256).toNat, flSAT, 0)
  else ((x % 256).toNat, 0, 0)
/-- One rounding to FP32, to nearest even, of a value: bits and flags. -/
def rn32 (x : FVal × Nat) : Nat × Nat := f32.finish .rne x
/-- The value of one rounding to FP32. -/
def rnVal (x : FVal × Nat) : FVal := f32.unpack (rn32 x).1
/-- An element widened to FP32; a NaN keeps its sign and payload (DESIGN CHOICE, log entry 50: R207 gives no NaN). -/
def widen (f b : Nat) : Nat :=
  match f with
  | 1 => b
  | 2 => b * 65536
  | 3 => if b % 128 == 127 then b / 128 * 2 ^ 31 + 0x7FF00000 else (rn32 (e4m3.unpack b, 0)).1
  | _ => if 124 < b % 128 then b / 128 * 2 ^ 31 + 0x7F800000 + b % 4 * 2 ^ 21 else (rn32 (e5m2.unpack b, 0)).1

/-! ### VEXP (R204) -/

/-- 2^(1/2^i) scaled by 2^128. -/
def rootTwo : Nat → Nat
  | 0 => 2 ^ 129
  | i + 1 => isqrt (rootTwo i * 2 ^ 128)
/-- 2^(j/256) scaled by 2^128, by the bits of j from bit 7 down: `i` is the number of bits done. -/
def powTwo (j : Nat) : Nat → Nat → Nat
  | 0, acc => acc
  | n + 1, acc => powTwo j n (if j.testBit n then acc * rootTwo (8 - n) / 2 ^ 128 else acc)
/-- T256[j], and T16[j] = T256[16j]: 2^(j/256) rounded to FP32 (R204). -/
def expTable (j : Nat) : FVal :=
  if j == 0 then .fin false 1 0 else rnVal (.fin false (2 * powTwo j 8 (2 ^ 128) + 1) (-129), 0)
/-- VEXP of an FP32 value (R204): FP32 bits, flags, and whether the exact result is finite and not zero. `poly` names the
polynomial path. -/
def vexp (poly : Bool) (x : FVal) : Nat × Nat × Bool :=
  match x with
  | .nan s => (f32.nanCode, sigFlag s, false)
  | .inf n => (if n then 0 else f32.infCode, 0, false)
  | .fin _ _ _ =>
    if 0 < fCmp x (.fin false 89 0) then (f32.infCode, flOF + flNX, true)
    else if fCmp x (.fin true 104 0) < 0 then (0, flUF + flNX, true)
    else
      let c (b : Nat) : FVal := f32.unpack b
      let b : Int := if poly then 16 else 256
      let z := rnVal (fMul x (c (if poly then 0x41B8AA3B else 0x43B8AA3B)))
      let k : Int := match z with
        | .fin n m e => (roundInt .rne n m e).1
        | _ => 0
      let j := (k % b).toNat
      let q := (k - j) / b
      let mk := FVal.ofInt (-k)
      let fma (a b c : FVal) : FVal := rnVal (fFma .rne a b c)
      let t := fma mk (c (if poly then 0x3D317200 else 0x3B317200)) x
      let r := fma mk (c (if poly then 0x33BFBE8E else 0x31BFBE8E)) t
      let v := if poly then fma (fma (c 0x3E2AAAAB) r (c 0x3F000000)) r (c 0x3F800000) else fma (c 0x3F000000) r (c 0x3F800000)
      let v := rnVal (fMul v r)
      let tb := expTable (if poly then 16 * j else j)
      match fma tb v tb with
      | .fin n m e => let y := rn32 (.fin n m (e + q), 0); (y.1, y.2, true)
      | y => ((rn32 (y, 0)).1, 0, true)

/-! ### VLOG, VRSQ, VRCP (R206) -/

/-- The series of 2·atanh z, z scaled by 2^240: the terms from z^(2i+1)/(2i+1) on, `p` the power reached. -/
def atanhSum (z2 : Int) : Nat → Nat → Int → Int
  | 0, _, _ => 0
  | n + 1, i, p => p / (2 * i + 1 : Nat) + atanhSum z2 n (i + 1) (p * z2 / 2 ^ 240)
/-- ln of a ratio a/b of positive numbers near 1, scaled by 2^240. -/
def lnRatio (a b : Int) (terms : Nat) : Int :=
  let z := (a - b) * 2 ^ 240 / (a + b)
  2 * atanhSum (z * z / 2 ^ 240) terms 0 z
/-- ln of a positive value m·2^e that is not 1, to 200 bits and more: the result is irrational, so its last bit is 1. -/
def lnMag (m : Nat) (e : Int) : FVal :=
  let l := bitLen m
  -- m·2^e = y·2^k with y from 3/4 to 3/2
  let up := decide (3 * 2 ^ (l - 2) ≤ m) && decide (2 ≤ l)
  let k : Int := (if up then (l : Int) else l - 1) + e
  let y := lnRatio m (if up then 2 ^ l else 2 ^ (l - 1)) 60
  let v := y + k * lnRatio 2 1 90
  .fin (decide (v < 0)) (2 * v.natAbs + 1) (-241)
/-- VLOG: ln a (R206). -/
def fLog : FVal → FVal × Nat
  | .nan s => (.nan false, sigFlag s)
  | .inf n => if n then (.nan false, flNV) else (.inf false, 0)
  | .fin n m e =>
    if m == 0 then (.inf true, flDZ)
    else if n then (.nan false, flNV)
    else if fCmp (.fin false m e) (.fin false 1 0) == 0 then (.fin false 0 0, 0)
    else (lnMag m e, 0)
/-- VRSQ: 1/√a (R206). -/
def fRsq : FVal → FVal × Nat
  | .nan s => (.nan false, sigFlag s)
  | .inf n => if n then (.nan false, flNV) else (.fin false 0 0, 0)
  | .fin n m e =>
    if m == 0 then (.inf n, flDZ)
    else if n then (.nan false, flNV)
    else
      let odd := e % 2 != 0
      let m' := if odd then 2 * m else m
      let e' := (if odd then e - 1 else e) / 2
      let t := 2 ^ 400 / m'
      let r := isqrt t
      (.fin false (2 * r + (if r * r == t && t * m' == 2 ^ 400 then 0 else 1)) (-201 - e'), 0)
/-- VRCP: 1/a (R206). -/
def fRcp (a : FVal) : FVal × Nat := fDiv (.fin false 1 0) a

end Sys2Proof.Machine
end

