-- ==== Sys2Proof/Machine/Vector.lean ====
section
/-! DEFINITION. Shape records (R181 to R183, R199) and the vector instructions (R184 to R210). -/

namespace Sys2Proof.Machine
open Sys2Proof

/-! ### Shape records (R181 to R184) -/

/-- The value of a signed field of `n` bits. -/
def signedField (v n : Nat) : Int := if 2 ^ (n - 1) ≤ v % 2 ^ n then (v % 2 ^ n : Int) - 2 ^ n else v % 2 ^ n
/-- The record that 32 bytes make; the format is that of its bank, or its own for a channel shape (R181, R185). -/
def shapeOf (s : State) (core : Nat) (ptr : Word) (b : Nat) : Shape :=
  let f (off n : Nat) : Nat := b / 256 ^ off % 256 ^ n
  let ch := f 0x1A 2 % 2 == 1
  { ptr := ptr, base := f 0 8, e0 := f 8 2, e1 := f 10 2, e2 := f 12 2, e3 := f 14 2, s1 := signedField (f 0x10 3) 24,
    s2 := signedField (f 0x13 3) 24, s3 := signedField (f 0x16 3) 24, flags := f 0x1A 2, spare := f 0x19 1 != 0 || f 0x1C 4 != 0,
    fmt := if ch then f 0x1A 2 / 16 % 16 else bfmtOf s core (f 0 8 / 2 ^ 15 % 16) }
/-- FLAGS.CH. -/
def Shape.ch (x : Shape) : Bool := x.flags % 2 == 1
/-- The element count N (R182). -/
def Shape.count (x : Shape) : Nat := x.e0 * x.e1 * x.e2 * x.e3
/-- The element size. -/
def Shape.size (x : Shape) : Nat := fmtSize x.fmt
/-- The element offset of a linear index (R182). -/
def Shape.offset (x : Shape) (n : Nat) : Int :=
  let i0 := n % x.e0
  let i1 := n / x.e0 % x.e1
  let i2 := n / (x.e0 * x.e1) % x.e2
  let i3 := n / (x.e0 * x.e1 * x.e2)
  i0 + x.s1 * i1 + x.s2 * i2 + x.s3 * i3
/-- The scratchpad offset of an element, for elements of `z` bytes (R182). -/
def Shape.addr (x : Shape) (z n : Nat) : Nat := ((x.base : Int) + x.offset n * z).toNat % 2 ^ 19
/-- Reserved bytes and bits are 0, and BASE is a scratchpad place (R183 step 3). -/
def Shape.zeroOk (x : Shape) : Bool :=
  !x.spare && x.flags / 2 % 8 == 0 && decide (x.flags < 256) && (x.ch || decide (x.base < 2 ^ 19))
/-- Every element of `z` bytes lies wholly in the bank, at an aligned base (R183 step 7, R256). -/
def Shape.inBank (x : Shape) (align z : Nat) : Bool :=
  let b : Int := (x.base % 2 ^ 15 : Nat)
  let lo (s : Int) (e : Nat) : Int := min 0 (s * ((e : Int) - 1))
  let hi (s : Int) (e : Nat) : Int := max 0 (s * ((e : Int) - 1))
  let least := lo x.s1 x.e1 + lo x.s2 x.e2 + lo x.s3 x.e3
  let most := ((x.e0 : Int) - 1) + hi x.s1 x.e1 + hi x.s2 x.e2 + hi x.s3 x.e3
  x.base % 2 ^ 15 % align == 0 &&
    (x.count == 0 || (decide (0 ≤ b + least * z) && decide (b + most * z ≤ 32768 - z)))
/-- The offset of a record pointer: own scratchpad and 32-byte aligned (R183 step 1). -/
def recPtr (s : State) (p : Word) : Except Exc Nat := ownPtr s p 32
/-- The records of some pointers read in order, one 32-byte load each (R183 step 2). -/
def readShapes (s : State) : List Word → State × List Shape
  | [] => (s, [])
  | p :: ps =>
    let core := curCore s
    let r := spLoad s core (pOff p) 32 (rPts s)
    let sh := shapeOf s core p r.2.1
    let q := readShapes (wPts r.1 r.2.2) ps
    (q.1, sh :: q.2)

/-! ### Checks (R183, R185, R194, R198) -/

/-- Which formats a form takes (R198). -/
inductive FormRule where
  | anyEq | floats | floatsOrInt | one | bits | numbers | cmp (cc : FCond)
  deriving DecidableEq, Repr
/-- All the formats are float, or all are the same integer format. -/
def floatsOrOneInt (fs : List Nat) : Bool := fs.all floatFmt || (fs.all intFmt && fs.all fun f => some f == fs.head?)
/-- The formats of the shape operands so far, in the order D, A, B, keep the rule (R198). -/
def formOk : FormRule → List Nat → Bool
  | .anyEq, fs => fs.all anyFmt && fs.all fun f => (fs.head?).any fun g => fmtSize f == fmtSize g
  | .floats, fs => fs.all floatFmt
  | .floatsOrInt, fs => floatsOrOneInt fs
  | .one, fs => fs.all anyFmt && fs.all fun f => some f == fs.head?
  | .bits, fs => fs.all (fun f => f == 0 || intFmt f) && fs.all fun f => some f == fs.head?
  | .numbers, fs => fs.all fun f => floatFmt f || intFmt f
  | .cmp cc, fs => (fs.take 1).all (fun f => floatFmt f || intFmt f) && floatsOrOneInt (fs.drop 1)
      && ((fs.drop 1).all floatFmt || !(cc == .un || cc == .or))
/-- The first shape whose format, with those before it, breaks the rule (R183 step 5). -/
def formFault (r : FormRule) : List Nat → List Shape → Option Shape
  | _, [] => none
  | fs, x :: xs => if formOk r (fs ++ [x.fmt]) then formFault r (fs ++ [x.fmt]) xs else some x
/-- Where a channel shape may stand (R194). -/
structure ChanRule where
  src : Bool := false
  dst : Bool := false
  deriving DecidableEq, Repr
/-- The 32-byte messages of a channel shape, when its byte count is one (R194). -/
def Shape.messages (x : Shape) : Option Nat :=
  let n := x.count * x.size
  if n % 32 == 0 && 1 ≤ n / 32 && n / 32 ≤ 8 then some (n / 32) else none
/-- A shape's BAD_OPERAND (R183). -/
def Shape.bad (x : Shape) : Exc := { cause := .badOperand, info0 := x.ptr }
/-- The first of a list that does not satisfy a condition is offending. -/
def needAll (xs : List Shape) (ok : Shape → Bool) : Except Exc Unit :=
  match xs.find? fun x => !ok x with
  | some x => .error x.bad
  | none => .ok ()
/-- Steps 3 to 7 of R183 on the operands in the order D, A, B: `dst` says that the first is a destination, `src` which
operand is source A. Of a transposition's two records that do not fit each other, the offending one is A's (DESIGN CHOICE, log entry 43); of
several that fail step 3, 4, 6 or 7 it is the first, and of two channel shapes the later one (DESIGN CHOICE, log entry 50). -/
def checkShapes (xs : List Shape) (hasD : Bool) (rule : FormRule) (chan : ChanRule) (trn : Bool) : Except Exc Unit := do
  needAll xs Shape.zeroOk
  let pos (i : Nat) : Bool := if hasD then (i == 0 && chan.dst) || (i == 1 && chan.src) else i == 0 && chan.src
  let chans := (List.range xs.length).filterMap fun i => (xs[i]?).bind fun x => if x.ch then some (i, x) else none
  let bad1 := chans.find? fun c => !pos c.1 || c.2.s1 != 0 || c.2.s2 != 0 || c.2.s3 != 0
  match bad1.or ((chans.drop 1).head?) with
  | some c => .error c.2.bad
  | none => .ok ()
  match formFault rule [] xs with
  | some x => .error x.bad
  | none => .ok ()
  let n := match xs with
    | x :: _ => x.count
    | [] => 0
  needAll xs fun x => x.count == n || (x.count == 1 && some x != (if hasD then xs.head? else none))
  needAll xs fun x => !x.ch || x.messages.isSome
  match trn, xs with
  | true, [d, a] => need (d.e0 == a.e1 && d.e1 == a.e0 && d.e2 == a.e2 && d.e3 == a.e3) a.bad
  | _, _ => .ok ()
  needAll xs fun x => x.ch || x.inBank x.size x.size

/-! ### Channels (R194 to R196) -/

/-- A source of elements: a shape in scratchpad, or the bytes of messages taken from a channel. -/
inductive VSrc where
  | absent
  | shape (x : Shape)
  | bytes (v z n : Nat)
  deriving DecidableEq, Repr
/-- The number of elements a source has. -/
def VSrc.count : VSrc → Nat
  | .absent => 1
  | .shape x => x.count
  | .bytes _ _ n => n
/-- The elements of a source that a beat reads from memory: a single element once (R191). -/
def VSrc.reads (x : VSrc) (ns : List Nat) : List Nat :=
  match x with
  | .shape sh => if sh.count == 1 then (ns.take 1).map fun _ => 0 else ns
  | _ => []
/-- A buffer without the first `k` of its messages that satisfy `p`. -/
def dropFirst (p : Msg → Bool) : Nat → List Msg → List Msg
  | 0, l => l
  | _, [] => []
  | k + 1, m :: ms => if p m then dropFirst p k ms else m :: dropFirst p (k + 1) ms
/-- The `k` oldest messages of a route that the core's channel buffer holds for the acting strand are taken in one step, once it holds
`k`; then waiting input is admitted (R172, R195). -/
def takeChannels (h : Word) (k : Nat) (s : State) : Option (State × List Msg) :=
  let core := curCore s
  let buf := tget [] s.core.chan core
  let held := heldFor buf h (tagBits (curTag s))
  if k ≤ held.length then
    let rest := dropFirst (fun m => m.route == h && m.dtag == tagBits (curTag s)) k buf
    some ((held.take k).foldl returnCredit (serveInput { s with core.chan := tset [] s.core.chan core rest } core), held.take k)
  else none
/-- The `k` oldest records of an event queue are taken by a request that does not wait (R195). -/
def takeEvqs (s : State) (key k : Nat) : Option (State × List Msg) :=
  let q := evqAt s key
  if q.blocked.isEmpty && k ≤ q.recs.length then
    let q' : Evq := { q with recs := q.recs.drop k }
    let t := serveEvq (putEvq s key q') key (k + evqFuel q')
    some ((q.recs.take k).foldl returnCredit t, q.recs.take k)
  else none
/-- The messages taken: the PTS follows their timestamps and the counts of R110 their routes (R46, R195). -/
def gotMsgs (s : State) (ms : List Msg) : State :=
  let s := ms.foldl (fun s m => if ownRoute m.route then countReceived s (curCore s) m.route else s) s
  wPts s (ms.foldl (fun p m => max p m.ts) (rPts s))
/-- The acting strand blocked until `k` messages of a queue or route can be taken (R195). -/
def blockOn (s : State) (h : Word) (k : Nat) : State :=
  let t := takeNone s 0 h true
  match t.cur with
  | .strand c i => mapStrand t c i fun t => { t with want := k }
  | _ => t
/-- A channel source's messages taken, or the strand blocked (`none`) (R195). -/
def takeSource (s : State) (x : Shape) (k : Nat) : Except Exc (State × Option (List Msg)) := do
  let h : Word := BitVec.ofNat 64 x.base
  checkHandle s [2, 7] h
  let got := curGot s h
  if !got.isEmpty then .ok (got.foldl returnCredit (clearGot s), some got)
  else if hKind h == 7 then do
    checkHome s (curCtxh s) h
    match takeEvqs s (hKey h) k with
    | some (t, ms) => .ok (t, some ms)
    | none =>
      let q := evqAt s (hKey h)
      .ok (blockOn (putEvq s (hKey h) { q with blocked := q.blocked ++ [curWaiter s k] }) h k, none)
  else do
    checkIndex h
    let rt := routeAt s h
    if !liveHandle s h then
      match takeChannels h k s with
      | some (t, ms) => .ok (t, some ms)
      | none => .error (hExc .lapsed h)
    else do
      need ((lifeOf s (hKey h)).owner == curCtxh s) (hExc .protection h)
      need (rt.dtype == 0 && rt.peer == 0 && rt.dtag == tagBits (curTag s)) (hExc .badOperand h)
      match takeChannels h k s with
      | some (t, ms) => .ok (t, some ms)
      | none => .ok (blockOn s h k, none)
/-- The bytes of messages in their order, as one number. -/
def msgBytes : List Msg → Nat
  | [] => 0
  | m :: ms => m.bytes.toNat + 2 ^ 256 * msgBytes ms

/-! ### Beats (R190, R191) -/

/-- An element of a source read. -/
def readElem (core : Nat) (x : VSrc) (n : Nat) (s : State × Nat) : (State × Nat) × Nat :=
  match x with
  | .absent => (s, 0)
  | .bytes v z _ => (s, v / 256 ^ (n * z) % 256 ^ z)
  | .shape sh =>
    let r := spLoad s.1 core (sh.addr sh.size n) sh.size s.2
    ((r.1, r.2.2), r.2.1)
/-- The elements of a beat read in ascending order; a single element is read once (R191). -/
def readBeat (core : Nat) (x : VSrc) (ns : List Nat) (s : State × Nat) : (State × Nat) × List Nat :=
  if x.count == 1 then
    match ns with
    | [] => (s, [])
    | _ :: _ =>
      let r := readElem core x 0 s
      (r.1, ns.map fun _ => r.2)
  else go ns s
where
  /-- The elements of a list of indices, in order. -/
  go : List Nat → State × Nat → (State × Nat) × List Nat
    | [], s => (s, [])
    | n :: ns, s =>
      let r := readElem core x n s
      let q := go ns r.1
      (q.1, r.2 :: q.2)
/-- The elements of a beat written in ascending order to a shape in scratchpad. -/
def writeBeat (core : Nat) (d : Shape) : List (Nat × Nat) → State × Nat → State × Nat
  | [], s => s
  | (n, v) :: r, s =>
    let t := spStore s.1 core (d.addr d.size n) d.size s.2 v
    writeBeat core d r (t.1, t.2)
/-- An element with its index and operands: n, a, b, d. -/
abbrev Elem := Nat × Nat × Nat × Nat
/-- The lists of a beat put together. -/
def zipElems : List Nat → List Nat → List Nat → List Nat → List Elem
  | n :: ns, a :: as_, b :: bs, d :: ds => (n, a, b, d) :: zipElems ns as_ bs ds
  | _, _, _, _ => []
/-- What a vector instruction has done so far: the state and timestamp, flags and count for VSTAT, and the elements made for
a channel destination or a scalar. -/
structure VAcc where
  s : State
  pts : Nat
  fl : Nat := 0
  zeros : Nat := 0
  out : List Nat := []
  acc : Option (FVal × FVal × Int) := none
/-- How an element is made: from the running value and the operands to the running value, bits, flags and count. -/
abbrev ElemFn := Option (FVal × FVal × Int) → Elem → Option (FVal × FVal × Int) × Nat × Nat × Nat
/-- The elements of a beat computed in ascending order. -/
def computeBeat (f : ElemFn) :
    List Elem → Option (FVal × FVal × Int) → Option (FVal × FVal × Int) × List (Nat × Nat) × Nat × Nat
  | [], acc => (acc, [], 0, 0)
  | e :: es, acc =>
    let r := f acc e
    let q := computeBeat f es r.1
    (q.1, (e.1, r.2.1) :: q.2.1, r.2.2.1 ||| q.2.2.1, r.2.2.2 + q.2.2.2)
/-- One beat (R190, R191). -/
def beat (core : Nat) (a b d : VSrc) (dst : Option Shape) (f : ElemFn) (x : VAcc) (ns : List Nat) : VAcc :=
  let ra := readBeat core a ns (x.s, x.pts)
  let rb := readBeat core b ns ra.1
  let rd := readBeat core d ns rb.1
  let c := computeBeat f (zipElems ns ra.2 rb.2 rd.2) x.acc
  let w := match dst with
    | some sh => writeBeat core sh c.2.1 rd.1
    | none => rd.1
  { s := w.1, pts := w.2, fl := x.fl ||| c.2.2.1, zeros := x.zeros + c.2.2.2,
    out := if dst.isNone then x.out ++ c.2.1.map (·.2) else x.out, acc := c.1 }
/-- The linear indices of the beats of `n` elements, `l` lanes a beat. -/
def beats (n l : Nat) : List (List Nat) :=
  (List.range ((n + l - 1) / l)).map fun j => (List.range (min l (n - j * l))).map (j * l + ·)
/-- The elements of a channel destination packed into messages (R194). -/
def packMsgs (z : Nat) (vs : List Nat) : List (BitVec 256) :=
  let total := ofBytes (vs.flatMap fun v => toBytes z v)
  (List.range (vs.length * z / 32)).map fun i => BitVec.ofNat 256 (total / 2 ^ (256 * i))

/-! ### The frame of a vector instruction -/

/-- What a form needs besides its element function. -/
structure VForm where
  hasD : Bool := true
  readsD : Bool := false
  rule : FormRule
  chan : ChanRule := {}
  trn : Bool := false
  scalar : List Shape → Except Exc Unit := fun _ => .ok ()
/-- A destination element's source index in a transposition (R210). -/
def trnIndex (d : Shape) (n : Nat) : Nat :=
  let i0 := n % d.e0
  let i1 := n / d.e0 % d.e1
  n / (d.e0 * d.e1) * (d.e0 * d.e1) + i1 + d.e1 * i0
/-- The messages of a form's channel source, if it has one, taken (R195): their bytes, or `none` when the strand is blocked. -/
def channelBytes (s : State) (src : List Shape) : Except Exc (State × Option Nat) :=
  match src.find? Shape.ch with
  | none => .ok (s, some 0)
  | some c => do
    let (t, ms) ← takeSource s c (c.messages.getD 0)
    match ms with
    | none => .ok (t, none)
    | some ms => .ok (gotMsgs t ms, some (msgBytes ms))
/-- What follows the beats: VSTAT and the PTS, or the request of a channel destination for its credits (R189, R196). -/
def vfinish (dst : Option Shape) (write : State → VAcc → State) (x : VAcc) : State :=
  match dst with
  | some d =>
    if d.ch then submitHold (wPts x.s x.pts) (.send (BitVec.ofNat 64 d.base) (packMsgs d.size x.out) x.fl x.zeros)
    else advance (write (wPts (raiseVstat x.s (curCore x.s) x.fl x.zeros) x.pts) x)
  | none => advance (write (wPts (raiseVstat x.s (curCore x.s) x.fl x.zeros) x.pts) x)
/-- The destination record of a form. -/
def VForm.dst (vf : VForm) (xs : List Shape) : Option Shape := if vf.hasD then xs.head? else none
/-- The sources A, B and D of a form whose channel source has given some bytes. -/
def VForm.sources (vf : VForm) (xs : List Shape) (msgs : Nat) : VSrc × VSrc × VSrc :=
  let src := (if vf.hasD then xs.drop 1 else xs).map fun x => if x.ch then VSrc.bytes msgs x.size x.count else .shape x
  (src[0]?.getD .absent, src[1]?.getD .absent, match vf.readsD, vf.dst xs with
    | true, some d => .shape d
    | _, _ => .absent)
/-- The beats of a form's elements (R190). -/
def vbeats (xs : List Shape) : List (List Nat) := beats ((xs.head?.map Shape.count).getD 0) (lanes (xs.foldl (fun z x => max z x.size) 1))
/-- One beat of a form with all its accesses (R190, R191, R210). -/
def vbeat (core : Nat) (vf : VForm) (f : ElemFn) (xs : List Shape) (msgs : Nat) (x : VAcc) (ns : List Nat) : VAcc :=
  let (a, b, d) := vf.sources xs msgs
  match vf.trn, vf.dst xs with
  | true, some d =>
    let ra := readBeat.go core a (ns.map (trnIndex d)) (x.s, x.pts)
    let w := writeBeat core d (ns.zip ra.2) ra.1
    { x with s := w.1, pts := w.2 }
  | _, dst => beat core a b d (dst.filter fun d => !d.ch) f x ns
/-- The vector instruction that the acting strand has in progress. -/
def curProg (s : State) : Option VProg :=
  match s.cur with
  | .strand c i => (strandAt s c i).bind (·.prog)
  | _ => none
/-- The state with the acting strand's vector instruction in progress set. -/
def setProg (s : State) (p : Option VProg) : State :=
  match s.cur with
  | .strand c i => mapStrand s c i fun t => { t with prog := p }
  | _ => s
/-- EXPR as it stood at issue (R192). -/
def issueExpr (s : State) : Word :=
  match curProg s with
  | some p => p.expr
  | none => exprOf s (curCore s)
/-- The reads of a beat in order, each of a source's element (R191). -/
def beatReads (vf : VForm) (xs : List Shape) (msgs : Nat) (ns : List Nat) : List (VSrc × Nat) :=
  let (a, b, d) := vf.sources xs msgs
  match vf.trn, vf.dst xs with
  | true, some d => ns.map fun n => (a, trnIndex d n)
  | _, _ => [a, b, d].flatMap fun x => (x.reads ns).map (x, ·)
/-- What a beat makes of the values it has read: its elements with their indices, flags and count, and the running value. -/
def beatMakes (vf : VForm) (f : ElemFn) (xs : List Shape) (msgs : Nat) (ns : List Nat) (p : VProg) :
    Option (FVal × FVal × Int) × List (Nat × Nat) × Nat × Nat :=
  let (a, b, d) := vf.sources xs msgs
  let width (x : VSrc) : Nat := (x.reads ns).length
  let all (x : VSrc) (vs : List Nat) : List Nat :=
    match x with
    | .absent => ns.map fun _ => 0
    | .bytes v z n => ns.map fun k => v / 256 ^ ((if n == 1 then 0 else k) * z) % 256 ^ z
    | .shape sh => if sh.count == 1 then ns.map fun _ => vs.headD 0 else vs.take ns.length
  if vf.trn then (p.acc, ns.zip p.vals, 0, 0)
  else
    let bs := p.vals.drop (width a)
    computeBeat f (zipElems ns (all a p.vals) (all b bs) (all d (bs.drop (width b)))) p.acc
/-- A slot has beats pending (R190). -/
def beatPending (s : State) (core slot : Nat) : Bool :=
  (strandAt s core slot).any fun t => t.st == 1 && t.wait == .beats && t.prog.any fun p => decide (p.beat < (vbeats p.xs).length)
/-- A slot's beat has begun: its other accesses come before another slot's beat. -/
def beatBegun (s : State) (core slot : Nat) : Bool :=
  beatPending s core slot && (strandAt s core slot).any fun t => t.prog.any fun p => !p.vals.isEmpty || p.stored != 0
/-- The vector unit of the core serves the slot now: its beat has begun, or it is the first, from the one after the slot served last, that
has beats pending, and none has begun; a slot whose beats are all done needs no service (R190). -/
def beatServed (s : State) (core slot : Nat) : Bool :=
  !beatPending s core slot || beatBegun s core slot
    || (!((List.range 16).any (beatBegun s core))
        && ((List.range 16).map fun i => (tget 0 s.core.beatNext core + i) % 16).find? (beatPending s core) == some slot)
/-- The slot is the one that the vector unit has served last. -/
def noteBeat (s : State) (core slot : Nat) : State :=
  if beatPending s core slot then { s with core.beatNext := tset 0 s.core.beatNext core ((slot + 1) % 16) } else s
/-- The next access of a vector instruction in progress, or what follows the last (R190, R191). The flags and the count of a beat reach VSTAT
as it ends, those of a channel destination's beats with its messages (R189, R196). -/
def vectorStep (vf : VForm) (f : ElemFn) (write : State → VAcc → State) (p : VProg) (s : State) : State :=
  let core := curCore s
  let go (s : State) (p : VProg) : State := suspend (setProg s (some p)) 1 .beats
  match (vbeats p.xs)[p.beat]? with
  | none => vfinish (vf.dst p.xs) write { s := setProg s none, pts := rPts s, fl := p.fl, zeros := p.zeros, out := p.out, acc := p.acc }
  | some ns =>
    match (beatReads vf p.xs p.msgs ns)[p.vals.length]? with
    | some (x, i) =>
      let r := readElem core x i (s, rPts s)
      go (wPts r.1.1 r.1.2) { p with vals := p.vals ++ [r.2] }
    | none =>
      let c := beatMakes vf f p.xs p.msgs ns p
      let beatOver (s : State) (p : VProg) : State := go s { p with beat := p.beat + 1, vals := [], stored := 0, acc := c.1 }
      match vf.dst p.xs with
      | some d =>
        if d.ch then beatOver s { p with fl := p.fl ||| c.2.2.1, zeros := p.zeros + c.2.2.2, out := p.out ++ c.2.1.map (·.2) }
        else match c.2.1[p.stored]? with
        | some (i, v) =>
          let t := spStore s core (d.addr d.size i) d.size (rPts s) v
          go (wPts t.1 t.2) { p with stored := p.stored + 1 }
        | none => beatOver (raiseVstat s core c.2.2.1 c.2.2.2) p
      | none => beatOver (raiseVstat s core c.2.2.1 c.2.2.2) { p with out := p.out ++ c.2.1.map (·.2) }
/-- A vector instruction on the shape records of some registers, in the order D, A, B: `fn` gives its element function from
the shapes, `write` the register it writes (R183, R190 to R192). In a turn that makes memory requests travel (log entry 2), and while
another slot has beats pending, its accesses are made one by one, each in a turn of its own, and else all in one step. A word that has
failed by the issue and that it would meet traps it before its first access (R8). -/
def vector (g : Guard) (regs : List GReg) (vf : VForm) (fn : List Shape → ElemFn) (write : List Shape → State → VAcc → State)
    (s : State) : Host.Outcome State Fault Refusal :=
  .next (confine s (perform .strand g none (fun s =>
    match curProg s with
    | some p => orSoft s (vectorStep vf (fn p.xs) (write p.xs) p s)
    | none =>
    let ptrs := regs.map (rG s)
    match ptrs.mapM fun p => recPtr s p with
    | .error e => raise e s
    | .ok _ =>
      let (s1, xs) := readShapes s ptrs
      orTrap s1 (do
        softCheck s1
        checkShapes xs vf.hasD vf.rule vf.chan vf.trn
        vf.scalar xs
        match vf.dst xs with
        | some d => if d.ch then checkHandle s1 [2] (BitVec.ofNat 64 d.base) else .ok ()
        | none => .ok ()
        let (s2, got) ← channelBytes s1 (if vf.hasD then xs.drop 1 else xs)
        match got with
        | none => .ok s2
        | some msgs =>
          let x := (vbeats xs).foldl (vbeat (curCore s) vf (fn xs) xs msgs) { s := s2, pts := rPts s2 }
          if s.far || (List.range 16).any (beatPending s (curCore s)) then do
            softCheck x.s
            .ok (suspend (setProg s2 (some { xs := xs, msgs := msgs, expr := exprOf s (curCore s) })) 1 .beats)
          else .ok (vfinish (vf.dst xs) (write xs) x))) s))
/-- A form that writes no register. -/
def noWrite (_ : List Shape) (s : State) (_ : VAcc) : State := s
/-- An element function with no running value. -/
def pointwise (f : Elem → Nat × Nat × Nat) : ElemFn := fun acc e => (acc, f e)
/-- The formats of D, A and B of a form with a destination. -/
def fmts (xs : List Shape) : Nat × Nat × Nat := ((xs[0]?.map Shape.fmt).getD 0, (xs[1]?.map Shape.fmt).getD 0, (xs[2]?.map Shape.fmt).getD 0)
/-- Element-wise arithmetic: a float operation, and an integer one where the form has it (R200). -/
def arith (ff : FVal → FVal → FVal → FVal × Nat) (fi : Int → Int → Int) (sat : Bool) (xs : List Shape) : ElemFn :=
  let (fd, fa, fb) := fmts xs
  pointwise fun (_, a, b, d) =>
    if floatFmt fd then putFloat fd .rne sat (ff (floatVal fa a) (floatVal fb b) (floatVal fd d))
    else putInt fd sat (fi (intVal fa a) (intVal fb b))
/-- A two-source form of VADD's kind (R198, R200). -/
def vbin (g : Guard) (d a b : GReg) (rule : FormRule) (chan : Bool) (ff : FVal → FVal → FVal × Nat) (fi : Int → Int → Int) (sat : Bool)
    (s : State) : Host.Outcome State Fault Refusal :=
  vector g [d, a, b] { rule := rule, chan := { src := chan, dst := chan } } (arith (fun x y _ => ff x y) fi sat) noWrite s
/-- A one-source form (R198). -/
def vun (g : Guard) (d a : GReg) (rule : FormRule) (ff : FVal → FVal × Nat) (fi : Int → Int) (sat : Bool) (s : State) :
    Host.Outcome State Fault Refusal :=
  vector g [d, a] { rule := rule } (arith (fun x _ _ => ff x) (fun x _ => fi x) sat) noWrite s
/-- A value unless it is a NaN, which becomes the canonical one (R200). -/
def quietly (f : FVal → FVal) : FVal → FVal × Nat
  | .nan s => (.nan false, sigFlag s)
  | x => (f x, 0)

/-! ### The instructions -/

/-- VSHP (R199). -/
def execVshp (g : Guard) (f : ShpField) (a : GReg) (b : Src) (s : State) : Host.Outcome State Fault Refusal :=
  run .strand g none (fun s => do
    let off ← recPtr s (rG s a)
    let signExt := match f with
      | .s1 | .s2 | .s3 | .adv => true
      | _ => false
    let v := if signExt then srcS s b else srcZ s b
    let core := curCore s
    let old := memRead s.mem (scratchAt core off) 32
    let ch := old / 256 ^ 0x1A % 2 == 1
    let put (at_ n x : Nat) : Nat := old - old / 256 ^ at_ % 256 ^ n * 256 ^ at_ + x % 256 ^ n * 256 ^ at_
    let extent (at_ : Nat) : Bool × Nat := (decide (v.toNat ≤ 65535), put at_ 2 v.toNat)
    let stride (at_ : Nat) : Bool × Nat := (decide (-(2 ^ 23) ≤ v.toInt) && decide (v.toInt < 2 ^ 23), put at_ 3 v.toNat)
    let moved := ((old % 2 ^ 64 : Nat) : Int) + v.toInt
    let (ok, new) := match f with
      | .base => (ch || decide (v.toNat < 0x80000), put 0 8 v.toNat)
      | .e0 => extent 8
      | .e1 => extent 10
      | .e2 => extent 12
      | .e3 => extent 14
      | .s1 => stride 0x10
      | .s2 => stride 0x13
      | .s3 => stride 0x16
      | .flags => (decide (v.toNat < 256) && v.toNat / 2 % 8 == 0, put 0x1A 2 v.toNat)
      | .adv => (!ch && decide (0 ≤ moved) && decide (moved < 0x80000), put 0 8 moved.toNat)
    need ok (bad v)
    let r := spSwap s core off 32 (rPts s) fun _ => new
    .ok (advance (wPts r.1 r.2.2))) s
/-- VMOV (R201). -/
def execVmov (g : Guard) (d a : GReg) (s : State) : Host.Outcome State Fault Refusal :=
  vector g [d, a] { rule := .anyEq, chan := { src := true, dst := true } } (fun _ => pointwise fun (_, a, _, _) => (a, 0, 0)) noWrite s
/-- VADD (R200). -/
def execVadd (g : Guard) (d a b : GReg) (sat : Bool) (s : State) : Host.Outcome State Fault Refusal :=
  vbin g d a b .floatsOrInt true (fAdd .rne) (· + ·) sat s
/-- VSUB (R200). -/
def execVsub (g : Guard) (d a b : GReg) (sat : Bool) (s : State) : Host.Outcome State Fault Refusal :=
  vbin g d a b .floatsOrInt true (fSub .rne) (· - ·) sat s
/-- VMUL (R200). -/
def execVmul (g : Guard) (d a b : GReg) (sat : Bool) (s : State) : Host.Outcome State Fault Refusal :=
  vbin g d a b .floatsOrInt true fMul (· * ·) sat s
/-- VFMA (R200). -/
def execVfma (g : Guard) (d a b : GReg) (sat : Bool) (s : State) : Host.Outcome State Fault Refusal :=
  vector g [d, a, b] { rule := .floats, readsD := true } (arith (fun x y z => fFma .rne x y z) (fun x _ => x) sat) noWrite s
/-- VDIV (R200). -/
def execVdiv (g : Guard) (d a b : GReg) (sat : Bool) (s : State) : Host.Outcome State Fault Refusal :=
  vbin g d a b .floats false fDiv (fun x _ => x) sat s
/-- VMAX (R200, R141). -/
def execVmax (g : Guard) (d a b : GReg) (sat : Bool) (s : State) : Host.Outcome State Fault Refusal :=
  vbin g d a b .floatsOrInt true (fMinMax true) max sat s
/-- VMIN (R200, R141). -/
def execVmin (g : Guard) (d a b : GReg) (sat : Bool) (s : State) : Host.Outcome State Fault Refusal :=
  vbin g d a b .floatsOrInt true (fMinMax false) min sat s
/-- VABS (R200). -/
def execVabs (g : Guard) (d a : GReg) (sat : Bool) (s : State) : Host.Outcome State Fault Refusal :=
  vun g d a .floatsOrInt (quietly FVal.abs) (fun x => x.natAbs) sat s
/-- VNEG (R200). -/
def execVneg (g : Guard) (d a : GReg) (sat : Bool) (s : State) : Host.Outcome State Fault Refusal :=
  vun g d a .floatsOrInt (quietly FVal.negate) (fun x => -x) sat s
/-- VEXP (R204). -/
def execVexp (g : Guard) (d a : GReg) (sat : Bool) (s : State) : Host.Outcome State Fault Refusal :=
  let split := (issueExpr s).toNat % 32
  vector g [d, a] { rule := .floats } (fun xs =>
    let (fd, fa, _) := fmts xs
    pointwise fun (n, a, _, _) =>
      let y := vexp (decide (n % 16 < split)) (f32.unpack (widen fa a))
      let r := wr fd .rne sat (f32.unpack y.1, y.2.1)
      (r.1, r.2, zeroed fd r.1 y.2.2)) noWrite s
/-- VLOG (R206). -/
def execVlog (g : Guard) (d a : GReg) (sat : Bool) (s : State) : Host.Outcome State Fault Refusal := vun g d a .floats fLog id sat s
/-- VRSQ (R206). -/
def execVrsq (g : Guard) (d a : GReg) (sat : Bool) (s : State) : Host.Outcome State Fault Refusal := vun g d a .floats fRsq id sat s
/-- VRCP (R206). -/
def execVrcp (g : Guard) (d a : GReg) (sat : Bool) (s : State) : Host.Outcome State Fault Refusal := vun g d a .floats fRcp id sat s
/-- A condition on integers (R202). -/
def intCond (cc : FCond) (a b : Int) : Bool :=
  match cc with
  | .eq => a == b | .ne => a != b | .lt => decide (a < b) | .le => decide (a ≤ b) | .gt => decide (b < a) | .ge => decide (b ≤ a)
  | .un => false | .or => true
/-- 1 and 0 in a format (R202). -/
def truth (f : Nat) (t : Bool) : Nat := if t then (if floatFmt f then (wr f .rne false (.fin false 1 0, 0)).1 else 1) else 0
/-- VCMP (R202). -/
def execVcmp (g : Guard) (cc : FCond) (d a b : GReg) (s : State) : Host.Outcome State Fault Refusal :=
  vector g [d, a, b] { rule := .cmp cc } (fun xs =>
    let (fd, fa, fb) := fmts xs
    pointwise fun (_, a, b, _) =>
      if floatFmt fa then
        let r := fCond cc (floatVal fa a) (floatVal fb b)
        (truth fd r.1, r.2, 0)
      else (truth fd (intCond cc (intVal fa a) (intVal fb b)), 0, 0)) noWrite s
/-- VSEL (R201). -/
def execVsel (g : Guard) (d a b : GReg) (s : State) : Host.Outcome State Fault Refusal :=
  vector g [d, a, b] { rule := .one, readsD := true } (fun xs =>
    let fd := (fmts xs).1
    pointwise fun (_, a, b, d) =>
      let zero := if floatFmt fd then (floatVal fd d).isZero else d == 0
      (if zero then b else a, 0, 0)) noWrite s
/-- A form on the bits of two sources (R201). -/
def vbits (g : Guard) (d a b : GReg) (f : Nat → Nat → Nat) (s : State) : Host.Outcome State Fault Refusal :=
  vector g [d, a, b] { rule := .anyEq } (fun _ => pointwise fun (_, a, b, _) => (f a b, 0, 0)) noWrite s
/-- VAND (R201). -/
def execVand (g : Guard) (d a b : GReg) (s : State) : Host.Outcome State Fault Refusal := vbits g d a b (· &&& ·) s
/-- VOR (R201). -/
def execVor (g : Guard) (d a b : GReg) (s : State) : Host.Outcome State Fault Refusal := vbits g d a b (· ||| ·) s
/-- VXOR (R201). -/
def execVxor (g : Guard) (d a b : GReg) (s : State) : Host.Outcome State Fault Refusal := vbits g d a b (· ^^^ ·) s
/-- VSHL (R201). -/
def execVshl (g : Guard) (d a : GReg) (b : Src) (s : State) : Host.Outcome State Fault Refusal :=
  let c := (srcZ s b).toNat
  vector g [d, a] { rule := .bits } (fun _ => pointwise fun (_, a, _, _) => (if 8 ≤ c then 0 else a * 2 ^ c % 256, 0, 0)) noWrite s
/-- VSHR: arithmetic on INT8, logical otherwise (R201). -/
def execVshr (g : Guard) (d a : GReg) (b : Src) (s : State) : Host.Outcome State Fault Refusal :=
  let c := min 8 (srcZ s b).toNat
  vector g [d, a] { rule := .bits } (fun xs =>
    let fa := (fmts xs).2.1
    pointwise fun (_, a, _, _) => (if fa == 8 then ((intVal 8 a / 2 ^ c) % 256).toNat else a / 2 ^ c, 0, 0)) noWrite s
/-- One element converted (R203). -/
def convert (fa fd : Nat) (m : RMode) (sat : Bool) (a : Nat) : Nat × Nat × Nat :=
  if floatFmt fa then
    let x := floatVal fa a
    if floatFmt fd then putFloat fd m sat (x, sigFlag x.isSig)
    else
      let r := toInt m (intLo fd) (intHi fd) x
      ((r.1 % 256).toNat, r.2, 0)
  else if floatFmt fd then putFloat fd m sat (.ofInt (intVal fa a), 0)
  else putInt fd sat (intVal fa a)
/-- VCVT (R203). -/
def execVcvt (g : Guard) (d a : GReg) (rm : RMode) (sat : Bool) (s : State) : Host.Outcome State Fault Refusal :=
  vector g [d, a] { rule := .numbers, chan := { src := true, dst := true } } (fun xs =>
    let (fd, fa, _) := fmts xs
    pointwise fun (_, a, _, _) => convert fa fd rm sat a) noWrite s
/-- The helper tree_sum of R207 over FP32 patterns, by a node function: `fuel` bounds the depth. -/
def tree (node : FVal → FVal → FVal × Nat) : Nat → List Nat → Nat × Nat
  | 0, vs => (vs.headD 0, 0)
  | fuel + 1, vs =>
    if vs.length ≤ 1 then (vs.headD 0, 0)
    else
      let h := 2 ^ Nat.log2 (vs.length - 1)
      let l := tree node fuel (vs.take h)
      let r := tree node fuel (vs.drop h)
      let x := rn32 (node (f32.unpack l.1) (f32.unpack r.1))
      (x.1, l.2 ||| r.2 ||| x.2)
/-- The node of a reduction (R207). -/
def redNode : RedOp → FVal → FVal → FVal × Nat
  | .sum => fAdd .rne
  | .max => fMinMax true
  | .min => fMinMax false
/-- The result of VRED over the elements read (R207): the register and the flags. -/
def reduce (op : RedOp) (f : Nat) (vs : List Nat) : Word × Nat :=
  if floatFmt f then
    if vs.isEmpty then
      (match op with
        | .sum => 0
        | .max => 0xFF800000#64
        | .min => 0x7F800000#64, 0)
    else
      let r := tree (redNode op) vs.length (vs.map (widen f))
      (BitVec.ofNat 64 r.1, r.2)
  else
    let xs := vs.map (intVal f)
    (BitVec.ofInt 64 (match op with
      | .sum => xs.foldl (· + ·) 0
      | .max => xs.foldl max (intLo f)
      | .min => xs.foldl min (intHi f)), 0)
/-- VRED (R207). -/
def execVred (g : Guard) (op : RedOp) (d a : GReg) (s : State) : Host.Outcome State Fault Refusal :=
  vector g [a] { hasD := false, rule := .floatsOrInt, chan := { src := true } } (fun _ => pointwise fun (_, a, _, _) => (a, 0, 0))
    (fun xs s x =>
      let r := reduce op ((xs[0]?.map Shape.fmt).getD 0) x.out
      wG (raiseVstat s (curCore s) r.2 0) d r.1) s
/-- VSCAN (R208): the running value, rounded to FP32, is written to each element; the exact prefix says which zeros count (R188). -/
def execVscan (g : Guard) (op : RedOp) (d a : GReg) (sat : Bool) (s : State) : Host.Outcome State Fault Refusal :=
  vector g [d, a] { rule := .floatsOrInt } (fun xs =>
    let (fd, fa, _) := fmts xs
    fun acc (_, a, _, _) =>
      if floatFmt fd then
        let x := floatVal fa a
        let (y, exact) : (FVal × Nat) × FVal := match acc with
          | none => ((x, 0), x)
          | some (v, e, _) =>
            let r := rn32 (redNode op v x)
            ((f32.unpack r.1, r.2), (redNode op e x).1)
        let w := wr fd .rne sat (y.1, y.2 ||| sigFlag y.1.isSig)
        (some (y.1, exact, 0), w.1, w.2, zeroed fd w.1 exact.counts)
      else
        let x := intVal fa a
        let y := match acc with
          | none => x
          | some (_, _, v) => match op with
            | .sum => v + x
            | .max => max v x
            | .min => min v x
        (some (.nan false, .nan false, y), putInt fd sat y)) noWrite s
/-- VBCAST (R209). -/
def execVbcast (g : Guard) (d : GReg) (a : Src) (sat : Bool) (s : State) : Host.Outcome State Fault Refusal :=
  let v := srcZ s a
  vector g [d] { rule := .numbers } (fun xs =>
    let fd := (fmts xs).1
    pointwise fun _ =>
      if floatFmt fd then
        let x := f32.unpack (v.toNat % 2 ^ 32)
        putFloat fd .rne sat (x, sigFlag x.isSig)
      else putInt fd sat v.toInt) noWrite s
/-- The value of VIOTA's element n for a float destination (R209). -/
def iota (a b : FVal) (n : Nat) : FVal × Nat :=
  match n, b with
  | 0, .fin .. => fAdd .rne a (.fin false 0 0)
  | _, _ => fFma .rne (.ofInt n) b a
/-- VIOTA (R209). -/
def execViota (g : Guard) (d : GReg) (a b : Src) (sat : Bool) (s : State) : Host.Outcome State Fault Refusal :=
  let fa := f32.unpack ((srcZ s a).toNat % 2 ^ 32)
  let fb := f32.unpack ((srcZ s b).toNat % 2 ^ 32)
  vector g [d] { rule := .numbers } (fun xs =>
    let fd := (fmts xs).1
    pointwise fun (n, _, _, _) =>
      if floatFmt fd then putFloat fd .rne sat (iota fa fb n)
      else putInt fd sat ((srcS s a).toInt + n * (srcS s b).toInt)) noWrite s
/-- The bounds of VCLAMP as values (R209). -/
def clampBounds (v : Word) : (FVal × FVal) × (Int × Int) :=
  let lo := v.toNat % 2 ^ 32
  let hi := v.toNat / 2 ^ 32
  ((f32.unpack lo, f32.unpack hi), (signedField lo 32, signedField hi 32))
/-- The bounds are no NaN and in order, in the class of the formats (R209). -/
def clampOk (v : Word) (xs : List Shape) : Except Exc Unit :=
  let c := clampBounds v
  if floatFmt (fmts xs).1 then need (!c.1.1.isNan && !c.1.2.isNan && decide (fCmp c.1.1 c.1.2 ≤ 0)) (bad v)
  else need (decide (c.2.1 ≤ c.2.2)) (bad v)
/-- A bound beyond the range of an integer format is taken as its end (R209). -/
def endOf (f : Nat) (b : Int) : Int := max (intLo f) (min (intHi f) b)
/-- VCLAMP (R209). -/
def execVclamp (g : Guard) (d a : GReg) (b : Src) (s : State) : Host.Outcome State Fault Refusal :=
  let v := srcZ s b
  let c := clampBounds v
  vector g [d, a] { rule := .floatsOrInt, scalar := clampOk v } (fun xs =>
    let (fd, fa, _) := fmts xs
    pointwise fun (_, a, _, _) =>
      if floatFmt fd then
        let x := floatVal fa a
        if x.isNan then putFloat fd .rne false (.nan false, sigFlag x.isSig)
        else putFloat fd .rne false ((fMinMax false (fMinMax true x c.1.1).1 c.1.2).1, 0)
      else putInt fd false (min (max (intVal fa a) (endOf fd c.2.1)) (endOf fd c.2.2))) noWrite s
/-- VSCALE (R209). -/
def execVscale (g : Guard) (d a : GReg) (b : Src) (sat : Bool) (s : State) : Host.Outcome State Fault Refusal :=
  let k := (srcS s b).toInt
  vector g [d, a] { rule := .floats, scalar := fun _ => need (decide (-300 ≤ k) && decide (k ≤ 300)) (bad (srcS s b)) }
    (arith (fun x _ _ => match x with
      | .fin n m e => (.fin n m (e + k), 0)
      | x => quietly id x) (fun x _ => x) sat) noWrite s
/-- VTRN (R210). -/
def execVtrn (g : Guard) (d a : GReg) (s : State) : Host.Outcome State Fault Refusal :=
  vector g [d, a] { rule := .anyEq, trn := true } (fun _ => pointwise fun (_, a, _, _) => (a, 0, 0)) noWrite s
/-- VDOT (R207). -/
def execVdot (g : Guard) (d a b : GReg) (s : State) : Host.Outcome State Fault Refusal :=
  vector g [a, b] { hasD := false, rule := .floats, chan := { src := true } } (fun xs =>
    let (fa, fb, _) := fmts xs
    pointwise fun (_, a, b, _) =>
      let r := rn32 (fMul (floatVal fa a) (floatVal fb b))
      (r.1, r.2, 0))
    (fun _ s x =>
      let r := if x.out.isEmpty then (0, 0) else tree (fAdd .rne) x.out.length x.out
      wG (raiseVstat s (curCore s) r.2 0) d (BitVec.ofNat 64 r.1)) s

end Sys2Proof.Machine
end

