-- ==== Sys2Proof/Machine/Engine.lean ====
section
/-! DEFINITION. Accesses of the cluster engines and of a K-link port's imports (R40, R43, R61, R219, R223, R253, R350, R368),
and the entry of commands into the engine queues (R20, R61, R62, R214). -/

namespace Sys2Proof.Machine
open Sys2Proof

/-! ### One access (R40, R47, R49, R219, R253) -/

/-- For whom an engine makes its accesses: the holder of its translations, the core whose scratchpad space 1 names and that
windows are checked against, the context, and what the launch and the strand gave; `unit`: 0 copy engine, 1 staging stream,
2 compute stream, 3 factor accumulator. -/
structure Who where
  holder : Nat
  unit : Nat := 0
  core : Nat
  ctxh : Word
  privb : Word
  env : Env
/-- What an access does. -/
inductive EOp where
  | read
  | write (v : Nat)
  | amo (op : AmoOp) (u : Bool) (opnd cmp : Nat)
/-- What an access comes to: made, with its bytes and its timestamp; to be made again; sent to a peer, whose reply it
awaits; refused. -/
inductive EOut where
  | made (s : State) (v ts : Nat)
  | wait (s : State)
  | sent (s : State)
  | refused (e : Exc)
/-- The access detail of R105. -/
def EOp.detail : EOp → Nat
  | .read => 1 | .write _ => 2 | .amo .. => 4
/-- The access reads. -/
def EOp.reads : EOp → Bool
  | .write _ => false
  | _ => true
/-- The access writes. -/
def EOp.writes : EOp → Bool
  | .read => false
  | _ => true
/-- An access at a scratchpad bank arbiter (R42, R49, R100). -/
def engineScratch (w : Who) (p : Word) (n : Nat) (op : EOp) (ts : Nat) (s : State) : EOut :=
  let owner := pCore w.core p
  let off := pOff p
  if !winOk s owner w.core off n op.reads op.writes then .refused { cause := .windowRefused, info0 := p, detail := op.detail }
  else match softWord s (scratchAt owner off) n with
  | some x => .refused { softExc x with detail := op.detail }
  | none => match op with
    | .read => let r := spLoad s owner off n ts; .made r.1 r.2.1 r.2.2
    | .write v => let r := spStore s owner off n ts v; .made r.1 0 r.2
    | .amo o u opnd cmp => let r := spSwap s owner off n ts fun old => amoValue o u n old opnd cmp; .made r.1 r.2.1 r.2.2
/-- An access served at the home of a sector in state H (R47, R64); a store to the system region under R347 to R349. -/
def engineHome (w : Who) (p : Word) (pa n : Nat) (op : EOp) (ts : Nat) (s : State) : EOut :=
  let sec := pa / 64
  let d := filled s sec
  let old := sectorPart (homeData s sec) pa n
  let wt := max ts (d.rts + 1)
  let no : EOut := .refused { cause := .protection, info0 := p, detail := op.detail }
  let store (v : Nat) : EOut :=
    if 2 ^ 120 ≤ pa then match storeSystem s (sysCtx s pa) (sysVa pa) n v false with
      | .stored t => .made (putDir t sec { d with wts := wt, rts := wt }) old wt
      | _ => no
    else .made (putDir { s with mem := memWrite s.mem pa n v } sec { d with wts := wt, rts := wt }) old wt
  match op with
  | .read =>
    let t := max ts d.wts
    .made (putDir s sec { d with rts := max d.rts (t + w.env.ll) }) old t
  | .write v => store v
  | .amo o u opnd cmp => store (amoValue o u n old opnd cmp)
/-- An access to a page without coherence: at the home, at no timestamp (R59, R60). -/
def engineNc (pa n : Nat) (op : EOp) (ts : Nat) (s : State) : EOut :=
  let old := memRead s.mem pa n
  let put (v : Nat) : State := { s with mem := memWrite s.mem pa n v }
  match op with
  | .read => .made s old ts
  | .write v => .made (put v) old ts
  | .amo o u opnd cmp => .made (put (amoValue o u n old opnd cmp)) old ts
/-- The die whose hotness count a holder's request raises: an engine's, not a port's (R354). -/
def holderDie (holder : Nat) : Option Nat := if holder < 2000 then some (dieOf (holderUnit holder)) else none
/-- The number of an engine, or of a stream, among those that make requests. -/
def Who.id (w : Who) : Nat := w.holder * 4 + w.unit
/-- An engine's access as a request to the home of its sector. -/
def engineReq (w : Who) (p : Word) (pa n : Nat) (range : Word) (op : EOp) (ts : Nat) : MemReq :=
  { tag := {}, pa := pa, n := n, pts := ts, ctxh := w.ctxh, range := range, ptr := p, ll := w.env.ll, post := .store, detail := op.detail,
    engine := some w.id,
    kind := match op with
      | .read => .read
      | .write v => .write v
      | .amo o u opnd cmp => .amo o opnd cmp u }
/-- A request of the engine waits in a sector's queue, or for room at its slice. -/
def engineQueued (s : State) (id : Nat) : Bool := s.coh.dir.any fun e => e.2.queue.any fun r => r.engine == some id
/-- What an engine still waits for is forgotten: its operation has ended. -/
def dropEngine (s : State) (id : Nat) : State :=
  { s with coh.served := s.coh.served.filter (·.engine != id)
           coh.dir := s.coh.dir.map fun e => (e.1, { e.2 with queue := e.2.queue.filter (·.engine != some id) })
           page.waits := s.page.waits.filter (·.1 != id) }
/-- An access to a physical address: lapse notices decide first (R36), a failed word is SOFT_ERROR (R223); one to a sector that is
owned, or being recalled, waits in the sector's queue (R54). -/
def engineMem (w : Who) (p : Word) (pa n : Nat) (nc : Bool) (range : Word) (op : EOp) (ts : Nat) (s : State) : EOut :=
  let sec := pa / 64
  if hasNoticed s (homeOf s pa) range then .refused { cause := .lapsed, info0 := p, detail := op.detail }
  else match softWord s pa n with
  | some x => .refused { softExc x with detail := op.detail }
  | none =>
    if !homeUp s pa then .wait s
    else
      let counted (s : State) : State := match holderDie w.holder with
        | some d => countHot s pa d
        | none => s
      if nc then engineNc pa n op ts (counted s)
      else match (dirAt s sec).st with
        | .h => engineHome w p pa n op ts (l2Room (counted s) sec)
        | _ => .wait (dispatchReq (counted s) (engineReq w p pa n range op ts))
/-- An access through a PEER entry (R65, R350). A port forwards nothing beyond its peer (R367): its import is refused. -/
def enginePeer (w : Who) (p h : Word) (addr n : Nat) (op : EOp) (s : State) : EOut :=
  if 2000 ≤ w.holder then .refused { cause := .protection, info0 := p, detail := op.detail }
  else
    let po : PeerOp := match op with
      | .read => .read n
      | .write v => .write n v
      | .amo o u opnd cmp => .amo o u n opnd cmp
    match peerCheck s h p addr po op.detail with
    | .error e => .refused { e with info0 := p }
    | .ok _ =>
      .sent (sendPeer s h addr po { port := 0, xid := 0, tag := { slot := w.unit }, route := h, ptr := p, post := .store, cluster := some w.holder })
/-- An access at a virtual address of the context (R350, engine column). -/
def engineVirtual (w : Who) (p : Word) (va n : Nat) (op : EOp) (ts : Nat) (s : State) : EOut :=
  match translate s w.holder w.ctxh w.env.tl va op.reads op.writes (some w.unit) p op.detail with
  | (s, .mem pa nc range) => engineMem w p pa n nc range op ts s
  | (s, .peer h addr) => enginePeer w p h addr n op s
  | (s, .wait) => .wait s
  | (_, .exc e) => .refused e
/-- An access of an engine: one that has waited in a sector's queue ends as its home has served it (R54), else it is made. -/
def engineTurn (w : Who) (s : State) (make : EOut) : EOut :=
  match s.coh.served.find? (·.engine == w.id) with
  | some x =>
    let t := { s with coh.served := s.coh.served.filter (·.engine != w.id) }
    match x.exc with
    | some e => .refused e
    | none => .made t x.v x.ts
  | none => if engineQueued s w.id then .wait s else make
/-- One access of an engine at a generic pointer, `n` bytes within a sector (R40 steps 1 to 7). -/
def engineAccess (w : Who) (p : Word) (n : Nat) (op : EOp) (ts : Nat) (s : State) : EOut :=
  engineTurn w s
    (match checkPtr s p n op.detail with
  | .error e => .refused e
  | .ok _ =>
    if pScratch p then engineScratch w p n op ts s
    else if pSpace p == 4 then
      let o := p.toNat % 2 ^ 32
      if w.env.privsz < o + n then .refused { cause := .protection, info0 := p, detail := op.detail }
      else engineVirtual w p (w.privb.toNat + o) n op ts s
    else engineVirtual w p (p.toNat % 2 ^ 56) n op ts s)

/-! ### Entering a queue (R20, R61, R62, R214) -/

/-- What the acting strand's launch gives its commands. -/
def curEnv (s : State) : Env :=
  let l := curLaunch s
  { privsz := l.privsz, tl := l.tl, ll := l.ll, bundle := l.bundle }
/-- A stream has an instruction in progress. -/
def Stream.inOp (x : Stream) : Bool := x.st == 1 && (x.busy || (x.wait && x.fetched))
/-- The queues a wait set names, each with the count of operations performed that satisfies it (R62): 0 copy, 1 factor,
2 staging, 3 compute. -/
def fenceTargets (s : State) (k : Nat) (set : BitVec 4) : List (Nat × Nat) :=
  let p := pairAt s k
  let count (i : Nat) : Nat :=
    match i with
    | 0 => (queueAt s k false).done + (queueAt s k false).cmds.length
    | 1 => (queueAt s k true).done + (queueAt s k true).cmds.length
    | 2 => p.sdone + if p.staging.inOp then 1 else 0
    | _ => p.kdone + if p.compute.inOp then 1 else 0
  ((List.range 4).filter fun i => set.getLsbD i).map fun i => (i, count i)
/-- The queues named have performed what was queued before (R62); a stream with nothing in progress holds nothing earlier. -/
def fenceMet (s : State) (k : Nat) (ts : List (Nat × Nat)) : Bool :=
  let p := pairAt s k
  ts.all fun t => match t.1 with
    | 0 => decide (t.2 ≤ (queueAt s k false).done)
    | 1 => decide (t.2 ≤ (queueAt s k true).done)
    | 2 => decide (t.2 ≤ p.sdone) || !p.staging.inOp
    | _ => decide (t.2 ≤ p.kdone) || !p.compute.inOp
/-- The largest final ETS of the queues named (R62). -/
def fenceEts (s : State) (k : Nat) (ts : List (Nat × Nat)) : Nat :=
  let p := pairAt s k
  ts.foldl (fun m t => max m (match t.1 with
    | 0 => (queueAt s k false).ets
    | 1 => (queueAt s k true).ets
    | 2 => p.sets
    | _ => p.kets)) 0
/-- A command enters a queue at its tail: a QFENCE takes its counts, a factor command the threshold (R62, R279). -/
def enterQueue (s : State) (k : Nat) (factor : Bool) (c : Cmd) : State :=
  let q := queueAt s k factor
  let c := match c.op with
    | .qfence set _ => { c with op := .qfence set (fenceTargets s k set) }
    | _ => { c with thr := (fctlOf s k).setWidth 32 }
  putQueue s k factor { q with cmds := q.cmds ++ [c], last := c.core % 4 }
/-- A command of the acting strand, offered to a queue of its cluster: the strand leaves rotation until it has entered, and a
plain factor form until it has been performed (R20, R214, R280). -/
def offer (s : State) (factor : Bool) (c : Cmd) : State :=
  let core := curCore s
  let k := clusterOf core
  let q := queueAt s k factor
  let c := { c with tag := curTag s, core := core, ctxh := curCtxh s, record := curRec s, privb := curPrivb s, pts := rPts s,
                    env := curEnv s }
  if q.cmds.length < 64 && q.waits.isEmpty then
    let s := enterQueue s k factor c
    if c.plain then suspend s 1 .reply else advance s
  else suspend (putQueue s k factor { q with waits := q.waits ++ [{ core := core, cmd := c }] }) 1 .reply
/-- The position of the waiting command that the round robin takes: of the first core, after the one served last, that has
one, its longest (R20). -/
def nextWaiter (q : Queue) : Option (Nat × QWait) :=
  (List.range 4).findSome? fun i => findPos (fun w => w.core % 4 == (q.last + 1 + i) % 4) q.waits 0
/-- QUEUE_ENTRY: a queue with a free entry takes a waiting command by round robin (R20). -/
def execQueueEntry (cluster : Nat) (factor : Bool) (s : State) : Host.Outcome State Fault Refusal :=
  .next (confine s
    (let q := queueAt s cluster factor
    if q.cmds.length < 64 then match nextWaiter q with
      | some (n, w) =>
        let s := enterQueue (putQueue s cluster factor { q with waits := dropAt q.waits n }) cluster factor w.cmd
        if w.cmd.own || w.cmd.plain then s
        else match tagged s w.cmd.tag with
          | some t => sendReply s w.cmd.tag (.regs [] t.ctx.pts)
          | none => s
      | none => s
    else s))
/-- The identity an engine operation has towards a cancel token or a power kill (R224, R292): STATUS 3 or 4, or 0. -/
def stopStatus (s : State) (k : Nat) (c : Cmd) : Nat :=
  if c.own then 0
  else if c.stop != 0 then c.stop
  else match (tget [] s.core.filter (1024 + k)).find? (matchesToken c.record) with
    | some t => if t.kill then 4 else 3
    | none => 0
/-- The launch of a command is stopped by a gang stop (R109, R224, R292). -/
def cmdHeld (s : State) (c : Cmd) : Bool := !c.own && (launchAt s c.record.launch.toNat).halted
/-- The head of a queue leaves it, performed, with its final ETS (R61). -/
def popQueue (s : State) (k : Nat) (factor : Bool) : State :=
  let q := queueAt s k factor
  let s := dropEngine s (copyHolder k * 4 + if factor then 3 else 0)
  putQueue s k factor { q with cmds := q.cmds.drop 1, ets := q.run.ets, done := q.done + 1, run := {} }
/-- The state with the running operation of a queue set. -/
def putRun (s : State) (k : Nat) (factor : Bool) (r : Run) : State := putQueue s k factor { queueAt s k factor with run := r }
/-- A QFENCE at the head of its queue that is met is performed (R62). -/
def fenceHead (s : State) (k : Nat) (factor : Bool) (c : Cmd) (ts : List (Nat × Nat)) : State :=
  let q := queueAt s k factor
  if fenceMet s k ts then popQueue (putRun s k factor { ets := max (max c.pts q.ets) (fenceEts s k ts) }) k factor else s

end Sys2Proof.Machine
end

