-- ==== Sys2Proof/Machine/Copy.lean ====
section
/-! DEFINITION. The copy and gather engine (R213 to R228): its instructions, its beats, remote copies and overlay loads. -/

namespace Sys2Proof.Machine
open Sys2Proof

/-! ### Descriptors and checks at issue (R216 to R218) -/

/-- A copy descriptor from its 32 bytes; `fmt` is still the field (R216). -/
def descOf (b : Nat) : CopyDesc :=
  let f (off n : Nat) : Nat := b / 256 ^ off % 256 ^ n
  { ptr := BitVec.ofNat 64 (f 0 8), count := f 8 4, stride := signedField (f 0xC 4) 32, aux := BitVec.ofNat 64 (f 0x10 8),
    fmt := f 0x18 1, rt := f 0x19 1 % 2 == 1 }
/-- The bits that R216 gives as 0. -/
def descSpareOk (b : Nat) : Bool := b / 256 ^ 0x19 % 256 / 2 == 0 && b / 256 ^ 0x1A == 0 && b / 256 ^ 0x18 % 256 < 16
/-- The endpoint lies in a scratchpad. -/
def CopyDesc.scratch (x : CopyDesc) : Bool := !x.rt && pScratch x.ptr
/-- How elements pass from a format to another (R217). -/
inductive CopyMode where
  | bits | conv
  deriving DecidableEq, Repr
/-- The formats the copy engine converts between. -/
def convFmt (f : Nat) : Bool := floatFmt f || intFmt f
/-- The combination of formats (R217). -/
def copyMode (fs fd : Nat) : Option CopyMode :=
  if fs == 15 || fd == 15 then none
  else if fs == fd || fs == 0 || fd == 0 then some .bits
  else if convFmt fs && convFmt fd then some .conv
  else none
/-- A route that is not a K-link route (R225). -/
def notKlink (s : State) (h : Word) : Bool :=
  hKind h == 2 && (lifeOf s (hKey h)).gen == hGen h && ((routeAt s h).dtype == 2 || (routeAt s h).peer == 0)
/-- Step 3 of R218 for a descriptor: `dst` is D's, `index` says that AUX is an index pointer, `remote` that RT is admitted. -/
def descCheck (s : State) (p : Word) (b : Nat) (dst index remote : Bool) : Except Exc Unit :=
  let x := descOf b
  need (descSpareOk b && !(x.scratch && x.fmt != 0) && !(dst && x.stride == 0) && (index || x.rt || x.aux == 0)
    && (!x.rt || (remote && !notKlink s x.aux))) (bad p)
/-- A descriptor with the format its endpoint takes (R217). -/
def withFmt (s : State) (x : CopyDesc) : CopyDesc :=
  if x.scratch then { x with fmt := bfmtOf s (pCore (curCore s) x.ptr) (pOff x.ptr / 2 ^ 15) } else x
/-- Step 4 of R218 for a descriptor: a check of no access, so that its trap carries no access detail (log entry 42). -/
def descPtrs (s : State) (x : CopyDesc) (index : Bool) : Except Exc Unit := do
  if x.rt then need (pSpace x.ptr == 0 && pZeroOk x.ptr) (pExc .badOperand x.ptr 0) else checkPtr3 s x.ptr 0
  need (x.ptr.toNat % fmtSize (withFmt s x).fmt == 0) (pExc .misaligned x.ptr 0)
  if index then checkPtr s x.aux 4 0 else .ok ()
/-- Step 6 of R218: the event queue of B, and the route of a remote copy; 0 for no record. -/
def recordQueue (s : State) (b : Option GReg) : Except Exc Word :=
  match b with
  | none => .ok 0
  | some r => do
    checkHandle s [7] (rG s r)
    .ok (rG s r)
/-- Step 6 of R218 for the route of a remote destination (R225). -/
def remoteRoute (s : State) (d : CopyDesc) : Except Exc Unit := if d.rt then checkAll s [2] d.aux else .ok ()
/-- COPY, GATH and SCAT at issue (R218). `gi` and `si`: the source's, the destination's AUX is an index array. -/
def copyIssue (d a : GReg) (b : Option GReg) (gi si remote : Bool) (mk : CopyDesc → CopyDesc → CmdOp) (s : State) :
    Except Exc State := do
  let pd := rG s d
  let ps := rG s a
  let od ← ownPtr s pd 32
  let os ← ownPtr s ps 32
  let core := curCore s
  let rd := spLoad s core od 32 (rPts s)
  let rs := spLoad rd.1 core os 32 rd.2.2
  softCheck rs.1
  descCheck s pd rd.2.1 true si remote
  descCheck s ps rs.2.1 false gi false
  descPtrs s (descOf rd.2.1) si
  descPtrs s (descOf rs.2.1) gi
  let xd := withFmt s (descOf rd.2.1)
  let xs := withFmt s (descOf rs.2.1)
  match copyMode xs.fmt xd.fmt with
  | none => .error (bad pd)
  | some .bits => need (xs.count * fmtSize xs.fmt == xd.count * fmtSize xd.fmt) (bad pd)
  | some .conv => need (xs.count == xd.count) (bad pd)
  let q ← recordQueue s b
  remoteRoute s xd
  .ok (offer (wPts rs.1 rs.2.2) false
    { op := mk xd xs, tag := {}, core := 0, ctxh := 0, record := {}, privb := 0, pts := 0, evq := q })
/-- COPY (R215 to R220, R225). -/
def execCopy (g : Guard) (d a : GReg) (b : Option GReg) (s : State) : Host.Outcome State Fault Refusal :=
  run .strand g none (copyIssue d a b false false true fun x y => .copy x y) s
/-- GATH (R215 to R220). -/
def execGath (g : Guard) (d a : GReg) (b : Option GReg) (s : State) : Host.Outcome State Fault Refusal :=
  run .strand g none (copyIssue d a b true false false fun x y => .gath x y) s
/-- SCAT (R215 to R220). -/
def execScat (g : Guard) (d a : GReg) (b : Option GReg) (s : State) : Host.Outcome State Fault Refusal :=
  run .strand g none (copyIssue d a b false true false fun x y => .scat x y) s
/-- FILL (R215 to R220, R225). -/
def execFill (g : Guard) (d : GReg) (a : Src) (b : Option GReg) (s : State) : Host.Outcome State Fault Refusal :=
  run .strand g none (fun s => do
    let pd := rG s d
    let od ← ownPtr s pd 32
    let v := srcZ s a
    let rd := spLoad s (curCore s) od 32 (rPts s)
    softCheck rd.1
    descCheck s pd rd.2.1 true false true
    descPtrs s (descOf rd.2.1) false
    let xd := withFmt s (descOf rd.2.1)
    need (xd.fmt == 0 || convFmt xd.fmt) (bad pd)
    let q ← recordQueue s b
    remoteRoute s xd
    .ok (offer (wPts rd.1 rd.2.2) false
      { op := .fill xd v, tag := {}, core := 0, ctxh := 0, record := {}, privb := 0, pts := 0, evq := q })) s
/-- OVLD (R226). -/
def execOvld (g : Guard) (frame : Option (Fin 4)) (a : Src) (b : Option GReg) (s : State) : Host.Outcome State Fault Refusal :=
  run .strand g none (fun s => do
    let v := srcZ s a
    need (decide (1 ≤ v.toNat) && decide (v.toNat ≤ 0xFFFE)) (bad v)
    let q ← recordQueue s b
    .ok (offer s false { op := .ovld v.toNat (frame.map (·.val)), tag := {}, core := 0, ctxh := 0, record := {}, privb := 0, pts := 0,
                         evq := q })) s
/-- The queue a QFENCE enters may be entered from where it stands, and its wait set is one (R228, R247). -/
def qfenceStatic (s : State) (q : Fin 4) (w : BitVec 4) : Option Exc :=
  let here := match s.cur with
    | .strand _ _ => q == 0 || q == 1
    | .stream _ cp => q == (if cp then 3 else 2)
    | .none => false
  if here && w != 0 && !w.getLsbD q.val then none else some (wordExc s .badOperand 6)
/-- The current stream changed. -/
def mapStream (s : State) (f : Stream → Stream) : State :=
  match s.cur with
  | .stream k cp => putPair s k ((pairAt s k).setStream cp (f ((pairAt s k).stream cp)))
  | _ => s
/-- A QFENCE in a stream: it waits where it stands, and the stream's ETS follows (R62, R228). -/
def streamFence (k : Nat) (cp : Bool) (w : BitVec 4) (s : State) : State :=
  let x := (pairAt s k).stream cp
  let ts := x.fence.getD (fenceTargets s k w)
  if fenceMet s k ts then advance (wPts (mapStream s fun x => { x with fence := none }) (max (rPts s) (fenceEts s k ts)))
  else suspend (mapStream s fun x => { x with fence := some ts }) 1 .again
/-- QFENCE (R62, R228). -/
def execQfence (g : Guard) (q : Fin 4) (w : BitVec 4) (s : State) : Host.Outcome State Fault Refusal :=
  run .any g (qfenceStatic s q w) (fun s => .ok (match s.cur with
    | .stream k cp => streamFence k cp w s
    | _ => offer s (q == 1) { op := .qfence w [], tag := {}, core := 0, ctxh := 0, record := {}, privb := 0, pts := 0, evq := 0 })) s

/-! ### A beat (R217, R219, R220) -/

/-- The sides of a data command: destination, source, where the index array is (1 source, 2 destination), the fill value. -/
structure Sides where
  d : CopyDesc
  s : Option CopyDesc := none
  index : Nat := 0
  fill : Nat := 0
/-- The sides of a command; an overlay load and a QFENCE have none. -/
def sidesOf : CmdOp → Option Sides
  | .copy d s => some { d := d, s := some s }
  | .gath d s => some { d := d, s := some s, index := 1 }
  | .scat d s => some { d := d, s := some s, index := 2 }
  | .fill d v => some { d := d, fill := v.toNat }
  | _ => none
/-- Bits are copied, byte by byte (R217). -/
def Sides.bytewise (x : Sides) : Bool := x.s.any fun y => copyMode y.fmt x.d.fmt == some .bits
/-- Bytes of one unit of access at the destination. -/
def Sides.ud (x : Sides) : Nat := if x.bytewise then 1 else fmtSize x.d.fmt
/-- Bytes of one unit of access at the source. -/
def Sides.us (x : Sides) : Nat := if x.bytewise then 1 else fmtSize ((x.s.map (·.fmt)).getD 0)
/-- Units of the operation. -/
def Sides.total (x : Sides) : Nat := x.d.count * fmtSize x.d.fmt / x.ud
/-- The first unit of beat `k`, and the number of its units (R219). -/
def Sides.span (x : Sides) (k : Nat) : Nat × Nat :=
  let per := 64 / x.ud
  (k * per, min per (x.total - k * per))
/-- The elements of the indexed side that a beat touches: the first and their number. -/
def Sides.indices (x : Sides) (k : Nat) : Nat × Nat :=
  let (lo, n) := x.span k
  let z := if x.index == 1 then fmtSize ((x.s.map (·.fmt)).getD 0) else fmtSize x.d.fmt
  let u := if x.index == 1 then x.us else x.ud
  if x.index == 0 || n == 0 then (0, 0) else (lo * u / z, (lo + n - 1) * u / z + 1 - lo * u / z)
/-- The pointer of unit `j` of a side, `e` being its element's number, or what the index array holds for it (R217). -/
def unitPtr (x : CopyDesc) (u j : Nat) (e : Nat) : Word :=
  x.ptr + BitVec.ofInt 64 ((e : Int) * x.stride * fmtSize x.fmt) + BitVec.ofNat 64 (j * u % fmtSize x.fmt)
/-- The element number that a unit of a side goes by. -/
def unitElem (x : CopyDesc) (u j : Nat) (index : Option (Nat × List Nat)) : Nat :=
  let e := j * u / fmtSize x.fmt
  match index with
  | some (lo, vs) => vs[e - lo]?.getD 0
  | none => e
/-- The next access of a beat: an index read, a source read, a destination write. -/
inductive CopyStep where
  | index (p : Word)
  | load (p : Word) (n : Nat)
  | store (p : Word) (n v : Nat)
  | over
/-- The access at position `pos` of beat `k`, `vals` being what its reads have given (R219, R220). -/
def Sides.step (x : Sides) (k pos : Nat) (vals : List Nat) : CopyStep :=
  let (lo, n) := x.span k
  let (ilo, ni) := x.indices k
  let ivals := vals.take ni
  let nr := if x.s.isSome then n else 0
  if pos < ni then
    let aux := if x.index == 1 then (x.s.map (·.aux)).getD 0 else x.d.aux
    .index (aux + BitVec.ofNat 64 (4 * (ilo + pos)))
  else if pos < ni + nr then
    match x.s with
    | some y =>
      let j := lo + (pos - ni)
      .load (unitPtr y x.us j (unitElem y x.us j (if x.index == 1 then some (ilo, ivals) else none))) x.us
    | none => .over
  else if pos < ni + nr + n then
    let j := lo + (pos - ni - nr)
    let raw := vals[pos - nr]?.getD 0
    let v := match x.s with
      | none => x.fill % 256 ^ x.ud
      | some y => if x.bytewise then raw else (convert y.fmt x.d.fmt .rne false raw).1
    .store (unitPtr x.d x.ud j (unitElem x.d x.ud j (if x.index == 2 then some (ilo, ivals) else none))) x.ud v
  else .over

/-! ### The end of an operation (R221 to R225) -/

/-- The major opcode of a command (R221). -/
def cmdCode : CmdOp → Nat
  | .copy .. => 0xA0 | .gath .. => 0xA1 | .scat .. => 0xA2 | .fill .. => 0xA3 | .ovld .. => 0xA4 | .qfence .. => 0xA5
  | .finit .. => 0xC0 | .fupd .. => 0xC1 | .fdwn .. => 0xC2 | .ftrs .. => 0xC3 | .ftrb .. => 0xC4 | .frd .. => 0xC5 | .fwr .. => 0xC6
  | .fdia .. => 0xC7
/-- The completion record of a command, when it asks for one (R221, R294). -/
def postRecord (s : State) (c : Cmd) (r : Run) (status cause : Nat) (info : Word) : State :=
  if c.evq == 0 then s
  else postEvq s c.evq c.ctxh { bytes := complBits status (cmdCode c.op) cause (tagBits c.tag) r.bytes r.ets info, ts := r.ets }
/-- An operation of the copy queue ends: its record is posted, an overlay load's waiters learn of it (R221, R227). -/
def endCopy (s : State) (k : Nat) (c : Cmd) (status cause : Nat) (info : Word) : State :=
  let s := postRecord s c (queueAt s k false).run status cause info
  let s := match c.op with
    | .ovld ovl _ => { s with core.loadEnds := s.core.loadEnds ++ [(c.core, ovl, status == 0)] }
    | _ => s
  popQueue s k false
/-- The bytes of a remote copy that have not been sent go out as a WRITE packet (R225, R363). -/
def flushRemote (s : State) (k : Nat) (d : CopyDesc) : State :=
  let r := (queueAt s k false).run
  if !d.rt || r.pend.isEmpty then s
  else
    let xid := s.link.xid % 2 ^ 32
    let s := queuePacket { s with link.xid := s.link.xid + 1 } (r.peer - 1)
      (peerPacket (.write r.pend.length (ofBytes r.pend)) r.pendAt xid)
    putRun s k false { r with pend := [], out := r.out ++ [(xid, r.pend.length, r.pendAt)] }
/-- The route of a remote copy at a beat (R225): nothing, or how the operation ends. -/
def routeFault (s : State) (c : Cmd) (d : CopyDesc) : Option Cause :=
  if !d.rt then none
  else match checkHome s c.ctxh d.aux with
    | .error e => some e.cause
    | .ok _ => if (routeAt s d.aux).gone then some .peerGone else none
/-- The operation is to end so, once the packets it has sent are answered; nothing more goes out through a route that has lapsed or is
GONE, which ends an operation with bytes still to send (R224, R225). -/
def finishCopy (s : State) (k : Nat) (c : Cmd) (status cause : Nat) (info : Word) : State :=
  match sidesOf c.op with
  | none => settle s (status, cause, info)
  | some x => match routeFault s c x.d with
    | none => settle (flushRemote s k x.d) (status, cause, info)
    | some e =>
      if status == 0 && !(queueAt s k false).run.pend.isEmpty then settle s (if e == .lapsed then 1 else 2, causeCode e, x.d.aux)
      else settle s (status, cause, info)
where
  /-- The end is reached, or waits for answers. -/
  settle (s : State) (e : Nat × Nat × Word) : State :=
    let r := (queueAt s k false).run
    if r.out.length == r.acked.length then endCopy s k c e.1 e.2.1 e.2.2
    else putRun s k false { r with fin := some e, wait := false }
/-- An access of the operation is refused (R223, R224). -/
def refuseCopy (s : State) (k : Nat) (c : Cmd) (cause : Cause) (p : Word) : State :=
  finishCopy s k c (if cause == .lapsed then 1 else 2) (causeCode cause) p
/-- A unit of a remote destination joins the packet being made, which holds contiguous bytes and at most 2,048 (R225, R363). -/
def storeRemote (s : State) (k : Nat) (d : CopyDesc) (p : Word) (n v : Nat) : State :=
  let r := (queueAt s k false).run
  let joins := r.pend.isEmpty || (r.pendAt + r.pend.length == p.toNat && decide (r.pend.length + n ≤ 2048))
  let s := if joins then s else flushRemote s k d
  let r := (queueAt s k false).run
  putRun s k false { r with pend := r.pend ++ toBytes n v, pendAt := if r.pend.isEmpty then p.toNat else r.pendAt }
/-- The engine of a cluster acting for a command. -/
def copyWho (k : Nat) (c : Cmd) : Who := { holder := copyHolder k, core := c.core, ctxh := c.ctxh, privb := c.privb, env := c.env }
/-- The accesses of the beat in progress, one after the other, until it is complete or must wait (R219). -/
def copySteps (k : Nat) (c : Cmd) (x : Sides) : Nat → State → State
  | 0, s => s
  | fuel + 1, s =>
    let r := (queueAt s k false).run
    let next (s : State) (read : Bool) (p : Word) : EOut → State
      | .made t v ts =>
        copySteps k c x fuel (putRun t k false { r with pos := r.pos + 1, vals := if read then r.vals ++ [v] else r.vals, ets := ts })
      | .wait t => t
      | .sent t => putRun t k false { r with wait := true }
      | .refused e => refuseCopy s k c e.cause p
    match x.step r.beat r.pos r.vals with
    | .index p => next s true p (engineAccess (copyWho k c) p 4 .read r.ets s)
    | .load p n => next s true p (engineAccess (copyWho k c) p n .read r.ets s)
    | .store p n v =>
      if x.d.rt then match routeFault s c x.d with
      | some e => refuseCopy s k c e x.d.aux
      | none =>
        let t := storeRemote s k x.d p n v
        let r := (queueAt t k false).run
        copySteps k c x fuel (putRun t k false { r with pos := r.pos + 1 })
      else next s false p (engineAccess (copyWho k c) p n (.write v) r.ets s)
    | .over =>
      let bytes := if x.d.rt then r.bytes else r.bytes + (x.span r.beat).2 * x.ud
      putRun s k false { r with beat := r.beat + 1, phase := 0, pos := 0, vals := [], bytes := bytes }
/-- One beat of a data command (R219, R224): a beat that has begun, `phase` 1, completes whatever stops the operation. -/
def dataBeat (s : State) (k : Nat) (c : Cmd) (x : Sides) : State :=
  let r := (queueAt s k false).run
  if r.phase == 1 then copySteps k c x 256 s
  else if (x.span r.beat).2 == 0 then finishCopy s k c 0 0 0
  else if cmdHeld s c then s
  else if stopStatus s k c != 0 then finishCopy s k c (stopStatus s k c) 0 0
  else match routeFault s c x.d with
    | some e => refuseCopy s k c e x.d.aux
    | none => copySteps k c x 256 (putRun s k false { r with phase := 1 })
/-- The loads of a beat of an overlay load, `n` bytes at the image's address `a` to offset `off` of the frame: sector by sector, as requests
of the engine in the memory order, `pos` counting the bytes that have come (R226); the rest of the beat is zeros, and the last beat maps
the overlay. -/
def overlaySteps (k : Nat) (c : Cmd) (ovl a n off : Nat) : Nat → State → State
  | 0, s => s
  | fuel + 1, s =>
    let r := (queueAt s k false).run
    if r.pos < n then
      let m := min (64 - (a + r.pos) % 64) (n - r.pos)
      match engineTurn (copyWho k c) s (engineMem (copyWho k c) 0 (a + r.pos) m false 0 .read r.ets s) with
      | .made t v ts =>
        overlaySteps k c ovl a n off fuel
          (putRun { t with mem := memWrite t.mem (frameAt c.core r.frame (off + r.pos)) m v } k false { r with pos := r.pos + m, ets := ts })
      | .wait t | .sent t => t
      | .refused e => endCopy s k c 2 (causeCode e.cause) e.info0
    else
      let s := { s with mem := memWrite s.mem (frameAt c.core r.frame (off + n)) (64 - n) 0 }
      let s := putRun s k false { r with beat := r.beat + 1, phase := 0, pos := 0, bytes := r.bytes + 64 }
      if r.beat + 1 < 1024 then s
      else endCopy { s with core.ovt := tset 0 s.core.ovt (c.core * 4 + r.frame) ovl
                            core.ovUse := tset 0 s.core.ovUse (c.core * 4 + r.frame) s.issues } k c 0 0 0
/-- One beat of an overlay load (R226): 64 bytes of the image, loaded in the memory order, or zeros beyond it. A beat that has begun,
`phase` 1, completes whatever stops the operation (R224). -/
def overlayBeat (s : State) (k : Nat) (c : Cmd) (ovl : Nat) : State :=
  let r := (queueAt s k false).run
  if r.phase == 0 && cmdHeld s c then s
  else if r.phase == 0 && stopStatus s k c != 0 then endCopy s k c (stopStatus s k c) 0 0
  else match bundleEntry s c.ctxh c.env.bundle ovl with
    | none => endCopy s k c 2 9 (BitVec.ofNat 64 ovl)
    | some (base, len) =>
      let off := 64 * r.beat
      overlaySteps k c ovl (base + off) (min 64 (len - off)) off 3 (putRun s k false { r with phase := 1 })
/-- COPY_BEAT: the copy engine of a cluster performs one beat of its operation (R219, R226), or ends it when the packets it has
sent are answered (R225). -/
def execCopyBeat (cluster : Nat) (s : State) : Host.Outcome State Fault Refusal :=
  .next (confine s
    (let q := queueAt s cluster false
    match q.cmds.head? with
    | none => s
    | some c =>
      if !q.run.started || q.run.wait then s
      else match q.run.fin with
        | some (st, ca, info) => if q.run.out.length == q.run.acked.length then endCopy s cluster c st ca info else s
        | none => match c.op with
          | .ovld ovl _ => overlayBeat s cluster c ovl
          | op => match sidesOf op with
            | some x => dataBeat s cluster c x
            | none => s))

/-! ### The start of an operation (R61, R62, R226) -/

/-- The frame an overlay load takes (R226): the one named, the lowest empty one, or the one longest without an issue. -/
def overlayFrame (s : State) (core : Nat) (frame : Option Nat) : Nat :=
  match frame with
  | some f => f
  | none => match leastFrom (fun f => tget 0 s.core.ovt (core * 4 + f) == 0) 0 4 with
    | some f => f
    | none => ((List.range 4).foldl (fun b f =>
        let u := tget 0 s.core.ovUse (core * 4 + f)
        match b with
        | some (u', f') => if u < u' then some (u, f) else some (u', f')
        | none => some (u, f)) (none : Option (Nat × Nat))).elim 0 (·.2)
/-- An overlay load reaches the head of the queue (R226). -/
def startOverlay (s : State) (k : Nat) (c : Cmd) (ovl : Nat) (frame : Option Nat) : State :=
  if (frameOf s c.core ovl).isSome then endCopy s k c 0 0 0
  else if (bundleEntry s c.ctxh c.env.bundle ovl).isNone then endCopy s k c 2 9 (BitVec.ofNat 64 ovl)
  else
    let f := overlayFrame s c.core frame
    putRun { s with core.ovt := tset 0 s.core.ovt (c.core * 4 + f) 0 } k false { (queueAt s k false).run with frame := f }
/-- The operation at the head of a copy queue starts (R61): one of a stopped launch is held, a cancelled one posts its record at once
(R224), and a QFENCE is performed when what it waits for has been (R62). -/
def startCopy (s : State) (k : Nat) : State :=
  let q := queueAt s k false
  match q.cmds.head? with
  | none => s
  | some c =>
    if q.run.started || cmdHeld s c then s
    else
      let t := putRun s k false { started := true, ets := max c.pts q.ets, peer := peerNow c }
      if stopStatus s k c != 0 then endCopy t k c (stopStatus s k c) 0 0
      else match c.op with
        | .qfence _ ts => fenceHead s k false c ts
        | .ovld ovl f => startOverlay t k c ovl f
        | _ => t
where
  /-- The K-link peer of a remote copy's route. -/
  peerNow (c : Cmd) : Nat :=
    match sidesOf c.op with
    | some x => if x.d.rt && (lifeOf s (hKey x.d.aux)).gen == hGen x.d.aux then (routeAt s x.d.aux).peer else 0
    | none => 0

/-! ### Replies of peers (R225, R350, R366, R368) -/

/-- A peer's reply to an access of a copy engine through a PEER entry (R350, R368): bytes, or the cause of a refusal;
`ptr` is the access's pointer. -/
def copyReply (s : State) (k : Nat) (ptr : Word) (res : Except Cause Nat) : State :=
  let q := queueAt s k false
  match q.cmds.head?.bind fun c => (sidesOf c.op).map fun x => (c, x) with
  | some (c, x) =>
    if !q.run.wait then s
    else match res with
      | .ok v =>
        let read := match x.step q.run.beat q.run.pos q.run.vals with
          | .store .. => false
          | _ => true
        putRun s k false { q.run with wait := false, pos := q.run.pos + 1, vals := if read then q.run.vals ++ [v] else q.run.vals }
      | .error e => refuseCopy s k c e ptr
  | none => s
/-- The remote copy that runs in a cluster through a K-link port. -/
def remoteRun (s : State) (k port : Nat) : Option (Cmd × CopyDesc) :=
  let q := queueAt s k false
  match q.cmds.head?.bind fun c => (sidesOf c.op).map fun x => (c, x.d) with
  | some (c, d) => if q.run.started && d.rt && q.run.peer == port + 1 then some (c, d) else none
  | none => none
/-- A remote copy takes a WDONE (R225, R368): it counts the packet's bytes, keeps a refusal, whose packet counts none, or ends DESYNC and
sets its route GONE when the WDONE pairs with no packet that awaits one. A STATUS that is no cause is PROTECTION (log entry 32). -/
def takeWdone (s : State) (k : Nat) (c : Cmd) (d : CopyDesc) (xid status : Nat) : State :=
  let r := (queueAt s k false).run
  match r.out.find? fun o => o.1 == xid with
  | some (_, n, a) =>
    if r.acked.contains xid then desync s (putRun s k false { r with bytes := r.bytes - n })
    else if status == 0 then putRun s k false { r with bytes := r.bytes + n, acked := xid :: r.acked }
    else
      let cause := (causeOf? status).getD .protection
      let refused := (if cause == .lapsed then 1 else 2, causeCode cause, BitVec.ofNat 64 a)
      let fin := match r.fin with
        | none | some (0, _, _) => refused
        | some f => f
      putRun s k false { r with acked := xid :: r.acked, fin := some fin, out := r.out.map fun o => if o.1 == xid then (xid, 0, a) else o }
  | none => desync s s
where
  /-- The end of the operation with STATUS DESYNC. -/
  desync (_ t : State) : State :=
    let rt := routeAt t d.aux
    let t := if (lifeOf t (hKey d.aux)).gen == hGen d.aux then
        failSends (putRoute t (hKey d.aux) { rt with gone := true }) (hKey d.aux) { cause := .peerGone, info0 := d.aux, detail := 8 }
      else t
    endCopy t k c 5 0 d.aux
/-- The port of a remote copy has gone DOWN (R366). -/
def copyDown (s : State) (port k : Nat) : State :=
  match remoteRun s k port with
  | some (c, d) => endCopy s k c 2 0x12 d.aux
  | none => s

/-! ### Overlay loads of a core (R103, R149, R227, R248) -/

/-- The bundle of a record's launch. -/
def recBundle (s : State) (r : Rec) : Nat := (launchAt s r.launch.toNat).bundle
/-- Who waits for an overlay load: core, overlay, context, record, PTS and bundle. -/
def overlayWants (s : State) : List (Nat × Nat × Word × Rec × Nat × Nat) :=
  (s.core.park.filterMap fun e =>
    if e.2.used && e.2.ovl != 0 then some (e.1 / 32, e.2.ovl, e.2.ctxh, e.2.record, e.2.pts, recBundle s e.2.record) else none) ++
  (s.core.slots.filterMap fun e => match e.2.wait with
    | .overlay pc => some (e.1 / 16, pcOvl pc, e.2.ctxh, e.2.record, e.2.ctx.pts, recBundle s e.2.record)
    | _ => none) ++
  (s.eng.pairs.flatMap fun e => [e.2.staging, e.2.compute].filterMap fun x =>
    if x.st == 1 && x.wait && !x.fetched && (frameOf s e.2.owner.core (pcOvl x.ctx.pc)).isNone then
      some (e.2.owner.core, pcOvl x.ctx.pc, e.2.ctxh, e.2.record, x.ctx.pts, e.2.env.bundle)
    else none)
/-- The command loads this overlay on this core. -/
def loadsOverlay (core ovl : Nat) (c : Cmd) : Bool :=
  c.core == core && (match c.op with | .ovld o _ => o == ovl | _ => false)
/-- A load of the overlay on the core is queued, running, or has just ended (R227). -/
def overlayComing (s : State) (core ovl : Nat) : Bool :=
  let q := queueAt s (clusterOf core) false
  q.cmds.any (loadsOverlay core ovl) || q.waits.any (fun w => loadsOverlay core ovl w.cmd)
    || s.core.loadEnds.any fun e => e.1 == core && e.2.1 == ovl
/-- OVERLAY_LOAD: the core of waiter `n` queues a load of its overlay as its own command, unless one is coming (R227). -/
def execOverlayLoad (n : Nat) (s : State) : Host.Outcome State Fault Refusal :=
  .next (confine s (match (overlayWants s)[n]? with
    | some (core, ovl, ctxh, r, pts, bundle) =>
      if overlayComing s core ovl then s
      else
        let k := clusterOf core
        let q := queueAt s k false
        let c : Cmd := { op := .ovld ovl none, tag := {}, core := core, ctxh := ctxh, record := r, privb := 0, pts := pts, evq := 0,
                         own := true, env := { bundle := bundle } }
        if q.cmds.length < 64 && q.waits.isEmpty then enterQueue s k false c
        else putQueue s k false { q with waits := q.waits ++ [{ core := core, cmd := c }] }
    | none => s))
/-- A restart-parked record whose overlay cannot be loaded traps OVERLAY_MISS as Fatal (R103, R227). TAG of its record is the park
entry's (DESIGN CHOICE, log entry 43). -/
def parkedMiss (s : State) (core i ovl : Nat) : State :=
  let p := tget {} s.core.park (core * 32 + i)
  let l := launchAt s p.record.launch.toNat
  let t : Strand := { ctx := { pc := p.record.code, pts := p.pts } }
  let tag : Tag := { core := core, slot := i, gen := p.gen, park := true }
  let e : Exc := { cause := .overlayMiss, step := 2, info0 := BitVec.ofNat 64 ovl, fatal := true }
  let rec_ : TrapRec := { bytes := trapBytes t tag (localDt s core) e true false false, fatal := true,
                          launch := p.record.launch.toNat, tq := l.tq, ctxh := p.ctxh }
  let s := unitEnds (orphan { s with core.park := tset {} s.core.park (core * 32 + i) { gen := p.gen } } p.former) p.record p.pts 9 p.resp
  raiseRecord s core rec_
/-- What a core does with the waiters of an overlay load that has ended (R227, R149, R248). -/
def overlayEnded (s : State) (core ovl : Nat) (ok : Bool) : State :=
  let s := (List.range 32).foldl (fun s i =>
    let p := tget {} s.core.park (core * 32 + i)
    if p.used && p.ovl == ovl && ovl != 0 then if ok then pushParked s core i 0 else parkedMiss s core i ovl else s) s
  let s := (List.range 16).foldl (fun s i => match strandAt s core i with
    | some t => match t.wait with
      | .overlay pc =>
        if pcOvl pc != ovl then s
        else if ok then stepTrap (putStrand s core i { t with ctx := { t.ctx with pc := pc }, st := 0, wait := .none }) core i
        else trapStrand s core i { cause := .overlayMiss, info0 := BitVec.ofNat 64 ovl, fatal := true }
      | _ => s
    | none => s) s
  if ok then s
  else
    let k := clusterOf core
    [false, true].foldl (fun s cp =>
      let p := pairAt s k
      let x := p.stream cp
      if p.owner.core == core && x.st == 1 && x.wait && !x.fetched && pcOvl x.ctx.pc == ovl then
        faultStream s k cp { cause := .overlayMiss, step := 2, info0 := BitVec.ofNat 64 ovl, fatal := true }
      else s) s
/-- OVERLAY_LOAD_END: the core of an overlay load that has ended serves those who wait for it (R227). -/
def execOverlayLoadEnd (n : Nat) (s : State) : Host.Outcome State Fault Refusal :=
  .next (confine s (match s.core.loadEnds[n]? with
    | some (core, ovl, ok) => overlayEnded { s with core.loadEnds := dropAt s.core.loadEnds n } core ovl ok
    | none => s))

end Sys2Proof.Machine
end

