-- ==== Sys2Proof/Machine/Matrix.lean ====
section
/-! DEFINITION. The matrix engine and the sequencer pair (R229 to R274): tiles, buffers, scale segments, exact accumulation,
FORK, RDZV and semaphores. -/

namespace Sys2Proof.Machine
open Sys2Proof

/-! ### Performing with waits (R241, R249, R253) -/

/-- What a part of a stream's instruction comes to: done with a value, waiting in the middle of its accesses, waiting where a stop of the
stream abandons it (R249), or a fault that keeps what was done (R250). -/
inductive Flow (α : Type) where
  | ok (s : State) (a : α)
  | hold (s : State)
  | rest (s : State)
  | fault (s : State) (e : Exc)
/-- One part after another. -/
def Flow.bind {α β : Type} (x : Flow α) (f : State → α → Flow β) : Flow β :=
  match x with
  | .ok s a => f s a
  | .hold s => .hold s
  | .rest s => .rest s
  | .fault s e => .fault s e
/-- A check that changes nothing. -/
def check {α : Type} (s : State) (x : Except Exc α) : Flow α :=
  match x with
  | .ok a => .ok s a
  | .error e => .fault s e
/-- The state an instruction leaves: it waits where it stands, or faults. -/
def flowed : Flow Unit → State
  | .ok s _ => s
  | .hold s => suspend s 1 .again
  | .rest s => suspend (mapStream s fun x => { x with rest := true }) 1 .again
  | .fault s e => raise e s
/-- An instruction that is performed so. -/
def runFlow (pl : Place) (g : Guard) (body : State → Flow Unit) (s : State) : Host.Outcome State Fault Refusal :=
  .next (confine s (perform pl g none (fun s => flowed (body s)) s))
/-- The cluster of the acting stream or strand. -/
def curCluster (s : State) : Nat :=
  match s.cur with
  | .stream k _ => k
  | _ => clusterOf (curCore s)
/-- The acting stream. -/
def curStream (s : State) : Stream :=
  match s.cur with
  | .stream k cp => (pairAt s k).stream cp
  | _ => {}
/-- A stream's accesses are those of its forking strand (R253). -/
def streamWho (s : State) : Who :=
  let k := curCluster s
  let p := pairAt s k
  { holder := seqHolder k, unit := if s.cur == .stream k true then 2 else 1, core := p.owner.core, ctxh := p.ctxh, privb := p.privb, env := p.env }
/-- What an instruction takes as it begins, taken once. -/
def begin_ (s : State) (f : State → Except Exc (State × List Nat)) : Flow (List Nat) :=
  let x := curStream s
  if !x.head.isEmpty then .ok s x.head
  else match f s with
    | .error e => .fault s e
    | .ok (t, h) => .ok (mapStream t fun x => { x with head := h }) h
/-- The same of an instruction that checks its operands (`pre`), reads the shape record at `p` and then checks what it says (`post`): a
fault of the record keeps its reading, and a failed word names the record's pointer (R253). -/
def beginRead (s : State) (p : Word) (pre : Except Exc Unit) (read : State → State × Nat) (post : State → Nat → Except Exc (State × List Nat)) :
    Flow (List Nat) :=
  let x := curStream s
  if !x.head.isEmpty then .ok s x.head
  else match pre with
    | .error e => .fault s e
    | .ok _ =>
      let t := (read s).1
      match softCheck t, post t (read s).2 with
      | .error e, _ => .fault t { e with info0 := p }
      | _, .error e => .fault t e
      | _, .ok (u, h) => .ok (mapStream u fun x => { x with head := h }) h
/-- `count` reads of `n` bytes at the pointers `f` gives, in order; those made before a wait are not made again. -/
def readAll (n count : Nat) (f : Nat → Word) : Nat → State → Flow (List Nat)
  | 0, s => .ok s (curStream s).vals.reverse
  | fuel + 1, s =>
    let x := curStream s
    match x.refused with
    | some e => .fault s e
    | none =>
      if count ≤ x.pos then .ok s x.vals.reverse
      else if x.sent then .hold s
      else match engineAccess (streamWho s) (f x.pos) n .read (rPts s) s with
        | .made t v ts => readAll n count f fuel (wPts (mapStream t fun x => { x with vals := v :: x.vals, pos := x.pos + 1 }) ts)
        | .wait t => .hold t
        | .sent t => .hold (mapStream t fun x => { x with sent := true })
        | .refused e => .fault s { e with info0 := f x.pos }
/-- Writes of `n` bytes in order, the pointers and values being listed; those made before a wait are not made again. -/
def writeAll (n : Nat) (ws : List (Word × Nat)) : Nat → State → Flow Unit
  | 0, s => .ok s ()
  | fuel + 1, s =>
    let x := curStream s
    match x.refused, ws[x.pos]? with
    | some e, _ => .fault s e
    | none, none => .ok s ()
    | none, some (p, v) =>
      if x.sent then .hold s
      else match engineAccess (streamWho s) p n (.write v) (rPts s) s with
        | .made t _ ts => writeAll n ws fuel (wPts (mapStream t fun x => { x with pos := x.pos + 1 }) ts)
        | .wait t => .hold t
        | .sent t => .hold (mapStream t fun x => { x with sent := true })
        | .refused e => .fault s { e with info0 := p }
/-- A peer's reply to an access of a stream (R253, R350, R368). -/
def streamReply (s : State) (k : Nat) (cp : Bool) (ptr : Word) (res : Except Cause Nat) : State :=
  let p := pairAt s k
  let x := p.stream cp
  if !x.sent then s
  else match res with
    | .ok v => putPair s k (p.setStream cp { x with sent := false, pos := x.pos + 1, vals := v :: x.vals })
    | .error c => putPair s k (p.setStream cp { x with sent := false, refused := some { cause := c, info0 := ptr } })
/-- INFO1 of a fault of the acting stream (R250). -/
def streamInfo1 (s : State) (detail col grp : Nat) : Word :=
  BitVec.ofNat 64 (pcIdx (curCtx s).pc * 2 ^ 48 + (if s.cur == .stream (curCluster s) true then 2 ^ 40 else 0)
    + detail % 65536 * 2 ^ 24 + col % 256 * 65536 + grp % 65536)
/-- A matrix operation has been performed: the stream goes on when it has ended (R275). -/
def busyNow (s : State) : State := mapStream (advance s) fun x => { x with busy := true }

/-! ### Formats and elements (R229 to R235) -/

/-- The width in bits of a B format's element (R229). -/
def fmtBits (f : Nat) : Nat :=
  match f with
  | 1 => 32 | 2 => 16 | 5 => 6 | 6 => 6 | 7 => 4 | 10 => 4 | 11 => 3 | 12 => 2 | 13 => 4 | 14 => 3 | _ => 8
/-- The format is scaled as a B operand (R229). -/
def scaledFmt (f : Nat) : Bool := 5 ≤ f && f ≤ 14
/-- A format of A (R229). -/
def aFmt (f : Nat) : Bool := 2 ≤ f && f ≤ 4
/-- A format of B (R229). -/
def bFmt (f : Nat) : Bool := 2 ≤ f && f ≤ 14
/-- The canonical NaN, infinities and finite values as BF16 patterns: exact for every A and B value (R231). -/
def toBf16 (x : FVal) : Nat := (bf16.finish .rne (x, 0)).1
/-- A two's-complement value of `b` bits. -/
def twos (v b : Nat) : Int := if 2 ^ (b - 1) ≤ v % 2 ^ b then (v % 2 ^ b : Int) - 2 ^ b else v % 2 ^ b
/-- An element as a BF16 pattern: `code` is the codebook, 16 entries in one number (R230, R231, R235). -/
def expand (f code v : Nat) : Nat :=
  match f with
  | 2 => v % 65536
  | 3 | 4 | 5 | 6 | 7 => toBf16 (floatVal f v)
  | 8 => toBf16 (.ofInt (twos v 8))
  | 9 => toBf16 (.ofInt (v % 256 : Nat))
  | 10 => toBf16 (.ofInt (twos v 4))
  | 11 => toBf16 (.ofInt (twos v 3))
  | 12 => toBf16 (.ofInt (twos v 2))
  | 13 => code / 65536 ^ (v % 16) % 65536
  | _ => code / 65536 ^ (v % 8) % 65536
/-- The codebook of a bank of a core as one number (R235). -/
def codebookOf (s : State) (core bank : Nat) : Nat :=
  (List.range 16).foldr (fun i n => (tget (0 : BitVec 16) s.eng.codebook ((core * 16 + bank) * 16 + i)).toNat + 65536 * n) 0
/-- Bytes of one access to an operand tile, and accesses to one unit: an element, or a group record in words (R232). -/
def unitAccess (f : Nat) : Nat × Nat := if scaledFmt f then (4, fmtBits f) else (fmtSize f, 1)
/-- Bytes of a unit (R256). -/
def unitBytes (f : Nat) : Nat := (unitAccess f).1 * (unitAccess f).2

/-! ### Matrix shapes and global tiles (R256 to R258) -/

/-- A matrix shape's pointer names the issuing cluster's scratchpad and is 32-byte aligned (R256). -/
def mshapePtr (s : State) (core : Nat) (p : Word) : Bool :=
  pScratch p && pZeroOk p && clusterOf (pCore core p) == clusterOf core && corePresent s (pCore core p) && p.toNat % 32 == 0
/-- Step 2 of R258 for one shape, before its record is read. -/
def mshapeCheck (s : State) (core : Nat) (p : Word) : Except Exc Unit := do
  need (mshapePtr s core p) (bad p)
  need (winOk s (pCore core p) core (pOff p) 32 true false) { cause := .windowRefused, info0 := p, detail := 1 }
/-- The record of a matrix shape read as one access: the state with the acting agent's timestamp moved, and the record's bits. -/
def mshapeRead (s : State) (core : Nat) (p : Word) : State × Nat :=
  let r := spLoad s (pCore core p) (pOff p) 32 (rPts s)
  (wPts r.1 r.2.2, r.2.1)
/-- The record is a matrix shape's; the answer is the format of its bank (R256). -/
def mshapeFmt (s : State) (core : Nat) (p : Word) (b : Nat) : Except Exc Nat := do
  let x := shapeOf s (pCore core p) p b
  need (!x.ch && x.zeroOk && x.e2 == 1 && x.e3 == 1) (bad p)
  .ok (bfmtOf s (pCore core p) (x.base / 2 ^ 15))
/-- A matrix shape from its record's bits and its format. -/
def mshapeOf (s : State) (core : Nat) (p : Word) (b fmt : Nat) : Shape := { shapeOf s (pCore core p) p b with fmt := fmt }
/-- Every unit lies in the bank, at an aligned base (R256). -/
def mshapePlaced (x : Shape) : Except Exc Unit :=
  need (x.inBank (if scaledFmt x.fmt then 4 else unitBytes x.fmt) (unitBytes x.fmt)) x.bad
/-- The pointer of access `i` to the units of a shape, in the space of its own pointer (R256). -/
def mshapeAt (x : Shape) (i : Nat) : Word :=
  let (n, k) := unitAccess x.fmt
  let off := x.addr (n * k) (i / k) + n * (i % k)
  (x.ptr &&& ~~~(0x7FFFF#64)) ||| BitVec.ofNat 64 (off % 2 ^ 19)
/-- The checks of a global tile's base and pitch (R257, R258 step 4). -/
def tileCheck (s : State) (base pitch : Word) (row : Nat) : Except Exc Unit := do
  need (pSpace base == 0 || pSpace base == 4) (bad base)
  checkPtr s base 32 1
  need (pitch.toNat % 32 == 0 && decide (row ≤ pitch.toNat)) (bad pitch)
/-- The pointer of access `i` to a global tile whose rows hold `per` accesses of `n` bytes. -/
def tileAt (base pitch : Word) (n per i : Nat) : Word :=
  base + BitVec.ofNat 64 (i / per * pitch.toNat) + BitVec.ofNat 64 (n * (i % per))
/-- K is from 32 to 256 and a multiple of 32 (R259, R260). -/
def kOk (k : Nat) : Bool := 32 ≤ k && k ≤ 256 && k % 32 == 0
/-- BAD_OPERAND of a value (R258). -/
def badNat (v : Nat) : Exc := bad (BitVec.ofNat 64 v)

/-! ### Buffers (R236, R259 to R261) -/

/-- A buffer of a pair: WB0 to WB3 are 0 to 3, XB0 and XB1 are 4 and 5. -/
def bufAt (s : State) (k n : Nat) : Buf := tget {} (pairAt s k).bufs n
/-- The elements of a B tile, ascending k and in it ascending column, from the accesses to it (R232, R260). -/
def bElems (f code k : Nat) (vs : List Nat) : List Nat :=
  if scaledFmt f then
    let b := fmtBits f
    let recs := (List.range (64 * (k / 32))).map fun i => ((vs.drop (i * b)).take b).foldr (fun v n => v + 2 ^ 32 * n) 0
    (List.range k).flatMap fun kk => (List.range 64).map fun n =>
      expand f code ((recs[kk / 32 * 64 + n]?.getD 0) / 2 ^ (b * (kk % 32)) % 2 ^ b)
  else vs.map (expand f code)
/-- The staging stream has begun a load into a buffer (R261). -/
def loadInto (s : State) (n : Nat) : State := mapStream s fun x => { x with into := some n }
/-- The stream's load ends in a buffer (R261): it is in progress until the operation ends. -/
def loadBuf (s : State) (n : Nat) (b : Buf) : State := busyNow (mapStream s fun x => { x with load := some (n, b), into := none })
/-- The free values of a read of buffers are used up. -/
def freshen (s : State) : State := { s with fresh := s.fresh + 65536 }
/-- Where a buffer holds element `i` of a tile of the given K: an activation buffer, 4 and 5, row by row of its own K. -/
def Buf.place (b : Buf) (n k i : Nat) : Option Nat :=
  if n < 4 then some i else if i % k < b.k then some (i / k * b.k + i % k) else none
/-- The element of a tile of the given K that a buffer holds. -/
def Buf.elem? (b : Buf) (n k i : Nat) : Option Nat := (b.place n k i).bind fun j => b.elems[j]?
/-- A buffer's elements, of the K that it had, as an accumulation that began with `old` reads them (R261, log entry 10): where a load has
overlapped the read, each is the value before the load or the one after it. -/
def bufMix (s : State) (c n k : Nat) (old : List Nat) : List Nat :=
  let now := bufAt s c n
  let new : Buf := match (pairAt s c).staging.load with
    | some (m, b) => if m == n then b else {}
    | none => {}
  (old.zipIdx).map fun (v, i) =>
    let v := if Config.freeBit (s.fresh + 2 * i) then (now.elem? n k i).getD v else v
    if Config.freeBit (s.fresh + 2 * i + 1) then (new.elem? n k i).getD v else v
/-- An accumulation reads a buffer: while a load into it is being read, it may wait for the values after the load (R261). -/
def bufRead (s : State) (c n k : Nat) (old : List Nat) : Flow (List Nat) :=
  let x := (pairAt s c).staging
  if x.st == 1 && x.into == some n && Config.freeBit s.fresh then .hold { s with fresh := s.fresh + 1 }
  else .ok (freshen s) (bufMix s c n k old)
/-- The elements that the accesses to an A tile have brought, with their numbers (R259). -/
def aRead (f : Nat) (vs : List Nat) : List (Nat × Nat) := vs.zipIdx.map fun v => (v.2, expand f 0 v.1)
/-- The elements that the accesses to a B tile have brought, with their numbers: those of whole units (R232, R260). -/
def bRead (f code k : Nat) (vs : List Nat) : List (Nat × Nat) :=
  ((bElems f code k vs).zipIdx.map fun v => (v.2, v.1)).filter fun v =>
    !scaledFmt f || decide ((v.1 / 2048 * 64 + v.1 % 64 + 1) * fmtBits f ≤ vs.length)
/-- A load that is running, or faults, has written the elements that its accesses have brought (R261). -/
def loadPart (n k : Nat) (elems : List Nat → List (Nat × Nat)) (x : Flow (List Nat)) : Flow (List Nat) :=
  match x with
  | .ok s vs => .ok s vs
  | .hold s => .hold (put s)
  | .rest s => .rest (put s)
  | .fault s e => .fault (put s) e
where
  /-- The elements written. -/
  put (s : State) : State :=
    let c := curCluster s
    let b := bufAt s c n
    let es := (elems (curStream s).vals.reverse).foldl (fun es v => match b.place n k v.1 with
      | some j => es.set j v.2
      | none => es) b.elems
    putPair s c { pairAt s c with bufs := tset {} (pairAt s c).bufs n { b with elems := es } }
/-- MLDA (R259). -/
def execMlda (g : Guard) (a : Src) (b : GReg) (s : State) : Host.Outcome State Fault Refusal :=
  runFlow .staging g (fun s =>
    let core := curCore s
    let n := srcZ s a
    let p := rG s b
    (beginRead s p (do
      need (decide (n.toNat < 2)) (bad n)
      mshapeCheck s core p) (fun s => mshapeRead s core p) fun s r => do
      let f ← mshapeFmt s core p r
      let x := mshapeOf s core p r f
      need (aFmt f) (bad p)
      need (kOk x.e0) (badNat x.e0)
      need (decide (1 ≤ x.e1) && decide (x.e1 ≤ 128)) (badNat x.e1)
      mshapePlaced x
      .ok (loadInto s (4 + n.toNat), [r, f])).bind fun s h =>
    let x := mshapeOf s core p (h[0]?.getD 0) (h[1]?.getD 0)
    (loadPart (4 + n.toNat) x.e0 (aRead x.fmt) (readAll (fmtSize x.fmt) x.count (mshapeAt x) 32769 s)).bind fun s vs =>
    .ok (loadBuf s (4 + n.toNat) { filled := true, fmt := x.fmt, k := x.e0, m := x.e1, elems := vs.map (expand x.fmt 0) }) ()) s
/-- MCFG's fields (R237). -/
def mcfgA (s : State) : Nat := (pairAt s (curCluster s)).mcfg.toNat / 16 % 16
/-- WFMT. -/
def mcfgW (s : State) : Nat := (pairAt s (curCluster s)).mcfg.toNat % 16
/-- The codebook for weights from global memory (R235, R237). -/
def mcfgCode (s : State) : Nat := codebookOf s (curCore s) ((pairAt s (curCluster s)).mcfg.toNat / 256 % 16)
/-- MLDA.G (R257, R259). -/
def execMldaG (g : Guard) (n : Fin 2) (a b : GReg) (k : BitVec 16) (m : BitVec 8) (s : State) : Host.Outcome State Fault Refusal :=
  runFlow .staging g (fun s =>
    let base := rG s a
    let pitch := rG s b
    (begin_ s fun s => do
      need (kOk k.toNat) (badNat k.toNat)
      need (decide (1 ≤ m.toNat) && decide (m.toNat ≤ 128)) (badNat m.toNat)
      tileCheck s base pitch (k.toNat * fmtSize (mcfgA s))
      .ok (loadInto s (4 + n.val), [mcfgA s])).bind fun s h =>
    let f := h[0]?.getD 2
    (loadPart (4 + n.val) k.toNat (aRead f)
      (readAll (fmtSize f) (k.toNat * m.toNat) (tileAt base pitch (fmtSize f) k.toNat) 32769 s)).bind fun s vs =>
    .ok (loadBuf s (4 + n.val) { filled := true, fmt := f, k := k.toNat, m := m.toNat, elems := vs.map (expand f 0) }) ()) s
/-- MLDB (R260). -/
def execMldb (g : Guard) (a : Src) (b : GReg) (s : State) : Host.Outcome State Fault Refusal :=
  runFlow .staging g (fun s =>
    let core := curCore s
    let n := srcZ s a
    let p := rG s b
    (beginRead s p (do
      need (decide (n.toNat < 4)) (bad n)
      mshapeCheck s core p) (fun s => mshapeRead s core p) fun s r => do
      let f ← mshapeFmt s core p r
      let x := mshapeOf s core p r f
      need (bFmt f) (bad p)
      need (x.e0 == 64) (badNat x.e0)
      need (if scaledFmt f then decide (1 ≤ x.e1) && decide (x.e1 ≤ 8) else kOk x.e1) (badNat x.e1)
      mshapePlaced x
      .ok (loadInto s n.toNat, [r, f, codebookOf s (pCore core p) (x.base / 2 ^ 15)])).bind fun s h =>
    let x := mshapeOf s core p (h[0]?.getD 0) (h[1]?.getD 0)
    let (z, per) := unitAccess x.fmt
    let k := if scaledFmt x.fmt then 32 * x.e1 else x.e1
    (loadPart n.toNat k (bRead x.fmt (h[2]?.getD 0) k) (readAll z (x.count * per) (mshapeAt x) 16385 s)).bind fun s vs =>
    .ok (loadBuf s n.toNat { filled := true, fmt := x.fmt, k := k, m := 0, elems := bElems x.fmt (h[2]?.getD 0) k vs }) ()) s
/-- Accesses to the rows of a global B tile: bytes of one, number in a row, rows (R260). -/
def bTile (f k : Nat) : Nat × Nat × Nat :=
  let (z, per) := unitAccess f
  (z, 64 * per, if scaledFmt f then k / 32 else k)
/-- MLDB.G (R257, R260). -/
def execMldbG (g : Guard) (n : Fin 4) (a b : GReg) (k : BitVec 16) (s : State) : Host.Outcome State Fault Refusal :=
  runFlow .staging g (fun s =>
    let base := rG s a
    let pitch := rG s b
    (begin_ s fun s => do
      need (kOk k.toNat) (badNat k.toNat)
      tileCheck s base pitch (64 * unitBytes (mcfgW s))
      .ok (loadInto s n.val, [mcfgW s, mcfgCode s])).bind fun s h =>
    let f := h[0]?.getD 2
    let (z, per, rows) := bTile f k.toNat
    (loadPart n.val k.toNat (bRead f (h[1]?.getD 0) k.toNat) (readAll z (per * rows) (tileAt base pitch z per) 16385 s)).bind fun s vs =>
    .ok (loadBuf s n.val { filled := true, fmt := f, k := k.toNat, m := 0, elems := bElems f (h[1]?.getD 0) k.toNat vs }) ()) s
/-- MSCL (R241, R262). -/
def execMscl (g : Guard) (a : GReg) (b : Src) (s : State) : Host.Outcome State Fault Refusal :=
  runFlow .staging g (fun s =>
    let p := rG s a
    let c := (srcZ s b).toNat
    let core := curCore s
    (check s (do
      need (decide (1 ≤ c) && decide (c ≤ 1024)) (badNat c)
      need (pSpace p != 3 || clusterOf (pCore core p) == clusterOf core) (bad p)
      checkPtr3 s p 1)).bind fun s _ =>
    let fifo := (pairAt s (curCluster s)).fifo
    if fifo.length < 8 && (fifo.map List.length).sum + c ≤ 2048 then
      (readAll 1 c (fun i => p + BitVec.ofNat 64 i) 1025 s).bind fun s vs =>
      let k := curCluster s
      let q := pairAt s k
      .ok (busyNow (putPair s k { q with fifo := q.fifo ++ [vs.map (BitVec.ofNat 8)] })) ()
    else .rest s) s
/-- MLUT (R263). -/
def execMlut (g : Guard) (a : GReg) (b : Src) (s : State) : Host.Outcome State Fault Refusal :=
  runFlow .staging g (fun s =>
    let p := rG s a
    let v := srcZ s b
    (check s (do
      need (decide (v.toNat < 64)) (bad v)
      checkPtr s p 32 1)).bind fun s _ =>
    (readAll 32 1 (fun _ => p) 2 s).bind fun s vs =>
    let core := curCluster s * 4 + v.toNat / 16
    let bits := vs.headD 0
    let s := (List.range 16).foldl (fun s i =>
      { s with eng.codebook := tset 0 s.eng.codebook ((core * 16 + v.toNat % 16) * 16 + i) (BitVec.ofNat 16 (bits / 65536 ^ i)) }) s
    .ok (busyNow s) ()) s

/-! ### Scale segments (R239 to R241) -/

/-- The nibbles of a segment, lowest byte and low nibble first (R240). -/
def nibbles (b : List Byte) : List Nat := b.flatMap fun x => [x.toNat % 16, x.toNat / 16]
/-- A fault of the decoding: DETAIL, COL and GRP with the cause (R250). -/
structure ScaleFault where
  cause : Cause
  detail : Int
  col : Nat
  grp : Nat
/-- One exponent of a column's chain: what it is and the nibbles left (R240). -/
def oneScale (prev : Int) (col grp : Nat) : List Nat → Except ScaleFault (Int × List Nat)
  | [] => .error ⟨.streamDesync, 0xFFFF, col, grp⟩
  | c :: r =>
    let e : Except ScaleFault (Int × List Nat) :=
      if c == 8 then match r with
        | lo :: hi :: r => .ok ((hi * 16 + lo : Nat), r)
        | _ => .error ⟨.streamDesync, 0xFFFF, col, grp⟩
      else .ok (prev + (if 8 ≤ c then (c : Int) - 16 else c), r)
    match e with
    | .error f => .error f
    | .ok (e, r) => if e < 0 || 254 < e then .error ⟨.scaleRange, e, col, grp⟩ else .ok (e, r)
/-- The columns of a group in ascending order (R240). -/
def groupScales (grp : Nat) : Nat → List Int → List Nat → Except ScaleFault (List Int × List Nat)
  | _, [], ns => .ok ([], ns)
  | col, p :: ps, ns =>
    match oneScale p col grp ns with
    | .error f => .error f
    | .ok (e, ns) => match groupScales grp (col + 1) ps ns with
      | .error f => .error f
      | .ok (es, ns) => .ok (e :: es, ns)
/-- The groups of an operation in ascending order, and the end of the segment (R240). -/
def decodeScales : Nat → Nat → List Int → List Nat → Except ScaleFault (List (List Int))
  | 0, _, _, ns =>
    match ns with
    | [] | [0] => .ok []
    | _ => .error ⟨.streamDesync, ns.length, 0xFF, 0xFFFF⟩
  | n + 1, grp, prev, ns =>
    match groupScales grp 0 prev ns with
    | .error f => .error f
    | .ok (es, ns) => match decodeScales n (grp + 1) es ns with
      | .error f => .error f
      | .ok r => .ok (es :: r)
/-- The scales of an operation on B of a format and K (R239, R241): the oldest segment decoded, waited for while the staging
stream runs. `h` is the slot. -/
def takeScales (s : State) (f k : Nat) (h : Word) : Flow (List (List Int)) :=
  let c := curCluster s
  let p := pairAt s c
  if !scaledFmt f then .ok s (List.replicate (k / 32) (List.replicate 64 127))
  else
    let fail (s : State) (x : ScaleFault) : Flow (List (List Int)) :=
      .fault s { cause := x.cause, info0 := h, info1 := some (streamInfo1 s (x.detail % 65536).toNat x.col x.grp) }
    match p.fifo with
    | [] => if p.staging.st == 1 then .rest s else fail s ⟨.streamDesync, 0xFFFF, 0, 0⟩
    | seg :: rest =>
      let s := putPair s c { p with fifo := rest }
      match decodeScales (k / 32) 0 (List.replicate 64 127) (nibbles seg) with
      | .ok r => .ok s r
      | .error x => fail s x

/-! ### Exact accumulation (R243 to R245) -/

/-- A BF16 value in an accumulation: its class, and a finite one's value times 2^133. -/
inductive BVal where
  | fin (v : Int)
  | inf (neg : Bool)
  | nan
  deriving DecidableEq, Repr
/-- The value of a BF16 pattern. -/
def bval (b : Nat) : BVal :=
  match bf16.unpack b with
  | .nan _ => .nan
  | .inf n => .inf n
  | .fin n m e => .fin (signed n (m * 2 ^ (e + 133).toNat))
/-- The value is ±0. -/
def BVal.isZero : BVal → Bool
  | .fin v => v == 0
  | _ => false
/-- The value is finite. -/
def BVal.finite : BVal → Bool
  | .fin _ => true
  | _ => false
/-- The products of a group for one element put together: the exact sum times 2^266, whether it is NaN, which infinities it
holds, whether a NaN was produced (R243). -/
structure PSum where
  sum : Int := 0
  nan : Bool := false
  pinf : Bool := false
  ninf : Bool := false
  nv : Bool := false
/-- One more product. -/
def PSum.add (x : PSum) : BVal → BVal → PSum
  | .nan, _ | _, .nan => { x with nan := true }
  | .fin a, .fin b => { x with sum := x.sum + a * b }
  | .inf n, .inf m => if n != m then { x with ninf := true } else { x with pinf := true }
  | .inf n, .fin b | .fin b, .inf n =>
    if b == 0 then { x with nan := true, nv := true }
    else if n != decide (b < 0) then { x with ninf := true } else { x with pinf := true }
/-- MSTAT bits (R238). -/
def msOF : Nat := 1
/-- NV. -/
def msNV : Nat := 2
/-- NAN. -/
def msNAN : Nat := 4
/-- INF. -/
def msINF : Nat := 8
/-- add_rn of an FP32 pattern and a value: the pattern, and the MSTAT bits it sets (R243). -/
def addRn (acc : Nat) (y : FVal) : Nat × Nat :=
  let r := f32.finish .rne (fAdd .rne (f32.unpack acc) y)
  (r.1, (if r.2 / 16 % 2 == 1 then msNV else 0) + if r.2 / 4 % 2 == 1 then msOF else 0)
/-- One element after one group (R243): `scale` is its exponent. -/
def addGroup (acc : Nat) (scale : Int) (a b : List BVal) : Nat × Nat :=
  let p := (a.zip b).foldl (fun p x => p.add x.1 x.2) ({} : PSum)
  if p.nan || (p.pinf && p.ninf) then (0x7FC00000, if p.nv || (p.pinf && p.ninf) then msNV else 0)
  else if p.pinf || p.ninf then addRn acc (.inf p.ninf)
  else if p.sum == 0 then (acc, 0)
  else addRn acc (.fin (decide (p.sum < 0)) p.sum.natAbs (scale - 127 - 266))
/-- The 32 values of a row of A in a group. -/
def rowGroup (a : List BVal) (k m g : Nat) : List BVal := (a.drop (m * k + 32 * g)).take 32
/-- The 32 values of a column of B in a group; B has 64 columns. -/
def colGroup (b : List BVal) (n g : Nat) : List BVal := (List.range 32).map fun j => b[(32 * g + j) * 64 + n]?.getD (.fin 0)
/-- MSTAT bits of the values that enter a group (R244). -/
def enterBits (vs : List BVal) : Nat :=
  (if vs.any (fun v => match v with | .inf _ => true | _ => false) then msINF else 0)
    + if vs.any (fun v => v == .nan) then msNAN else 0
/-- An accumulation into a slot's elements, row by row of 64 (R243): elements and MSTAT bits. -/
def accumulate (acc : List Nat) (a b : List BVal) (k m : Nat) (scales : List (List Int)) : List Nat × Nat :=
  (List.range (k / 32)).foldl (fun (x : List Nat × Nat) g =>
    let sc := scales[g]?.getD []
    let bs := (List.range 64).map fun n => colGroup b n g
    let rows := (List.range m).map fun i => rowGroup a k i g
    let res := (List.range (64 * m)).map fun i =>
      addGroup (x.1[i]?.getD 0) (sc[i % 64]?.getD 127) (rows[i / 64]?.getD []) (bs[i % 64]?.getD [])
    (res.map (·.1), res.foldl (fun n r => n ||| r.2) (x.2 ||| enterBits (rows.flatten ++ bs.flatten)))) (acc, 0)
/-- The key of an accumulator element: slot of the device, row and column. -/
def accKey (slot i : Nat) : Nat := slot * 8192 + i
/-- The first `n` elements of a slot. -/
def slotElems (s : State) (slot n : Nat) : List Nat := (List.range n).map fun i => (tget (0 : BitVec 32) s.eng.acc (accKey slot i)).toNat
/-- A slot with its first elements replaced. -/
def putElems (s : State) (slot : Nat) (vs : List Nat) : State :=
  (vs.zipIdx).foldl (fun s v => { s with eng.acc := tset 0 s.eng.acc (accKey slot v.2) (BitVec.ofNat 32 v.1) }) s
/-- Step 6 of R258: the slot event at its arbiter (R25, R251, R252): the slot's number in the device. -/
def slotEvent (s : State) (h : Word) : Except Exc Nat := do
  checkHandle s [4] h
  need (hHome h == curCluster s * 4) (hExc .badOperand h)
  checkHome s (curCtxh s) h
  let n := slotKey (hKey h) 8
  need (!(tget ({} : Mslot) s.eng.mslots n).parked) (hExc .protection h)
  .ok n
/-- The map an MMA observes: a bit for each group whose A values are all ±0 (R245). -/
def observedMap (a : List BVal) (k m : Nat) : List Bool :=
  (List.range (k / 32)).map fun g => (List.range m).all fun i => (rowGroup a k i g).all BVal.isZero
/-- The service counters of zero-block prediction (R245, R275, R384): predicted, mispredicted, cycles saved. -/
def countZero (s : State) (cl : Nat) (zmap seen : List Bool) (b : List BVal) (paired : Bool) : State :=
  (List.range seen.length).foldl (fun s g =>
    if zmap[g]?.getD false then
      let s := countSvc s cl 20 1
      if seen[g]?.getD false && (List.range 64).all (fun n => (colGroup b n g).all BVal.finite) then countSvc s cl 22 (if paired then 16 else 32)
      else countSvc s cl 21 1
    else s) s
/-- The accumulation of A and B into a slot, at its event (R251, R265, R266). -/
def accumulateInto (s : State) (h : Word) (a b : List Nat) (k m af bf : Nat) (scales : List (List Int)) (predict : Bool) : Flow Unit :=
  match slotEvent s h with
  | .error e => .fault s e
  | .ok slot =>
    let av := a.map bval
    let bv := b.map bval
    let r := accumulate (slotElems s slot (64 * m)) av bv k m scales
    let c := curCluster s
    let s := raiseMstat (putElems s slot r.1) c (BitVec.ofNat 64 r.2)
    let paired := (af == 3 || af == 4) && ((3 ≤ bf && bf ≤ 7) || (10 ≤ bf && bf ≤ 12))
    let s := if predict then
        let seen := observedMap av k m
        let p := pairAt s c
        putPair (countZero s c p.zmap seen bv paired) c { p with zmap := seen }
      else s
    .ok (busyNow s) ()

/-! ### Compute instructions (R264 to R269) -/

/-- MCFG (R264). -/
def execMcfg (g : Guard) (a : Src) (s : State) : Host.Outcome State Fault Refusal :=
  runFlow .compute g (fun s =>
    let v := srcZ s a
    (check s (need (decide (v.toNat < 2 ^ 12) && aFmt (v.toNat / 16 % 16) && bFmt (v.toNat % 16)) (bad v))).bind fun s _ =>
    let k := curCluster s
    .ok (busyNow (putPair s k { pairAt s k with mcfg := v })) ()) s
/-- MMA with A from a shape (R265). -/
def execMma (g : Guard) (d : GReg) (a : Src) (b : GReg) (s : State) : Host.Outcome State Fault Refusal :=
  runFlow .compute g (fun s =>
    let core := curCore s
    let c := curCluster s
    let h := rG s d
    let w := srcZ s a
    let p := rG s b
    (beginRead s p (do
      need (decide (w.toNat < 4)) (bad w)
      mshapeCheck s core p) (fun s => mshapeRead s core p) fun s r => do
      let f ← mshapeFmt s core p r
      need (bufAt s c w.toNat).filled (bad w)
      let x := mshapeOf s core p r f
      need (aFmt f) (bad p)
      need (kOk x.e0) (badNat x.e0)
      need (decide (1 ≤ x.e1) && decide (x.e1 ≤ 128)) (badNat x.e1)
      need (x.e0 == (bufAt s c w.toNat).k) (badNat x.e0)
      mshapePlaced x
      .ok (s, [r, f, (bufAt s c w.toNat).fmt] ++ (bufAt s c w.toNat).elems)).bind fun s hd =>
    let x := mshapeOf s core p (hd[0]?.getD 0) (hd[1]?.getD 0)
    let bf := hd[2]?.getD 2
    (readAll (fmtSize x.fmt) x.count (mshapeAt x) 32769 s).bind fun s vs =>
    (bufRead s c w.toNat x.e0 (hd.drop 3)).bind fun s wb =>
    (takeScales s bf x.e0 h).bind fun s sc =>
    accumulateInto s h (vs.map (expand x.fmt 0)) wb x.e0 x.e1 x.fmt bf sc true) s
/-- MMA.X: A from an activation buffer (R265). -/
def execMmaX (g : Guard) (d : GReg) (a b : Src) (s : State) : Host.Outcome State Fault Refusal :=
  runFlow .compute g (fun s =>
    let c := curCluster s
    let h := rG s d
    let w := srcZ s a
    let v := srcZ s b
    (begin_ s fun s => do
      need (decide (w.toNat < 4)) (bad w)
      need (decide (v.toNat < 2)) (bad v)
      need (bufAt s c w.toNat).filled (bad w)
      let wb := bufAt s c w.toNat
      let xb := bufAt s c (4 + v.toNat)
      need xb.filled (bad v)
      need (xb.k == wb.k) (badNat xb.k)
      .ok (s, [wb.fmt, xb.fmt, xb.k, xb.m] ++ wb.elems ++ xb.elems)).bind fun s hd =>
    let bf := hd[0]?.getD 2
    let k := hd[2]?.getD 0
    let rest := hd.drop 4
    (bufRead s c w.toNat k (rest.take (64 * k))).bind fun s b =>
    (bufRead s c (4 + v.toNat) k (rest.drop (64 * k))).bind fun s a =>
    (takeScales s bf k h).bind fun s sc =>
    accumulateInto s h a b k (hd[3]?.getD 0) (hd[1]?.getD 0) bf sc true) s
/-- MMV (R246, R266). -/
def execMmv (g : Guard) (d a b : GReg) (x : Fin 2) (s : State) : Host.Outcome State Fault Refusal :=
  runFlow .compute g (fun s =>
    let c := curCluster s
    let h := rG s d
    let base := rG s a
    let pitch := rG s b
    (begin_ s fun s => do
      let xb := bufAt s c (4 + x.val)
      need xb.filled (badNat x.val)
      need (decide (1 ≤ xb.m) && decide (xb.m ≤ 8)) (badNat xb.m)
      tileCheck s base pitch (64 * unitBytes (mcfgW s))
      .ok (s, [mcfgW s, mcfgCode s, xb.fmt, xb.k, xb.m] ++ xb.elems)).bind fun s hd =>
    let f := hd[0]?.getD 2
    let k := hd[3]?.getD 0
    let (z, per, rows) := bTile f k
    (readAll z (per * rows) (tileAt base pitch z per) 16385 s).bind fun s vs =>
    (bufRead s c (4 + x.val) k (hd.drop 5)).bind fun s a =>
    (takeScales s f k h).bind fun s sc =>
    accumulateInto s h a (bElems f (hd[1]?.getD 0) k vs) k (hd[4]?.getD 0) (hd[2]?.getD 0) f sc false) s
/-- MZRO (R267). -/
def execMzro (g : Guard) (d : GReg) (s : State) : Host.Outcome State Fault Refusal :=
  runFlow .compute g (fun s =>
    (check s (slotEvent s (rG s d))).bind fun s slot =>
    .ok (busyNow { s with eng.acc := s.eng.acc.filter fun e => e.1 / 8192 != slot }) ()) s
/-- The element MWB writes (R268). -/
def mwbElem (f : Nat) (sat : Bool) (v : Nat) : Nat := if f == 1 then v else (wr f .rne sat (f32.unpack v, 0)).1
/-- MWB (R268): the slot event reads all the elements at once, then they are written one by one. -/
def execMwb (g : Guard) (d a : GReg) (sat : Bool) (s : State) : Host.Outcome State Fault Refusal :=
  runFlow .compute g (fun s =>
    let core := curCore s
    let h := rG s d
    let p := rG s a
    (beginRead s p (mshapeCheck s core p) (fun s => mshapeRead s core p) fun s r => do
      let f ← mshapeFmt s core p r
      let x := mshapeOf s core p r f
      need (1 ≤ f && f ≤ 4) (bad p)
      need (decide (1 ≤ x.e0) && decide (x.e0 ≤ 64)) (badNat x.e0)
      need (decide (1 ≤ x.e1) && decide (x.e1 ≤ 128)) (badNat x.e1)
      mshapePlaced x
      let slot ← slotEvent s h
      .ok (s, [r, f] ++ (List.range (x.e0 * x.e1)).map fun i =>
        (tget (0 : BitVec 32) s.eng.acc (accKey slot (i / x.e0 * 64 + i % x.e0))).toNat)).bind fun s hd =>
    let x := mshapeOf s core p (hd[0]?.getD 0) (hd[1]?.getD 0)
    let ws := ((hd.drop 2).zipIdx).map fun v => (mshapeAt x v.2, mwbElem x.fmt sat v.1)
    (writeAll (fmtSize x.fmt) ws 8193 s).bind fun s _ => .ok (busyNow s) ()) s
/-- A reply that the acting strand awaits, or a stream's result at once (R269, R272): registers and a timestamp. -/
def respondWith (s : State) (ws : List (Nat × Word)) (pts : Nat) : State :=
  match s.cur with
  | .strand _ _ =>
    let tag := curTag s
    let s := sendReply (suspend s 1 .reply) tag (.regs ws pts)
    if s.far then s else deliver s tag
  | _ => advance (writeRegs s ws)
/-- MRDS (R269). -/
def execMrds (g : Guard) (d a : GReg) (b : Src) (s : State) : Host.Outcome State Fault Refusal :=
  run .strandOrCompute g none (fun s => do
    let i := srcZ s b
    need (decide (i.toNat < 8192)) (bad i)
    let slot ← slotEvent s (rG s a)
    .ok (respondWith s [(d.val, (tget (0 : BitVec 32) s.eng.acc (accKey slot i.toNat)).setWidth 64)] (rPts s))) s

/-! ### Fork, join and semaphores (R249, R270 to R274) -/

/-- A code pointer of FORK (R270). -/
def forkPtr (v : Word) : Except Exc Unit := need (v == 0 || codeOk v.toNat) (bad v)
/-- A stream of a new fork; a null pointer starts it at DONE (R248, R270). -/
def forkStream (c : Ctx) (pc : Word) : Stream :=
  if pc == 0 then { ctx := { c with pc := 0 }, st := 2 } else { ctx := { c with pc := pc.setWidth 32 }, st := 1 }
/-- The pair taken by the acting strand (R63, R249, R270). -/
def startFork (s : State) (a b : Word) : State :=
  let k := clusterOf (curCore s)
  let p := pairAt s k
  let st := if a == 0 && b == 0 then 3 else if a == 0 || b == 0 then 2 else 1
  advance (putPair s k
    { p with st := st, owner := curTag s, ctxh := curCtxh s, record := curRec s, privb := curPrivb s, env := curEnv s, ended := false,
             fault := none, staging := forkStream (curCtx s) a, compute := forkStream (curCtx s) b,
             forks := p.forks.filter (· != curTag s), fifo := [], zmap := [],
             sems := p.sems.map fun e => (e.1, { e.2 with queue := e.2.queue.filter fun x => x != .stream k false && x != .stream k true }) })
/-- FORK (R249, R270): it waits for the pair in the order of its arbiter. -/
def execFork (g : Guard) (a b : Src) (s : State) : Host.Outcome State Fault Refusal :=
  run .strand g none (fun s => do
    let pa := srcZ s a
    let pb := srcZ s b
    forkPtr pa
    forkPtr pb
    let k := clusterOf (curCore s)
    let p := pairAt s k
    let tag := curTag s
    if p.st == 0 && (p.forks.isEmpty || p.forks.head? == some tag) then .ok (startFork s pa pb)
    else .ok (suspend (putPair s k { p with forks := if p.forks.contains tag then p.forks else p.forks ++ [tag] }) 1 .again)) s
/-- The fault of a segment left at the join (R241, R250). -/
def joinFault (p : Pair) : PairFault :=
  let left := 2 * (p.fifo.map List.length).sum
  { cause := .streamDesync, info0 := 0, info1 := BitVec.ofNat 64 (0xFFFF * 2 ^ 48 + left % 65536 * 2 ^ 24 + 0xFF * 65536 + 0xFFFF) }
/-- The join of an open fork (R249, R250, R272). -/
def join (s : State) (k : Nat) : State :=
  let p := pairAt s k
  let f := if p.st == 4 then p.fault else if p.fifo.isEmpty then none else some (joinFault p)
  let s := putPair s k { p with st := 0, fifo := [], fault := none }
  match f with
  | some f => raise { cause := f.cause, info0 := f.info0, info1 := some f.info1, fatal := f.cause == .overlayMiss } s
  | none => advance (wPts s (max (rPts s) (max p.staging.ctx.pts p.compute.ctx.pts)))
/-- RDZV (R272). -/
def execRdzv (g : Guard) (s : State) : Host.Outcome State Fault Refusal :=
  run .strand g none (fun s =>
    let k := clusterOf (curCore s)
    let p := pairAt s k
    if p.st == 0 || p.owner != curTag s then .ok (advance s)
    else if p.st == 3 || p.st == 4 then .ok (join s k)
    else .ok (suspend s 1 .again)) s
/-- A semaphore of the acting agent's cluster. -/
def semAt (s : State) (n : Nat) : Sem := tget {} (pairAt s (curCluster s)).sems n
/-- The state with a semaphore set. -/
def putSem (s : State) (n : Nat) (x : Sem) : State :=
  let k := curCluster s
  let p := pairAt s k
  putPair s k { p with sems := tset {} p.sems n x }
/-- The operand of a semaphore instruction (R258 step 1). -/
def semNum (s : State) (a : Src) : Except Exc Nat := do
  need (decide ((srcZ s a).toNat < 8)) (bad (srcZ s a))
  .ok (srcZ s a).toNat
/-- SEMP (R273). -/
def execSemp (g : Guard) (a : Src) (s : State) : Host.Outcome State Fault Refusal :=
  run .any g none (fun s => do
    let n ← semNum s a
    let x := semAt s n
    need (decide (x.count < 65535)) (badNat n)
    .ok (advance (putSem s n { x with count := x.count + 1, ets := max x.ets (rPts s) }))) s
/-- The agent waits in SEMW. -/
def inSemw (s : State) : Agent → Bool
  | .strand c i => match strandAt s c i with
    | some t => t.wait == .sem
    | none => false
  | .stream k cp => let x := (pairAt s k).stream cp; x.st == 1 && x.wait && x.fetched
  | .none => false
/-- The acting stream's partner has reached DONE or has faulted (R274). -/
def partnerEnded (s : State) : Bool :=
  match s.cur with
  | .stream k cp => ((pairAt s k).stream (!cp)).st != 1
  | _ => false
/-- STREAM_DESYNC of a SEMW (R274). -/
def semwFault : Exc := { cause := .streamDesync, info0 := 0 }
/-- SEMW (R273, R274): served in the order of the arbiter. -/
def execSemw (g : Guard) (a : Src) (s : State) : Host.Outcome State Fault Refusal :=
  run .any g none (fun s => do
    let n ← semNum s a
    let x := semAt s n
    let q := x.queue.filter fun y => y == s.cur || inSemw s y
    let first := q.isEmpty || q.head? == some s.cur
    need (!(curStream s).doomed) semwFault
    if x.count != 0 && first then
      .ok (advance (wPts (doomStarved (putSem s n { count := x.count - 1, ets := x.ets, queue := q.filter (· != s.cur) }) (curCluster s))
        (max (rPts s) x.ets)))
    else do
      need (!(x.count == 0 && partnerEnded s)) semwFault
      let t := mapStream s fun x => { x with rest := true }
      .ok (suspend (putSem t n { x with queue := if q.contains s.cur then q else q ++ [s.cur] }) 1 .sem)) s
/-- SEMW_STREAM_DESYNC: a stream that waited in SEMW on a count of 0 as its partner ended faults, whatever SEMPs have come since (R274). -/
def execSemwStreamDesync (cluster : Nat) (compute : Bool) (s : State) : Host.Outcome State Fault Refusal :=
  .next (confine s
    (let p := pairAt s cluster
    let x := p.stream compute
    let waits := p.sems.any fun e => e.2.count == 0 && e.2.queue.contains (.stream cluster compute)
    if (p.st == 1 || p.st == 2) && inSemw s (.stream cluster compute) && (x.doomed || waits) && (p.stream (!compute)).st != 1 && x.ctx.iw.extractLsb' 88 8 == 0xBD#8 then
      faultStream s cluster compute semwFault
    else s))

end Sys2Proof.Machine
end

