-- ==== Sys2Proof/Machine/Census.lean ====
section
/-! DEFINITION. Key directories and censuses (R322 to R342): registering and moving entries, waves, responders, reports, the
root. -/

namespace Sys2Proof.Machine
open Sys2Proof

/-! ### Scratchpad in words (R49) -/

/-- `k` loads of `n` bytes in ascending address: the values and the timestamp. -/
def loadWords (core n : Nat) : State → Nat → Nat → Nat → State × List Nat × Nat
  | s, _, 0, ts => (s, [], ts)
  | s, off, k + 1, ts =>
    let r := spLoad s core off n ts
    let q := loadWords core n r.1 (off + n) k r.2.2
    (q.1, r.2.1 :: q.2.1, q.2.2)
/-- Stores of `n` bytes each in ascending address: the last timestamp. -/
def storeWords (core n : Nat) : State → Nat → List Nat → Nat → State × Nat
  | s, _, [], ts => (s, ts)
  | s, off, v :: vs, ts =>
    let r := spStore s core off n ts v
    storeWords core n r.1 (off + n) vs r.2
/-- A range of bytes lies in one bank. -/
def oneBank (off n : Nat) : Bool := off / 2 ^ 15 == (off + n - 1) / 2 ^ 15

/-! ### Directories (R322, R323) -/

/-- A directory entry of a core. -/
def direntAt (s : State) (core i : Nat) : Dirent := tget {} s.census.dirents (core * 128 + i)
/-- The state with a directory entry set. -/
def putDirent (s : State) (core i : Nat) (e : Dirent) : State :=
  { s with census.dirents := tset {} s.census.dirents (core * 128 + i) e }
/-- The life entry of directory entry `i` of a core. -/
def direntKey (core i : Nat) : Nat := entryKey 6 core i
/-- A core's part in the censuses. -/
def coreCensus (s : State) (core : Nat) : CoreCensus := tget {} s.census.cores core
/-- The state with a core's part set. -/
def putCoreCensus (s : State) (core : Nat) (c : CoreCensus) : State :=
  { s with census.cores := tset {} s.census.cores core c }
/-- The present cores (R13). -/
def presentCores (s : State) : List Nat := (List.range 1024).filter (corePresent s)
/-- A registration block (R322), and whether its fields are within their limits. -/
def regBlock (b : Nat) : Dirent × Bool :=
  let f (off n : Nat) : Nat := b / 256 ^ off % 256 ^ n
  ({ key := BitVec.ofNat 64 (f 0 8), tile := BitVec.ofNat 64 (f 8 8), code := BitVec.ofNat 32 (f 0x10 4), prio := f 0x14 1,
     frn := f 0x15 1, launch := f 0x16 2, frb := f 0x18 4 },
   codeOk (f 0x10 4) && decide (f 0x14 1 < 16) && decide (1 ≤ f 0x15 1) && decide (f 0x15 1 ≤ 8) && f 0x18 4 % 64 == 0
     && decide (f 0x18 4 + 320 * f 0x15 1 ≤ 0x80000) && f 0x1C 4 == 0)
/-- The launch of a registration block (R338), checked where its entry is, after the checks of the issuing core (R392). -/
def checkEntryLaunch (s : State) (n : Nat) : Except Exc Unit := do
  let l := launchAt s n
  need (l.st != 0) (badNat n)
  need (l.ctxh == curCtxh s) { cause := .protection, info0 := BitVec.ofNat 64 n }
  need (admits s l (curCore s)) (badNat n)
/-- DREG (R322, R338). -/
def execDreg (g : Guard) (d a : GReg) (b : Src) (s : State) : Host.Outcome State Fault Refusal :=
  run .strand g none (fun s => do
    let core := curCore s
    let p := rG s a
    let off ← ownPtr s p 32
    let term ← u32 (srcZ s b)
    let r := spLoad s core off 32 (rPts s)
    softCheck r.1
    let (e, good) := regBlock r.2.1
    need good (bad p)
    checkEntryLaunch s e.launch
    let s := wPts r.1 r.2.2
    .ok (match freeEntry s 6 core with
      | some key =>
        let s := issueEntry s key (curCtxh s) (localDt s core + term)
        let s := putDirent s core (key % 128) e
        respondWith s [(d.val, curHandle s key)] (rPts s)
      | none => respondWith s [(d.val, 0)] (rPts s))) s
/-- DREG.MOVE (R334 step 1, R339). -/
def execDregMove (g : Guard) (d a : GReg) (b : Src) (s : State) : Host.Outcome State Fault Refusal :=
  run .strand g none (fun s => do
    let core := curCore s
    let h := rG s a
    let t := srcZ s b
    checkHandle s [6] h
    need (hHome h == core) (hExc .badOperand h)
    need (corePresent s t.toNat && t.toNat != core) (bad t)
    checkHome s (curCtxh s) h
    let m : Move := { src := core, dst := t.toNat, index := hIndex h, gen := hGen h, tile := rG s d, tag := curTag s, d := d,
                      ent := direntAt s core (hIndex h) }
    .ok (suspend { s with census.moves := s.census.moves ++ [m] } 1 .reply)) s

/-! ### Combiners (R329 to R331) -/

/-- The combiner's code (R329). -/
def combCode : Comb → Nat
  | .sum32 => 0 | .max32 => 1 | .min32 => 2 | .count => 3 | .or64 => 4 | .first => 5 | .lsev => 6
/-- The identity of a combiner; no word for an absent value (R329). -/
def combId (c : Comb) (d : Nat) : List Nat :=
  match c with
  | .sum32 | .count | .or64 => [0]
  | .max32 => [0x80000000]
  | .min32 => [0x7FFFFFFF]
  | .first => []
  | .lsev => 0xFF800000 :: List.replicate (d + 1) 0
/-- ex of R330. -/
def lsevEx (x : Nat) : Nat := (vexp false (f32.unpack x)).1
/-- The merge of two payloads (R330). -/
def lsevMerge (x y : List Nat) : List Nat :=
  let ident (v : List Nat) : Bool := v.headD 0 == 0xFF800000 && v.tail.all (· == 0)
  if ident x then y
  else if ident y then x
  else
    let xm := f32.unpack (x.headD 0)
    let ym := f32.unpack (y.headD 0)
    let rn (v : FVal × Nat) : Nat := (f32.finish .rne v).1
    let put (m a b : Nat) : List Nat :=
      m :: (x.tail.zip y.tail).map fun v =>
        rn (fFma .rne (f32.unpack v.2) (f32.unpack b) (f32.unpack (rn (fMul (f32.unpack v.1) (f32.unpack a)))))
    if (fCond .eq xm ym).1 then put (x.headD 0) 0x3F800000 0x3F800000
    else
      let m := rn (fMinMax true xm ym)
      put m (lsevEx (rn (fSub .rne xm (f32.unpack m)))) (lsevEx (rn (fSub .rne ym (f32.unpack m))))
/-- A 32-bit pattern as a signed number. -/
def s32 (v : Nat) : Int := (BitVec.ofNat 32 v).toInt
/-- The merge of an earlier and a later value (R329). -/
def combMerge (c : Comb) (x y : List Nat) : List Nat :=
  let a := x.headD 0
  let b := y.headD 0
  match c with
  | .sum32 => [(a + b) % 2 ^ 32]
  | .max32 => [if s32 a < s32 b then b else a]
  | .min32 => [if s32 b < s32 a then b else a]
  | .count => [(a + b) % 2 ^ 64]
  | .or64 => [a ||| b]
  | .first => if x.isEmpty then y else x
  | .lsev => lsevMerge x y
/-- A left fold from the identity (R331). -/
def combFold (c : Comb) (d : Nat) (vs : List (List Nat)) : List Nat := vs.foldl (combMerge c) (combId c d)
/-- RESULT of a census record (R329). -/
def combResult (c : Comb) (d : Nat) (v : List Nat) : Word :=
  match c with
  | .max32 | .min32 => (BitVec.ofNat 32 (v.headD 0)).signExtend 64
  | .lsev => BitVec.ofNat 64 (8 + 4 * d)
  | _ => BitVec.ofNat 64 (v.headD 0)

/-! ### SOLICIT and CNSQ (R324, R325, R340, R342) -/

/-- The census is open: its record has not been posted (R324). -/
def Census.isOpen (c : Census) : Bool := c.closing.isNone
/-- The asker's core of a census number (R324). -/
def askerCore (num : Nat) : Nat := num / 2 ^ 22
/-- Open censuses of a core, and of the device, laid out as CNSQ.N and CENSUS_LIMIT give them (R106, R342). -/
def openWord (s : State) (core : Nat) : Word :=
  let o := s.census.open_.filter Census.isOpen
  BitVec.ofNat 64 ((o.filter fun c => askerCore c.wave.num == core).length % 256 + o.length % 1024 * 2 ^ 32)
/-- The argument of a solicit block: nothing, or an own-scratchpad pointer's bytes (R325). -/
def argPtr (s : State) (p : Word) (len : Nat) : Except Exc Nat :=
  if len == 0 then (if p == 0 then .ok 0 else .error (bad p))
  else do
    let off ← ownPtr s p 8
    need (decide (off + len ≤ 0x80000)) (bad p)
    .ok off
/-- RESP and D of a solicit block (R325, R340): the offset of the payload. -/
def respPtr (s : State) (c : Comb) (d : Nat) (p : Word) : Except Exc Nat :=
  if c == .lsev then do
    need (decide (1 ≤ d) && decide (d ≤ 256)) (badNat d)
    let off ← ownPtr s p 8
    need (oneBank off (8 + 4 * d)) (bad p)
    .ok off
  else do
    need (d == 0) (badNat d)
    need (p == 0) (bad p)
    .ok 0
/-- The next sequence number of a slot (R324). -/
def nextSeqNo (n : Nat) : Nat := if (n + 1) % 2 ^ 19 == 0 then 1 else (n + 1) % 2 ^ 19
/-- The fields of a solicit block (R325, R340): the offsets of the argument and of the payload. -/
def checkSolicit (s : State) (c : Comb) (p : Word) (b : Nat) : Except Exc (Nat × Nat) := do
  let f (o n : Nat) : Nat := b / 256 ^ o % 256 ^ n
  need (f 0x14 4 == 0) (bad p)
  checkHandle s [7] (BitVec.ofNat 64 (f 0 8))
  need (decide (f 0x10 2 ≤ 256) && f 0x10 2 % 8 == 0) (badNat (f 0x10 2))
  let aoff ← argPtr s (BitVec.ofNat 64 (f 8 8)) (f 0x10 2)
  let resp ← respPtr s c (f 0x12 2) (BitVec.ofNat 64 (f 0x18 8))
  .ok (aoff, resp)
/-- The census slot a SOLICIT takes, with the root's admission, or CENSUS_LIMIT (R106, R324, R392). -/
def censusSlot (s : State) (core : Nat) : Except Exc Nat :=
  let limit : Exc := { cause := .censusLimit, step := 7, info0 := openWord s core }
  match leastFrom (fun i => !(coreCensus s core).slots.contains i) 0 8 with
  | none => .error limit
  | some i => if (s.census.open_.filter Census.isOpen).length < 512 then .ok i else .error limit
/-- A census is opened in slot `i` of its asker's core, and its wave goes out (R324, R326). -/
def openCensus (s : State) (core i : Nat) (w : Wave) : State :=
  let cc := coreCensus s core
  let s := putCoreCensus s core { cc with slots := cc.slots ++ [i], seqs := tset 0 cc.seqs i (w.num % 2 ^ 19) }
  { s with census.open_ := s.census.open_ ++ [{ wave := w, toTake := presentCores s, left := presentCores s }] }
/-- SOLICIT (R324 to R326, R340). -/
def execSolicit (g : Guard) (c : Comb) (d a b : GReg) (s : State) : Host.Outcome State Fault Refusal :=
  run .strand g none (fun s => do
    let core := curCore s
    let off ← ownPtr s (rG s b) 32
    let r := spLoad s core off 32 (rPts s)
    softCheck r.1
    let f (o n : Nat) : Nat := r.2.1 / 256 ^ o % 256 ^ n
    let x ← checkSolicit s c (rG s b) r.2.1
    let q := loadWords core 8 r.1 x.1 (f 0x10 2 / 8) r.2.2
    softCheck q.1
    let i ← censusSlot s core
    let num := core * 2 ^ 22 + i * 2 ^ 19 + nextSeqNo (tget 0 (coreCensus s core).seqs i)
    let w : Wave := { num := num, key := rG s a, comb := c, d := f 0x12 2, arg := q.2.1.flatMap (toBytes 8),
                      evq := BitVec.ofNat 64 (f 0 8), resp := x.2, ctxh := curCtxh s, pts := q.2.2 }
    .ok (respondWith (openCensus (wPts q.1 q.2.2) core i w) [(d.val, BitVec.ofNat 64 num)] q.2.2)) s
/-- CNSQ (R342). -/
def execCnsq (g : Guard) (d : GReg) (a : Src) (s : State) : Host.Outcome State Fault Refusal :=
  run .strand g none (fun s => do
    let n ← u32 (srcZ s a)
    let o := s.census.open_.any fun c => c.isOpen && c.wave.num == n && c.wave.ctxh == curCtxh s
    .ok (respondWith s [(d.val, if o then 0x8000000000000000#64 else 0)] (rPts s))) s
/-- CNSQ.N (R342). -/
def execCnsqN (g : Guard) (d : GReg) (s : State) : Host.Outcome State Fault Refusal :=
  run .strand g none (fun s => .ok (respondWith s [(d.val, openWord s (curCore s))] (rPts s))) s

/-! ### Waves and responders (R326 to R328, R341) -/

/-- The entries of a core that a wave matches, in ascending index, but for those that have already answered it (R323, R326,
R335). -/
def waveMatches (s : State) (core : Nat) (w : Wave) : List Nat :=
  (List.range 128).filter fun i =>
    let key := direntKey core i
    isLive s key && (direntAt s core i).key == w.key && (lifeOf s key).owner == w.ctxh && !(direntAt s core i).answered.contains w.num
/-- A responder for an entry, not yet spawned; its census is on the entry's answered list. -/
def addResponder (core : Nat) (w : Wave) (late : Bool) (s : State) (i : Nat) : State :=
  let e := direntAt s core i
  let x := lifeOf s (direntKey core i)
  let c := coreCensus s core
  let r : Responder := { id := s.census.next, wave := w, index := i, gen := x.gen, ent := e, owner := x.owner, late := late }
  { putDirent (putCoreCensus s core { c with resp := c.resp ++ [r] }) core i { e with answered := e.answered ++ [w.num] } with
    census.next := s.census.next + 1 }
/-- A census of the root changed. -/
def mapCensus (s : State) (n : Nat) (f : Census → Census) : State :=
  match s.census.open_[n]? with
  | some c => { s with census.open_ := setAt s.census.open_ n (f c) }
  | none => s
/-- WAVE: the directory arbiter of a core takes the wave of census `n` of the root (R326). -/
def execWave (core n : Nat) (s : State) : Host.Outcome State Fault Refusal :=
  .next (confine s (match s.census.open_[n]? with
    | some c =>
      if c.toTake.contains core then
        let s := mapCensus s n fun c => { c with toTake := c.toTake.filter (· != core) }
        let cc := coreCensus s core
        let s := putCoreCensus s core { cc with seen := cc.seen ++ [c.wave] }
        (waveMatches s core c.wave).foldl (addResponder core c.wave false) s
      else s
    | none => s))
/-- A free frame of a responder's entry, the lowest (R327). -/
def freeFrame (c : CoreCensus) (r : Responder) : Option Nat :=
  leastFrom (fun f => !c.resp.any fun x => x.index == r.index && x.gen == r.gen && x.frame == some f && !x.ended) 0 r.ent.frn
/-- The launch a responder would be of is free or belongs to another context (R328). -/
def noLaunch (s : State) (r : Responder) : Bool :=
  let l := launchAt s r.ent.launch
  l.st == 0 || l.ctxh != r.owner
/-- The responder awaits nothing but its turn. -/
def spawnable (s : State) (c : CoreCensus) (r : Responder) : Bool :=
  !r.spawned && (noLaunch s r || (freeFrame c r).isSome)
/-- A responder's frame as a number (R327). -/
def frameBits (core : Nat) (r : Responder) (off : Nat) : Nat :=
  let w := r.wave
  r.ent.key.toNat + r.ent.tile.toNat * 2 ^ 64 + (2 ^ 60 + off + 0x40) * 2 ^ 128 + w.num * 2 ^ 192 + w.arg.length * 2 ^ 224
    + w.d * 2 ^ 240 + w.evq.toNat * 2 ^ 256 + (mkHandle (direntKey core r.index) r.gen).toNat * 2 ^ 320 + combCode w.comb * 2 ^ 384
    + (if r.late then 1 else 0) * 2 ^ 392 + ofBytes w.arg * 2 ^ 512
/-- A responder spawned: its frame written and its record pushed, or ended without answering (R327, R328). -/
def spawnResponder (s : State) (core n : Nat) (r : Responder) : State :=
  let c := coreCensus s core
  if noLaunch s r then putCoreCensus s core { c with resp := setAt c.resp n { r with spawned := true, ended := true } }
  else match freeFrame c r with
    | none => s
    | some f =>
      let off := r.ent.frb + 320 * f
      let l := launchAt s r.ent.launch
      let bits := frameBits core r off
      let w := storeWords core 64 s off ((List.range 5).map fun i => bits / 2 ^ (512 * i) % 2 ^ 512) r.wave.pts
      let x : Rec := { code := r.ent.code, prio := BitVec.ofNat 8 r.ent.prio, launch := BitVec.ofNat 16 r.ent.launch,
                       frame := BitVec.ofNat 64 (2 ^ 60 + off), graph := BitVec.ofNat 32 l.graph, phase := BitVec.ofNat 32 l.phase }
      pushRing (putCoreCensus w.1 core { c with resp := setAt c.resp n { r with spawned := true, frame := some f } }) core x w.2
        (some (core, r.id)) none
/-- RESPONDER_SPAWN: responder `n` of a core is spawned; of those that can be, the first (R326, R327). -/
def execResponderSpawn (core n : Nat) (s : State) : Host.Outcome State Fault Refusal :=
  .next (confine s
    (let c := coreCensus s core
    match c.resp[n]? with
    | some r => if spawnable s c r && !(c.resp.take n).any (spawnable s c) then spawnResponder s core n r else s
    | none => s))
/-- The value of a RESPOND (R329). -/
def combValue (c : Comb) (v : Word) : List Nat :=
  match c with
  | .sum32 | .max32 | .min32 => [v.toNat % 2 ^ 32]
  | .count => [if v == 0 then 0 else 1]
  | _ => [v.toNat]
/-- A payload read for RESPOND (R341). -/
def respondPayload (s : State) (v : Word) (d : Nat) : Except Exc (State × List Nat) := do
  let off ← ownPtr s v 8
  need (oneBank off (8 + 4 * d)) (bad v)
  let q := loadWords (curCore s) 4 s off (2 + d) (rPts s)
  softCheck q.1
  .ok (wPts q.1 q.2.2, q.2.1)
/-- A responder's first answer is kept (R341). -/
def takeAnswer (s : State) (core id : Nat) (v : List Nat) : State :=
  let c := coreCensus s core
  putCoreCensus s core { c with resp := c.resp.map fun r =>
    if r.id == id && r.answer.isNone then { r with answer := some v, ts := rPts s } else r }
/-- What RESPOND finds in the issuing strand (R341): nothing, when `p` is not the frame pointer of its own responder record; else the
responder, which is gone when its core has failed since (R385). -/
def ownResponder (s : State) (p : Word) : Option (Nat × Option Responder) :=
  match s.cur with
  | .strand c i => (strandAt s c i).bind fun t => t.resp.bind fun k =>
      if t.record.frame == p then some (k.1, (coreCensus s k.1).resp.find? fun r => r.id == k.2) else none
  | _ => none
/-- RESPOND (R341): one of a frame that has answered has no effect. -/
def execRespond (g : Guard) (a : GReg) (b : Src) (s : State) : Host.Outcome State Fault Refusal :=
  run .strand g none (fun s =>
    match ownResponder s (rG s a) with
    | none => .error (bad (rG s a))
    | some (_, none) => .ok (respondWith s [] (rPts s))
    | some (core, some r) =>
      if r.answer.isSome then .ok (respondWith s [] (rPts s))
      else if r.wave.comb == .lsev then do
        let (s, pl) ← respondPayload s (srcZ s b) r.wave.d
        .ok (respondWith (takeAnswer s core r.id pl) [] (rPts s))
      else .ok (respondWith (takeAnswer s core r.id (combValue r.wave.comb (srcZ s b))) [] (rPts s))) s

/-! ### Reports and completion (R331 to R333) -/

/-- A core has an outgoing move that awaits its acknowledgment (R334, R335). -/
def moveAwaits (s : State) (core : Nat) : Bool := s.census.moves.any fun m => m.src == core && decide (3 ≤ m.phase)
/-- The responders whose values are in a core's report, in ascending index (R331, R335). -/
def reportOf (c : CoreCensus) (num : Nat) : List Responder :=
  let rs := c.resp.filter fun r => r.wave.num == num && !r.late
  (List.range 128).flatMap fun i => rs.filter (·.index == i)
/-- A core may report (R332). -/
def mayReport (s : State) (core : Nat) (c : Census) : Bool :=
  c.left.contains core && !c.toTake.contains core && !moveAwaits s core
    && (coreCensus s core).resp.all fun r => r.wave.num != c.wave.num || r.ended
/-- CENSUS_REPORT: a core reports to census `n` (R332). -/
def execCensusReport (core n : Nat) (s : State) : Host.Outcome State Fault Refusal :=
  .next (confine s (match s.census.open_[n]? with
    | some c =>
      if mayReport s core c then
        let cc := coreCensus s core
        let rs := reportOf cc c.wave.num
        let v := combFold c.wave.comb c.wave.d (rs.map fun r => r.answer.getD (combId c.wave.comb c.wave.d))
        let ts := rs.foldl (fun m r => if r.answer.isSome then max m r.ts else m) c.wave.pts
        let s := putCoreCensus s core { cc with resp := cc.resp.filter fun r => !(r.wave.num == c.wave.num && !r.late) }
        mapCensus s n fun c => { c with left := c.left.filter (· != core),
                                        reports := c.reports ++ [(core, v, rs.length, (rs.filter (·.answer.isSome)).length, ts)] }
      else s
    | none => s))
/-- The root's value: cores merged in each cluster, clusters in each die, dies, ascending (R331). -/
def rootValue (c : Census) : List Nat :=
  let fold := combFold c.wave.comb c.wave.d
  let node (k : Nat) : List Nat := fold ((c.reports.filter (·.1 == k)).map (·.2.1))
  let cores (k : Nat) : List Nat := (List.range 4).map (4 * k + ·)
  fold ((List.range 4).map fun d => fold ((List.range 48).map fun k => fold ((cores (64 * d + k)).map node)))
/-- The record of a census (R333). -/
def censusBits (status comb num : Nat) (result : Word) (matched answers ets : Nat) : BitVec 256 :=
  BitVec.ofNat 256 (status + 0xC9 * 2 ^ 8 + comb * 2 ^ 16 + num * 2 ^ 32 + result.toNat * 2 ^ 64 + matched % 2 ^ 32 * 2 ^ 128
    + answers % 2 ^ 32 * 2 ^ 160 + ets % 2 ^ 64 * 2 ^ 192)
/-- CENSUS_COMPLETE: the root has every report; the payload is written, the record posted, and the close goes out (R324,
R333). -/
def execCensusComplete (n : Nat) (s : State) : Host.Outcome State Fault Refusal :=
  .next (confine s (match s.census.open_[n]? with
    | some c =>
      if c.isOpen && c.left.isEmpty then
        let w := c.wave
        let v := rootValue c
        let matched := (c.reports.map (·.2.2.1)).sum
        let answers := (c.reports.map (·.2.2.2.1)).sum
        let ts := c.reports.foldl (fun m r => max m r.2.2.2.2) w.pts
        let x := if w.comb == .lsev then storeWords (askerCore w.num) 4 s w.resp v ts else (s, ts)
        let s := postEvq x.1 w.evq w.ctxh
          { bytes := censusBits (if answers == matched then 0 else 2) (combCode w.comb) w.num (combResult w.comb w.d v) matched answers x.2,
            ts := x.2 }
        mapCensus s n fun c => { c with closing := some (presentCores s) }
      else s
    | none => s))
/-- The census number leaves a directory's answered lists, those of entries on their way out too (R324). -/
def forget (s : State) (core num : Nat) : State :=
  let drop (e : Dirent) : Dirent := { e with answered := e.answered.filter (· != num) }
  { s with census.dirents := s.census.dirents.map fun e => (e.1, if e.1 / 128 == core then drop e.2 else e.2)
           census.moves := s.census.moves.map fun m => if m.src == core && decide (m.phase ≤ 3) then { m with ent := drop m.ent } else m }
/-- A census whose close every core has taken is gone, and its slot free (R324). -/
def endCensus (s : State) (n : Nat) : State :=
  match s.census.open_[n]? with
  | some c =>
    if c.closing == some [] then
      let core := askerCore c.wave.num
      let cc := coreCensus s core
      putCoreCensus { s with census.open_ := dropAt s.census.open_ n } core
        { cc with slots := cc.slots.filter (· != c.wave.num / 2 ^ 19 % 8) }
    else s
  | none => s
/-- CENSUS_CLOSE: a core takes the close of census `n` (R324). -/
def execCensusClose (core n : Nat) (s : State) : Host.Outcome State Fault Refusal :=
  .next (confine s (match s.census.open_[n]? with
    | some c =>
      if (c.closing.getD []).contains core then
        let cc := coreCensus s core
        let s := putCoreCensus s core { cc with seen := cc.seen.filter fun w => w.num != c.wave.num }
        let s := forget s core c.wave.num
        endCensus (mapCensus s n fun c => { c with closing := c.closing.map fun l => l.filter (· != core) }) n
      else s
    | none => s))

/-! ### Moves (R334, R335) -/

/-- The strand of a move is answered; its PTS stays. -/
def answerMove (s : State) (m : Move) (v : Word) : State :=
  match tagged s m.tag with
  | some t => sendReply s m.tag (.regs [(m.d.val, v)] t.ctx.pts)
  | none => countStale s m.tag.core
/-- A move changed. -/
def putMove (s : State) (n : Nat) (m : Move) : State := { s with census.moves := setAt s.census.moves n m }
/-- A move over. -/
def dropMove (s : State) (n : Nat) : State := { s with census.moves := dropAt s.census.moves n }
/-- MOVE_RESERVE: the target's arbiter reserves an entry, or refuses (R334 step 1). -/
def execMoveReserve (n : Nat) (s : State) : Host.Outcome State Fault Refusal :=
  .next (confine s (match s.census.moves[n]? with
    | some m =>
      if m.phase != 0 then s
      else
        let l := launchAt s m.ent.launch
        match freeEntry s 6 m.dst with
        | some key =>
          if l.st != 0 && admits s l m.dst then
            putMove (setLife s key { lifeOf s key with st := 3 }) n { m with phase := 1, dindex := key % 128 }
          else putMove s n { m with phase := 2 }
        | none => putMove s n { m with phase := 2 }
    | none => s))
/-- MOVE_RESERVE_REPLY: the source's arbiter takes the reply: the entry is detached, or the move is abandoned (R334 step 2). -/
def execMoveReserveReply (n : Nat) (s : State) : Host.Outcome State Fault Refusal :=
  .next (confine s (match s.census.moves[n]? with
    | some m =>
      let key := direntKey m.src m.index
      let x := lifeOf s key
      if m.phase == 2 then dropMove (answerMove s m 0) n
      else if m.phase != 1 then s
      else if x.gen == m.gen && isLive s key then
        putMove (setLife s key { x with st := 2, darkAt := localDt s m.src + 256 }) n
          { m with phase := 3, expiry := x.expiry, owner := x.owner, ent := direntAt s m.src m.index }
      else
        let tkey := direntKey m.dst m.dindex
        dropMove (answerMove (setLife s tkey { lifeOf s tkey with st := 0 }) m 0) n
    | none => s))
/-- ENTRY_SEND: the entry's responders have ended, and it is sent (R334 step 3). -/
def execEntrySend (n : Nat) (s : State) : Host.Outcome State Fault Refusal :=
  .next (confine s (match s.census.moves[n]? with
    | some m =>
      if m.phase == 3 && (coreCensus s m.src).resp.all (fun r => !(r.index == m.index && r.gen == m.gen) || r.ended) then
        putMove s n { m with phase := 4 }
      else s
    | none => s))
/-- Waves in ascending census number. -/
def sortWaves : List Wave → List Wave
  | [] => []
  | w :: ws => insert w (sortWaves ws)
where
  /-- A wave put in its place. -/
  insert (w : Wave) : List Wave → List Wave
    | [] => [w]
    | v :: vs => if w.num ≤ v.num then w :: v :: vs else v :: insert w vs
/-- A core has not taken the close of a census (R324). -/
def notClosed (s : State) (core num : Nat) : Bool :=
  s.census.open_.any fun c => c.wave.num == num && (c.closing.getD [core]).contains core
/-- ENTRY_ARRIVAL: the target's arbiter takes the entry, and spawns its late responders (R334 step 4, R335). -/
def execEntryArrival (n : Nat) (s : State) : Host.Outcome State Fault Refusal :=
  .next (confine s (match s.census.moves[n]? with
    | some m =>
      if m.phase != 4 then s
      else
        let key := direntKey m.dst m.dindex
        let t := localDt s m.dst
        let live := decide (t ≤ m.expiry)
        let s := setLife s key { st := if live then 1 else 2, expiry := m.expiry, gen := nextGen (lifeOf s key).gen, owner := m.owner,
                                 darkAt := if live then 0 else t + 256 }
        let s := putDirent s m.dst m.dindex
          { m.ent with tile := m.tile, answered := m.ent.answered.filter (notClosed s m.dst) }
        let ws := if live then (sortWaves (coreCensus s m.dst).seen).filter fun w =>
            w.key == m.ent.key && w.ctxh == m.owner && !m.ent.answered.contains w.num
          else []
        let first := s.census.next
        let s := ws.foldl (fun s w => addResponder m.dst w true s m.dindex) s
        putMove s n { m with phase := 5, lates := (List.range ws.length).map (first + ·), newh := curHandle s key }
    | none => s))
/-- A late answer merged into a report of the source that has not been sent (R335). -/
def mergeLate (src index : Nat) (s : State) (r : Responder) : State :=
  if s.census.open_.any fun c => c.wave.num == r.wave.num && c.left.contains src then
    let c := coreCensus s src
    putCoreCensus s src { c with resp := c.resp ++ [{ r with index := index, late := false, frame := none }] }
  else s
/-- MOVE_ACK: every late responder has ended; the source takes the acknowledgment and DREG.MOVE returns (R334 step 5, R335). -/
def execMoveAck (n : Nat) (s : State) : Host.Outcome State Fault Refusal :=
  .next (confine s (match s.census.moves[n]? with
    | some m =>
      let c := coreCensus s m.dst
      let lates := c.resp.filter fun r => m.lates.contains r.id
      if m.phase == 5 && lates.all (·.ended) then
        let s := putCoreCensus s m.dst { c with resp := c.resp.filter fun r => !m.lates.contains r.id }
        dropMove (answerMove (lates.foldl (mergeLate m.src m.index) s) m m.newh) n
      else s
    | none => s))

end Sys2Proof.Machine
end

