-- ==== Sys2Proof/Machine/Coherence.lean ====
section
/-! DEFINITION. The events of sectors at their homes and at the L1s of cores (R54 to R58, R64). -/

namespace Sys2Proof.Machine
open Sys2Proof

/-- A message from a core to a home was sent earlier than number `seq` (R55). -/
def earlierSent (s : State) (core home seq : Nat) : Bool :=
  (s.coh.net.any fun r => r.hub.isNone && r.tag.core == core && homeOf s r.pa == home && decide (r.seq < seq)) ||
  (s.coh.coh.any fun m => decide (m.1 < seq) && match m.2 with
    | .data c sec _ _ _ | .notHeld c sec | .writeBack c sec _ _ _ => c == core && homeOf s (sec * 64) == home
    | .ask _ _ => false)
/-- The home takes request `n` of those in transit, when it is of this kind and the next of its core (R55), and the home is READY. -/
def takeNet (n : Nat) (kind : MemKind → Bool) (s : State) : State :=
  match s.coh.net[n]? with
  | some r =>
    let first := r.hub.isSome || !earlierSent s r.tag.core (homeOf s r.pa) r.seq
    if kind r.kind && first && homeUp s r.pa then takeReq { s with coh.net := dropAt s.coh.net n } r else s
  | none => s
/-- LEASE_READ: a .S read, or a .N read, at its home (R47, R54, R59). -/
def execLeaseRead (n : Nat) (s : State) : Host.Outcome State Fault Refusal :=
  .next (confine s (takeNet n (fun k => match k with | .read | .ncRead => true | _ => false) s))
/-- LEASE_RENEWAL (R47, R54). -/
def execLeaseRenewal (n : Nat) (s : State) : Host.Outcome State Fault Refusal :=
  .next (confine s (takeNet n (fun k => match k with | .renew _ => true | _ => false) s))
/-- HOME_WRITE: a .W store, or a .N store, at its home (R47, R54, R59). -/
def execHomeWrite (n : Nat) (s : State) : Host.Outcome State Fault Refusal :=
  .next (confine s (takeNet n (fun k => match k with | .write _ | .ncWrite _ => true | _ => false) s))
/-- OWNERSHIP_REQUEST (R54, R57). -/
def execOwnershipRequest (n : Nat) (s : State) : Host.Outcome State Fault Refusal :=
  .next (confine s (takeNet n (fun k => match k with | .own => true | _ => false) s))
/-- FAR_ATOMIC (R54, R64). -/
def execFarAtomic (n : Nat) (s : State) : Host.Outcome State Fault Refusal :=
  .next (confine s (takeNet n (fun k => match k with | .amo .. => true | _ => false) s))
/-- Message `n` between cores and homes, when none sent before it on its way is still in transit (R55). -/
def cohAt (s : State) (n : Nat) : Option (Nat × Coh) :=
  match s.coh.coh[n]? with
  | some (q, m) => match m with
    | .ask c sec =>
      if s.coh.coh.any fun x => decide (x.1 < q) && (match x.2 with
        | .ask c' sec' => c' == c && homeOf s (sec' * 64) == homeOf s (sec * 64)
        | _ => false) then none else some (q, m)
    | .data c sec _ _ _ | .notHeld c sec | .writeBack c sec _ _ _ =>
      if earlierSent s c (homeOf s (sec * 64)) q then none else some (q, m)
  | none => none
/-- The message is taken. -/
def dropCoh (s : State) (n : Nat) : State := { s with coh.coh := dropAt s.coh.coh n }
/-- RECALL: a core takes a recall (R56): it answers DATA, keeping the sector leased over [WTS, RTS], or NOT_HELD. -/
def execRecall (n : Nat) (s : State) : Host.Outcome State Fault Refusal :=
  .next (confine s (match cohAt s n with
    | some (_, .ask c sec) =>
      let x := l1At s c sec
      let s := dropCoh s n
      if x.kind == 2 then sendCoh (putL1 s c sec { x with kind := 1, dirty := false }) (.data c sec x.data x.wts x.e)
      else sendCoh s (.notHeld c sec)
    | _ => s))
/-- The sector's data and timestamps as an owner hands them over; `none` leaves the data as it is. -/
def handOver (s : State) (sec : Nat) (v : Option Nat) (wts rts : Nat) : State :=
  let d := dirAt s sec
  let s := putDir s sec { d with present := true, wts := wts, rts := rts }
  match v with
  | some v => { s with mem := memWrite s.mem (sec * 64) 64 v }
  | none => s
/-- The sector goes to H: its owner entry is freed, for which the grant at the head of its slice's queue is made, and its own queue is
served (R54, R57). -/
def release (s : State) (sec : Nat) : State :=
  let d := dirAt s sec
  let s := freeOwner (putDir s sec { d with st := .h }) sec
  unqueue (serveGrants s (homeOf s (sec * 64))) sec
/-- RECALL_REPLY_DATA (R54). -/
def execRecallReplyData (n : Nat) (s : State) : Host.Outcome State Fault Refusal :=
  .next (confine s (match cohAt s n with
    | some (_, .data _ sec v wts rts) => release (handOver (dropCoh s n) sec (some v) wts rts) sec
    | _ => s))
/-- NOT_HELD: the write-back of R56 came before it (R54, R58). -/
def execNotHeld (n : Nat) (s : State) : Host.Outcome State Fault Refusal :=
  .next (confine s (match cohAt s n with
    | some (_, .notHeld _ sec) => release (dropCoh s n) sec
    | _ => s))
/-- WRITE_BACK: in O(c) the sector goes to H; crossing a recall, it stays in T (R54, R56). -/
def execWriteBack (n : Nat) (s : State) : Host.Outcome State Fault Refusal :=
  .next (confine s (match cohAt s n with
    | some (_, .writeBack _ sec v wts rts) =>
      let t := handOver (dropCoh s n) sec v wts rts
      match (dirAt s sec).st with
      | .o _ => release t sec
      | _ => t
    | _ => s))
/-- L2_VICTIM_WRITE_BACK: a line with all four sectors in H is written back and MTS raised (R50, R54). -/
def execL2VictimWriteBack (line : Nat) (s : State) : Host.Outcome State Fault Refusal :=
  .next (confine s
    (let secs := sectorsOf line
    if secs.all (fun x => (dirAt s x).st == .h) && secs.any (fun x => (dirAt s x).present) then victimLeaves s line else s))
/-- MEMORY_WRITE_BACK_ACK: the line's sectors are absent from L2, and their queues are served (R50, R54). -/
def execMemoryWriteBackAck (line : Nat) (s : State) : Host.Outcome State Fault Refusal :=
  .next (confine s
    (if s.coh.writebacks.contains line then
      (sectorsOf line).foldl (fun s x => unqueue (putDir s x { queue := (dirAt s x).queue }) x)
        { s with coh.writebacks := s.coh.writebacks.erase line }
    else s))

end Sys2Proof.Machine
end

