-- ==== Sys2Proof/Machine/Dispenser.lean ====
section
/-! DEFINITION. Binding of slots (R87, R95, R300), images in memory and eviction (R91, R96), arrival of migrated strands
(R98), promotion (R300), the stage governor (R308), thermal control (R309 to R311) and displacement (R310). -/

namespace Sys2Proof.Machine
open Sys2Proof

/-! ### Images in memory (R91, R96) -/

/-- The 256 bytes of an evicted strand's image (R91): STATE is 7. -/
def imageBits (t : Strand) : Nat :=
  let c := t.ctx
  (List.range 16).foldr (fun i n => n + (c.g.toList[i]?.getD 0).toNat * 2 ^ (64 * i)) 0
    + c.pc.toNat * 2 ^ 1024 + ((statOf t).toNat + 7 * 2 ^ 24) * 2 ^ 1056 + (c.p.toNat ||| 1) * 2 ^ 1088 + t.lhit % 256 * 2 ^ 1096
    + c.pts % 2 ^ 64 * 2 ^ 1152 + t.ctxh.toNat * 2 ^ 1216 + t.privb.toNat * 2 ^ 1280 + t.dtlast % 2 ^ 64 * 2 ^ 1344
    + t.hold % 2 ^ 64 * 2 ^ 1408 + (recBits t.record).toNat * 2 ^ 1536
/-- A strand with the contents of an image (R91). -/
def withImage (t : Strand) (b : Nat) : Strand :=
  let f (off n : Nat) : Nat := b / 256 ^ off % 256 ^ n
  let g : Vector Word 16 := Vector.ofFn fun i => BitVec.ofNat 64 (f (8 * i.val) 8)
  { t with
    ctx := { t.ctx with g := g, pc := BitVec.ofNat 32 (f 0x80 4), p := BitVec.ofNat 8 (f 0x88 1) ||| 1, pts := f 0x90 8 }
    evict := f 0x84 4 / 2 ^ 23 % 2 == 1, restart := f 0x84 4 / 2 ^ 22 % 2 == 1, lastCause := f 0x85 1
    lhit := f 0x89 1 % 32, ctxh := BitVec.ofNat 64 (f 0x98 8), privb := BitVec.ofNat 64 (f 0xA0 8), dtlast := f 0xA8 8, hold := f 0xB0 8
    record := recOf (BitVec.ofNat 256 (f 0xC0 32)) }
/-- What the image area says of a strand's image (R316): its physical address, that its page or a sector must be waited for,
or that it has no page (its range is not LIVE, or its page can have no bytes). -/
inductive ImagePlace where
  | at_ (pa : Nat)
  | wait (s : State)
  | nowhere
/-- The place of the image of a strand of a core, its page backed and its sectors recalled where they must be. -/
def imagePlace (s : State) (core : Nat) (t : Strand) : ImagePlace :=
  let va := (launchAt s t.record.launch.toNat).imgb + 256 * t.region
  match rangeFor s t.ctxh va with
  | none => .nowhere
  | some (key, r) =>
    if !isLive s key then .nowhere
    else
      let vpn := vpnIn r va
      let p := pteAt s t.ctxh vpn
      match p.st with
      | 1 =>
        let pa := p.pn * 65536 + va % (if r.lp then 2 ^ 21 else 65536)
        let secs := (List.range 4).map (pa / 64 + ·)
        if secs.all fun x => (dirAt s x).st == .h then if homeUp s pa then .at_ pa else .wait s
        else .wait (secs.foldl (fun s x => match (dirAt s x).st with
          | .o c => recallFrom s x c
          | _ => s) s)
      | 0 =>
        if !r.pager then .wait (backPage s t.ctxh key r va)
        else if p.purge then .wait s
        else .wait (postOnce s (core * 4 + 3) (curHandle s key) (pteKey t.ctxh vpn) va true)
      | 2 | 5 => .wait s
      | _ => .nowhere
/-- A core's accesses to the four sectors of an image are requests that its page's counts count (R354), and the first of them may be the
first access to a prefetched page (R384). -/
def imageAsked (s : State) (core pa : Nat) : State :=
  let s := match pageOf s (pa / 65536) with
    | some (pte, _) => match rangeFor s (curHandle s (pte / 2 ^ 40)) (pteVpn pte * 65536) with
      | some (key, _) => touchPage s key pte
      | none => s
    | none => s
  (List.range 4).foldl (fun s _ => countHot s pa (dieOf core)) (l2Room s (pa / 64))
/-- The image stored at a physical address as a store in the memory order (R96): the strand's PTS does not move (R46). -/
def storeImage (s : State) (core pa : Nat) (t : Strand) : State :=
  let s := imageAsked s core pa
  (List.range 4).foldl (fun s i =>
    let d := filled s (pa / 64 + i)
    let w := max t.ctx.pts (d.rts + 1)
    putDir s (pa / 64 + i) { d with wts := w, rts := w }) { s with mem := memWrite s.mem pa 256 (imageBits t) }
/-- The image of an evicted strand read back (R91, R95). -/
def loadImage (s : State) (core pa : Nat) (t : Strand) : State × Strand :=
  let t' := withImage t (memRead s.mem pa 256)
  let s := imageAsked s core pa
  ((List.range 4).foldl (fun s i =>
    let d := filled s (pa / 64 + i)
    putDir s (pa / 64 + i) { d with rts := max d.rts (max t.ctx.pts d.wts) }) s, t')
/-- A bound strand is evicted to a resume entry on its core's ring (R96): true when it has been. -/
def evictSlot (s : State) (core slot : Nat) : State × Bool :=
  match strandAt s core slot with
  | none => (s, false)
  | some t =>
    let go (s : State) : State × Bool :=
      let tag : Tag := { core := core, slot := slot, gen := slotGenOf s core slot }
      let s := giveBack (withdraw (abandonForks s tag) tag) tag t
      (pushResume (freeSlot s core slot) core { t with st := 7, wait := .none, got := [], former := keptTags s tag t.former }, true)
    match imagePlace s core t with
    | .at_ pa => go (storeImage s core pa t)
    | .wait s => (s, false)
    | .nowhere => go s

/-! ### The context cache (R95, R96) -/

/-- A resume entry whose image is resident: a migrated strand's (R98). -/
def RingEntry.isResident : RingEntry → Bool
  | .resume t _ => t.st != 7
  | .record .. => false
/-- Images the context cache of a core holds: of bound strands, and of migrated strands that wait for a slot. -/
def imagesHeld (s : State) (core : Nat) : Nat :=
  ((List.range 16).filter fun i => (strandAt s core i).isSome).length
    + ((List.range 16).map fun p => ((ringAt s core p).filter RingEntry.isResident).length).sum
/-- The least recently issued of the strands of some slots. -/
def oldestSlot (s : State) (core : Nat) (p : Strand → Bool) : Option Nat :=
  ((List.range 16).filterMap fun i => match strandAt s core i with
    | some t => if p t then some (t.lastIssue, i) else none
    | none => none).foldl (fun b x => match b with
      | some y => if x.1 < y.1 then some x else some y
      | none => some x) (none : Option (Nat × Nat)) |>.map (·.2)
/-- The least recently issued evictable image of the core that waits for a slot: its priority and strand. -/
def oldestResident (s : State) (core : Nat) : Option (Nat × Strand) :=
  ((List.range 16).flatMap fun p => (ringAt s core p).filterMap fun
    | .resume t _ => if t.st != 7 && t.evict then some (p, t) else none
    | .record .. => none).foldl (fun b x => match b with
      | some y => if x.2.lastIssue < y.2.lastIssue then some x else some y
      | none => some x) none
/-- An image that waits for a slot goes to memory (R96): its entry keeps its place in the ring. -/
def evictResident (s : State) (core p : Nat) (t : Strand) : State × Bool :=
  let mark (s : State) : State :=
    putRing s core p ((ringAt s core p).map fun
      | .resume u n => if u == t then .resume { u with st := 7 } n else .resume u n
      | e => e)
  match imagePlace s core t with
  | .at_ pa => (mark (storeImage s core pa t), true)
  | .wait s => (s, false)
  | .nowhere => (mark s, true)
/-- Room for one more image in the context cache, a victim evicted when it is full (R96): false when there is none yet. -/
def makeRoom (s : State) (core : Nat) : State × Bool :=
  if imagesHeld s core < 32 then (s, true)
  else match oldestResident s core with
    | some (p, t) => evictResident s core p t
    | none => match (oldestSlot s core fun t => t.evict && decide (2 ≤ t.st) && decide (t.st ≤ 4)).or
        (oldestSlot s core fun t => t.evict && t.st == 0) with
      | some i => evictSlot s core i
      | none => (s, false)

/-! ### Binding (R87, R93, R95, R300) -/

/-- A strand bound to a slot under a new generation (R93, R95). -/
def bindSlot (s : State) (core slot : Nat) (t : Strand) : State :=
  let k := core * 16 + slot
  putStrand { s with core.slotGen := tset 0 s.core.slotGen k (nextGen (slotGenOf s core slot)) } core slot
    { t with st := 0, wait := .none, got := [] }
/-- A strand bound again after it has moved or been evicted: a stepped instruction that it issues anew is still to complete, and one that
has completed traps STEP (R96, R98, R111, R154). -/
def arrive (s : State) (core slot : Nat) (t : Strand) : State :=
  if t.steps == 2 && t.stepPc == t.ctx.pc then bindSlot s core slot { t with steps := 1 }
  else stepTrap (bindSlot s core slot t) core slot
/-- The dispenser withholds the core's cluster (R309). -/
def withheld (s : State) (core : Nat) : Bool := (tget {} s.work.therm (clusterOf core)).withheld
/-- The lowest free region of a launch (R316). -/
def freeRegionOf (l : Launch) : Option Nat := leastFrom (fun k => !l.used.contains k) 0 l.rgn
/-- The strand a record starts, or starts again with the former tags of the strand it was (R46, R87, R103, R316). -/
def startStrand (l : Launch) (r : Rec) (pushed : Nat) (resp : Option (Nat × Nat)) (restart : Option (List Tag)) (region : Nat) : Strand :=
  let g : Vector Word 16 := Vector.replicate 16 0
  { ctx := { g := (g.set 0 r.frame).set 15 (0x4000000000000000#64 + BitVec.ofNat 64 l.privsz), pc := r.code, pts := pushed }
    restart := restart.isSome, former := restart.getD [], ctxh := l.ctxh, privb := BitVec.ofNat 64 (l.privb + region * l.privsz), record := r, region := region, resp := resp }
/-- What handling an entry of a ring or stage queue comes to (R300); `waits`: it is bound once memory has its image. -/
inductive Pop where
  | bound (s : State)
  | waits (s : State)
  | dropped (s : State)
  | held (s : State)
  | toTail
/-- What an attempt to fill a slot comes to: the slot is bound, waits for what it is to bind, or stays free. -/
inductive Tried where
  | bound | waits | free
  deriving DecidableEq, Repr
/-- An entry considered for a free slot (R300 steps 1 to 5). -/
def consider (s : State) (core slot : Nat) : RingEntry → Pop
  | .resume t _ =>
    if t.st != 7 then .bound (arrive s core slot t)
    else match imagePlace s core t with
      | .at_ pa =>
        let (s, t) := loadImage s core pa t
        .bound (arrive s core slot t)
      | .wait s => .waits s
      | .nowhere => .bound (arrive s core slot t)
  | .record r _ pushed resp restart =>
    let n := r.launch.toNat
    let l := launchAt s n
    if filtered s core r || !liveHandle s l.ctxh || l.st == 0 then .dropped (orphan (unitEnds s r pushed 0 resp) (restart.getD []))
    else if withheld s core then .held s
    else match freeRegionOf l with
      | none => .toTail
      | some k => .bound (bindSlot (putLaunch s n { l with used := l.used ++ [k] }) core slot (startStrand l r pushed resp restart k))
/-- A ring walked from its head (R300): the state, the ring that remains, and what the attempt has come to. -/
def walkRing (core slot : Nat) : State → List RingEntry → List RingEntry → List RingEntry → State × List RingEntry × Tried
  | s, [], kept, tail => (s, kept ++ tail, .free)
  | s, e :: es, kept, tail =>
    match consider s core slot e with
    | .bound s => (s, kept ++ es ++ tail, .bound)
    | .waits s => (s, kept ++ e :: es ++ tail, .waits)
    | .dropped s => walkRing core slot s es kept tail
    | .held s => walkRing core slot s es (kept ++ [e]) tail
    | .toTail => walkRing core slot s es kept (tail ++ [e])
/-- Ring `p` of the core considered. -/
def tryRing (s : State) (core slot p : Nat) : State × Tried :=
  let (s, r, b) := walkRing core slot s (ringAt s core p) [] []
  (putRing s core p r, b)
/-- The priority an entry is considered at. -/
def RingEntry.level : RingEntry → Nat
  | .record r .. => recPrio r
  | .resume t _ => recPrio t.record
/-- The entries of a stage queue that this attempt has not yet considered, walked from its head while they are of PRIO `p` (R300, R307):
the state, what remains of them, what has gone to the tail, and what the attempt has come to. -/
def walkStage (core slot p : Nat) : State → List RingEntry → List RingEntry → State × List RingEntry × List RingEntry × Tried
  | s, [], tail => (s, [], tail, .free)
  | s, e :: es, tail =>
    if e.level != p then (s, e :: es, tail, .free)
    else match consider s core slot e with
      | .bound s => (s, es, tail, .bound)
      | .waits s => (s, e :: es, tail, .waits)
      | .dropped s => walkStage core slot p s es tail
      | .held s => (s, e :: es, tail, .free)
      | .toTail => walkStage core slot p s es (tail ++ [e])
/-- The stage queues that a cluster serves, as launch and stage. -/
def servedStages (s : State) (cluster : Nat) : List (Nat × Nat) :=
  s.work.launches.flatMap fun e =>
    ((List.range e.2.stages.length).filter fun k => (e.2.stages[k]?).any fun g => g.clusters.contains cluster).map fun k => (e.1, k)
/-- An attempt in progress: the state, and how many entries at the tail of each stage queue it has put there. -/
abbrev Attempt := State × Sparse Nat
/-- A stage queue of a launch considered at one priority: no entry twice in one attempt. -/
def tryStage (a : Attempt) (core slot p : Nat) (x : Nat × Nat) : Attempt × Tried :=
  match (launchAt a.1 x.1).stages[x.2]? with
  | none => (a, .free)
  | some g =>
    let done := tget 0 a.2 (x.1 * 8 + x.2)
    let n := g.queue.length - done
    let (s, left, tail, b) := walkStage core slot p a.1 (g.queue.take n) []
    let l := launchAt s x.1
    ((putLaunch s x.1 { l with stages := setAt l.stages x.2 { g with queue := left ++ g.queue.drop n ++ tail } },
      tset 0 a.2 (x.1 * 8 + x.2) (done + tail.length)), b)
/-- The first of several attempts that does not leave the slot free. -/
def firstBound {σ α : Type} (f : σ → α → σ × Tried) : σ → List α → σ × Tried
  | a, [] => (a, .free)
  | a, x :: xs =>
    match f a x with
    | (a, .free) => firstBound f a xs
    | r => r
/-- A resident image that waits for a slot is bound first (R95). -/
def tryResident (s : State) (core slot p : Nat) : State × Tried :=
  match findPos RingEntry.isResident (ringAt s core p) 0 with
  | some (n, .resume t _) => (arrive (putRing s core p (dropAt (ringAt s core p) n)) core slot t, .bound)
  | _ => (s, .free)
/-- One priority of an attempt: its ring before the stage queues (R300). -/
def tryLevel (core slot : Nat) (a : Attempt) (p : Nat) : Attempt × Tried :=
  match tryRing a.1 core slot p with
  | (s, .free) => firstBound (fun a x => tryStage a core slot p x) (s, a.2) (servedStages s (clusterOf core))
  | (s, b) => ((s, a.2), b)
/-- One attempt to fill a free slot (R95, R300): the rings and stage queues in descending priority. -/
def tryBind (s : State) (core slot : Nat) : State × Tried :=
  let prios := (List.range 16).reverse
  match firstBound (fun s p => tryResident s core slot p) s prios with
  | (s, .free) => match makeRoom s core with
    | (s, false) => (s, .waits)
    | (s, true) =>
      let r := firstBound (tryLevel core slot) (s, []) prios
      (r.1.1, r.2)
  | r => r
/-- A slot is enabled and free. -/
def slotFree (s : State) (core slot : Nat) : Bool :=
  !tget false s.core.slotOff (core * 16 + slot) && (strandAt s core slot).isNone
/-- SLOT_BIND: a free slot of a core makes an attempt; after one that binds nothing the core waits for a push, a region or
the end of a withholding (R300). -/
def execSlotBind (core slot : Nat) (s : State) : Host.Outcome State Fault Refusal :=
  .next (confine s
    (if corePresent s core && decide (slot < 16) && slotFree s core slot && !s.core.idle.contains core then
      match tryBind s core slot with
      | (t, .bound) | (t, .waits) => t
      | (t, .free) => if t.core.idle.contains core then t else { t with core.idle := t.core.idle ++ [core] }
    else s))
/-- RECORD_PROMOTION: the first record of a ring that has waited 4,096 ticks goes to the tail of the next level up (R300). -/
def execRecordPromotion (core prio : Nat) (s : State) : Host.Outcome State Fault Refusal :=
  .next (confine s
    (if prio < 15 then
      let dt := localDt s core
      let r := ringAt s core prio
      match findPos (fun
          | RingEntry.record _ since _ _ _ => decide (since + 4096 ≤ dt)
          | _ => false) r 0 with
      | some (n, .record x _ pushed resp restart) =>
        if ringFull s none core (prio + 1) then s
        else putRing (putRing s core prio (dropAt r n)) core (prio + 1) (ringAt s core (prio + 1) ++ [.record x dt pushed resp restart])
      | _ => s
    else s))
/-- MIGRATION_ARRIVAL: the flits of a strand reach their core; it binds a free slot, or waits as a resume entry (R96, R98). -/
def execMigrationArrival (n : Nat) (s : State) : Host.Outcome State Fault Refusal :=
  .next (confine s (match s.core.migr[n]? with
    | some (core, t) => match makeRoom s core with
      | (s, false) => s
      | (s, true) =>
        let s := { s with core.migr := dropAt s.core.migr n }
        match leastFrom (slotFree s core) 0 16 with
        | some i => arrive s core i t
        | none => pushResume s core { t with st := 0, wait := .none }
    | none => s))
/-- PRE_EMPTION: every resident image of a launch's strands is marked evictable (R96). -/
def execPreEmption (launch : Nat) (s : State) : Host.Outcome State Fault Refusal :=
  let mark (t : Strand) : Strand := if t.record.launch.toNat == launch then { t with evict := true } else t
  .next (confine s
    { s with core.slots := s.core.slots.map fun e => (e.1, mark e.2)
             core.rings := s.core.rings.map fun e => (e.1, e.2.map fun
               | .resume t k => if t.st == 7 then .resume t k else .resume (mark t) k
               | x => x) })

/-! ### The stage governor (R308) -/

/-- The index whose value is best among those that qualify, the lowest on a tie. -/
def bestOf (better : Nat → Nat → Bool) (xs : List (Nat × Nat)) : Option Nat :=
  (xs.foldl (fun b x => match b with
    | some y => if better x.2 y.2 then some x else some y
    | none => some x) (none : Option (Nat × Nat))).map (·.1)
/-- The largest of a list of numbers. -/
def largest (xs : List Nat) : Nat := xs.foldl max 0
/-- One check of a launch (R308): at most one cluster moves. -/
def govern (l : Launch) : Launch :=
  let st := (List.range l.stages.length).filterMap fun k => (l.stages[k]?).map fun g => (k, g)
  let src := bestOf (fun a b => decide (b < a)) ((st.filter fun x => decide (x.2.hi < x.2.queue.length)).map fun x => (x.1, x.2.queue.length))
  let dst := bestOf (fun a b => decide (a < b))
    ((st.filter fun x => decide (x.2.queue.length < x.2.lo) && decide (2 ≤ x.2.clusters.length)).map fun x => (x.1, x.2.queue.length))
  match src, dst with
  | some i, some j => match l.stages[i]?, l.stages[j]? with
    | some a, some b =>
      let c := largest b.clusters
      let stages := setAt l.stages j { b with clusters := b.clusters.filter (· != c) }
      { l with stages := setAt stages i { a with clusters := a.clusters ++ [c] } }
    | _, _ => l
  | _, _ => l
/-- GOVERNOR_CHECK: every launch is checked, once in 256 ticks (R308). -/
def execGovernorCheck (s : State) : Host.Outcome State Fault Refusal :=
  .next (confine s
    (if s.work.governed < s.time.dt / 256 then
      { s with work.launches := s.work.launches.map (fun e => (e.1, govern e.2)), work.governed := s.time.dt / 256, core.idle := [] }
    else s))

/-! ### Temperatures (R388) -/

/-- The thermal record a die's controller goes by since its last evaluation (R389). -/
def thermOf (s : State) (d : Nat) : Therm := tget {} s.work.thermTab d
/-- The sensor of a cluster, named by die and number in the die. -/
def tempSensor (s : State) (d c : Nat) : Sensor := tget {} s.hub.sensors (48 * d + c)
/-- The mesh neighbours of a cluster within its die (R12). -/
def neighbours (c : Nat) : List Nat :=
  (if c % 8 == 0 then [] else [c - 1]) ++ (if c % 8 == 7 then [] else [c + 1]) ++ (if c < 8 then [] else [c - 8]) ++ (if 40 ≤ c then [] else [c + 8])
/-- The largest raw value of the sensors among some clusters of a die that are not suspect. -/
def largestGood (s : State) (d : Nat) (cs : List Nat) : Option Int :=
  (cs.filterMap fun c => let x := tempSensor s d c; if x.flags % 2 == 0 then some x.raw else none).max?
/-- The value used for a cluster's temperature (R388), in 1/16 °C. -/
def tempOf (s : State) (d c : Nat) : Int :=
  let x := tempSensor s d c
  if x.flags % 2 == 0 then x.raw
  else match (largestGood s d (neighbours c)).or (largestGood s d (List.range 48)) with
    | some v => v + 80
    | none => 16 * (thermOf s d).crimson

/-! ### Dispenser and thermal control (R309 to R311) -/

/-- The cluster number of cluster `c` of a die. -/
def clusterNo (d c : Nat) : Nat := d * 64 + c
/-- Cluster `c` of die `d` is present. -/
def dieCluster (s : State) (d c : Nat) : Bool := clusterPresent s (d * 256 + c * 4)
/-- The state a cluster is in after an evaluation (R309). -/
def nextThermal (cur : Nat) (t amber crimson : Int) (alarm : Bool) : Nat :=
  if crimson ≤ t || alarm then 2
  else match cur with
    | 2 => if t < crimson - 48 then (if t < amber - 48 then 0 else 1) else 2
    | 1 => if t < amber - 48 then 0 else 1
    | _ => if amber ≤ t then 1 else 0
/-- The highest enabled slot of a core disabled, down to 4 enabled (R309). -/
def disableSlot (s : State) (core : Nat) : State :=
  let on := (List.range 16).filter fun i => !tget false s.core.slotOff (core * 16 + i)
  if 4 < on.length then { s with core.slotOff := tset false s.core.slotOff (core * 16 + largest on) true } else s
/-- One slot of a core enabled again (R309). -/
def enableSlot (s : State) (core : Nat) : State :=
  match leastFrom (fun i => tget false s.core.slotOff (core * 16 + i)) 0 16 with
  | some i => { s with core.slotOff := tset false s.core.slotOff (core * 16 + i) false, core.idle := s.core.idle.filter (· != core) }
  | none => s
/-- The state with a cluster's thermal state set. -/
def putTherm (s : State) (k : Nat) (x : ThermCluster) : State := { s with work.therm := tset {} s.work.therm k x }
/-- The die's power is over its budget: as measured, or by the mark of R388 (log entry 14). -/
def overBudget (s : State) (d : Nat) : Bool :=
  decide ((thermOf s d).budget < (tget ({} : Sensor) s.hub.sensors (200 + d)).raw.toNat)
    || (tget ({} : Alarm) s.hub.alarm d).budget
/-- A cluster's actions at an evaluation (R309). -/
def evaluateCluster (d : Nat) (hot : Bool) (s : State) (c : Nat) : State :=
  let th := thermOf s d
  let k := clusterNo d c
  let x := tget {} s.work.therm k
  let st := nextThermal x.st (tempOf s d c) (16 * th.amber) (16 * th.crimson) (tget ({} : Alarm) s.hub.alarm d).raised
  let cores := ((List.range 4).map (d * 256 + c * 4 + ·)).filter (corePresent s)
  if st == 0 then
    let s := cores.foldl enableSlot s
    let s := putTherm s k { x with st := 0, withheld := x.withheld && hot, bias := x.bias - 1 }
    if hot then s else { s with core.idle := s.core.idle.filter fun u => !cores.contains u }
  else cores.foldl disableSlot (putTherm s k { x with st := st, withheld := true })
/-- The cluster of a die that is withheld next while the die is over budget: the hottest not withheld (R309). -/
def hottest (s : State) (d : Nat) : Option Nat :=
  (((List.range 48).filter fun c => dieCluster s d c && !(tget {} s.work.therm (clusterNo d c)).withheld).map
    fun c => (tempOf s d c, c)).foldl (fun b x => match b with
      | some y => if y.1 < x.1 then some x else some y
      | none => some x) (none : Option (Int × Nat)) |>.map (·.2)
/-- One pass of a ranking table: a cluster ranked lower that is more than 3 °C cooler changes places (R310). -/
def rankPass (t : Nat → Int) : List Nat → List Nat
  | a :: b :: r => if t b + 48 < t a then b :: rankPass t (a :: r) else a :: rankPass t (b :: r)
  | l => l
/-- A number of passes. -/
def rankPasses (t : Nat → Int) : Nat → List Nat → List Nat
  | 0, l => l
  | n + 1, l => rankPasses t n (rankPass t l)
/-- The ranking table of a die (R310). -/
def rankOf (s : State) (d : Nat) : List Nat :=
  match tfind s.work.rank d with
  | some l => l
  | none => List.range 48
/-- The strands on a die: bound to its slots, or waiting for one as resume entries (R310, R311). -/
def dieStrands (s : State) (d : Nat) : List Strand :=
  let entry : RingEntry → Option Strand
    | .resume t _ => some t
    | .record .. => none
  ((s.core.slots.filter fun e => dieOf (e.1 / 16) == d).map (·.2))
    ++ (s.core.rings.filter fun e => dieOf (e.1 / 16) == d).flatMap (fun e => e.2.filterMap entry)
    ++ (s.core.outside.filter fun o => dieOf o.core == d).filterMap fun o => entry o.entry
/-- The contexts with strands on a die, each with its highest PRIO there, the one to kill first (R311). -/
def killTarget (s : State) (d : Nat) : Option Word :=
  let mine := dieStrands s d
  let ctxs := (mine.map (·.ctxh)).eraseDups
  let top (h : Word) : Nat := largest ((mine.filter fun t => t.ctxh == h).map fun t => recPrio t.record)
  (ctxs.map fun h => (top h, h)).foldl (fun b x => match b with
    | some y => if x.1 < y.1 || (x.1 == y.1 && decide (x.2.toNat < y.2.toNat)) then some x else some y
    | none => some x) (none : Option (Nat × Word)) |>.map (·.2)
/-- Every launch of a context is cancelled with status POWER_KILL (R304, R311), as far as the tokens fit. -/
def powerKill (s : State) (h : Word) : State :=
  let ns := (s.work.launches.filter fun e => e.2.ctxh == h && e.2.st == 2).map (·.1)
  ns.foldl (fun s n => (cancelInstance s 0 n none true).getD s) { s with work.kills := s.work.kills ++ [h] }
/-- THERMAL_EVALUATION: a die's controller evaluates its clusters, once in 16 ticks (R309 to R311). -/
def execThermalEvaluation (die : Nat) (s : State) : Host.Outcome State Fault Refusal :=
  .next (confine s
    (if decide (die < 4) && decide (tget 0 s.work.evaluated die < s.time.dt / 16) then
      let s := { s with work.evaluated := tset 0 s.work.evaluated die (s.time.dt / 16)
                        work.thermTab := tset {} s.work.thermTab die ((s.hub.therm.toList[die]?).getD {}) }
      let hot := overBudget s die
      let cs := (List.range 48).filter (dieCluster s die)
      let s := cs.foldl (evaluateCluster die hot) s
      let s := if hot then match hottest s die with
          | some c => putTherm s (clusterNo die c) { tget {} s.work.therm (clusterNo die c) with withheld := true }
          | none => s
        else s
      let st (c : Nat) : Nat := (tget ({} : ThermCluster) s.work.therm (clusterNo die c)).st
      let s := if !cs.isEmpty && cs.all (fun c => st c != 0) then
          cs.foldl (fun s c =>
            let x := tget {} s.work.therm (clusterNo die c)
            putTherm s (clusterNo die c) { x with bias := min 8 (x.bias + 1) }) s
        else s
      let s := { s with work.rank := tput s.work.rank die (rankPasses (tempOf s die) 48 (rankOf s die)) }
      if cs.any fun c => st c == 2 then match killTarget s die with
        | some h => powerKill s h
        | none => s
      else s
    else s))
/-- The core that takes a displaced strand: in the first cluster of the ranking table that is NORMAL, admitted and has a core
with an enabled free slot (R310). -/
def displaceTarget (s : State) (l : Launch) (d : Nat) : Option Nat :=
  (rankOf s d).findSome? fun c =>
    if (tget ({} : ThermCluster) s.work.therm (clusterNo d c)).st == 0 then
      ((List.range 4).map (d * 256 + c * 4 + ·)).find? fun u => admits s l u && ((List.range 16).any (slotFree s u))
    else none
/-- SLOT_DISPLACE: the strand of a disabled slot leaves it (R310): blocked, to a resume entry of its core; in rotation, to a
cooler cluster where R310 lets it migrate. -/
def execSlotDisplace (core slot : Nat) (s : State) : Host.Outcome State Fault Refusal :=
  .next (confine s
    (if !tget false s.core.slotOff (core * 16 + slot) then s
    else match strandAt s core slot with
      | some t =>
        if 2 ≤ t.st && t.st ≤ 4 then (evictSlot s core slot).1
        else if t.st == 0 then
          match displaceTarget s (launchAt s t.record.launch.toNat) (dieOf core), decide (t.hold ≤ localDt s core) with
          | some target, true =>
            let tag : Tag := { core := core, slot := slot, gen := slotGenOf s core slot }
            let s := giveBack s tag t
            depart s core slot target { t with hold := localDt s core + 32768, got := [] }
          | _, _ => (evictSlot s core slot).1
        else s
      | none => s))

end Sys2Proof.Machine
end

