-- ==== Sys2Proof/Machine/Factor.lean ====
section
/-! DEFINITION. The factor accumulator (R277 to R295): its instructions, the sweep, the solves, the events of its operations, and
the start and end of engine operations (R61). -/

namespace Sys2Proof.Machine
open Sys2Proof

/-! ### FP32 arithmetic on bit patterns (R7) -/

/-- A value as FP32 bits, rounded to nearest even; flags are discarded. -/
def rnBits (x : FVal × Nat) : Nat := (f32.finish .rne x).1
/-- rn(a * b). -/
def rnMul (a b : Nat) : Nat := rnBits (fMul (f32.unpack a) (f32.unpack b))
/-- rn(a / b). -/
def rnDiv (a b : Nat) : Nat := rnBits (fDiv (f32.unpack a) (f32.unpack b))
/-- fma(a, b, c). -/
def rnFma (a b c : Nat) : Nat := rnBits (fFma .rne (f32.unpack a) (f32.unpack b) (f32.unpack c))
/-- sqrt_rn(a). -/
def rnSqrt (a : Nat) : Nat := rnBits (fSqrt (f32.unpack a))
/-- -a. -/
def negBits (a : Nat) : Nat := a ^^^ 0x80000000
/-- fin(a). -/
def finBits (a : Nat) : Bool := a / 2 ^ 23 % 256 != 255
/-- The pattern is +0 or -0. -/
def zeroBits (a : Nat) : Bool := a % 0x80000000 == 0
/-- The pattern is of a finite value greater than 0. -/
def posBits (a : Nat) : Bool := finBits a && decide (a < 0x80000000) && a != 0

/-! ### The sweep and the solves (R287 to R289), on the columns of L from the diagonal down -/

/-- Column k's rotation for a vector's element: rho, c and s, or an abort (R287). `down`: sg = -1. -/
def rotation (down : Bool) (thr a b : Nat) : Option (Nat × Nat × Nat) :=
  let p := rnMul a a
  let q := rnFma (if down then negBits b else b) b p
  if down && (fCond .le (f32.unpack q) (f32.unpack (rnMul thr p))).1 then none
  else
    let rho := rnSqrt q
    let c := rnDiv rho a
    let s := rnDiv b a
    if finBits p && finBits q && finBits rho && finBits c && finBits s && !zeroBits rho then some (rho, c, s) else none
/-- One row of a column under a rotation: the new L[i][k] and the new x[i] (R287). -/
def rotateRow (down : Bool) (c s : Nat) (r : Nat × Nat) : Nat × Nat :=
  let u := rnFma (if down then negBits s else s) r.2 r.1
  let l := rnDiv u c
  (l, rnFma c r.2 (negBits (rnMul s l)))
/-- The sweep of a vector through the columns from k on: the new columns, or the column it aborts at (R287). -/
def sweep (down : Bool) (thr : Nat) : Nat → List (List Nat) → List Nat → Except Nat (List (List Nat))
  | k, (a :: l) :: cols, b :: x =>
    if zeroBits b then match sweep down thr (k + 1) cols x with
      | .ok r => .ok ((a :: l) :: r)
      | .error j => .error j
    else match rotation down thr a b with
      | none => .error k
      | some (rho, c, s) =>
        let rows := (l.zip x).map (rotateRow down c s)
        if rows.all fun r => finBits r.1 && finBits r.2 then match sweep down thr (k + 1) cols (rows.map (·.2)) with
          | .ok r => .ok ((rho :: rows.map (·.1)) :: r)
          | .error j => .error j
        else .error k
  | _, cols, _ => .ok cols
/-- The vectors of a block swept in order: the new columns, or the vector and the column of the abort (R288). -/
def sweepAll (down : Bool) (thr : Nat) : Nat → List (List Nat) → List (List Nat) → Except (Nat × Nat) (List (List Nat))
  | _, cols, [] => .ok cols
  | j, cols, x :: xs => match sweep down thr 0 cols x with
    | .ok cols => sweepAll down thr (j + 1) cols xs
    | .error k => .error (j, k)
/-- FTRS: L y = b, each element subtracted from those below as soon as it is solved, so in ascending j (R289). -/
def solveForward : List (List Nat) → List Nat → List Nat
  | (a :: l) :: cols, t :: ts =>
    let y := rnDiv t a
    y :: solveForward cols ((l.zip ts).map fun r => rnFma (negBits r.1) y r.2)
  | _, _ => []
/-- FTRB: L^T z = y, from the last element up, j descending (R289). -/
def solveBackward : List (List Nat) → List Nat → List Nat
  | (a :: l) :: cols, w :: ws =>
    let zs := solveBackward cols ws
    rnDiv ((l.zip zs).foldr (fun r t => rnFma (negBits r.1) r.2 t) w) a :: zs
  | _, _ => []

/-! ### Slots (R277, R278) -/

/-- The order of a slot of the device. -/
def orderOf (s : State) (slot : Nat) : Nat := tget 0 s.eng.order slot
/-- The committed copy of a slot as columns. -/
def factorCols (s : State) (slot : Nat) : List (List Nat) :=
  let n := orderOf s slot
  (List.range n).map fun j => (List.range (n - j)).map fun i =>
    (tget (0 : BitVec 32) s.eng.fac (slot * 4096 + 64 * (j + i) + j)).toNat
/-- A slot with a factor installed: its order, the columns, every other cell +0. -/
def installFactor (s : State) (slot : Nat) (cols : List (List Nat)) : State :=
  let cleared := s.eng.fac.filter fun e => e.1 / 4096 != slot
  let cells := cols.zipIdx.flatMap fun c => c.1.zipIdx.map fun v => (slot * 4096 + 64 * (c.2 + v.2) + c.2, v.1)
  { s with eng.fac := cells.foldl (fun m v => tset 0 m v.1 (BitVec.ofNat 32 v.2)) cleared
           eng.order := tset 0 s.eng.order slot cols.length }
/-- Columns of lengths n, n-1, ... cut from one list. -/
def cutCols : Nat → List Nat → List (List Nat)
  | 0, _ => []
  | n + 1, vs => vs.take (n + 1) :: cutCols n (vs.drop (n + 1))
/-- Lists of `n` cut from one list. -/
def cutRows (n : Nat) : Nat → List Nat → List (List Nat)
  | 0, _ => []
  | k + 1, vs => vs.take n :: cutRows n k (vs.drop n)

/-! ### Issue (R280 to R284 steps 1 to 4) -/

/-- Step 3 of R284. -/
def factorHandle (s : State) (h : Word) : Except Exc Unit := do
  checkHandle s [5] h
  need (hHome h == curCore s / 4 * 4) (hExc .badOperand h)
/-- A command without its issuer, which `offer` fills in. -/
def bareCmd (op : CmdOp) (evq : Word) (plain : Bool) : Cmd :=
  { op := op, tag := {}, core := 0, ctxh := 0, record := {}, privb := 0, pts := 0, evq := evq, plain := plain }
/-- A form with a shape at issue. The PTS of a plain form's strand follows its record's load as the operation ends: a fault keeps nothing of
the load (R8). -/
def factorIssue (d a : GReg) (q : Option GReg) (mk : Word → Word → Nat → CmdOp) (s : State) : Except Exc State := do
  let h := rG s d
  let p := rG s a
  let core := curCore s
  mshapeCheck s core p
  let (t, b) := mshapeRead s core p
  softCheck t
  let _ ← mshapeFmt s core p b
  factorHandle s h
  let e ← recordQueue s q
  let u := offer t true (bareCmd (mk h p b) e q.isNone)
  .ok (if q.isNone then wPts u (rPts s) else u)
/-- FINIT (R282, R284, R286). -/
def execFinit (g : Guard) (d : GReg) (a b : Src) (s : State) : Host.Outcome State Fault Refusal :=
  run .strand g none (fun s => do
    let n := srcZ s a
    let lam := srcZ s b
    need (decide (4 ≤ n.toNat) && decide (n.toNat ≤ 64) && n.toNat % 4 == 0) (bad n)
    need (posBits (lam.toNat % 2 ^ 32)) (bad lam)
    factorHandle s (rG s d)
    .ok (offer s true (bareCmd (.finit (rG s d) n.toNat (lam.setWidth 32)) 0 true))) s
/-- FUPD (R282, R288). -/
def execFupd (g : Guard) (d a : GReg) (q : Option GReg) (s : State) : Host.Outcome State Fault Refusal :=
  run .strand g none (factorIssue d a q .fupd) s
/-- FDWN (R282, R288). -/
def execFdwn (g : Guard) (d a : GReg) (q : Option GReg) (s : State) : Host.Outcome State Fault Refusal :=
  run .strand g none (factorIssue d a q .fdwn) s
/-- FTRS (R282, R289). -/
def execFtrs (g : Guard) (d a : GReg) (q : Option GReg) (s : State) : Host.Outcome State Fault Refusal :=
  run .strand g none (factorIssue d a q .ftrs) s
/-- FTRB (R282, R289). -/
def execFtrb (g : Guard) (d a : GReg) (q : Option GReg) (s : State) : Host.Outcome State Fault Refusal :=
  run .strand g none (factorIssue d a q .ftrb) s
/-- FRD (R282, R290). -/
def execFrd (g : Guard) (d a : GReg) (q : Option GReg) (s : State) : Host.Outcome State Fault Refusal :=
  run .strand g none (factorIssue d a q .frd) s
/-- FWR (R282, R290). -/
def execFwr (g : Guard) (d a : GReg) (q : Option GReg) (s : State) : Host.Outcome State Fault Refusal :=
  run .strand g none (factorIssue d a q .fwr) s
/-- FDIA (R282, R291). -/
def execFdia (g : Guard) (d a : GReg) (s : State) : Host.Outcome State Fault Refusal :=
  run .strand g none (fun s => do
    factorHandle s (rG s a)
    .ok (offer s true (bareCmd (.fdia (rG s a) d) 0 true))) s

/-! ### The running operation (R284 steps 5 to 9, R285, R292) -/

/-- The slot handle of a factor command, and its shape's pointer and record. -/
def factorArgs : CmdOp → Word × Option (Word × Nat)
  | .finit h _ _ => (h, none)
  | .fdia h _ => (h, none)
  | .fupd h p b | .fdwn h p b | .ftrs h p b | .ftrb h p b | .frd h p b | .fwr h p b => (h, some (p, b))
  | _ => (0, none)
/-- The command reads its vectors or its factor before its first event. -/
def readsFirst : CmdOp → Bool
  | .fupd .. | .fdwn .. | .fwr .. => true
  | _ => false
/-- The command has a start event. -/
def hasStart : CmdOp → Bool
  | .fupd .. | .fdwn .. | .ftrs .. | .ftrb .. | .frd .. => true
  | _ => false
/-- The shape of a factor command with the format its bank has (R283). -/
def factorShape (s : State) (c : Cmd) : Shape :=
  match (factorArgs c.op).2 with
  | some (p, b) =>
    let owner := pCore c.core p
    mshapeOf s c.core p b (bfmtOf s owner ((shapeOf s owner p b).base / 2 ^ 15))
  | none => { ptr := 0, base := 0, e0 := 0, e1 := 0, e2 := 1, e3 := 1, s1 := 0, s2 := 0, s3 := 0, flags := 0, spare := false, fmt := 1 }
/-- The shape as its accesses go by it: FP32, as step 5 has found it when the operation began (R102). -/
def factorUnits (s : State) (c : Cmd) : Shape := { factorShape s c with fmt := 1 }
/-- The operation is to end with a STATUS. -/
def factorEnds (s : State) (k status : Nat) : State :=
  putRun s k true { (queueAt s k true).run with fin := some (status, 0, 0) }
/-- The operation is to end in a fault; `info` is its record's INFO (R294). -/
def factorFaults (s : State) (k : Nat) (e : Exc) (info : Word) : State :=
  putRun s k true { (queueAt s k true).run with fault := some (e, info) }
/-- FACTOR_SHAPE with a reason and the offending value (R284). -/
def shapeExc (h : Word) (reason value : Nat) : Exc :=
  { cause := .factorShape, info0 := h, info1 := some (BitVec.ofNat 64 (reason * 65536 + value % 65536)) }
/-- Step 8 of R284 for a slot of order `n`. -/
def orderCheck (c : Cmd) (x : Shape) (n : Nat) : Except Exc Unit := do
  let h := (factorArgs c.op).1
  match c.op with
  | .finit .. => .ok ()
  | .fdia .. => need (n != 0) (shapeExc h 1 0)
  | .fwr .. =>
    need (decide (4 ≤ x.e0) && decide (x.e0 ≤ 64) && x.e0 % 4 == 0) (shapeExc h 2 x.e0)
    need (x.e1 == x.e0) (shapeExc h 3 x.e1)
  | .frd .. =>
    need (n != 0) (shapeExc h 1 0)
    need (x.e0 == n) (shapeExc h 2 x.e0)
    need (x.e1 == n) (shapeExc h 3 x.e1)
  | _ =>
    need (n != 0) (shapeExc h 1 0)
    need (x.e0 == n) (shapeExc h 2 x.e0)
    need (decide (1 ≤ x.e1) && decide (x.e1 ≤ 256)) (shapeExc h 3 x.e1)
/-- Steps 7 and 8 of R284 at an event of the slot's arbiter: the slot of the device. -/
def factorEvent (s : State) (c : Cmd) : Except Exc Nat := do
  let h := (factorArgs c.op).1
  checkHome s c.ctxh h
  let slot := slotKey (hKey h) 4
  orderCheck c (factorUnits s c) (orderOf s slot)
  .ok slot
/-- The operation at the head of the factor queue begins (R61, R284 step 5, R292): one of a stopped launch is held, a cancelled one
ends, and a QFENCE is performed when what it waits for has been (R62). -/
def startFactor (s : State) (k : Nat) (c : Cmd) : State :=
  if cmdHeld s c then s
  else
    let t := putRun s k true { started := true, ets := max c.pts (queueAt s k true).ets }
    if stopStatus s k c != 0 then factorEnds t k (stopStatus s k c)
    else match c.op with
      | .qfence _ ts => fenceHead s k true c ts
      | op => match factorArgs op with
        | (_, none) => t
        | (h, some (p, _)) =>
          let x := factorShape t c
          if x.fmt != 1 then factorFaults t k (bad p) h
          else match mshapePlaced x with
            | .error e => factorFaults t k e h
            | .ok _ => t
/-- One access of the operation (R284 step 6, R61): what it gives, or the operation ends in a fault. -/
def factorAccess (s : State) (k : Nat) (c : Cmd) (p : Word) (op : EOp) (f : State → Run → Nat → State) : State :=
  let r := (queueAt s k true).run
  let w : Who := { holder := copyHolder k, unit := 3, core := c.core, ctxh := c.ctxh, privb := c.privb, env := c.env }
  match engineAccess w p 4 op r.ets s with
  | .made t v ts => f t { r with ets := ts } v
  | .wait t | .sent t => t
  | .refused e => factorFaults s k e p
/-- BYTES after write number `w` of `total` (R292): 64 for each completed beat of 16, and the last one's bytes. -/
def beatBytes (w total bytes : Nat) : Nat :=
  if w % 16 == 0 then bytes + 64 else if w == total then bytes + 4 * (w % 16) else bytes
/-- A write made is counted; the last ends the operation. -/
def countWrite (s : State) (k : Nat) (r : Run) (w total : Nat) : State :=
  putRun s k true { r with pos := r.pos + 1, bytes := beatBytes w total r.bytes, fin := if w == total then some (0, 0, 0) else none }
/-- The next access of the operation, when it is one that has accesses to make (R288 to R290). -/
def factorStep (s : State) (k : Nat) (c : Cmd) : State :=
  let r := (queueAt s k true).run
  let x := factorUnits s c
  let n := x.e0
  let total := x.e0 * x.e1
  let stop := stopStatus s k c
  let solve (f : List (List Nat) → List Nat → List Nat) : State :=
    let j := r.pos / (2 * n)
    let i := r.pos % (2 * n)
    let made := j * n + (i - n)
    if stop != 0 && made % 16 == 0 then factorEnds s k stop
    else if i < n then
      factorAccess s k c (mshapeAt x (j * n + i)) .read fun t r v =>
        let vals := r.vals ++ [v]
        putRun t k true { r with pos := r.pos + 1,
                                 vals := if i + 1 == n then f (cutCols n (r.work.map (·.toNat))) vals else vals }
    else
      factorAccess s k c (mshapeAt x (j * n + (i - n))) (.write (r.vals[i - n]?.getD 0)) fun t r _ =>
        countWrite t k { r with vals := if i + 1 == 2 * n then [] else r.vals } (made + 1) total
  if r.fin.isSome || r.fault.isSome then s
  else match c.op with
    | .fupd .. | .fdwn .. | .fwr .. =>
      if r.pos < total then
        factorAccess s k c (mshapeAt x r.pos) .read fun t r v => putRun t k true { r with pos := r.pos + 1, vals := r.vals ++ [v] }
      else s
    | .ftrs .. => if r.phase == 1 then solve solveForward else s
    | .ftrb .. => if r.phase == 1 then solve solveBackward else s
    | .frd .. =>
      if r.phase == 1 then
        if stop != 0 && r.pos % 16 == 0 then factorEnds s k stop
        else
          let cols := cutCols n (r.work.map (·.toNat))
          let i := r.pos / n
          let j := r.pos % n
          let v := if j ≤ i then ((cols[j]?.getD [])[i - j]?).getD 0 else 0
          factorAccess s k c (mshapeAt x r.pos) (.write v) fun t r _ => countWrite t k r (r.pos + 1) total
      else s
    | _ => s
/-- ENGINE_OPERATION_START: the operation at the head of a copy queue or a factor queue starts (R61, R62); a factor operation that
has started makes its next access. -/
def execEngineOperationStart (cluster : Nat) (factor : Bool) (s : State) : Host.Outcome State Fault Refusal :=
  .next (confine s
    (if factor then match (queueAt s cluster true).cmds.head? with
      | some c => if (queueAt s cluster true).run.started then factorStep s cluster c else startFactor s cluster c
      | none => s
    else startCopy s cluster))
/-- The command at the head of a factor queue that runs and has nothing to end it yet. -/
def factorRuns (s : State) (k : Nat) : Option Cmd :=
  let q := queueAt s k true
  if q.run.started && q.run.fin.isNone && q.run.fault.isNone then q.cmds.head? else none
/-- FACTOR_START_EVENT: the check of the slot, and the committed copy taken (R285); for FUPD and FDWN the sweeps of the working
copy follow (R288), only that of the first vector when a token or power kill has been taken (R292). -/
def execFactorStartEvent (cluster : Nat) (s : State) : Host.Outcome State Fault Refusal :=
  .next (confine s (match factorRuns s cluster with
    | some c =>
      let r := (queueAt s cluster true).run
      let x := factorUnits s c
      let h := (factorArgs c.op).1
      if !hasStart c.op || r.phase != 0 || (readsFirst c.op && decide (r.pos < x.e0 * x.e1)) then s
      else match factorEvent s c with
        | .error e => factorFaults s cluster e h
        | .ok slot =>
          let cols := factorCols s slot
          let keep (cols : List (List Nat)) : State :=
            putRun s cluster true { r with phase := 1, work := cols.flatten.map (BitVec.ofNat 32), vals := [] }
          if !readsFirst c.op then keep cols
          else
            let down := match c.op with
              | .fdwn .. => true
              | _ => false
            let stop := stopStatus s cluster c
            match sweepAll down c.thr.toNat 0 cols (cutRows x.e0 (if stop == 0 then x.e1 else 1) r.vals) with
            | .ok cols => if stop == 0 then keep cols else factorEnds s cluster stop
            | .error (j, k) =>
              factorFaults s cluster { cause := .factorIndefinite, info0 := h, info1 := some (BitVec.ofNat 64 (j * 65536 + k)) }
                (mshapeAt x (j * x.e0 + k))
    | none => s))
/-- The first element of a factor that FWR refuses, in ascending linear index (R290). -/
def badElement (n : Nat) (vs : List Nat) : Option Nat :=
  (vs.zipIdx.find? fun v =>
    let i := v.2 / n
    let j := v.2 % n
    decide (j ≤ i) && (!finBits v.1 || (i == j && !posBits v.1))).map fun v => 64 * (v.2 / n) + v.2 % n
/-- The columns of the lower triangle of a factor given row by row. -/
def rowsToCols (n : Nat) (vs : List Nat) : List (List Nat) :=
  (List.range n).map fun j => (List.range (n - j)).map fun i => vs[(j + i) * n + j]?.getD 0
/-- FDIA's value (R291). -/
def diagonalWord (cols : List (List Nat)) : Nat :=
  let d := cols.map fun c => c.headD 0
  let k := (d.zipIdx.foldl (fun (b : Nat × Nat) v => if v.1 < b.1 then v else b) (d.headD 0, 0)).2
  cols.length * 2 ^ 40 + k * 2 ^ 32 + d[k]?.getD 0
/-- FACTOR_COMMIT_EVENT: the one event of FINIT, FDIA and FWR, and the commit of a sweep (R285, R286, R288, R290, R291, R292). -/
def execFactorCommitEvent (cluster : Nat) (s : State) : Host.Outcome State Fault Refusal :=
  .next (confine s (match factorRuns s cluster with
    | some c =>
      let r := (queueAt s cluster true).run
      let x := factorUnits s c
      let h := (factorArgs c.op).1
      let stop := stopStatus s cluster c
      let event (f : Nat → State) : State := match factorEvent s c with
        | .error e => factorFaults s cluster e h
        | .ok slot => f slot
      match c.op with
      | .finit _ n lam => event fun slot =>
        let cols := (List.range n).map fun j => rnSqrt lam.toNat :: List.replicate (n - j - 1) 0
        factorEnds (installFactor s slot cols) cluster 0
      | .fdia .. => event fun slot =>
        factorEnds (putRun s cluster true { r with vals := [diagonalWord (factorCols s slot)] }) cluster 0
      | .fwr .. =>
        if r.pos < x.e0 * x.e1 then s
        else if stop != 0 then factorEnds s cluster stop
        else event fun slot => match badElement x.e0 r.vals with
          | some v => factorFaults s cluster (shapeExc h 4 v) h
          | none => factorEnds (installFactor s slot (rowsToCols x.e0 r.vals)) cluster 0
      | .fupd .. | .fdwn .. =>
        if r.phase != 1 then s
        else if stop != 0 then factorEnds s cluster stop
        else match checkHome s c.ctxh h with
          | .error e => factorFaults s cluster e h
          | .ok _ => factorEnds (installFactor s (slotKey (hKey h) 4) (cutCols x.e0 (r.work.map (·.toNat)))) cluster 0
      | _ => s
    | none => s))

/-! ### The end of an operation (R61, R275, R280, R294) -/

/-- A factor operation that has been performed ends: its record is posted, or its strand answered (R280, R294). -/
def endFactor (s : State) (k : Nat) (c : Cmd) : State :=
  let r := (queueAt s k true).run
  let reply (a : Nat → ReplyAct) : State := match tagged s c.tag with
    | some t => sendReply s c.tag (a t.ctx.pts)
    | none => countStale s c.tag.core
  let done (status cause : Nat) (info : Word) (a : Nat → ReplyAct) : State :=
    popQueue (if c.plain then reply a else postRecord s c r status cause info) k true
  match r.fault, r.fin with
  | some (e, info), _ => done (if e.cause == .lapsed then 1 else 2) (causeCode e.cause) info fun _ => .exc e
  | none, some (st, ca, info) => done st ca info fun pts => match c.op with
    | .fdia _ d => if st == 0 then .regs [(d.val, BitVec.ofNat 64 (r.vals.headD 0))] pts else .regs [] pts
    | _ => .regs [] (max pts (if st == 0 then r.ets else c.pts))
  | none, none => s
/-- A stream's operation ends: its buffer load is complete, and its next instruction, or its stop, may come (R249, R261, R275). -/
def endStreamOp (s : State) (k : Nat) (compute : Bool) : State :=
  let p := pairAt s k
  let x := p.stream compute
  if !x.busy then s
  else
    let p := match x.load with
      | some (n, b) => { p with bufs := tset {} p.bufs n b }
      | none => p
    let p := p.setStream compute { x with busy := false, load := none }
    putPair s k (p.performed compute)
/-- ENGINE_OPERATION_END: an operation of the staging stream (0), the compute stream (1) or the factor queue (2) of a cluster ends
after its cycles (R61, R275, R295). -/
def execEngineOperationEnd (cluster unit : Nat) (s : State) : Host.Outcome State Fault Refusal :=
  .next (confine s (match unit with
    | 0 => endStreamOp s cluster false
    | 1 => endStreamOp s cluster true
    | _ => match (queueAt s cluster true).cmds.head? with
      | some c => endFactor s cluster c
      | none => s))

end Sys2Proof.Machine
end

