-- ==== Sys2Proof/Machine/Link.lean ====
section
/-! DEFINITION. K-link (R360 to R368) and the PCIe side of aperture routes (R169). -/

namespace Sys2Proof.Machine
open Sys2Proof

/-! ### Acknowledgments and replays (R364) -/

/-- The port enters RETRAIN (R361). -/
def Port.retrain (x : Port) (dt : Nat) : Port := { x with st := 3, since := dt }
/-- A port that is UP sends every packet not acknowledged again; when 8 replays have brought no progress it retrains instead (R361, R364). -/
def Port.replay (x : Port) (dt : Nat) : Port :=
  if x.st != 2 || x.buffer.isEmpty then x
  else if 8 ≤ x.replays then x.retrain dt
  else { x with wire := x.wire ++ x.buffer, replays := x.replays + 1, ackTick := dt }
/-- An ACK: packets up to its SEQ leave the replay buffer (R364). -/
def Port.ackTo (x : Port) (seq dt : Nat) : Port :=
  match findPos (fun p => p.seq == seq) x.buffer 0 with
  | some (n, _) => { x with buffer := x.buffer.drop (n + 1), replays := 0, ackTick := dt }
  | none => x
/-- At the peer a message that a port has sent is taken by its strand or from its queue, and its credit goes back to its route (R172). When
that is, is the peer's (log entry 20). -/
def messageTaken (s : State) (port xid : Nat) : State :=
  match s.link.sent.find? fun e => e.1 == port && e.2.1 == xid with
  | some e =>
    if (portAt s port).tx.any fun p => p.type == 7 && p.xid == xid then s
    else { s with link.sent := s.link.sent.filter (fun x => x != e), hold.credits := s.hold.credits ++ [e.2.2] }
  | none => s
/-- The ACK and NAK of a packet taken (R364): a NAK replays what its SEQ does not cover. -/
def takeAck (s : State) (port ack : Nat) (nak : Bool) : State :=
  let x := (portAt s port).ackTo ack s.time.dt
  putPort s port (if nak then x.replay s.time.dt else x)
/-- A LINK packet goes out (R363, R364). -/
def Port.sendLink (x : Port) (nak : Bool) : Port :=
  { x with wire := x.wire ++ [withCrc { replyPacket 9 0 0 [] with ack := x.lastAcc, nak := nak }], owed := false }
/-- The packet is one that R363 admits: its TYPE, its length, and each field that is reserved or 0 in its type. A packet that answers
another may bear a STATUS. -/
def packetOk (p : Packet) : Bool :=
  decide (1 ≤ p.type) && decide (p.type ≤ 9) && decide (p.len ≤ 32) && p.payload.length == 64 * p.len && decide (p.seq < 4096)
    && decide (p.ack < 4096) && (if p.type == 5 then decide (p.aop < 32) else p.aop == 0)
    && (p.status == 0 || [2, 4, 6, 8].contains p.type) && (p.cmp == 0 || (p.type == 5 && p.aop % 8 == 7)) && p.rsv == 0
/-- The packet's CRC is good (R363, R364). -/
def crcGood (p : Packet) : Bool := p.crc == packetCrc p
/-- PACKET_RECEIVE: a packet arrives on a port that is UP; it is accepted, or discarded and perhaps answered with a NAK (R364). `intact`: the
lanes have delivered the bits of `p`; else they have not, and the CRC is bad (log entry 9). -/
def execPacketReceive (port : Nat) (p : Packet) (intact : Bool) (s : State) : Host.Outcome State Fault Refusal :=
  .next (confine s
    (let x := portAt s port
    if x.st != 2 then s
    else if intact && crcGood p && packetOk p && p.type == 9 then putPort s port { x with rx := x.rx ++ [p] }
    else if intact && crcGood p && packetOk p && p.seq == (x.lastAcc + 1) % 4096 then
      takeAck (putPort s port { x with lastAcc := p.seq, nakSent := false, owed := true, rx := x.rx ++ [p] }) port p.ack p.nak
    else if x.nakSent then s
    else putPort s port { x.sendLink true with nakSent := true }))
/-- The first packet of a type among those accepted on a port that satisfies `p`, and the others. -/
def firstRx (s : State) (port type : Nat) (p : Packet → Bool) : Option (Packet × State) :=
  let x := portAt s port
  match findPos (fun q => q.type == type && p q) x.rx 0 with
  | some (n, q) => some (q, putPort s port { x with rx := dropAt x.rx n })
  | none => none
/-- LINK: a LINK packet's ACK or NAK is taken (R364). -/
def execLink (port : Nat) (s : State) : Host.Outcome State Fault Refusal :=
  .next (confine s (match firstRx s port 9 fun _ => true with
    | some (p, t) => takeAck t port p.ack p.nak
    | none => s))
/-- ACK_IDLE_TIMEOUT: an ACK that is due goes out in a LINK packet (R364). -/
def execAckIdleTimeout (port : Nat) (s : State) : Host.Outcome State Fault Refusal :=
  .next (confine s
    (let x := portAt s port
    if x.st == 2 && x.owed then putPort s port (x.sendLink false) else s))
/-- LINK_REPLAY_TIMEOUT: 4 ticks without progress of the ACK (R361, R364). -/
def execLinkReplayTimeout (port : Nat) (s : State) : Host.Outcome State Fault Refusal :=
  .next (confine s
    (let x := portAt s port
    if x.st == 2 && !x.buffer.isEmpty && decide (x.ackTick + 4 ≤ s.time.dt) then putPort s port (x.replay s.time.dt) else s))

/-! ### Replies to this device's requests (R366, R368) -/

/-- The access detail of what a transaction awaits (R105). -/
def postDetail : Post → Nat
  | .load .. | .loadPair .. => 1
  | .amo .. => 4
  | _ => 2
/-- A transaction ends: its strand or its engine has the bytes, or the cause of a refusal; the PTS stays (R65, R350). `checked`: the access
had passed every check, so that its fault is of step 7 (R392). -/
def endTrans (s : State) (t : Trans) (res : Except Cause Nat) (info0 : Word) (checked : Bool) : State :=
  let s := { s with link.trans := s.link.trans.filter fun u => !(u.port == t.port && u.xid == t.xid) }
  match t.cluster with
  | some h =>
    if h < 1280 then copyReply s (h - 1024) t.ptr res else streamReply s (h - 1280) (t.tag.slot == 2) t.ptr res
  | none => match tagged s t.tag with
    | some x => sendReply s t.tag (match res with
        | .ok v => .regs (postRegs v t.post) x.ctx.pts
        | .error c => .exc { cause := c, step := if checked then 7 else 8, info0 := info0, detail := postDetail t.post })
    | none => countStale s t.tag.core
/-- The transaction of a port with an id. -/
def transOf (s : State) (port xid : Nat) : Option Trans := s.link.trans.find? fun t => t.port == port && t.xid == xid
/-- A reply packet's outcome, of `n` bytes (R363, R368); a STATUS that is no cause code is a refusal too. -/
def replyResult (p : Packet) (n : Nat) : Except Cause Nat :=
  if p.status == 0 then .ok (ofBytes (p.payload.take n)) else .error ((causeOf? p.status).getD .protection)
/-- A reply packet of a type taken: it ends its transaction, or is dropped when no transaction awaits it. -/
def takeReplyPacket (s : State) (port type : Nat) : State :=
  match firstRx s port type fun _ => true with
  | some (p, t) => match transOf t port p.xid with
    | some tr => endTrans t tr (replyResult p tr.n) tr.ptr (p.status == causeCode .softError)
    | none => t
  | none => s
/-- RDATA (R363). -/
def execRdata (port : Nat) (s : State) : Host.Outcome State Fault Refusal := .next (confine s (takeReplyPacket s port 4))
/-- AMODATA (R363). -/
def execAmodata (port : Nat) (s : State) : Host.Outcome State Fault Refusal := .next (confine s (takeReplyPacket s port 6))
/-- The clusters. -/
def clusters : List Nat := List.range 256
/-- WDONE: it ends the store it answers; one that answers no store is a remote copy's, or is dropped when none runs through the
port (R225, R363). -/
def execWdone (port : Nat) (s : State) : Host.Outcome State Fault Refusal :=
  .next (confine s (match firstRx s port 2 fun _ => true with
    | some (p, t) => match transOf t port p.xid with
      | some tr => endTrans t tr (replyResult p tr.n) tr.ptr (p.status == causeCode .softError)
      | none => if clusters.any fun k => (remoteRun s k port).isSome then s else t
    | none => s))
/-- The remote copy of a port that a WDONE goes to: the one that sent its packet, else the one of the lowest cluster (R225). -/
def wdoneOwner (s : State) (port xid : Nat) : Option Nat :=
  let runs := clusters.filter fun k => (remoteRun s k port).isSome
  match runs.find? fun k => (queueAt s k false).run.out.any fun o => o.1 == xid with
  | some k => some k
  | none => runs.head?
/-- WDONE_ARRIVAL: the remote copy of a cluster takes a WDONE (R225, R368). -/
def execWdoneArrival (cluster xid : Nat) (s : State) : Host.Outcome State Fault Refusal :=
  .next (confine s (match (List.range 8).find? fun port =>
      (firstRx s port 2 fun p => p.xid == xid).isSome && (transOf s port xid).isNone && wdoneOwner s port xid == some cluster with
    | some port => match firstRx s port 2 (fun p => p.xid == xid), remoteRun s cluster port with
      | some (p, t), some (c, d) => takeWdone t cluster c d xid p.status
      | _, _ => s
    | none => s))
/-- DROP: the route whose message it answers is GONE (R368). -/
def execDrop (port : Nat) (s : State) : Host.Outcome State Fault Refusal :=
  .next (confine s (match firstRx s port 8 fun _ => true with
    | some (p, t) => match t.link.sent.find? fun e => e.1 == port && e.2.1 == p.xid with
      | some e => routeGone { t with link.sent := t.link.sent.filter fun x => x != e } e.2.2
      | none => t
    | none => s))

/-! ### Requests of the peer (R368, R391) -/

/-- The request a port performs next: requests are performed in SEQ order (R368). -/
def nextRequest (s : State) (port : Nat) : Option Packet :=
  (portAt s port).rx.find? fun q => q.type == 1 || q.type == 3 || q.type == 5 || q.type == 7
/-- Why the port's import context admits nothing (R391), as a STATUS. -/
def importStatus (s : State) (port : Nat) : Nat :=
  let h := (portAt s port).import_
  if h == 0 then 6 else if liveHandle s h then 0 else 7
/-- The port as it makes accesses: a cluster engine of its import context (R350, R368). -/
def importWho (s : State) (port : Nat) : Who :=
  { holder := portHolder port, core := 0, ctxh := (portAt s port).import_, privb := 0, env := {} }
/-- The accesses that move `n` bytes from an address up: naturally aligned pieces of at most 64 bytes, as address and size. -/
def pieces : Nat → Nat → Nat → List (Nat × Nat)
  | 0, _, _ => []
  | fuel + 1, a, n =>
    if n == 0 then []
    else
      let z := ([64, 32, 16, 8, 4, 2].find? fun z => a % z == 0 && decide (z ≤ n)).getD 1
      (a, z) :: pieces fuel (a + z) (n - z)
/-- One access of the port, at a virtual address of the import context; timestamps do not cross the link (R172). -/
def importAccess (s : State) (port a n : Nat) (op : EOp) (ts : Nat) : EOut :=
  let p := BitVec.ofNat 64 a
  engineTurn (importWho s port) s
    (if 2 ^ 56 ≤ a then .refused { cause := .badOperand, info0 := p }
    else if a % n != 0 then .refused { cause := .misaligned, info0 := p }
    else engineVirtual (importWho s port) p a n op ts s)
/-- The accesses of a request made in order, each at the port's ETS (R61), as far as none must wait: the STATUS it ends with, or
nothing while one waits. -/
def importRun (port : Nat) : List (Nat × Nat × EOp) → State → State × Option Nat
  | [], s => (s, some 0)
  | (a, n, op) :: r, s => match importAccess s port a n op (portAt s port).ets with
    | .made t v ts =>
      let x := portAt t port
      importRun port r (putPort t port { x with ets := ts, pos := x.pos + 1, got := x.got ++ [(n, v)] })
    | .wait t | .sent t => (t, none)
    | .refused e => (s, some (causeCode e.cause))
/-- The request a port performs is over, and answered. -/
def endRequest (s : State) (port : Nat) (p reply : Packet) : State :=
  let s := dropEngine s (importWho s port).id
  let x := portAt s port
  queuePacket (putPort s port { x with rx := x.rx.erase p, pos := 0, got := [] }) port reply
/-- The next request of a port performed, and answered with a reply of a type: its bytes, or the STATUS of a refusal; one whose page is not
present, or whose sector is owned, goes on when it can (R368, R391). `bad`: the STATUS it has when the import context admits it. -/
def performRequest (s : State) (port type : Nat) (p : Packet) (bad : Nat) (ops : List (Nat × Nat × EOp)) (data : Bool) : State :=
  let no := if importStatus s port != 0 then importStatus s port else bad
  if no != 0 then endRequest s port p (replyPacket type p.xid no [])
  else match importRun port (ops.drop (portAt s port).pos) s with
    | (t, none) => t
    | (t, some st) =>
      let bytes := if data && st == 0 then (portAt t port).got.flatMap fun v => toBytes v.1 v.2 else []
      endRequest t port p (replyPacket type p.xid st bytes)
/-- A list of bytes written piece by piece. -/
def writeOps (a : Nat) (bs : List Byte) : List (Nat × Nat × EOp) :=
  (pieces bs.length a bs.length).map fun x => (x.1, x.2, .write (ofBytes ((bs.drop (x.1 - a)).take x.2)))
/-- The bytes of a WRITE: as many as OPND says, or all of its flits where OPND says none (DESIGN CHOICE, log entry 49). -/
def writeBytes (p : Packet) : List Byte :=
  if p.opnd == 0 || p.payload.length < p.opnd.toNat then p.payload else p.payload.take p.opnd.toNat
/-- WRITE: its bytes are performed and answered by WDONE (R368). -/
def execWrite (port : Nat) (s : State) : Host.Outcome State Fault Refusal :=
  .next (confine s (match nextRequest s port with
    | some p => if p.type == 1 then performRequest s port 2 p 0 (writeOps p.addr.toNat (writeBytes p)) false else s
    | none => s))
/-- READ (R363, R368); a byte count outside 1 to 2,048 is refused. -/
def execRead (port : Nat) (s : State) : Host.Outcome State Fault Refusal :=
  .next (confine s (match nextRequest s port with
    | some p =>
      let n := p.opnd.toNat
      if p.type == 3 then
        performRequest s port 4 p (if n == 0 || 2048 < n then causeCode .badOperand else 0)
          ((pieces n p.addr.toNat n).map fun x => (x.1, x.2, .read)) true
      else s
    | none => s))
/-- The operation of an AOP field (R159, R363). -/
def aopOf (n : Nat) : AmoOp := [AmoOp.add, .and, .or, .xor, .min, .max, .swap, .cas][n % 8]?.getD .add
/-- AMO: it executes at the home of the line (R363, R368). -/
def execAmoPacket (port : Nat) (s : State) : Host.Outcome State Fault Refusal :=
  .next (confine s (match nextRequest s port with
    | some p =>
      let n := if p.aop / 16 % 2 == 1 then 8 else 4
      if p.type == 5 then
        performRequest s port 6 p 0
          [(p.addr.toNat, n, .amo (aopOf p.aop) (p.aop / 8 % 2 == 1) (p.opnd.toNat % 256 ^ n) (p.cmp.toNat % 256 ^ n))] true
      else s
    | none => s))
/-- MSG: it is delivered under R172 at timestamp 0; one that the import context does not admit, or whose ADDR has neither form, is
answered by DROP (R363, R368, R391). One for a strand is kept under the route that `importRoute` gives it, so that no RECV or POLL takes it
and it wakes no strand (DESIGN CHOICE, log entry 50). -/
def execMsg (port : Nat) (s : State) : Host.Outcome State Fault Refusal :=
  .next (confine s (match nextRequest s port with
    | some p =>
      let m : Msg := { bytes := BitVec.ofNat 256 (ofBytes p.payload), ts := 0, route := importRoute port p.xid }
      let t := putPort s port { portAt s port with rx := (portAt s port).rx.erase p }
      if p.type != 7 then s
      else if importStatus s port != 0 then endRequest s port p (replyPacket 8 p.xid (importStatus s port) [])
      else if hKind p.addr == 7 then deliverEvq t m p.addr
      else if hKind p.addr == 15 && p.addr.toNat / 2 ^ 32 % 2 ^ 28 == 0 then deliverTag t m (p.addr.toNat % 2 ^ 32)
      else endRequest s port p (replyPacket 8 p.xid 0 [])
    | none => s))

/-! ### Widths and states (R361, R362, R365, R366) -/

/-- The lane sets in the order of R362, each its width and first lane. -/
def laneSets : List (Nat × Nat) := [(16, 0), (8, 0), (8, 8), (4, 0), (4, 4), (4, 8), (4, 12)]
/-- The width that training takes: the first set with no failed lane at either end (R362). -/
def admittedWidth (failed : List Nat) : Option (Nat × Nat) :=
  laneSets.find? fun w => !failed.any fun l => decide (w.2 ≤ l) && decide (l < w.2 + w.1)
/-- A port goes DOWN: its routes set GONE, what awaits a reply over it ends (R366). -/
def portDown (s : State) (port : Nat) : State :=
  let x := portAt s port
  let s := putPort s port { x with st := 0, width := 0, buffer := [], tx := [], rx := x.rx.filter fun p => p.type % 2 == 1 && p.type != 9,
                                   owed := false, nakSent := false, replays := 0 }
  let keys := (s.hold.routes.filter fun e => (tget {} s.hold.routes e.1).peer == port + 1).map (·.1)
  let s := keys.foldl (fun s key =>
    failSends (putRoute s key { tget {} s.hold.routes key with gone := true }) key { cause := .peerGone, info0 := curHandle s key, detail := 8 }) s
  let ts := s.link.trans.filter fun t => t.port == port
  let s := ts.foldl (fun s t => endTrans s t (.error .peerGone) t.route true) s
  let s := clusters.foldl (fun s k => copyDown s port k) s
  { s with link.sent := s.link.sent.filter fun e => e.1 != port }
/-- LANE_FAIL: a lane fails; a port that is UP retrains (R361, R362). -/
def execLaneFail (port lane : Nat) (s : State) : Host.Outcome State Fault Refusal :=
  .next (confine s
    (let x := portAt s port
    if x.st == 0 || 16 ≤ lane || x.lanes.contains lane then s
    else
      let x := { x with lanes := x.lanes ++ [lane] }
      putPort s port (if x.st == 2 then x.retrain s.time.dt else x)))
/-- The lanes of a mask. -/
def maskLanes (m : Nat) : List Nat := (List.range 16).filter fun i => m.testBit i
/-- WIDTH_AGREED: both ends agree a width and exchange identities and, in retraining, ACKs; or no width is admitted (R361, R362,
R365, R367). `peerFailed` is the peer's mask of failed lanes, `peerAck` its last accepted SEQ. -/
def execWidthAgreed (port peerFailed peerAck : Nat) (peerId : Word) (s : State) : Host.Outcome State Fault Refusal :=
  .next (confine s
    (let x := portAt s port
    let dt := s.time.dt
    if !(x.st == 1 || x.st == 3) || decide (x.since + 160 < dt) then s
    else match admittedWidth (x.lanes ++ maskLanes peerFailed) with
      | none => if x.st == 1 then putPort s port { x with st := 0 } else portDown s port
      | some (w, b) =>
        if x.st == 1 then
          let s := dropEngine s (importWho s port).id
          putPort s port { x with st := 2, width := w, base := b, peerId := peerId, nextSeq := 0, lastAcc := 0xFFF, nakSent := false,
                                  buffer := [], tx := [], rx := [], wire := [], owed := false, replays := 0, ackTick := dt,
                                  pos := 0, got := [] }
        else
          let a := { x with st := 2, width := w, base := b }.ackTo peerAck dt
          putPort s port { a with wire := a.wire ++ a.buffer, replays := 0, ackTick := dt }))
/-- TRAINING_TIMEOUT: 160 ticks without agreement (R361). -/
def execTrainingTimeout (port : Nat) (s : State) : Host.Outcome State Fault Refusal :=
  .next (confine s
    (let x := portAt s port
    if !decide (x.since + 160 ≤ s.time.dt) then s
    else if x.st == 1 then putPort s port { x with st := 0 }
    else if x.st == 3 then portDown s port
    else s))

/-! ### PCIe (R168, R169) -/

/-- PCIE_LINK_DOWN: the link of a root port (0 to 5) or of the host endpoint (6) goes down; aperture routes through it set GONE
(R169). -/
def execPcieLinkDown (p : Nat) (s : State) : Host.Outcome State Fault Refusal :=
  .next (confine s
    { s with link.pcie := tset false s.link.pcie p false
             hold.routes := s.hold.routes.map fun e => (e.1, if e.2.dtype == 2 && e.2.peer == 9 + p then { e.2 with gone := true } else e.2) })
/-- PCIE_LINK_UP: the link comes up, and ROUTE admits aperture routes through it again (R168). -/
def execPcieLinkUp (p : Nat) (s : State) : Host.Outcome State Fault Refusal :=
  .next (confine s (if p ≤ 6 then { s with link.pcie := tset false s.link.pcie p true } else s))
/-- APERTURE_COMPLETION: PCIe transaction `n` completes: with data (status 0), or with Unsupported Request, Completer Abort or a
timeout, which are PROTECTION (R169). -/
def execApertureCompletion (n status : Nat) (data : Word) (s : State) : Host.Outcome State Fault Refusal :=
  .next (confine s (match s.link.bus[n]? with
    | some b =>
      let s := { s with link.bus := dropAt s.link.bus n }
      let v := match b.op with
        | .read n => data.toNat % 256 ^ n
        | .write .. => 0
        | .atomic _ n _ _ => data.toNat % 256 ^ n
      match s.link.trans.find? fun t => decide (16 ≤ t.port) && t.xid == b.xid with
      | some t => endTrans s t (if status == 0 then .ok v else .error .protection) t.ptr true
      | none => s
    | none => s))

end Sys2Proof.Machine
end

