-- ==== Sys2Proof/Machine/Firmware.lean ====
section
/-! DEFINITION. The command window and queue (R370 to R372), bring-up and readiness (R379 to R382), and the commands STATUS,
SUMMARY, GRANTCTX, RENEWCTX, ATTEST, SENSORS, THERMTAB, LINKCFG and RESET (R373, R374, R383 to R391). -/

namespace Sys2Proof.Machine
open Sys2Proof

/-- What no event of the hub changes but DT_TICK, RESET and BRING_UP: device time and the special registers that SRW writes. -/
def confineHub (s t : State) : State := { t with time := s.time, sregs := s.sregs, coh.hit := s.coh.hit }

/-! ### The command queue (R370 to R372) -/

/-- The entry at CQHEAD, in host memory (R371). -/
def cmdAddr (s : State) : Nat := hostAt ((s.hub.cqbase.toNat + 64 * s.hub.cqhead) % 2 ^ 64)
/-- A field of the entry at CQHEAD. -/
def cmdField (s : State) (off n : Nat) : Nat := memRead s.mem (cmdAddr s + off) n
/-- FLAGS. -/
def cmdFlags (s : State) : Nat := cmdField s 1 1
/-- An argument, ARG0 to ARG3. -/
def cmdArg (s : State) (i : Nat) : Word := BitVec.ofNat 64 (cmdField s (8 + 8 * i) 8)
/-- The address of the command's buffer. -/
def cmdBuf (s : State) : Nat := hostAt (cmdField s 0x28 8)
/-- BUFLEN. -/
def cmdBufLen (s : State) : Nat := cmdField s 0x30 4
/-- The outcome of a command: what it leaves, STATUS, RES and RESLEN (R372). -/
structure CmdOut where
  st : State
  status : Nat := 0
  res : Word := 0
  reslen : Nat := 0
/-- RES, RESLEN and then STATUS written into the entry at an address (R372). -/
def writeEntry (s : State) (addr status : Nat) (res : Word) (reslen : Nat) : State :=
  let m := memWrite (memWrite s.mem (addr + 0x34) 4 reslen) (addr + 0x38) 8 res.toNat
  { s with mem := memWrite m (addr + 2) 2 status }
/-- CQHEAD advances. -/
def advanceHead (s : State) : State := { s with hub.cqhead := (s.hub.cqhead + 1) % s.hub.cqsize }
/-- The command ends: its entry is written, then CQHEAD advances (R372). -/
def finishCmd (d : CmdOut) : State := advanceHead (writeEntry d.st (cmdAddr d.st) d.status d.res d.reslen)
/-- A STATUS other than OK, with nothing done. -/
def refuseCmd (s : State) (status : Nat) : CmdOut := { st := s, status := status }
/-- The phase accepts the command (R381). -/
def accepts (s : State) (opc : Nat) : Bool :=
  match s.hub.fw with
  | 0 => false
  | 1 => opc == 0x01 || opc == 0x0E
  | 2 | 3 => opc == 0x01 || opc == 0x0E || opc == 0x0A
  | 4 | 5 => true
  | _ => opc == 0x01 || opc == 0x0E || (opc == 0x0A && s.hub.identified)
/-- Firmware takes the entry at CQHEAD when it holds the command `opc` in the form `mine` (R372). -/
def command (opc : Nat) (mine : State → Bool) (flagsOk : Nat → Bool) (body : State → State) (s : State) : State :=
  if s.hub.cqhead == s.hub.cqtail || cmdField s 0 1 != opc || !mine s then s
  else if !flagsOk (cmdFlags s) then finishCmd (refuseCmd s 1)
  else if !accepts s opc then finishCmd (refuseCmd s 7)
  else body s
/-- A command without FLAGS that ends at once. -/
def plainCommand (opc : Nat) (body : State → CmdOut) (s : State) : State :=
  command opc (fun _ => true) (· == 0) (fun s => finishCmd (body s)) s
/-- Bytes written to the command's buffer as far as it goes, in whole records (R373): the state and the bytes written. -/
def writeBuf (s : State) (rec_ : Nat) (bs : List Byte) : State × Nat :=
  let n := min bs.length (cmdBufLen s) / rec_ * rec_
  ({ s with mem := memPuts s.mem (cmdBuf s) (bs.take n) }, n)
/-- A command that returns records. -/
def answerBuf (s : State) (rec_ : Nat) (res : Word) (bs : List Byte) : CmdOut :=
  let r := writeBuf s rec_ bs
  { st := r.1, res := res, reslen := r.2 }
/-- An entry with an OPC of no command (R372): BADCMD. -/
def badCommand (s : State) : State :=
  let opc := cmdField s 0 1
  if s.hub.cqhead == s.hub.cqtail || (1 ≤ opc && opc ≤ 0x0E) then s else finishCmd (refuseCmd s 1)
/-- Hardware fails while firmware executes the command at CQHEAD (R372): FAILED, with nothing else done (log entry 45). -/
def failCommand (s : State) : State :=
  if s.hub.cqhead == s.hub.cqtail then s else finishCmd (refuseCmd { s with hub.cancelWait := none, hub.linkWait := none } 8)
/-- A CONTEXT handle that a command names (R372): 2 BADARG, 4 LAPSED, or 0. -/
def ctxStatus (s : State) (h : Word) : Nat :=
  if hKind h != 3 || !slicePresent s (hHome h) || hGen h == 0 || 256 ≤ hIndex h then 2
  else if liveHandle s h then 0 else 4
/-- A term that a command names is a u32 (R161). -/
def termOk (v : Word) : Bool := decide (v.toNat < 2 ^ 32)

/-! ### Registers of the command window (R370) -/

/-- CQTAIL_DOORBELL: the host writes CQTAIL. -/
def execCqtailDoorbell (v : Word) (s : State) : Host.Outcome State Fault Refusal :=
  .next { s with hub.cqtail := v.toNat }
/-- APPRUN: the host writes APPRUN, whose bits 63 to 16 are reserved. -/
def execApprun (v : Word) (s : State) : Host.Outcome State Fault Refusal :=
  .next { s with hub.apprun := v.extractLsb' 0 16 }
/-- WVER, whose value is its reset value. -/
def wver : Nat := 0x00010000
/-- A register of the window as the host reads it (R3, R370): an offset not listed reads 0. -/
def bar0 (s : State) (off : Nat) : Nat :=
  match off with
  | 0x0000 => wver
  | 0x0008 => s.hub.cqbase.toNat
  | 0x0010 => s.hub.cqsize
  | 0x0018 => s.hub.cqtail
  | 0x0020 => s.hub.cqhead
  | 0x0028 => s.hub.fw
  | 0x0030 => s.hub.apprun.toNat
  | _ => 0
/-- The host has read BAR0 at an offset. -/
def readBar0 (s : State) (off : Nat) : State := { s with hub.barOut := s.hub.barOut ++ [(off, bar0 s off)] }
/-- REGISTER_WRITE: the host writes another register: CQBASE and CQSIZE only while no entry waits; the others ignore it. -/
def execRegisterWrite (off : Nat) (v : Word) (s : State) : Host.Outcome State Fault Refusal :=
  .next (if s.hub.cqhead != s.hub.cqtail then s
    else if off == 0x0008 then { s with hub.cqbase := v }
    else if off == 0x0010 then { s with hub.cqsize := v.toNat }
    else s)

/-! ### Bring-up (R379 to R382) -/

/-- The functions that report from UNITS on, without the time tree (R382). -/
def functions : List Nat :=
  (List.range 12).map (3000 + ·) ++ (List.range 4).flatMap (fun d => (List.range 16).map (sliceId d))
    ++ ((List.range 256).filter fun k => k % 64 < 48).map kCluster
/-- Every core id. -/
def coreIds : List Nat := (List.range 1024).filter fun u => unitOf u < 48
/-- The other functions (R382): K-link, CXL and PCIe ports, application cores, census and halt trees, cancel broadcast. -/
def otherFunctions : List Nat :=
  (List.range 8).map kLink ++ (List.range 4).map kCxl ++ (List.range 6).map kPcie ++ (List.range 16).map kApp ++ [kTree 1, kTree 2, kTree 3]
/-- Every function but the time tree. -/
def allFunctions : List Nat := functions ++ coreIds ++ otherFunctions
/-- A field of the configuration record (R380). -/
def recordField (off n : Nat) : Nat := ofBytes ((List.range n).map fun i => Config.record (off + i))
/-- The package serial number. -/
def serial : Nat := recordField 8 8
/-- The configuration record verifies: MAGIC and VERSION are right, DIGEST is that of its bytes, and SIGNATURE is over it (R380, R381). -/
def recordVerifies : Bool :=
  recordField 0 4 == 0x4B434647 && recordField 4 4 == 1
    && BitVec.ofNat 512 (recordField 0x98 64) == digest ((List.range 0x98).map Config.record)
    && Config.verifyRecord (BitVec.ofNat 512 (recordField 0x98 64)) (BitVec.ofNat 4096 (recordField 0xD8 512))
/-- A core's number among those of the package, and a cluster's: 192 cores and 48 clusters a die. -/
def coreNumber (u : Nat) : Nat := 192 * dieOf u + u % 256
/-- The bit of the configuration record that excludes a function: its field, the field's size and the bit (R380); the trees and the
broadcast have none. -/
def exclusion (k : Nat) : Option (Nat × Nat × Nat) :=
  if k < 1024 then
    if unitOf k < 48 then some (0x38, 96, coreNumber k)
    else if unitOf k < 52 then some (0x18, 8, 16 * dieOf k + (k % 256 - 0xC0)) else none
  else if 2000 ≤ k && k < 2256 then some (0x20, 24, 48 * ((k - 2000) / 64) + (k - 2000) % 64)
  else if 3000 ≤ k && k < 3012 then some (0x10, 2, k - 3000)
  else if 3100 ≤ k && k < 3108 then some (0x12, 1, k - 3100)
  else if 3110 ≤ k && k < 3114 then some (0x13, 1, k - 3110)
  else if 3120 ≤ k && k < 3126 then some (0x14, 1, k - 3120)
  else if 3130 ≤ k && k < 3146 then some (0x16, 2, k - 3130)
  else none
/-- The configuration record excludes a function (R380). -/
def excluded (k : Nat) : Bool := (exclusion k).any fun x => (recordField x.1 x.2.1).testBit x.2.2
/-- A function starts, unless the configuration record excludes it, or its cluster (R380, R382); one that is not fitted reports so
(UNIT_READY). -/
def startFunction (s : State) (k : Nat) : State :=
  let out := excluded k || (decide (k < 1024) && decide (unitOf k < 48) && excluded (kCluster (clusterOf k)))
  if out then s else { s with hub.ready := tset 0 s.hub.ready k 1 }
/-- Frames of 64 KiB that a region of memory lies in. -/
def framesOf (base size : Nat) : Nat × Nat := (base / 65536, (base % 65536 + size + 65535) / 65536)
/-- What firmware finds and reserves at bring-up: CXL capacities (R16), the spill region of the rings (R299), the page-table reserve
(R346), and the record stores of the event queues, 2 MiB a slice on its die (R222). -/
def reserve (s : State) : State :=
  let region (r : Nat → Word) : Nat × Nat := framesOf (r 0).toNat (r 1).toNat
  { s with
    hub.cxl := (List.range 4).foldl (fun l p => tset 0 l p ((Config.cxlCapacity p).toNat / 65536)) []
    hub.reserved := [region Config.spillRegion, region Config.tableReserve]
      ++ ((List.range 4).flatMap fun d => (List.range 16).map (sliceId d)).map fun u => (dieOf u * 2 ^ 22 + Config.evqStore u % 2 ^ 22, 32)
    hub.tables := (Config.tableReserve 1).toNat }
/-- BRINGUP_PHASE: firmware leaves a phase when the condition of R381 holds. -/
def execBringupPhase (s : State) : Host.Outcome State Fault Refusal :=
  let go (s : State) (n : Nat) : State := { s with hub.fw := n }
  .next (confineHub s (match s.hub.fw with
    | 0 => go s (if Config.romMatches then 1 else 15)
    | 1 => go s (if recordVerifies then 2 else 15)
    | 2 => go { s with hub.identified := true, hub.ready := tset 0 s.hub.ready (kTree 0) 1 } 3
    | 3 => if readyCode s (kTree 0) == 2 then go (allFunctions.foldl startFunction (reserve s)) 4 else s
    | 4 => if allFunctions.any fun k => readyCode s k == 1 then s else go s 5
    | _ => s))
/-- UNIT_READY: a function that is STARTING reports READY, FAILED, or that it is not fitted (R382). -/
def execUnitReady (unit code : Nat) (s : State) : Host.Outcome State Fault Refusal :=
  .next (confineHub s
    (if readyCode s unit == 1 && (code == 0 || code == 2 || code == 3) then { s with hub.ready := tset 0 s.hub.ready unit code } else s))
/-- The raw value of a sensor. -/
def rawOf (s : State) (id : Nat) : Int := (tget ({} : Sensor) s.hub.sensors id).raw
/-- The raw values of a temperature sensor's neighbours, of those on its die: what later ones are held against (R388). -/
def sensorRefs (s : State) (id : Nat) : List (Nat × Int) := (neighbours (id % 48)).map fun c => (c, rawOf s (id / 48 * 48 + c))
/-- The sensors as bring-up finds them: their marks are clear, and what they read goes on (R388). -/
def clearSensors (s : State) : Sparse Sensor :=
  (List.range 204).foldl (fun l i => tset {} l i { raw := rawOf s i, refs := if i < 192 then sensorRefs s i else [] }) []
/-- Bring-up starts anew (R379): every holding, instance, bundle, queue and engine state is discarded, registers take their
reset values, device time restarts at 0. Bytes of memory stay (log entry 22), as does what lies outside the device. -/
def restart (s : State) (test : Bool) : State :=
  { State.reset with
    mem := s.mem, agenda := s.agenda, cur := s.cur, far := s.far, issues := s.issues, turnNo := s.turnNo, fresh := s.fresh
    hub := { testMode := test, sensors := clearSensors s, barOut := s.hub.barOut }
    link := { completers := s.link.completers, hostAtomics := s.link.hostAtomics } }
/-- BRING_UP: the device is powered on (R381). -/
def execBringUp (s : State) : Host.Outcome State Fault Refusal := .next (restart s false)
/-- RESET (R379). -/
def execReset (s : State) : Host.Outcome State Fault Refusal :=
  .next (command 0x0E (fun _ => true) (· == 0) (fun s =>
    let mode := (cmdArg s 0).toNat
    if 2 ≤ mode then finishCmd (refuseCmd s 2) else restart (writeEntry s (cmdAddr s) 0 0 0) (mode == 1)) s)
/-- DT_TICK: device time goes up by one once the time tree is ready; a unit ahead of it is overtaken by a tick; waits that end
with it end (R21, R22, R36, R116). -/
def execDtTick (s : State) : Host.Outcome State Fault Refusal :=
  .next (if readyCode s (kTree 0) != 2 then s
    else
      let t : State := { s with time := { dt := s.time.dt + 1, early := (s.time.early.filter fun e => e.2 != 1).map fun e => (e.1, e.2 - 1) } }
      let late (n : Nat × Nat × Word) : Bool := decide (n.2.1 ≤ localDt t n.1)
      let u := (t.hold.notices.filter late).foldl (fun u n => takeNotice u n.1 n.2.2)
        { t with hold.notices := t.hold.notices.filter fun n => !late n }
      confine t { u with core.slots := u.core.slots.map fun e => (e.1,
          if e.2.st == 3 && (match e.2.wait with | .park (some d) => decide (d ≤ localDt t (e.1 / 16)) | _ => false) then
            { e.2 with st := 0, wait := .woken } else e.2) })

/-! ### STATUS (R383, R384) -/

/-- The readiness codes of some functions, two bits each, the first lowest. -/
def codes (s : State) (ks : List Nat) : Nat := ks.foldr (fun k n => readyCode s k + 4 * n) 0
/-- The state byte of a K-link port (R383). -/
def portByte (s : State) (p : Nat) : Nat :=
  if readyCode s (kLink p) != 2 then 7
  else
    let x := portAt s p
    let w := if x.st != 2 then 0 else if x.width == 16 then 3 else if x.width == 8 then 2 else 1
    x.st + 8 * w
/-- The failed-lane mask of a port. -/
def laneMask (s : State) (p : Nat) : Nat := ((portAt s p).lanes.map (2 ^ ·)).sum
/-- The device identity (R387): the first 8 bytes of the digest of the modulus, from IDENT on. -/
def identity (s : State) : Word := if s.hub.identified then (digest (toBytes 512 Config.modulus.toNat)).extractLsb' 0 64 else 0
/-- FWSTATE, the mode and two zero bytes. -/
def phaseBytes (s : State) : List Byte := [BitVec.ofNat 8 s.hub.fw, if s.hub.testMode then 1 else 0, 0, 0]
/-- STATUS page 0 (R383). -/
def statusPage (s : State) : List Byte :=
  toBytes 8 s.time.dt ++ toBytes 4 Config.firmwareVersion.toNat ++ phaseBytes s ++ toBytes 8 (identity s).toNat ++ toBytes 8 serial
    ++ toBytes 4 (codes s ((List.range 12).map (3000 + ·))) ++ toBytes 4 (codes s ((List.range 4).map kTree))
    ++ toBytes 16 (codes s ((List.range 4).flatMap fun d => (List.range 16).map (sliceId d)))
    ++ toBytes 48 (codes s (((List.range 256).filter fun k => k % 64 < 48).map kCluster))
    ++ toBytes 4 (codes s ((List.range 4).map kCxl ++ (List.range 6).map kPcie)) ++ toBytes 4 (codes s ((List.range 16).map kApp))
    ++ (List.range 8).map (fun p => BitVec.ofNat 8 (portByte s p)) ++ (List.range 8).flatMap (fun p => toBytes 2 (laneMask s p))
    ++ (List.range 4).flatMap (fun p => toBytes 8 (Config.cxlCapacity p).toNat)
    ++ (List.range 2).flatMap (fun i => toBytes 8 (Config.spillRegion i).toNat)
    ++ (List.range 2).flatMap (fun i => toBytes 8 (Config.tableReserve i).toNat) ++ List.replicate 56 0
/-- A service counter of a cluster (R384): the events the model counts, counts of cycles as free values (log entry 15). -/
def svcValue (s : State) (k i : Nat) : Word :=
  if 20 ≤ i && i ≤ 23 then BitVec.ofNat 64 (tget 0 s.eng.svc (k * 32 + i))
  else if i ≤ 4 || (8 ≤ i && i ≤ 13) || (16 ≤ i && i ≤ 19) || (24 ≤ i && i ≤ 27) then Config.freeCycles (s.fresh + i) else 0
/-- STATUS (R383, R384). -/
def execStatus (s : State) : Host.Outcome State Fault Refusal :=
  .next (confineHub s (plainCommand 0x01 (fun s =>
    let i := (cmdArg s 1).toNat
    match (cmdArg s 0).toNat with
    | 0 => answerBuf s 1 0 (statusPage s)
    | 1 =>
      if 192 ≤ i then refuseCmd s 2
      else answerBuf { s with fresh := s.fresh + 32 } 8 0
        ((List.range 32).flatMap fun j => toBytes 8 (svcValue s (clusterNo (i / 48) (i % 48)) j).toNat)
    | 2 =>
      if !s.hub.testMode || 4 ≤ i then refuseCmd s 2
      else answerBuf s 8 0 ((List.range 5).flatMap fun j => toBytes 8 (tget 0 s.page.pref (i * 8 + j)))
    | 3 => answerBuf s 1 0 (toBytes 192 (codes s coreIds))
    | _ => refuseCmd s 2) s))

/-! ### SUMMARY (R386) -/

/-- A SUMMARY entry's 64 bytes. -/
def summaryEntry (type state dtlo : Nat) (a b c : Word) (d : Nat) : BitVec 512 :=
  BitVec.ofNat 512 (type + state % 256 * 2 ^ 8 + dtlo % 2 ^ 32 * 2 ^ 32 + a.toNat * 2 ^ 64 + b.toNat * 2 ^ 128 + c.toNat * 2 ^ 192
    + d % 2 ^ 256 * 2 ^ 256)
/-- D of a holding's entry (R386). -/
def holdingD (s : State) (key : Nat) : Nat :=
  match key / 2 ^ 44 with
  | 0 => (rangeAt s key).base + (rangeAt s key).size * 2 ^ 64
  | 1 => (lockAt s key).queue.length
  | 2 =>
    let r : Route := tget {} s.hold.routes key
    r.dtype + r.peer * 2 ^ 8 + r.dtag % 2 ^ 31 * 2 ^ 32 + (if r.gone then 2 ^ 63 else 0)
  | 4 =>
    let m : Mslot := tget {} s.eng.mslots (slotKey key 8)
    (if m.parked then 1 else 0) + tagBits m.tag * 2 ^ 32
  | 6 => (direntAt s (keyHome key) (key % 128)).key.toNat
  | 7 => (evqAt s key).cap + (evqAt s key).recs.length * 2 ^ 64
  | _ => 0
/-- Entries of TYPE 1. -/
def holdingEntries (s : State) : List (BitVec 512) :=
  (s.hold.lives.filter fun e => e.1 / 2 ^ 44 != 3 && (e.2.st == 1 || e.2.st == 2)).map fun e =>
    summaryEntry 1 e.2.st (localDt s (keyHome e.1)) (curHandle s e.1) (BitVec.ofNat 64 e.2.expiry) e.2.owner (holdingD s e.1)
/-- Entries of TYPE 2. -/
def instanceEntries (s : State) : List (BitVec 512) :=
  let d (k : Bool) : Nat := if k then 1 else 0
  ((s.work.launches.filter fun e => e.2.st != 0).map fun e =>
      summaryEntry 2 e.2.st (localDt s (launchHome e.1)) (instanceName 0 e.1) (BitVec.ofNat 64 e.2.out) e.2.ctxh (d e.2.killed))
    ++ (s.work.counters.filter fun e => e.2.st != 0).map fun e =>
      let id := e.1 * 16384 + e.2.gen
      summaryEntry 2 e.2.st (localDt s (counterHome id)) (instanceName e.2.level id) (BitVec.ofNat 64 e.2.out) e.2.ctxh (d e.2.killed)
/-- Entries of TYPE 3: contexts not DARK, and those that have lapsed or been power-killed since the snapshot before. -/
def contextEntries (s : State) : List (BitVec 512) :=
  let kill (h : Word) : Nat := if s.work.kills.contains h then 1 else 0
  let here := s.hold.lives.filter fun e => e.1 / 2 ^ 44 == 3 && (e.2.st == 1 || e.2.st == 2)
  let gone := (s.hold.lapsedCtx ++ s.work.kills).eraseDups.filter fun h => !here.any fun e => curHandle s e.1 == h
  (here.map fun e => summaryEntry 3 e.2.st (localDt s (keyHome e.1)) (curHandle s e.1) (BitVec.ofNat 64 e.2.expiry) 0 (kill (curHandle s e.1)))
    ++ gone.map fun h =>
      let x := lifeOf s (hKey h)
      summaryEntry 3 3 (localDt s (hHome h)) h (BitVec.ofNat 64 (if x.gen == hGen h then x.expiry else 0)) 0 (kill h)
/-- The sensor's value used (R388). -/
def usedValue (s : State) (id : Nat) : Int :=
  if id < 192 then tempOf s (id / 48) (id % 48) else (tget ({} : Sensor) s.hub.sensors id).raw
/-- Entries of TYPE 4 and 5. -/
def portEntries (s : State) : List (BitVec 512) :=
  ((List.range 8).map fun p =>
      summaryEntry 4 (portByte s p) s.time.dt (portAt s p).peerId (BitVec.ofNat 64 (laneMask s p)) 0 0)
    ++ (List.range 197).map fun i =>
      let x : Sensor := tget {} s.hub.sensors i
      summaryEntry 5 x.flags s.time.dt (BitVec.ofNat 64 i) (BitVec.ofInt 64 (usedValue s i)) (BitVec.ofInt 64 x.raw) 0
/-- Entries of TYPE 6 and 7: fatal records held in cores, and strands trap-parked on a trap queue that has lapsed. -/
def trapEntries (s : State) : List (BitVec 512) :=
  (s.core.held.flatMap fun e => (e.2.filter fun r => r.fatal).map fun r =>
      summaryEntry 6 0 (localDt s e.1) (BitVec.ofNat 64 e.1) r.ctxh 0 r.bytes.toNat)
    ++ (s.core.slots.filter fun e => e.2.st == 5 && !liveHandle s (launchAt s e.2.record.launch.toNat).tq).map fun e =>
      summaryEntry 7 0 (localDt s (e.1 / 16)) (BitVec.ofNat 64 (tagBits { core := e.1 / 16, slot := e.1 % 16, gen := slotGenOf s (e.1 / 16) (e.1 % 16) }))
        e.2.ctxh (BitVec.ofNat 64 e.2.lastCause) 0
/-- A new snapshot (R386). -/
def takeSnapshot (s : State) : State :=
  { s with hub.snap := holdingEntries s ++ instanceEntries s ++ contextEntries s ++ portEntries s ++ trapEntries s
           hub.snapNum := s.hub.snapNum + 1, hub.snapAt := some s.time.dt, hold.lapsedCtx := [], work.kills := [] }
/-- The snapshot still serves (R386). -/
def snapServes (s : State) : Bool := s.hub.snapAt.any fun t => decide (s.time.dt < t + 2 ^ 20)
/-- SUMMARY (R386). -/
def execSummary (s : State) : Host.Outcome State Fault Refusal :=
  .next (confineHub s (command 0x02 (fun _ => true) (fun f => decide (f < 2)) (fun s =>
    let s := if cmdFlags s == 1 then takeSnapshot s else s
    if !snapServes s then finishCmd (refuseCmd s 2)
    else
      let res := BitVec.ofNat 64 (s.hub.snapNum % 2 ^ 32 * 2 ^ 32 + s.hub.snap.length)
      finishCmd (answerBuf s 64 res ((s.hub.snap.drop (cmdArg s 1).toNat).flatMap fun e => toBytes 64 e.toNat))) s))
/-- SNAPSHOT_EXPIRY: a snapshot stops serving (R386). -/
def execSnapshotExpiry (s : State) : Host.Outcome State Fault Refusal :=
  .next (confineHub s (if s.hub.snapAt.isSome && !snapServes s then { s with hub.snap := [], hub.snapAt := none } else s))

/-! ### Contexts (R374) -/

/-- The home slices in ascending unit id. -/
def sliceIds : List Nat := (List.range 4).flatMap fun d => (List.range 16).map (sliceId d)
/-- GRANTCTX (R374): the entry owns itself. -/
def execGrantctx (s : State) : Host.Outcome State Fault Refusal :=
  .next (confineHub s (plainCommand 0x03 (fun s =>
    let term := cmdArg s 0
    let home := (cmdArg s 1).toNat
    if !termOk term || (home != 0 && !slicePresent s home) then refuseCmd s 2
    else
      let homes := if home == 0 then sliceIds.filter (slicePresent s) else [home]
      match homes.findSome? (freeEntry s 3) with
      | none => refuseCmd s (if homes.isEmpty then 7 else 3)
      | some key =>
        let h := mkHandle key (nextGen (lifeOf s key).gen)
        { st := issueEntry s key h (localDt s (keyHome key) + term.toNat), res := h }) s))
/-- RENEWCTX (R31, R374). -/
def execRenewctx (s : State) : Host.Outcome State Fault Refusal :=
  .next (confineHub s (plainCommand 0x04 (fun s =>
    let h := cmdArg s 0
    let term := cmdArg s 1
    if ctxStatus s h == 2 || !termOk term then refuseCmd s 2
    else if ctxStatus s h != 0 then refuseCmd s 4
    else
      let x := localDt s (hHome h) + term.toNat
      { st := setLife s (hKey h) { lifeOf s (hKey h) with expiry := x }, res := BitVec.ofNat 64 x }) s))

/-! ### ATTEST, SENSORS, THERMTAB (R387 to R390) -/

/-- The report without its signature (R387). -/
def reportBytes (s : State) (nonce : List Byte) : List Byte :=
  toBytes 4 0x54414B5A ++ toBytes 4 1 ++ toBytes 8 (identity s).toNat ++ toBytes 8 s.time.dt ++ phaseBytes s ++ List.replicate 4 0
    ++ toBytes 64 Config.romDigest.toNat ++ toBytes 64 (recordField 0x98 64) ++ nonce ++ List.replicate 32 0
    ++ toBytes 512 Config.modulus.toNat
/-- ATTEST (R387). -/
def execAttest (s : State) : Host.Outcome State Fault Refusal :=
  .next (confineHub s (plainCommand 0x0A (fun s =>
    if cmdBufLen s < 1280 then refuseCmd s 2
    else
      let r := reportBytes s (memBytes s.mem (cmdBuf s) 64)
      answerBuf s 1280 0 (r ++ toBytes 512 (Config.sign (digest r)).toNat)) s))
/-- A sensor record (R388). -/
def sensorBytes (s : State) (id : Nat) : List Byte :=
  let x : Sensor := tget {} s.hub.sensors id
  toBytes 2 id ++ [if id < 192 then 0 else 1, BitVec.ofNat 8 x.flags] ++ toBytes 4 (BitVec.ofInt 32 x.raw).toNat
    ++ toBytes 4 (BitVec.ofInt 32 (usedValue s id)).toNat ++ toBytes 4 0
/-- SENSORS (R388). -/
def execSensors (s : State) : Host.Outcome State Fault Refusal :=
  .next (confineHub s (plainCommand 0x0B (fun s => answerBuf s 16 197 ((List.range 197).flatMap (sensorBytes s))) s))
/-- A THERMTAB record (R389). -/
def thermBytes (t : Therm) : List Byte :=
  toBytes 1 t.amber ++ toBytes 1 t.crimson ++ toBytes 2 0 ++ toBytes 2 t.budget ++ toBytes 2 t.ocl ++ toBytes 8 0
/-- THERMTAB that reads (R389). -/
def execThermtabRead (s : State) : Host.Outcome State Fault Refusal :=
  .next (confineHub s (command 0x0C (fun s => cmdFlags s % 2 == 0) (fun f => decide (f < 2))
    (fun s => finishCmd (answerBuf s 16 0 (s.hub.therm.toList.flatMap thermBytes))) s))
/-- The record of a die in the command's buffer. -/
def thermIn (s : State) (d : Nat) : Therm :=
  let f (off n : Nat) : Nat := memRead s.mem (cmdBuf s + 16 * d + off) n
  { amber := f 0 1, crimson := f 1 1, budget := f 4 2, ocl := f 6 2 }
/-- A record keeps the limits of R389, and its reserved bytes are 0. -/
def thermOk (s : State) (d : Nat) : Bool :=
  let t := thermIn s d
  decide (60 ≤ t.amber) && decide (t.amber + 6 ≤ t.crimson) && decide (t.crimson ≤ 110) && decide (200 ≤ t.budget) && decide (t.budget ≤ 1000)
    && decide (100 ≤ t.ocl) && decide (t.ocl ≤ 2000) && memRead s.mem (cmdBuf s + 16 * d + 2) 2 == 0 && memRead s.mem (cmdBuf s + 16 * d + 8) 8 == 0
/-- THERMTAB that writes (R389). -/
def execThermtabWrite (s : State) : Host.Outcome State Fault Refusal :=
  .next (confineHub s (command 0x0C (fun s => cmdFlags s % 2 == 1) (fun f => decide (f < 2)) (fun s =>
    let ts := (List.range 4).map (thermIn s)
    if cmdBufLen s < 64 || !(List.range 4).all (thermOk s) || decide (3000 < (ts.map (·.budget)).sum) then finishCmd (refuseCmd s 2)
    else finishCmd { st := { s with hub.therm := Vector.ofFn fun i => thermIn s i.val } }) s))
/-- The alarm of a die or of the package (4). -/
def alarmAt (s : State) (d : Nat) : Alarm := tget {} s.hub.alarm d
/-- The state with an alarm set. -/
def putAlarm (s : State) (d : Nat) (a : Alarm) : State := { s with hub.alarm := tset {} s.hub.alarm d a }
/-- A current sensor's sample, out of range or not (R388). -/
def sampleSensor (s : State) (id : Nat) (amps : Int) : State :=
  let x : Sensor := tget {} s.hub.sensors id
  let bad := decide (amps < 0) || decide (64000 < amps)
  { s with hub.sensors := tset {} s.hub.sensors id { x with raw := amps, flags := if bad then x.flags ||| 4 else x.flags } }
/-- The die's samples after one more (R390). -/
def Alarm.sample (a : Alarm) (amps limit : Int) (dt : Nat) : Alarm :=
  if limit < amps then
    { a with above := min 2 (a.above + 1), below := 0, raised := a.raised || decide (1 ≤ a.above), seen := some dt }
  else { a with above := 0, below := min 16 (a.below + 1), raised := a.raised && decide (a.below < 15), seen := some dt }
/-- CURRENT_SAMPLE: the current of a die, or of the package (4), in 1/16 A, once a tick (R388, R390). -/
def execCurrentSample (die : Nat) (amps : Int) (s : State) : Host.Outcome State Fault Refusal :=
  .next (confineHub s
    (let a := alarmAt s die
    if 4 < die || a.seen == some s.time.dt then s
    else
      let s := sampleSensor s (192 + die) amps
      if die == 4 then
        let a' := a.sample amps (75 * 16) s.time.dt
        let s := putAlarm s 4 { a' with raised := false }
        if 2 ≤ a'.above then (List.range 4).foldl (fun s d => putAlarm s d { alarmAt s d with raised := true, below := 0 }) s else s
      else
        let a' := a.sample amps (16 * (thermOf s die).ocl) s.time.dt
        putAlarm s die { a' with budget := a.budget || decide (amps < 0) || decide (64000 < amps) }))
/-- A sensor's raw value as read (R388): of a cluster, with the marks that then hold, or (200 + d) the measured power of die `d`
in W (log entry 14). -/
def senseTemp (s : State) (id : Nat) (raw : Int) : State :=
  let x : Sensor := tget {} s.hub.sensors id
  let put (y : Sensor) : State := { s with hub.sensors := tset {} s.hub.sensors id y }
  if 192 ≤ id then (if 200 ≤ id && id < 204 then put { x with raw := raw } else s)
  else
    let d := id / 48
    let near := neighbours (id % 48)
    let now := sensorRefs s id
    let x := if raw == x.raw then x else { x with raw := raw, since := s.time.dt, refs := now }
    let before (c : Nat) : Int := ((x.refs.find? (·.1 == c)).map (·.2)).getD 0
    let stuck := decide (x.since + 65536 ≤ s.time.dt) && now.any fun r => decide (32 ≤ (r.2 - before r.1).natAbs)
    let range := decide (raw < -320) || decide (2400 < raw)
    let good := near.filter fun c => (tempSensor s d c).flags % 2 == 0
    let apart := !good.isEmpty && good.all fun c => decide (240 < (raw - rawOf s (d * 48 + c)).natAbs)
    let mark (b : Bool) (n f : Nat) : Nat := if b then f ||| n else f
    let f := mark apart 8 (mark range 4 (mark stuck 2 x.flags))
    put { x with flags := mark (stuck || range || apart) 1 f }

/-! ### LINKCFG (R391) -/

/-- LINKCFG's checks: BADARG, NOTREADY while the port is STARTING, LAPSED for its import context, or 0. -/
def linkStatus (s : State) : Nat :=
  let p := (cmdArg s 0).toNat
  let h := cmdArg s 2
  if 8 ≤ p || decide (1 < (cmdArg s 1).toNat) then 2
  else match readyCode s (kLink p) with
    | 2 => if h == 0 then 0 else ctxStatus s h
    | 1 => 7
    | _ => 2
/-- The import context bound to the command's port. -/
def bindImport (s : State) : State :=
  let p := (cmdArg s 0).toNat
  putPort s p { portAt s p with import_ := cmdArg s 2 }
/-- The end of a LINKCFG: RES is the port's state byte. -/
def finishLink (s : State) : State :=
  finishCmd { st := s, res := BitVec.ofNat 64 (portByte s (cmdArg s 0).toNat) }
/-- LINKCFG with action 0, or one that is refused for its action. -/
def execLinkcfgDown (s : State) : Host.Outcome State Fault Refusal :=
  .next (confineHub s (command 0x0D (fun s => cmdArg s 1 != 1) (· == 0) (fun s =>
    if linkStatus s != 0 then finishCmd (refuseCmd s (linkStatus s))
    else finishLink (portDown (bindImport s) (cmdArg s 0).toNat)) s))
/-- LINKCFG with action 1: the port trains or retrains at full width, and the command completes when it has left TRAINING or
RETRAIN. -/
def execLinkcfgTrain (s : State) : Host.Outcome State Fault Refusal :=
  .next (confineHub s (command 0x0D (fun s => cmdArg s 1 == 1) (· == 0) (fun s =>
    let p := (cmdArg s 0).toNat
    if s.hub.linkWait == some p then
      if (portAt s p).st == 1 || (portAt s p).st == 3 then s else finishLink { s with hub.linkWait := none }
    else if linkStatus s != 0 then finishCmd (refuseCmd s (linkStatus s))
    else
      let s := bindImport s
      let x := portAt s p
      let x : Port := match x.st with
        | 0 => { x with st := 1, since := s.time.dt }
        | 1 => x
        | _ => { x with st := 3, lanes := [], since := s.time.dt }
      { putPort s p x with hub.linkWait := some p }) s))

end Sys2Proof.Machine
end

