-- ==== Sys2Proof/Machine/Hub.lean ====
section
/-! DEFINITION. The commands LOADOVL, LAUNCH, CANCEL, CHECKPOINT and RESTORE (R375 to R378), and a core taken out of service
(R385). -/

namespace Sys2Proof.Machine
open Sys2Proof

/-! ### LOADOVL (R75, R76, R375) -/

/-- An entry of a bundle (R75): its overlay, code image and data image. -/
structure OvlEntry where
  id : Nat
  codeLen : Nat
  codeOff : Nat
  dataLen : Nat
  dataOff : Nat
  zeros : Bool
/-- Entry `i` of the bundle at an address. -/
def ovlEntry (s : State) (b i : Nat) : OvlEntry :=
  let f (off n : Nat) : Nat := memRead s.mem (b + 64 + 32 * i + off) n
  { id := f 0 2, codeLen := f 4 4, codeOff := f 8 8, dataLen := f 16 4, dataOff := f 24 8, zeros := f 2 2 == 0 && f 20 4 == 0 }
/-- An image lies between the entry table and the trailer, 64-byte aligned. -/
def imageOk (count length off n : Nat) : Bool :=
  off % 64 == 0 && (n == 0 || (decide (64 + 32 * count ≤ off) && decide (off + n + 576 ≤ length)))
/-- An entry keeps R75's limits. -/
def OvlEntry.ok (e : OvlEntry) (count length : Nat) : Bool :=
  e.id != 0 && e.id != 0xFFFF && e.zeros && e.codeLen % 12 == 0 && decide (e.codeLen ≤ 65532) && decide (e.dataLen ≤ 2 ^ 24)
    && imageOk count length e.codeOff e.codeLen && imageOk count length e.dataOff e.dataLen && (e.dataLen != 0 || e.dataOff == 0)
/-- No two of some images overlap. -/
def disjointImages : List (Nat × Nat) → Bool
  | [] => true
  | a :: r => r.all (fun b => a.2 == 0 || b.2 == 0 || decide (a.1 + a.2 ≤ b.1) || decide (b.1 + b.2 ≤ a.1)) && disjointImages r
/-- No overlay id is repeated. -/
def distinctIds : List Nat → Bool
  | [] => true
  | a :: r => !r.contains a && distinctIds r
/-- The entries of the bundle in the command's buffer. -/
def bundleEntries (s : State) : List OvlEntry := (List.range (memRead s.mem (cmdBuf s + 6) 2)).map (ovlEntry s (cmdBuf s))
/-- What LOADOVL finds in a bundle (R76, R375): 5 AUTH, 2 BADARG, or 0. -/
def bundleStatus (s : State) : Nat :=
  let b := cmdBuf s
  let n := cmdBufLen s
  let f (off n : Nat) : Nat := memRead s.mem (b + off) n
  let es := bundleEntries s
  if n < 640 || f 8 8 != n then 2
  else if BitVec.ofNat 512 (f (n - 576) 64) != digest (memBytes s.mem b (n - 576))
      || !Config.verify (BitVec.ofNat 512 (f (n - 576) 64)) (BitVec.ofNat 4096 (f (n - 512) 512)) then 5
  else if f 0 4 != 0x424D4C46 || f 4 2 != 1 || es.isEmpty || decide (4096 < es.length) || f 16 48 != 0
      || !es.all (fun e => e.ok es.length n) || !distinctIds (es.map (·.id))
      || !disjointImages (es.flatMap fun e => [(e.codeOff, e.codeLen), (e.dataOff, e.dataLen)]) then 2
  else 0
/-- A page of a range backed with a frame and PRESENT, all zeros, with its tier and rights (R349, R50): the frame's number. -/
def placePage (s : State) (ctxh : Word) (key : Nat) (r : Range) (vpn : Nat) (p : Pte) : Option (State × Nat) :=
  (allocFrame s (keyHome key) p.far r.lp).map fun f =>
    let s := zeroFrame s f (if r.lp then 32 else 1)
    (bumpEntry { s with page.pte := tset {} s.page.pte (pteKey ctxh vpn) { p with st := 1, pn := f, large := r.lp, purge := false }
                        page.hot := tdel s.page.hot f } ctxh key vpn, f)
/-- Pages of a range backed and filled from host memory: `n` pages from page `i` on, of which `len` bytes remain. -/
def fillPages (ctxh : Word) (key src len : Nat) : Nat → Nat → State → Option State
  | 0, _, s => some s
  | n + 1, i, s =>
    match placePage s ctxh key (rangeAt s key) ((rangeAt s key).base / 65536 + i) { rd := true, wr := true } with
    | none => none
    | some (s, f) =>
      let k := min 65536 (len - 65536 * i)
      fillPages ctxh key src len n (i + 1) { s with mem := memWrite s.mem (f * 65536) k (memRead s.mem (src + 65536 * i) k) }
/-- The data images of a bundle's entries in ranges of their own (R375): the state and the table of handles and bases. -/
def placeData (ctxh : Word) (src term : Nat) : List OvlEntry → State → Option (State × List (Word × Nat))
  | [], s => some (s, [])
  | e :: es, s =>
    if e.dataLen == 0 then (placeData ctxh src term es s).map fun r => (r.1, (0, 0) :: r.2)
    else
      let pages := (e.dataLen + 65535) / 65536
      match grantRange s ctxh (dieOf (hHome ctxh)) (pages * 65536) term false false with
      | none => none
      | some (s, h, base) => match fillPages ctxh (hKey h) (src + e.dataOff) e.dataLen pages 0 s with
        | none => none
        | some s => (placeData ctxh src term es s).map fun r => (r.1, (h, base) :: r.2)
/-- Where firmware keeps the next bundle's images: the lowest place that no bundle has (log entry 22). -/
def bundleBase (s : State) : Nat :=
  let at_ (k : Nat) : Nat := 2 ^ 62 + k * 2 ^ 32
  at_ ((leastFrom (fun k => !s.work.bundles.any fun b => b.base == at_ k) 0 (s.work.bundles.length + 1)).getD s.work.bundles.length)
/-- Code images copied to the memory firmware reserves. -/
def keepCode (src base : Nat) (es : List OvlEntry) (s : State) : State :=
  { s with mem := es.foldl (fun m e => memWrite m (base + e.codeOff) e.codeLen (memRead m (src + e.codeOff) e.codeLen)) s.mem }
/-- The lowest bundle number that a context has not used (R375). -/
def freeBundle (s : State) (ctxh : Word) : Option Nat :=
  leastFrom (fun n => !s.work.bundles.any fun b => b.number == n && b.ctxh == ctxh) 1 65535
/-- LOADOVL (R375). -/
def execLoadovl (s : State) : Host.Outcome State Fault Refusal :=
  .next (confineHub s (plainCommand 0x05 (fun s =>
    let ctxh := cmdArg s 0
    let src := cmdBuf s
    let es := bundleEntries s
    if ctxStatus s ctxh != 0 then refuseCmd s (ctxStatus s ctxh)
    else if !termOk (cmdArg s 1) then refuseCmd s 2
    else if bundleStatus s != 0 then refuseCmd s (bundleStatus s)
    else match freeBundle s ctxh, placeData ctxh src (cmdArg s 1).toNat es s with
      | some n, some (t, table) =>
        let base := bundleBase s
        let t := keepCode src base es t
        let b : Bundle := { ctxh := ctxh, number := n, base := base, ovls := es.map fun e => (e.id, base + e.codeOff, e.codeLen) }
        let bytes := table.flatMap fun x => toBytes 8 x.1.toNat ++ toBytes 8 x.2
        { st := { t with work.bundles := t.work.bundles ++ [b], mem := memPuts t.mem (hostAt (cmdArg s 2).toNat) bytes }
          res := BitVec.ofNat 64 n }
      | _, _ => refuseCmd s 3) s))

/-! ### LAUNCH (R376) -/

/-- A long command concerns a context (R372). -/
def longConcerns (s : State) (ctxh : Word) : Bool := s.hub.long.any fun l => l.ctxh == ctxh
/-- A handle of a host's descriptor (R372, R376): BADARG or LAPSED as an exception's cause; check 7 is not applied. -/
def hostCheck (s : State) (kinds : List Nat) (h : Word) : Except Exc Unit := do
  checkHandle s kinds h
  checkIndex h
  need (liveHandle s h) (hExc .lapsed h)
/-- A host's handle that may be 0, for firmware to fill in. -/
def hostCheckOr (s : State) (kinds : List Nat) (h : Word) : Except Exc Unit := if h == 0 then .ok () else hostCheck s kinds h
/-- The checks of a host's descriptor (R315, R376). -/
def hostDescriptor (s : State) (ctxh : Word) (b : Nat) : Except Exc Unit := do
  let h (off : Nat) : Word := BitVec.ofNat 64 (descField b off 8)
  checkFields s (fun _ _ => .ok ()) (fun _ => .ok ()) b
  need (descField b 0x68 8 == 0) (bad (h 0x68))
  let g := descField b 0x14 4
  need (g == 0 || (counterLive s g && (counterAt s g).st == 1 && (counterAt s g).level == 1 && (counterAt s g).ctxh == ctxh)) (bad (BitVec.ofNat 64 g))
  hostCheckOr s [7] (h 0x18)
  hostCheckOr s [7] (h 0x20)
  hostCheckOr s [0] (h 0x38)
  need (h 0x38 == 0 || rangeHolds s (h 0x38) (descField b 0x28 4 * descField b 0x48 4)) (bad (h 0x38))
  hostCheckOr s [0] (h 0x40)
  need (h 0x40 == 0 || rangeHolds s (h 0x40) (256 * descField b 0x48 4)) (bad (h 0x40))
/-- A LAUNCH as firmware completes it: its descriptor, the holdings granted and the counters opened so far. -/
structure Fill where
  st : State
  b : Nat
  made : List Word := []
  opened : List Nat := []
/-- A descriptor with a field of `n` bytes set. -/
def setDesc (b off n v : Nat) : Nat := b - descField b off n * 256 ^ off + v % 256 ^ n * 256 ^ off
/-- A counter opened for the launch on a slice (R376). -/
def openFor (f : Fill) (home level parent : Nat) (ctxh : Word) : Option (Fill × Nat) :=
  (freeCounter f.st home).map fun id => ({ f with st := openCounter f.st id level parent ctxh 0, opened := id :: f.opened }, id)
/-- GRAPH filled in (R376): a job, a phase and a graph; as far as entries go, and whether all were opened. -/
def fillGraph (f : Fill) (home : Nat) (ctxh : Word) : Fill × Bool :=
  if descField f.b 0x14 4 != 0 then (f, true)
  else match openFor f home 3 0 ctxh with
    | none => (f, false)
    | some (f, job) => match openFor f home 2 job ctxh with
      | none => (f, false)
      | some (f, phase) => match openFor f home 1 phase ctxh with
        | none => (f, false)
        | some (f, graph) => ({ f with b := setDesc f.b 0x14 4 graph }, true)
/-- A range filled in at an offset of the descriptor (R376). -/
def fillRange (f : Fill) (off size term : Nat) (ctxh : Word) : Fill × Bool :=
  if descField f.b off 8 != 0 then (f, true)
  else match grantRange f.st ctxh (dieOf (counterHome (descField f.b 0x14 4))) size term false false with
    | none => (f, false)
    | some (s, h, _) => ({ f with st := s, b := setDesc f.b off 8 h.toNat, made := h :: f.made }, true)
/-- TQ filled in (R376). -/
def fillQueue (f : Fill) (term : Nat) (ctxh : Word) : Fill × Bool :=
  let home := counterHome (descField f.b 0x14 4)
  if descField f.b 0x20 8 != 0 then (f, true)
  else match freeEntry f.st 7 home with
    | none => (f, false)
    | some key =>
      if storeUsed f.st home + 64 ≤ 65536 then
        let s := putEvq (issueEntry f.st key ctxh (localDt f.st home + term)) key { cap := 64 }
        ({ f with st := s, b := setDesc f.b 0x20 8 (curHandle s key).toNat, made := curHandle s key :: f.made }, true)
      else (f, false)
/-- The fields filled in one after another while none fails. -/
def fillAll (f : Fill) (home term : Nat) (ctxh : Word) : Fill × Bool :=
  let next (x : Fill × Bool) (g : Fill → Fill × Bool) : Fill × Bool := if x.2 then g x.1 else x
  let priv := descField f.b 0x28 4 * descField f.b 0x48 4
  let image := (256 * descField f.b 0x48 4 + 65535) / 65536 * 65536
  next (next (next (fillGraph f home ctxh) fun f => fillRange f 0x38 priv term ctxh) fun f => fillRange f 0x40 image term ctxh)
    fun f => fillQueue f term ctxh
/-- A counter sealed (R302). -/
def sealCounter (s : State) (id : Nat) : State := settleCounter (putCounter s id { counterAt s id with st := 2 }) id
/-- A holding let go of by renewing it with term 0 (R27). -/
def letGo (s : State) (h : Word) : State :=
  setLife s (hKey h) { lifeOf s (hKey h) with expiry := localDt s (hHome h) }
/-- What firmware has done for a LAUNCH that fails is undone (R376): the graph is the counter opened last. -/
def undoFill (f : Fill) : State := f.made.foldl letGo (f.opened.foldl sealCounter f.st)
/-- LAUNCH (R376); BUSY while a long command concerns the context (R377). -/
def execHostLaunch (s : State) : Host.Outcome State Fault Refusal :=
  .next (confineHub s (plainCommand 0x06 (fun s =>
    let ctxh := cmdArg s 0
    let bundle := (cmdArg s 1).toNat
    let home := (cmdArg s 2).toNat
    let b := memRead s.mem (cmdBuf s) 128
    if ctxStatus s ctxh != 0 then refuseCmd s (ctxStatus s ctxh)
    else if longConcerns s ctxh then refuseCmd s 6
    else if cmdBufLen s < 128 || !termOk (cmdArg s 3) || (home != 0 && !slicePresent s home)
        || !s.work.bundles.any (fun x => x.number == bundle && x.ctxh == ctxh) then refuseCmd s 2
    else match hostDescriptor s ctxh b, (if home == 0 then sliceIds.find? (slicePresent s) else some home) with
      | .error e, _ => refuseCmd s (if e.cause == .lapsed then 4 else 2)
      | _, none => refuseCmd s 7
      | .ok _, some home =>
        let f := fillAll { st := s, b := b } home (cmdArg s 3).toNat ctxh
        let pts := tget 0 s.coh.hubPts 16
        match (if f.2 then createLaunch f.1.st ctxh f.1.b [] bundle pts else none) with
        | none => refuseCmd (undoFill f.1) 3
        | some (t, n) =>
          let t := f.1.opened.foldl sealCounter t
          { st := { t with mem := memWrite t.mem (cmdBuf s) 128 f.1.b }, res := instanceName 0 n, reslen := 128 }) s))

/-! ### CANCEL (R317, R373) -/

/-- Some cancel token is still being acknowledged (R305). -/
def castOpen (s : State) (ts : List Token) : Bool := s.work.casts.any fun b => ts.contains b.token
/-- CANCEL for the host: RES is the code of R317; it ends once every core and engine has acknowledged the tokens (R305). -/
def execHostCancel (s : State) : Host.Outcome State Fault Refusal :=
  .next (confineHub s (command 0x07 (fun _ => true) (· == 0) (fun s =>
    let done (s : State) (n : Nat) : State := finishCmd { st := s, res := BitVec.ofNat 64 n }
    match s.hub.cancelWait with
    | some ts => if castOpen s ts then s else done { s with hub.cancelWait := none } 1
    | none => match parseName (cmdArg s 0) with
      | .error _ => finishCmd (refuseCmd s 2)
      | .ok (level, id) => match (instanceAt s level id).1 with
        | 0 => done s 3
        | 3 => done s 2
        | _ => match cancelInstance s level id none false with
          | none => done s 0
          | some t =>
            let ts := cancelTokens s level id false
            if ts.isEmpty || (cancelUnits s).isEmpty then done t 1 else { t with hub.cancelWait := some ts }) s))

/-! ### CHECKPOINT and RESTORE (R377, R378) -/

/-- A launch of a context stopped for a CHECKPOINT (R109, R377). -/
def stopLaunch (s : State) (n : Nat) : State :=
  let cores := partition s n
  let s := putLaunch s n { launchAt s n with halted := true }
  if cores.isEmpty then s
  else { s with work.halts := s.work.halts ++ [{ launch := n, evq := 0, waiter := none, left := cores, landed := 0, dropped := false }] }
/-- A long command begins (R372): STATUS RUNNING, and CQHEAD advances. -/
def beginLong (s : State) (l : Long) : State :=
  let s := { s with hub.long := some l, mem := memWrite s.mem (l.entry + 2) 2 0xFFFE }
  advanceHead s
/-- CHECKPOINT (R377): it gang-stops the launches of the context that run. -/
def execCheckpoint (s : State) : Host.Outcome State Fault Refusal :=
  .next (confineHub s (command 0x08 (fun _ => true) (fun f => decide (f < 2)) (fun s =>
    let ctxh := cmdArg s 0
    if ctxStatus s ctxh != 0 then finishCmd (refuseCmd s (ctxStatus s ctxh))
    else if !termOk (cmdArg s 1) then finishCmd (refuseCmd s 2)
    else if s.hub.long.isSome then finishCmd (refuseCmd s 6)
    else
      let ns := (s.work.launches.filter fun e => e.2.ctxh == ctxh && e.2.st != 0 && !e.2.halted).map (·.1)
      let l : Long := { entry := cmdAddr s, restore := false, ctxh := ctxh, hold := cmdFlags s == 1, image := 0, term := (cmdArg s 1).toNat,
                        buf := cmdBuf s, buflen := cmdBufLen s, launches := ns }
      beginLong (ns.foldl stopLaunch s) l) s))
/-- The images of a LIVE image range (R378). -/
def imageOf (s : State) (h : Word) : Option Image :=
  if liveHandle s h then s.hold.images.find? fun i => i.range == h else none
/-- Every saved range may be placed at its base under a context (R378). -/
def imageFits (s : State) (ctxh : Word) (i : Image) : Bool := i.ranges.all fun r => baseFree s ctxh r.rec_.base r.rec_.size
/-- RESTORE (R378). -/
def execRestore (s : State) : Host.Outcome State Fault Refusal :=
  .next (confineHub s (command 0x09 (fun _ => true) (· == 0) (fun s =>
    let ctxh := cmdArg s 0
    if ctxStatus s ctxh != 0 then finishCmd (refuseCmd s (ctxStatus s ctxh))
    else if !termOk (cmdArg s 2) || !((imageOf s (cmdArg s 1)).any (imageFits s ctxh)) then finishCmd (refuseCmd s 2)
    else if s.hub.long.isSome then finishCmd (refuseCmd s 6)
    else beginLong s { entry := cmdAddr s, restore := true, ctxh := ctxh, hold := false, image := cmdArg s 1, term := (cmdArg s 2).toNat,
                       buf := cmdBuf s, buflen := cmdBufLen s, launches := [] }) s))
/-- A long command ends: its buffer, RES, RESLEN and then its final STATUS (R372). -/
def endLong (s : State) (l : Long) (status : Nat) (res : Word) (rec_ : Nat) (bs : List Byte) : State :=
  let n := min bs.length l.buflen / rec_ * rec_
  writeEntry { s with mem := memPuts s.mem l.buf (bs.take n), hub.long := none } l.entry status res n
/-- The LIVE ranges of a context. -/
def liveRanges (s : State) (ctxh : Word) : List (Nat × Range) :=
  s.hold.ranges.filter fun e => (lifeOf s e.1).owner == ctxh && isLive s e.1
/-- The page-table entries of a range, by page number. -/
def rangePtes (s : State) (ctxh : Word) (r : Range) : List (Nat × Pte) :=
  (s.page.pte.filter fun e =>
    decide (pteKey ctxh (r.base / 65536) ≤ e.1) && decide (e.1 < pteKey ctxh ((r.base + r.size) / 65536))).map
      fun e => (e.1 - pteKey ctxh (r.base / 65536), e.2)
/-- The frames of a page. -/
def pageFrames (r : Range) : Nat := if r.lp then 32 else 1
/-- Loads of the sectors from `a` up to before `b` in the memory order, under a lease (R45, R47): their timestamp. -/
def loadSectors (s : State) (ll a b ts : Nat) : State × Nat :=
  ((List.range ((b + 63) / 64 - a / 64)).map (a / 64 + ·)).foldl (fun x sec =>
    let s := l2Room x.1 sec
    let d := filled s sec
    let t := max x.2 d.wts
    (putHome s sec { d with rts := max d.rts (t + ll) }, t)) (s, ts)
/-- A range as it is saved, the bytes of its PRESENT coherent pages read as loads in the memory order at the host's timestamp (R45,
R377). -/
def saveRange (ctxh : Word) (x : State × List SavedRange) (e : Nat × Range) : State × List SavedRange :=
  let ps := rangePtes x.1 ctxh e.2
  let n := pageFrames e.2 * 65536
  let s := ps.foldl (fun s p =>
    if p.2.st != 1 || p.2.nc then s
    else
      let r := loadSectors s ({ tag := {}, pa := 0, n := 0, kind := .read, pts := 0, post := .store } : MemReq).ll (p.2.pn * 65536)
        (p.2.pn * 65536 + n) (tget 0 s.coh.hubPts 16)
      { r.1 with coh.hubPts := tset 0 r.1.coh.hubPts 16 r.2 }) x.1
  (s, x.2 ++ [{ handle := curHandle s e.1, rec_ := e.2, pages := ps.map fun p =>
    { page := p.1, pte := p.2, bytes := if p.2.st == 1 then memRead s.mem (p.2.pn * 65536) n else 0 } }])
/-- A PRESENT page of a context's ranges has a failed word, so that its copy fails (R372; log entry 45). -/
def copyFails (s : State) (ctxh : Word) : Bool :=
  (liveRanges s ctxh).any fun e => (rangePtes s ctxh e.2).any fun p =>
    p.2.st == 1 && (softWord s (p.2.pn * 65536) (pageFrames e.2 * 65536)).isSome
/-- The bytes of an image (R377): 64 for a record, 16 for an entry, and those of each PRESENT page. -/
def imageSize (rs : List SavedRange) : Nat :=
  (rs.map fun r => 64 + (r.pages.map fun p => 16 + if p.pte.st == 1 then pageFrames r.rec_ * 65536 else 0).sum).sum
/-- The image's FAR pages, with bytes of a layout no rule gives (log entry 21). -/
def fillFar (ctxh : Word) (key : Nat) : Nat → Nat → State → Option State
  | 0, _, s => some s
  | n + 1, i, s =>
    match placePage s ctxh key (rangeAt s key) ((rangeAt s key).base / 65536 + i) { rd := true, wr := true, far := true } with
    | none => none
    | some (s, f) => fillFar ctxh key n (i + 1)
        { s with mem := memWrite s.mem (f * 65536) 65536 (Config.freePage s.fresh), fresh := s.fresh + 1 }
/-- The launches of a CHECKPOINT go on, unless HOLD is set (R377). -/
def resumeAll (s : State) (l : Long) : State :=
  if l.hold then s
  else l.launches.foldl (fun s n => if (launchAt s n).ctxh == l.ctxh then
    resumeLaunch (putLaunch s n { launchAt s n with halted := false }) n else s) s
/-- Owned sectors of a context's PRESENT pages are recalled: true when none is left. -/
def recallRanges (s : State) (ctxh : Word) : State × Bool :=
  (liveRanges s ctxh).foldl (fun x e => (rangePtes s ctxh e.2).foldl (fun x p =>
    if p.2.st == 1 then
      let r := recallFrame x.1 p.2.pn (pageFrames e.2)
      (r.1, x.2 && r.2)
    else x) x) (s, true)
/-- The copy of a CHECKPOINT, once its launches have stopped (R377). -/
def endCheckpoint (s : State) (l : Long) : State :=
  let stopped := !s.work.halts.any fun h => h.evq == 0 && l.launches.contains h.launch
  let moving := (liveRanges s l.ctxh).any fun e => (rangePtes s l.ctxh e.2).any fun p => p.2.st == 5
  if !stopped || moving then s
  else match recallRanges s l.ctxh with
    | (t, false) => t
    | (_, true) =>
      if copyFails s l.ctxh then endLong (resumeAll s l) l 8 0 8 []
      else
      let (u, rs) := (liveRanges s l.ctxh).foldl (saveRange l.ctxh) (s, [])
      let pages := max 1 ((imageSize rs + 65535) / 65536)
      let done := match grantRange u l.ctxh (dieOf (hHome l.ctxh)) (pages * 65536) l.term false false with
        | none => none
        | some (t, h, _) => (fillFar l.ctxh (hKey h) pages 0 t).map fun t => (t, h)
      match done with
      | none => endLong (resumeAll s l) l 3 0 8 []
      | some (t, h) =>
        endLong (resumeAll { t with hold.images := t.hold.images ++ [{ range := h, ranges := rs }] } l) l 0 h 8
          (rs.flatMap fun r => toBytes 8 r.handle.toNat)
/-- The pages of a saved range backed and filled (R378): PRESENT ones alone. -/
def restorePages (ctxh : Word) (key : Nat) (r : Range) : List SavedPage → State → Option State
  | [], s => some s
  | p :: ps, s =>
    if p.pte.st != 1 then restorePages ctxh key r ps s
    else match placePage s ctxh key r (r.base / 65536 + p.page) p.pte with
      | none => none
      | some (s, f) => restorePages ctxh key r ps { s with mem := memWrite s.mem (f * 65536) (pageFrames r * 65536) p.bytes }
/-- Saved ranges restored in image order (R378), as far as entries and frames go: the pairs of handles, and whether all were. -/
def restoreRanges (l : Long) : List SavedRange → State → State × List (Word × Word) × Bool
  | [], s => (s, [], true)
  | r :: rs, s =>
    match (rangeHome s (dieOf (hHome l.ctxh))).bind (freeEntry s 0) with
    | none => (s, [], false)
    | some key =>
      let t := issueRange s key l.ctxh (localDt s (keyHome key) + l.term) { r.rec_ with fq := 0, faults := 0, drops := 0 }
      match restorePages l.ctxh key r.rec_ r.pages t with
      | none => (s, [], false)
      | some t =>
        let q := restoreRanges l rs t
        (q.1, (r.handle, curHandle t key) :: q.2.1, q.2.2)
/-- The end of a RESTORE (R378). -/
def endRestore (s : State) (l : Long) : State :=
  match imageOf s l.image with
  | none => endLong s l 2 0 16 []
  | some i =>
    if !imageFits s l.ctxh i then endLong s l 2 0 16 []
    else
      let q := restoreRanges l i.ranges s
      endLong q.1 l (if q.2.2 then 0 else 3) (BitVec.ofNat 64 q.2.1.length) 16 (q.2.1.flatMap fun x => toBytes 8 x.1.toNat ++ toBytes 8 x.2.toNat)
/-- LONG_COMMAND_END: a CHECKPOINT or RESTORE that runs ends and writes its final STATUS (R372, R377, R378). -/
def execLongCommandEnd (s : State) : Host.Outcome State Fault Refusal :=
  .next (confineHub s (match s.hub.long with
    | none => s
    | some l => if l.restore then endRestore s l else endCheckpoint s l))

/-! ### A core taken out of service (R385) -/

/-- SOFT_ERROR's code (R104). -/
def softCode : Nat := causeCode .softError
/-- The core that takes over a failed core's records. -/
def heirOf (s : State) (core : Nat) : Option Nat :=
  ((List.range 3).map fun k => core / 4 * 4 + (core + 1 + k) % 4).find? (corePresent s)
/-- An entry of a failed core's ring, or one that waits outside it: it is pushed on the heir's ring, or its unit ends. -/
def inherit (heir : Option Nat) (prio : Nat) (s : State) (e : RingEntry) : State :=
  match heir, e with
  | some h, _ => pushEntry s none h prio e
  | none, .record r _ pushed resp restart => orphan (unitEnds s r pushed softCode resp) (restart.getD [])
  | none, .resume t _ => orphan (freeRegion (unitEnds s t.record t.ctx.pts softCode t.resp) t) t.former
/-- The rings of a failed core handed on in ring order, with what waits outside them after. -/
def handOnRings (s : State) (core : Nat) : State :=
  let heir := heirOf s core
  let waits (o : Outside) : Bool := o.stage.isNone && o.core == core
  let out := s.core.outside.filter waits
  let s := { s with core.outside := s.core.outside.filter fun o => !waits o }
  (List.range 16).foldl (fun s p =>
    let r := ringAt s core p ++ (out.filter (·.prio == p)).map (·.entry)
    r.foldl (inherit heir p) (putRing s core p [])) s
/-- The parked records of a failed core end. -/
def endParked (s : State) (core : Nat) : State :=
  (List.range 32).foldl (fun s i =>
    let p := tget {} s.core.park (core * 32 + i)
    if p.used then
      let s := closeFault s { core := core, slot := i, gen := p.gen, park := true } 0 false
      orphan (unitEnds { s with core.park := tset {} s.core.park (core * 32 + i) { gen := p.gen } } p.record p.pts softCode p.resp) p.former
    else s) s
/-- Strands on their way to a failed core end. -/
def endMigrants (s : State) (core : Nat) : State :=
  (s.core.migr.filter fun m => m.1 == core).foldl (fun s m => orphan (freeRegion (unitEnds s m.2.record m.2.ctx.pts softCode m.2.resp) m.2) m.2.former)
    { s with core.migr := s.core.migr.filter fun m => m.1 != core }
/-- The directory entries of a failed core go DUSK. -/
def duskEntries (s : State) (core : Nat) : State :=
  (List.range 128).foldl (fun s i =>
    let k := direntKey core i
    let x := lifeOf s k
    if x.st == 1 then setLife s k { x with st := 2, darkAt := localDt s core + 256 } else s) s
/-- Moves from or to a failed core end, but for entries already on their way from it. -/
def endMoves (s : State) (core : Nat) : State :=
  let release (s : State) (m : Move) : State :=
    let k := direntKey m.dst m.dindex
    if (lifeOf s k).st == 3 then setLife s k { lifeOf s k with st := 0 } else s
  let ends (m : Move) : Bool := m.dst == core || (m.src == core && decide (m.phase ≤ 3))
  (s.census.moves.filter ends).foldl (fun s m => answerMove (if m.phase == 5 then s else release s m) m (if m.phase == 5 then m.newh else 0))
    { s with census.moves := s.census.moves.filter fun m => !ends m }
/-- The census reports of a failed core are sent as identity with MATCHES 0, and it takes nothing more of any census. -/
def endCensuses (s : State) (core : Nat) : State :=
  let f (c : Census) : Census :=
    let c := if c.left.contains core then
        { c with left := c.left.filter (· != core), reports := c.reports ++ [(core, combId c.wave.comb c.wave.d, 0, 0, 0)] }
      else c
    { c with toTake := c.toTake.filter (· != core), closing := c.closing.map fun l => l.filter (· != core) }
  let s := putCoreCensus { s with census.open_ := s.census.open_.map f } core { coreCensus s core with seen := [], resp := [] }
  (List.range s.census.open_.length).reverse.foldl endCensus s
/-- Cancel tokens and stops no longer wait for a failed core. -/
def endWaits (s : State) (core : Nat) : State :=
  let drop (l : List Nat) : List Nat := l.filter (· != core)
  let casts := s.work.casts.map fun b => { b with toTake := drop b.toTake, left := drop b.left }
  let halts := s.work.halts.map fun h => { h with left := drop h.left }
  let retires := s.work.retires.map fun r => (r.1, drop r.2)
  let s := { s with work.casts := casts.filter (fun b => !b.left.isEmpty), work.halts := halts.filter (fun h => !h.left.isEmpty)
                    work.retires := retires.filter (fun r => !r.2.isEmpty)
                    work.tokens := s.work.tokens.filter (fun t => !retires.any fun r => r.1 == t && r.2.isEmpty) }
  let s := (halts.filter fun h => h.left.isEmpty).foldl haltDone s
  let waiters := ((casts.filter fun b => b.left.isEmpty).filterMap (·.waiter)).eraseDups
  let s := waiters.foldl (fun s tag =>
    if s.work.casts.any fun c => c.waiter == some tag then s
    else match tagged s tag with
      | some t => sendReply s tag (.regs [] t.ctx.pts)
      | none => s) s
  { s with page.purges := s.page.purges.filter (fun p => p.1 != core)
           page.unmaps := s.page.unmaps.map fun u => { u with holders := drop u.holders }
           hold.notices := s.hold.notices.filter fun n => n.1 != core }
/-- The tick of a report of a core's arrays still counts (R385). -/
def reportCounts (s : State) (t : Nat) : Bool := decide (s.time.dt < t + 2 ^ 20)
/-- An array of a core, or the memory it reads, reports an uncorrectable error, and a word of 8 bytes has failed; or a failed word is good
again (R106, R385; log entry 45). -/
def softError (s : State) (core word : Nat) (failed : Bool) : State :=
  let ws := s.coh.failed.filter (· != word)
  if failed then
    { s with coh.failed := word :: ws, core.soft := tset [] s.core.soft core ((tget [] s.core.soft core).filter (reportCounts s) ++ [s.time.dt]) }
  else { s with coh.failed := ws }
/-- SOFT_ERROR_OUT_OF_SERVICE: of 16 uncorrectable errors within 2^20 ticks firmware takes a core out of service (R385). -/
def execSoftErrorOutOfService (core : Nat) (s : State) : Host.Outcome State Fault Refusal :=
  .next (confineHub s
    (if !corePresent s core || ((tget [] s.core.soft core).filter (reportCounts s)).length < 16 then s
    else
      let s := { s with hub.ready := tset 0 s.hub.ready core 3 }
      let s := (List.range 16).foldl (fun s i => endStrand s core i softCode) s
      let s := endMigrants (endParked (handOnRings s core) core) core
      let s := endWaits (endCensuses (endMoves (duskEntries s core) core) core) core
      { s with core.held := tset [] s.core.held core [] }))

end Sys2Proof.Machine
end

