-- ==== Sys2Proof/Machine/Scalar.lean ====
section
/-! DEFINITION. Scalar floating-point instructions (R139 to R146). -/

namespace Sys2Proof.Machine
open Sys2Proof

/-- An arithmetic instruction: the exact result rounded once, written unless its flags trap (R140). -/
def fpArith (g : Guard) (d : GReg) (m : FMods) (f : State → FVal × Nat) (s : State) : Host.Outcome State Fault Refusal :=
  run .strand g none (fun s => fpWrite s d m.t ((precFmt m.p).finish m.rm (f s))) s
/-- Rotations of FDIV and FSQRT (R127). -/
def fpRotations : Prec → Nat
  | .s => 2
  | .d => 4
/-- An arithmetic instruction that takes rotations (R127). -/
def fpSlow (g : Guard) (d : GReg) (m : FMods) (f : State → FVal × Nat) (s : State) : Host.Outcome State Fault Refusal :=
  run .strand g none (fun s => do
    let t ← fpWrite s d m.t ((precFmt m.p).finish m.rm (f s))
    .ok (rotate (fpRotations m.p) t)) s
/-- FADD (R140). -/
def execFadd (g : Guard) (d : GReg) (a b : Src) (m : FMods) (s : State) :=
  fpArith g d m (fun s => fAdd m.rm (fSrc s m.p a) (fSrc s m.p b)) s
/-- FSUB (R140). -/
def execFsub (g : Guard) (d : GReg) (a b : Src) (m : FMods) (s : State) :=
  fpArith g d m (fun s => fSub m.rm (fSrc s m.p a) (fSrc s m.p b)) s
/-- FMUL (R140). -/
def execFmul (g : Guard) (d : GReg) (a b : Src) (m : FMods) (s : State) :=
  fpArith g d m (fun s => fMul (fSrc s m.p a) (fSrc s m.p b)) s
/-- FFMA: c is the old value of gd (R140). -/
def execFfma (g : Guard) (d : GReg) (a b : Src) (m : FMods) (s : State) :=
  fpArith g d m (fun s => fFma m.rm (fSrc s m.p a) (fSrc s m.p b) (fSrc s m.p (.reg d))) s
/-- FDIV (R140). -/
def execFdiv (g : Guard) (d : GReg) (a b : Src) (m : FMods) (s : State) :=
  fpSlow g d m (fun s => fDiv (fSrc s m.p a) (fSrc s m.p b)) s
/-- FSQRT (R140). -/
def execFsqrt (g : Guard) (d : GReg) (a : Src) (m : FMods) (s : State) := fpSlow g d m (fun s => fSqrt (fSrc s m.p a)) s
/-- FMIN (R141). -/
def execFmin (g : Guard) (d : GReg) (a b : Src) (p : Prec) (t : Bool) (s : State) :=
  fpArith g d ⟨t, .rne, p⟩ (fun s => fMinMax false (fSrc s p a) (fSrc s p b)) s
/-- FMAX (R141). -/
def execFmax (g : Guard) (d : GReg) (a b : Src) (p : Prec) (t : Bool) (s : State) :=
  fpArith g d ⟨t, .rne, p⟩ (fun s => fMinMax true (fSrc s p a) (fSrc s p b)) s
/-- The sign bit's place in a precision. -/
def signBit : Prec → Nat
  | .s => 2 ^ 31
  | .d => 2 ^ 63
/-- The sign of a bit pattern. -/
def signOf (p : Prec) (v : Nat) : Bool := v / signBit p % 2 == 1
/-- The bits of a with a sign put in (R142). -/
def withSign (p : Prec) (v : Nat) (neg : Bool) : Word :=
  BitVec.ofNat 64 (v % signBit p + (if neg then signBit p else 0))
/-- FSGN and its variants (R142): no flag, no canonical NaN. -/
def fpSign (g : Guard) (d : GReg) (a b : Src) (p : Prec) (f : Bool → Bool → Bool) (s : State) :
    Host.Outcome State Fault Refusal :=
  run .strand g none (fun s =>
    .ok (advance (wG s d (withSign p (fBits s p a) (f (signOf p (fBits s p a)) (signOf p (fBits s p b))))))) s
/-- FSGN (R142). -/
def execFsgn (g : Guard) (d : GReg) (a b : Src) (p : Prec) (s : State) := fpSign g d a b p (fun _ y => y) s
/-- FSGN.N (R142). -/
def execFsgnN (g : Guard) (d : GReg) (a b : Src) (p : Prec) (s : State) := fpSign g d a b p (fun _ y => !y) s
/-- FSGN.X (R142). -/
def execFsgnX (g : Guard) (d : GReg) (a b : Src) (p : Prec) (s : State) := fpSign g d a b p (fun x y => x != y) s
/-- FCMP (R144): with .T an NV traps and leaves pd. -/
def execFcmp (g : Guard) (cc : FCond) (d : PReg) (a b : Src) (p : Prec) (t : Bool) (s : State) :
    Host.Outcome State Fault Refusal :=
  run .strand g none (fun s =>
    let r := fCond cc (fSrc s p a) (fSrc s p b)
    fpDone t r.2 (wP s d r.1)) s
/-- The value of FCVT's source (R145). -/
def cvtSrc (s : State) (ty : CvtTy) (a : Src) : FVal :=
  match ty with
  | .si32 => .ofInt ((srcS s a).extractLsb' 0 32).toInt
  | .ui32 => .ofInt ((srcZ s a).extractLsb' 0 32).toNat
  | .si64 => .ofInt (srcS s a).toInt
  | .ui64 => .ofInt (srcZ s a).toNat
  | .f32 => fSrc s .s a
  | .f64 => fSrc s .d a
/-- The result of FCVT and its flags (R145). -/
def cvtRes (ty : CvtTy) (m : RMode) (x : FVal) : Word × Nat :=
  let int (lo hi : Int) : Word × Nat := let r := toInt m lo hi x; (BitVec.ofInt 64 r.1, r.2)
  let flt (f : FFmt) : Word × Nat :=
    let r := f.finish m (match x with | .nan sg => (.nan false, sigFlag sg) | y => (y, 0))
    (BitVec.ofNat 64 r.1, r.2)
  match ty with
  | .si32 => int (-2 ^ 31) (2 ^ 31 - 1)
  | .ui32 => int 0 (2 ^ 32 - 1)
  | .si64 => int (-2 ^ 63) (2 ^ 63 - 1)
  | .ui64 => int 0 (2 ^ 64 - 1)
  | .f32 => flt f32
  | .f64 => flt f64
/-- FCVT (R145). -/
def execFcvt (g : Guard) (dst src : CvtTy) (d : GReg) (a : Src) (rm : RMode) (t : Bool) (s : State) :
    Host.Outcome State Fault Refusal :=
  run .strand g none (fun s =>
    let r := cvtRes dst rm (cvtSrc s src a)
    fpDone t r.2 (wG s d r.1)) s
/-- FCLASS (R143). -/
def execFclass (g : Guard) (d : GReg) (a : Src) (p : Prec) (s : State) : Host.Outcome State Fault Refusal :=
  run .strand g none (fun s => .ok (advance (wG s d (BitVec.ofNat 64 (fClass (precFmt p) (fBits s p a)))))) s
/-- FRND (R146). -/
def execFrnd (g : Guard) (d : GReg) (a : Src) (m : FMods) (s : State) := fpArith g d m (fun s => fRnd m.rm (fSrc s m.p a)) s

end Sys2Proof.Machine
end

