-- ==== Sys2Proof/Machine/Dispatch.lean ====
section
/-! DEFINITION. One arm for each constructor of `Instr`: the meaning it has. -/

namespace Sys2Proof.Machine
open Sys2Proof

def exec (i : Instr) (s : State) : Host.Outcome State Fault Refusal :=
  match i with
  | .add g d a b => Sys2Proof.Machine.execAdd g d a b s
  | .sub g d a b => Sys2Proof.Machine.execSub g d a b s
  | .mul g d a b => Sys2Proof.Machine.execMul g d a b s
  | .mulh g d a b => Sys2Proof.Machine.execMulh g d a b s
  | .mulhu g d a b => Sys2Proof.Machine.execMulhu g d a b s
  | .div g d a b => Sys2Proof.Machine.execDiv g d a b s
  | .divu g d a b => Sys2Proof.Machine.execDivu g d a b s
  | .rem g d a b => Sys2Proof.Machine.execRem g d a b s
  | .remu g d a b => Sys2Proof.Machine.execRemu g d a b s
  | .and g d a b => Sys2Proof.Machine.execAnd g d a b s
  | .or g d a b => Sys2Proof.Machine.execOr g d a b s
  | .xor g d a b => Sys2Proof.Machine.execXor g d a b s
  | .andn g d a b => Sys2Proof.Machine.execAndn g d a b s
  | .shl g d a b => Sys2Proof.Machine.execShl g d a b s
  | .shr g d a b => Sys2Proof.Machine.execShr g d a b s
  | .sar g d a b => Sys2Proof.Machine.execSar g d a b s
  | .rotl g d a b => Sys2Proof.Machine.execRotl g d a b s
  | .min g d a b => Sys2Proof.Machine.execMin g d a b s
  | .max g d a b => Sys2Proof.Machine.execMax g d a b s
  | .minu g d a b => Sys2Proof.Machine.execMinu g d a b s
  | .maxu g d a b => Sys2Proof.Machine.execMaxu g d a b s
  | .clz g d a => Sys2Proof.Machine.execClz g d a s
  | .ctz g d a => Sys2Proof.Machine.execCtz g d a s
  | .popc g d a => Sys2Proof.Machine.execPopc g d a s
  | .bfx g d a b => Sys2Proof.Machine.execBfx g d a b s
  | .bfxs g d a b => Sys2Proof.Machine.execBfxs g d a b s
  | .bfi g d a b => Sys2Proof.Machine.execBfi g d a b s
  | .sext g d a b => Sys2Proof.Machine.execSext g d a b s
  | .zext g d a b => Sys2Proof.Machine.execZext g d a b s
  | .limm g d v => Sys2Proof.Machine.execLimm g d v s
  | .limmZ g d v => Sys2Proof.Machine.execLimmZ g d v s
  | .limmH g d v => Sys2Proof.Machine.execLimmH g d v s
  | .lea g d m => Sys2Proof.Machine.execLea g d m s
  | .mov g d a => Sys2Proof.Machine.execMov g d a s
  | .movPr g d => Sys2Proof.Machine.execMovPr g d s
  | .movRp g a => Sys2Proof.Machine.execMovRp g a s
  | .sel g d neg p a b => Sys2Proof.Machine.execSel g d neg p a b s
  | .setp g cc d a b => Sys2Proof.Machine.execSetp g cc d a b s
  | .pand g d a b => Sys2Proof.Machine.execPand g d a b s
  | .por g d a b => Sys2Proof.Machine.execPor g d a b s
  | .pxor g d a b => Sys2Proof.Machine.execPxor g d a b s
  | .pnot g d a => Sys2Proof.Machine.execPnot g d a s
  | .fadd g d a b m => Sys2Proof.Machine.execFadd g d a b m s
  | .fsub g d a b m => Sys2Proof.Machine.execFsub g d a b m s
  | .fmul g d a b m => Sys2Proof.Machine.execFmul g d a b m s
  | .ffma g d a b m => Sys2Proof.Machine.execFfma g d a b m s
  | .fdiv g d a b m => Sys2Proof.Machine.execFdiv g d a b m s
  | .fsqrt g d a m => Sys2Proof.Machine.execFsqrt g d a m s
  | .fmin g d a b p t => Sys2Proof.Machine.execFmin g d a b p t s
  | .fmax g d a b p t => Sys2Proof.Machine.execFmax g d a b p t s
  | .fsgn g d a b p => Sys2Proof.Machine.execFsgn g d a b p s
  | .fsgnN g d a b p => Sys2Proof.Machine.execFsgnN g d a b p s
  | .fsgnX g d a b p => Sys2Proof.Machine.execFsgnX g d a b p s
  | .fcmp g cc d a b p t => Sys2Proof.Machine.execFcmp g cc d a b p t s
  | .fcvt g dst src d a rm t => Sys2Proof.Machine.execFcvt g dst src d a rm t s
  | .fclass g d a p => Sys2Proof.Machine.execFclass g d a p s
  | .frnd g d a m => Sys2Proof.Machine.execFrnd g d a m s
  | .br g ovl idx => Sys2Proof.Machine.execBr g ovl idx s
  | .bri g a => Sys2Proof.Machine.execBri g a s
  | .briL g d a => Sys2Proof.Machine.execBriL g d a s
  | .call g d ovl idx => Sys2Proof.Machine.execCall g d ovl idx s
  | .callo g d ovl idx => Sys2Proof.Machine.execCallo g d ovl idx s
  | .ret g a => Sys2Proof.Machine.execRet g a s
  | .loop g d ovl idx => Sys2Proof.Machine.execLoop g d ovl idx s
  | .nop g => Sys2Proof.Machine.execNop g s
  | .done g => Sys2Proof.Machine.execDone g s
  | .ld g d m w c mig sx => Sys2Proof.Machine.execLd g d m w c mig sx s
  | .st g v m w c mig => Sys2Proof.Machine.execSt g v m w c mig s
  | .ldl g d m w sx => Sys2Proof.Machine.execLdl g d m w sx s
  | .stl g v m w => Sys2Proof.Machine.execStl g v m w s
  | .ldx g d m w c mig sx => Sys2Proof.Machine.execLdx g d m w c mig sx s
  | .stx g d m w c mig => Sys2Proof.Machine.execStx g d m w c mig s
  | .ldg g d m w c sx => Sys2Proof.Machine.execLdg g d m w c sx s
  | .stg g v m w c => Sys2Proof.Machine.execStg g v m w c s
  | .pref g m c => Sys2Proof.Machine.execPref g m c s
  | .fence g => Sys2Proof.Machine.execFence g s
  | .clfl g m => Sys2Proof.Machine.execClfl g m s
  | .amo g op d base disp b w u mig => Sys2Proof.Machine.execAmo g op d base disp b w u mig s
  | .grantRange g d a b nc lp => Sys2Proof.Machine.execGrantRange g d a b nc lp s
  | .grantLock g d a b => Sys2Proof.Machine.execGrantLock g d a b s
  | .grantMslot g d a b => Sys2Proof.Machine.execGrantMslot g d a b s
  | .grantFslot g d a b => Sys2Proof.Machine.execGrantFslot g d a b s
  | .grantEvq g d a b => Sys2Proof.Machine.execGrantEvq g d a b s
  | .renew g d a b => Sys2Proof.Machine.execRenew g d a b s
  | .life g d a => Sys2Proof.Machine.execLife g d a s
  | .lock g d a b => Sys2Proof.Machine.execLock g d a b s
  | .lockNw g d a b => Sys2Proof.Machine.execLockNw g d a b s
  | .route g d a b => Sys2Proof.Machine.execRoute g d a b s
  | .send g a b => Sys2Proof.Machine.execSend g a b s
  | .recv g d a b => Sys2Proof.Machine.execRecv g d a b s
  | .poll g d a b => Sys2Proof.Machine.execPoll g d a b s
  | .migr g a => Sys2Proof.Machine.execMigr g a s
  | .mhdt g a => Sys2Proof.Machine.execMhdt g a s
  | .mhdrB g a b k => Sys2Proof.Machine.execMhdrB g a b k s
  | .mhdrP g a b k => Sys2Proof.Machine.execMhdrP g a b k s
  | .vshp g f a b => Sys2Proof.Machine.execVshp g f a b s
  | .vmov g d a => Sys2Proof.Machine.execVmov g d a s
  | .vadd g d a b sat => Sys2Proof.Machine.execVadd g d a b sat s
  | .vsub g d a b sat => Sys2Proof.Machine.execVsub g d a b sat s
  | .vmul g d a b sat => Sys2Proof.Machine.execVmul g d a b sat s
  | .vfma g d a b sat => Sys2Proof.Machine.execVfma g d a b sat s
  | .vdiv g d a b sat => Sys2Proof.Machine.execVdiv g d a b sat s
  | .vmax g d a b sat => Sys2Proof.Machine.execVmax g d a b sat s
  | .vmin g d a b sat => Sys2Proof.Machine.execVmin g d a b sat s
  | .vabs g d a sat => Sys2Proof.Machine.execVabs g d a sat s
  | .vneg g d a sat => Sys2Proof.Machine.execVneg g d a sat s
  | .vexp g d a sat => Sys2Proof.Machine.execVexp g d a sat s
  | .vlog g d a sat => Sys2Proof.Machine.execVlog g d a sat s
  | .vrsq g d a sat => Sys2Proof.Machine.execVrsq g d a sat s
  | .vrcp g d a sat => Sys2Proof.Machine.execVrcp g d a sat s
  | .vcmp g cc d a b => Sys2Proof.Machine.execVcmp g cc d a b s
  | .vsel g d a b => Sys2Proof.Machine.execVsel g d a b s
  | .vand g d a b => Sys2Proof.Machine.execVand g d a b s
  | .vor g d a b => Sys2Proof.Machine.execVor g d a b s
  | .vxor g d a b => Sys2Proof.Machine.execVxor g d a b s
  | .vshl g d a b => Sys2Proof.Machine.execVshl g d a b s
  | .vshr g d a b => Sys2Proof.Machine.execVshr g d a b s
  | .vcvt g d a rm sat => Sys2Proof.Machine.execVcvt g d a rm sat s
  | .vred g op d a => Sys2Proof.Machine.execVred g op d a s
  | .vscan g op d a sat => Sys2Proof.Machine.execVscan g op d a sat s
  | .vbcast g d a sat => Sys2Proof.Machine.execVbcast g d a sat s
  | .viota g d a b sat => Sys2Proof.Machine.execViota g d a b sat s
  | .vclamp g d a b => Sys2Proof.Machine.execVclamp g d a b s
  | .vscale g d a b sat => Sys2Proof.Machine.execVscale g d a b sat s
  | .vtrn g d a => Sys2Proof.Machine.execVtrn g d a s
  | .vdot g d a b => Sys2Proof.Machine.execVdot g d a b s
  | .copy g d a b => Sys2Proof.Machine.execCopy g d a b s
  | .gath g d a b => Sys2Proof.Machine.execGath g d a b s
  | .scat g d a b => Sys2Proof.Machine.execScat g d a b s
  | .fill g d a b => Sys2Proof.Machine.execFill g d a b s
  | .ovld g frame a b => Sys2Proof.Machine.execOvld g frame a b s
  | .qfence g q w => Sys2Proof.Machine.execQfence g q w s
  | .mlda g a b => Sys2Proof.Machine.execMlda g a b s
  | .mldaG g n a b k m => Sys2Proof.Machine.execMldaG g n a b k m s
  | .mldb g a b => Sys2Proof.Machine.execMldb g a b s
  | .mldbG g n a b k => Sys2Proof.Machine.execMldbG g n a b k s
  | .mscl g a b => Sys2Proof.Machine.execMscl g a b s
  | .mlut g a b => Sys2Proof.Machine.execMlut g a b s
  | .mcfg g a => Sys2Proof.Machine.execMcfg g a s
  | .mma g d a b => Sys2Proof.Machine.execMma g d a b s
  | .mmaX g d a b => Sys2Proof.Machine.execMmaX g d a b s
  | .mmv g d a b x => Sys2Proof.Machine.execMmv g d a b x s
  | .mzro g d => Sys2Proof.Machine.execMzro g d s
  | .mwb g d a sat => Sys2Proof.Machine.execMwb g d a sat s
  | .mrds g d a b => Sys2Proof.Machine.execMrds g d a b s
  | .fork g a b => Sys2Proof.Machine.execFork g a b s
  | .rdzv g => Sys2Proof.Machine.execRdzv g s
  | .semp g a => Sys2Proof.Machine.execSemp g a s
  | .semw g a => Sys2Proof.Machine.execSemw g a s
  | .finit g d a b => Sys2Proof.Machine.execFinit g d a b s
  | .fupd g d a q => Sys2Proof.Machine.execFupd g d a q s
  | .fdwn g d a q => Sys2Proof.Machine.execFdwn g d a q s
  | .ftrs g d a q => Sys2Proof.Machine.execFtrs g d a q s
  | .ftrb g d a q => Sys2Proof.Machine.execFtrb g d a q s
  | .frd g d a q => Sys2Proof.Machine.execFrd g d a q s
  | .fwr g d a q => Sys2Proof.Machine.execFwr g d a q s
  | .fdia g d a => Sys2Proof.Machine.execFdia g d a s
  | .dreg g d a b => Sys2Proof.Machine.execDreg g d a b s
  | .dregMove g d a b => Sys2Proof.Machine.execDregMove g d a b s
  | .solicit g c d a b => Sys2Proof.Machine.execSolicit g c d a b s
  | .respond g a b => Sys2Proof.Machine.execRespond g a b s
  | .cnsq g d a => Sys2Proof.Machine.execCnsq g d a s
  | .cnsqN g d => Sys2Proof.Machine.execCnsqN g d s
  | .spawn g d a b => Sys2Proof.Machine.execSpawn g d a b s
  | .decp g a b => Sys2Proof.Machine.execDecp g a b s
  | .launch g d a => Sys2Proof.Machine.execLaunch g d a s
  | .cancel g d a => Sys2Proof.Machine.execCancel g d a s
  | .cntrOpen g d a b => Sys2Proof.Machine.execCntrOpen g d a b s
  | .cntrSeal g a => Sys2Proof.Machine.execCntrSeal g a s
  | .cntrRead g d a => Sys2Proof.Machine.execCntrRead g d a s
  | .bar g d a => Sys2Proof.Machine.execBar g d a s
  | .trap g a => Sys2Proof.Machine.execTrap g a s
  | .brk g => Sys2Proof.Machine.execBrk g s
  | .srr g d r => Sys2Proof.Machine.execSrr g d r s
  | .srw g r a => Sys2Proof.Machine.execSrw g r a s
  | .park g d a b => Sys2Proof.Machine.execPark g d a b s
  | .parkNt g d a => Sys2Proof.Machine.execParkNt g d a s
  | .waitdt g a => Sys2Proof.Machine.execWaitdt g a s
  | .waitdtRel g a => Sys2Proof.Machine.execWaitdtRel g a s
  | .gstop g d a b => Sys2Proof.Machine.execGstop g d a b s
  | .gstopGo g d a => Sys2Proof.Machine.execGstopGo g d a s
  | .replay g d a m => Sys2Proof.Machine.execReplay g d a m s
  | .replyArrival core slot => Sys2Proof.Machine.execReplyArrival core slot s
  | .trapRecordLand core => Sys2Proof.Machine.execTrapRecordLand core s
  | .dtTick => Sys2Proof.Machine.execDtTick s
  | .lapseTick kind home index => Sys2Proof.Machine.execLapseTick kind home index s
  | .darkTick kind home index => Sys2Proof.Machine.execDarkTick kind home index s
  | .homeRequest n => Sys2Proof.Machine.execHomeRequest n s
  | .lockWithdrawal n => Sys2Proof.Machine.execLockWithdrawal n s
  | .lapseNotice n => Sys2Proof.Machine.execLapseNotice n s
  | .translationExpiry n => Sys2Proof.Machine.execTranslationExpiry n s
  | .purge n => Sys2Proof.Machine.execPurge n s
  | .purgeAck n => Sys2Proof.Machine.execPurgeAck n s
  | .unmapComplete n => Sys2Proof.Machine.execUnmapComplete n s
  | .leaseRead n => Sys2Proof.Machine.execLeaseRead n s
  | .leaseRenewal n => Sys2Proof.Machine.execLeaseRenewal n s
  | .homeWrite n => Sys2Proof.Machine.execHomeWrite n s
  | .ownershipRequest n => Sys2Proof.Machine.execOwnershipRequest n s
  | .recall n => Sys2Proof.Machine.execRecall n s
  | .recallReplyData n => Sys2Proof.Machine.execRecallReplyData n s
  | .notHeld n => Sys2Proof.Machine.execNotHeld n s
  | .writeBack n => Sys2Proof.Machine.execWriteBack n s
  | .l2VictimWriteBack line => Sys2Proof.Machine.execL2VictimWriteBack line s
  | .memoryWriteBackAck line => Sys2Proof.Machine.execMemoryWriteBackAck line s
  | .farAtomic n => Sys2Proof.Machine.execFarAtomic n s
  | .queueEntry cluster factor => Sys2Proof.Machine.execQueueEntry cluster factor s
  | .engineOperationStart cluster factor => Sys2Proof.Machine.execEngineOperationStart cluster factor s
  | .copyBeat cluster => Sys2Proof.Machine.execCopyBeat cluster s
  | .evqRecordArrival n => Sys2Proof.Machine.execEvqRecordArrival n s
  | .wakeFlit n => Sys2Proof.Machine.execWakeFlit n s
  | .recordReturn n => Sys2Proof.Machine.execRecordReturn n s
  | .messageDelivery n => Sys2Proof.Machine.execMessageDelivery n s
  | .dropNotice n => Sys2Proof.Machine.execDropNotice n s
  | .creditReturn n => Sys2Proof.Machine.execCreditReturn n s
  | .migrationArrival n => Sys2Proof.Machine.execMigrationArrival n s
  | .overlayLoad n => Sys2Proof.Machine.execOverlayLoad n s
  | .overlayLoadEnd n => Sys2Proof.Machine.execOverlayLoadEnd n s
  | .wdoneArrival cluster xid => Sys2Proof.Machine.execWdoneArrival cluster xid s
  | .factorStartEvent cluster => Sys2Proof.Machine.execFactorStartEvent cluster s
  | .factorCommitEvent cluster => Sys2Proof.Machine.execFactorCommitEvent cluster s
  | .slotBind core slot => Sys2Proof.Machine.execSlotBind core slot s
  | .recordPromotion core prio => Sys2Proof.Machine.execRecordPromotion core prio s
  | .childEnds n => Sys2Proof.Machine.execChildEnds n s
  | .cancelToken core n => Sys2Proof.Machine.execCancelToken core n s
  | .cancelRetire n => Sys2Proof.Machine.execCancelRetire n s
  | .barrierAck n => Sys2Proof.Machine.execBarrierAck n s
  | .governorCheck => Sys2Proof.Machine.execGovernorCheck s
  | .thermalEvaluation die => Sys2Proof.Machine.execThermalEvaluation die s
  | .slotDisplace core slot => Sys2Proof.Machine.execSlotDisplace core slot s
  | .haltAck n => Sys2Proof.Machine.execHaltAck n s
  | .waitdtWake core slot => Sys2Proof.Machine.execWaitdtWake core slot s
  | .semwStreamDesync cluster compute => Sys2Proof.Machine.execSemwStreamDesync cluster compute s
  | .wave core n => Sys2Proof.Machine.execWave core n s
  | .responderSpawn core n => Sys2Proof.Machine.execResponderSpawn core n s
  | .censusReport core n => Sys2Proof.Machine.execCensusReport core n s
  | .censusComplete n => Sys2Proof.Machine.execCensusComplete n s
  | .censusClose core n => Sys2Proof.Machine.execCensusClose core n s
  | .moveReserve n => Sys2Proof.Machine.execMoveReserve n s
  | .moveReserveReply n => Sys2Proof.Machine.execMoveReserveReply n s
  | .entrySend n => Sys2Proof.Machine.execEntrySend n s
  | .entryArrival n => Sys2Proof.Machine.execEntryArrival n s
  | .moveAck n => Sys2Proof.Machine.execMoveAck n s
  | .pteStore n => Sys2Proof.Machine.execPteStore n s
  | .pageBacked n => Sys2Proof.Machine.execPageBacked n s
  | .translationWalk holder ctx vpn => Sys2Proof.Machine.execTranslationWalk holder ctx vpn s
  | .hotnessExamination slice => Sys2Proof.Machine.execHotnessExamination slice s
  | .pageMove n => Sys2Proof.Machine.execPageMove n s
  | .write port => Sys2Proof.Machine.execWrite port s
  | .wdone port => Sys2Proof.Machine.execWdone port s
  | .read port => Sys2Proof.Machine.execRead port s
  | .rdata port => Sys2Proof.Machine.execRdata port s
  | .amoPacket port => Sys2Proof.Machine.execAmoPacket port s
  | .amodata port => Sys2Proof.Machine.execAmodata port s
  | .msg port => Sys2Proof.Machine.execMsg port s
  | .drop port => Sys2Proof.Machine.execDrop port s
  | .link port => Sys2Proof.Machine.execLink port s
  | .packetReceive port p intact => Sys2Proof.Machine.execPacketReceive port p intact s
  | .ackIdleTimeout port => Sys2Proof.Machine.execAckIdleTimeout port s
  | .linkReplayTimeout port => Sys2Proof.Machine.execLinkReplayTimeout port s
  | .laneFail port lane => Sys2Proof.Machine.execLaneFail port lane s
  | .widthAgreed port peerFailed peerAck peerId => Sys2Proof.Machine.execWidthAgreed port peerFailed peerAck peerId s
  | .trainingTimeout port => Sys2Proof.Machine.execTrainingTimeout port s
  | .pcieLinkDown p => Sys2Proof.Machine.execPcieLinkDown p s
  | .apertureCompletion n status data => Sys2Proof.Machine.execApertureCompletion n status data s
  | .cqtailDoorbell v => Sys2Proof.Machine.execCqtailDoorbell v s
  | .apprun v => Sys2Proof.Machine.execApprun v s
  | .registerWrite off v => Sys2Proof.Machine.execRegisterWrite off v s
  | .status => Sys2Proof.Machine.execStatus s
  | .summary => Sys2Proof.Machine.execSummary s
  | .snapshotExpiry => Sys2Proof.Machine.execSnapshotExpiry s
  | .grantctx => Sys2Proof.Machine.execGrantctx s
  | .renewctx => Sys2Proof.Machine.execRenewctx s
  | .loadovl => Sys2Proof.Machine.execLoadovl s
  | .hostLaunch => Sys2Proof.Machine.execHostLaunch s
  | .hostCancel => Sys2Proof.Machine.execHostCancel s
  | .checkpoint => Sys2Proof.Machine.execCheckpoint s
  | .restore => Sys2Proof.Machine.execRestore s
  | .longCommandEnd => Sys2Proof.Machine.execLongCommandEnd s
  | .attest => Sys2Proof.Machine.execAttest s
  | .sensors => Sys2Proof.Machine.execSensors s
  | .thermtabRead => Sys2Proof.Machine.execThermtabRead s
  | .thermtabWrite => Sys2Proof.Machine.execThermtabWrite s
  | .linkcfgDown => Sys2Proof.Machine.execLinkcfgDown s
  | .linkcfgTrain => Sys2Proof.Machine.execLinkcfgTrain s
  | .reset => Sys2Proof.Machine.execReset s
  | .bringupPhase => Sys2Proof.Machine.execBringupPhase s
  | .unitReady unit code => Sys2Proof.Machine.execUnitReady unit code s
  | .currentSample die amps => Sys2Proof.Machine.execCurrentSample die amps s
  | .softErrorOutOfService core => Sys2Proof.Machine.execSoftErrorOutOfService core s
  | .illegalOpcode => Sys2Proof.Machine.execIllegalOpcode s
  | .overlayMiss => Sys2Proof.Machine.execOverlayMiss s
  | .preEmption launch => Sys2Proof.Machine.execPreEmption launch s
  | .engineOperationEnd cluster unit => Sys2Proof.Machine.execEngineOperationEnd cluster unit s
  | .pcieLinkUp p => Sys2Proof.Machine.execPcieLinkUp p s
  | .cancelAcknowledgment n => Sys2Proof.Machine.execCancelAcknowledgment n s
  | .bringUp => Sys2Proof.Machine.execBringUp s

end Sys2Proof.Machine
end

