-- ==== Sys2Proof/Machine/Fetch.lean ====
section
/-! DEFINITION. The turns of strands and streams: what comes before an instruction is performed (R94, R97, R34, R305, R109),
its fetch, its decoding (R70, R73) and what follows it (R111). -/

namespace Sys2Proof.Machine
open Sys2Proof

/-- The 12 bytes of instruction IDX of a frame (R66, R73). -/
def fetchWord (s : State) (core frame idx : Nat) : IWord :=
  BitVec.ofNat 96 (memRead s.mem (frameAt core frame (12 * idx)) 12)
/-- A word is performed by the acting agent: steps 3 to 5 of R70, then the instruction's meaning. -/
def performWord (w : IWord) (s : State) : Host.Outcome State Fault Refusal :=
  match decode w with
  | .ok i => exec i s
  | .error .illegal => exec .illegalOpcode s
  | .error .reserved => .next (confine s (raise (wordExc s .reservedBits 4) s))
  | .error .badOperand => .next (confine s (raise (wordExc s .badOperand 5) s))
  | .error .badClass => .next (confine s (raise (wordExc s .reservedBits 6) s))
/-- The state with the acting agent's word set. -/
def withWord (w : IWord) (s : State) : State := mapCtx s fun c => { c with iw := w }
/-- The word is a free value (log entry 6), where none has been fetched. -/
def withFreeWord (s : State) : State := { withWord (Config.freeWord s.fresh) s with fresh := s.fresh + 1 }
/-- What follows an instruction of a strand: the STEP trap (R111). -/
def afterStep (core slot : Nat) : Host.Outcome State Fault Refusal → Host.Outcome State Fault Refusal
  | .next s => .next (confine s (stepTrap s core slot))
  | o => o
/-- The strand goes to its issue: out of every wait, the word and the counts of the issue recorded (R101, R110, R96). -/
def issued (s : State) (core slot : Nat) (t : Strand) (frame : Nat) (w : IWord) : State :=
  let n := t.record.launch.toNat
  let l := launchAt s n
  let s := putLaunch s n { l with issued := bump l.issued core, lastDt := tset 0 l.lastDt core (localDt s core) }
  let s := { s with core.icnt := bump s.core.icnt core, core.ovUse := tset 0 s.core.ovUse (core * 4 + frame) s.issues,
                    issues := s.issues + 1 }
  putStrand s core slot
    { t with ctx := { t.ctx with iw := w }, wait := .none, lastIssue := s.issues,
             steps := if t.steps == 0 then 0 else 2, stepPc := t.ctx.pc }
/-- A strand in rotation issues: what R34, R109 and R305 put first, then steps 1 and 2 of R70, the fetch and the instruction. An issue
that traps at step 1 or 2 has fetched no instruction and is not counted in ICNT (DESIGN CHOICE, log entry 43). -/
def issueStrand (s : State) (core slot : Nat) (t : Strand) : Host.Outcome State Fault Refusal :=
  if tget false s.core.slotOff (core * 16 + slot) then .next s
  else if (launchAt s t.record.launch.toNat).halted then .next (confine s (haltStrand s core slot))
  else if !liveHandle s t.ctxh then .next (confine s (endStrand s core slot 0))
  else if filtered s core t.record then .next (confine s (trapStrand s core slot { cause := .cancelled }))
  else
    let idx := pcIdx t.ctx.pc
    if 5460 < idx then
      let s := withFreeWord s
      .next (confine s (raise (wordExc s .badOperand 1) s))
    else match frameOf s core (pcOvl t.ctx.pc) with
      | none => exec .overlayMiss (withFreeWord s)
      | some f =>
        let w := fetchWord s core f idx
        afterStep core slot (performWord w (issued s core slot t f w))
/-- A strand's turn (R94). In rotation it issues; out of it, a wait that counts turns counts one, and an instruction that the
machine takes again is performed again. -/
def strandTurn (core slot : Nat) (s : State) : Host.Outcome State Fault Refusal :=
  match strandAt s core slot with
  | none => .next s
  | some t =>
    match t.st, t.wait with
    | 0, _ => issueStrand s core slot t
    | 1, .rot n =>
      if n ≤ 1 then .next (confine s (stepTrap (putStrand s core slot { t with st := 0, wait := .none }) core slot))
      else .next (putStrand s core slot { t with wait := .rot (n - 1) })
    | 1, .beats =>
      if beatServed s core slot then
        afterStep core slot (performWord t.ctx.iw (putStrand (noteBeat s core slot) core slot { t with st := 0, wait := .none }))
      else .next s
    | 1, .again | 1, .sem | 1, .held => afterStep core slot (performWord t.ctx.iw (putStrand s core slot { t with st := 0, wait := .none }))
    | 1, .room first last =>
      if s.core.outside.any fun o => decide (first ≤ o.ticket) && decide (o.ticket < last) then .next s else .next (confine s (stepTrap (putStrand s core slot { t with st := 0, wait := .none }) core slot))
    | 1, .parkFull e => if (freePark s core).isSome then .next (confine s (trapStrand s core slot e)) else .next s
    | _, _ => .next s
/-- A stream stops at an instruction boundary (R249). -/
def stopStream (s : State) (k : Nat) (compute : Bool) : State :=
  let p := pairAt s k
  let p := p.setStream compute { p.stream compute with st := 4, wait := false, stop := false }
  let other := (p.stream (!compute)).st
  settlePair (putPair s k (if other == 1 then p else { p with st := 4 })) k
/-- A stream's instruction that is neither in progress nor waiting has been performed (R61, R62). -/
def countStream (k : Nat) (compute : Bool) : Host.Outcome State Fault Refusal → Host.Outcome State Fault Refusal
  | .next s =>
    let p := pairAt s k
    let x := p.stream compute
    .next (if x.busy || (x.wait && x.fetched) then s
      else putPair s k (p.performed compute))
  | o => o
/-- An instruction of a stream that waits is performed again. -/
def streamAgain (k : Nat) (compute : Bool) (s : State) : Host.Outcome State Fault Refusal :=
  let p := pairAt s k
  let x := p.stream compute
  countStream k compute (performWord x.ctx.iw (putPair s k (p.setStream compute { x with wait := false, rest := false })))
/-- A stream's turn (R248, R249): an operation in progress goes on, whatever stops the stream; an instruction that waits to begin is
tried again, else the next one is fetched; a stream told to stop, or whose forking strand's work is cancelled, stops. -/
def streamTurn (k : Nat) (compute : Bool) (s : State) : Host.Outcome State Fault Refusal :=
  let p := pairAt s k
  let x := p.stream compute
  let core := p.owner.core
  if !(p.st == 1 || p.st == 2) || x.st != 1 || x.busy then .next s
  else if x.wait && x.fetched && !x.rest then streamAgain k compute s
  else if (launchAt s p.record.launch.toNat).halted then .next s
  else if x.stop then .next (confine s (stopStream s k compute))
  else if filtered s (1024 + k) p.record then .next (confine s (stopStream (putPair s k { p with ended := true }) k compute))
  else if x.wait && x.fetched then streamAgain k compute s
  else
    let x : Stream := { x with wait := false, fetched := false, head := [], vals := [], pos := 0, fence := none, into := none, sent := false,
                               rest := false, doomed := false, refused := none }
    let s := putPair s k (p.setStream compute x)
    let idx := pcIdx x.ctx.pc
    if 5460 < idx then
      let s := withFreeWord s
      .next (confine s (raise (wordExc s .badOperand 1) s))
    else match frameOf s core (pcOvl x.ctx.pc) with
      | none => exec .overlayMiss (withFreeWord s)
      | some f =>
        let w := fetchWord s core f idx
        countStream k compute
          (performWord w (putPair s k (p.setStream compute { x with ctx := { x.ctx with iw := w }, fetched := true })))
/-- A turn of an agent, its memory requests travelling to their homes as messages where `far` says so (log entry 2). -/
def turn (a : Agent) (far : Bool) (s : State) : Host.Outcome State Fault Refusal :=
  let s := { s with cur := a, far := far }
  match a with
  | .strand c i => strandTurn c i s
  | .stream k cp => streamTurn k cp s
  | .none => .next s

end Sys2Proof.Machine
end

