-- ==== Sys2Proof/Machine/Agenda.lean ====
section
/-! DEFINITION. What the machine does next (log entry 1): the lapse and DARK ticks that are due (R31), then the acts of the agenda, then,
when the agenda is empty, what is pending in turn. -/

namespace Sys2Proof.Machine
open Sys2Proof

/-! ### Lapse and DARK ticks (R31) -/

/-- The tick of an entry that its home takes before any request (R31). -/
def dueOf (s : State) (e : Nat × Life) : Option Instr :=
  let kind := e.1 / 2 ^ 44
  let home := keyHome e.1
  let index := e.1 % 2 ^ 34
  let t := localDt s home
  if e.2.st == 1 && decide (e.2.expiry < t) then some (.lapseTick kind home index)
  else if e.2.st == 2 && decide (e.2.darkAt ≤ t) then some (.darkTick kind home index)
  else none
/-- The first tick that is due. -/
def due (s : State) : Option Instr := s.hold.lives.findSome? (dueOf s)

/-! ### Inputs from outside, and choices the spec leaves to the hardware -/

/-- The hub agent may act: an application core READY and released, the host (16), a root port READY with its link up (17 to 22), a CXL
port READY (23 to 26) (R46, R369, R370). -/
def hubActs (s : State) (agent : Nat) : Bool :=
  if agent < 16 then s.hub.apprun.getLsbD agent && readyCode s (kApp agent) == 2
  else agent == 16 || (decide (agent < 23) && readyCode s (kPcie (agent - 17)) == 2 && tget false s.link.pcie (agent - 17))
    || (decide (23 ≤ agent) && decide (agent < 27) && readyCode s (kCxl (agent - 23)) == 2)
/-- An address of the application boot memory that the agent reaches (R369). -/
def bootReach (agent pa n : Nat) : Bool :=
  decide (2 ^ 63 ≤ pa) && decide (pa + n ≤ 2 ^ 63 + 2 ^ 28)
    && (agent == 16 || (decide (agent < 16) && (pa - 2 ^ 63) / 2 ^ 24 == agent && (pa + n - 1 - 2 ^ 63) / 2 ^ 24 == agent))
/-- An application core reaches coherent pages only (R369). -/
def hubReaches (s : State) (agent pa : Nat) : Bool :=
  paOk s pa && !(decide (agent < 16) && (pageOf s (pa / 65536)).any fun p => p.2.nc)
/-- A hub agent's request at the home of its sector (R46, R369): a naturally aligned access of at most 64 bytes; one that its home cannot yet
take stays to be made, one at an address that the agent does not reach ends with nothing. -/
def hubAccess (s : State) (act : Act) (agent pa n : Nat) (kind : MemKind) : State :=
  let later (s : State) : State := { s with agenda := s.agenda ++ [act] }
  if !hubActs s agent || !([1, 2, 4, 8, 16, 32, 64].contains n) || pa % n != 0 then s
  else if bootReach agent pa n then
    let s := { s with coh.hubOut := s.coh.hubOut ++ [(agent, match kind with | .read => memRead s.mem pa n | _ => 0)] }
    match kind with
    | .write v => { s with mem := memWrite s.mem pa n v }
    | _ => s
  else if starting s pa then later s
  else if !hubReaches s agent pa then { s with coh.hubOut := s.coh.hubOut ++ [(agent, 0)] }
  else if !homeUp s pa then later s
  else
    takeReq { s with coh.sent := s.coh.sent + 1 }
      { seq := s.coh.sent, tag := {}, pa := pa, n := n, kind := kind, pts := tget 0 s.coh.hubPts agent, post := .hub agent, hub := some agent }
/-- What a completer can carry becomes known (R168, R169): of a root port's, or (port 6) whether the host takes atomics. -/
def learnCompleter (s : State) (port : Nat) (id : Word) (caps : BitVec 6) : State :=
  if port == 6 then { s with link.hostAtomics := caps != 0 }
  else { s with link.completers := s.link.completers.filter (fun e => !(e.1 == port && e.2.1 == id)) ++ [(port, id, caps)] }
/-- An instruction is no event: it is performed only by a strand or stream that fetches it, as are the two that stand for a word
or overlay that is not there. -/
def isEvent : Instr → Bool
  | .illegalOpcode => false
  | .overlayMiss => false
  | i => (encodeFields i).isNone
/-- One act of the agenda. -/
def doAct (act : Act) (s : State) : Host.Outcome State Fault Refusal :=
  match act with
  | .turn a far => turn a far s
  | .event i => if isEvent i then exec i s else .next s
  | .evict core sector => .next (confine s (dropL1 s core sector))
  | .early unit =>
    .next (if readyCode s (kTree 0) == 2 && decide (tget 0 s.time.early unit < 2) then { s with time.early := bump s.time.early unit } else s)
  | .conflict core => .next (confine s { s with core.bconf := bump s.core.bconf core })
  | .hostBytes addr bs => .next (confine s { s with mem := memPuts s.mem (hostAt addr) bs })
  | .hub agent pa n store =>
    .next (confine s (hubAccess s act agent pa n (match store with | some v => .write v | none => .read)))
  | .hubAtomic agent pa n op opnd cmp => .next (confine s (hubAccess s act agent pa n (.amo op opnd cmp false)))
  | .sense id raw => .next (confineHub s (senseTemp s id raw))
  | .badCommand => .next (confineHub s (badCommand s))
  | .failCommand => .next (confineHub s (failCommand s))
  | .landOutside n => .next (confine s (landOutside s n))
  | .sendFault n => .next (confine s (sendFault s n))
  | .softError core word failed => .next (confine s (softError s core word failed))
  | .readBar0 off => .next (confineHub s (readBar0 s off))
  | .messageTaken port xid => .next (confine s (messageTaken s port xid))
  | .completer port id caps => .next (confine s (learnCompleter s port id caps))
  | .peerTakes port n =>
    .next (confine s { s with link.ports := tset {} s.link.ports port { portAt s port with wire := dropAt (portAt s port).wire n } })

/-! ### What is pending -/

/-- A pending act, as what it does. -/
abbrev Deed := State → Host.Outcome State Fault Refusal
/-- Events that name a position in a list. -/
def each (n : Nat) (f : Nat → Deed) : List Deed := (List.range n).map f
/-- Turns of strands and streams. -/
def pendingTurns (s : State) : List Deed :=
  s.core.slots.map (fun e => turn (.strand (e.1 / 16) (e.1 % 16)) false)
    ++ s.eng.pairs.flatMap fun e => if e.2.st == 0 then [] else [turn (.stream e.1 false) false, turn (.stream e.1 true) false]
/-- Events of holdings, translations and queues. -/
def pendingHoldings (s : State) : List Deed :=
  s.coh.replies.map (fun r => execReplyArrival r.tag.core r.tag.slot) ++ s.core.held.map (fun e => execTrapRecordLand e.1)
    ++ each s.hold.reqs.length execHomeRequest ++ each s.hold.withdrawals.length execLockWithdrawal ++ each s.hold.notices.length execLapseNotice
    ++ each s.page.tlb.length execTranslationExpiry ++ each s.page.purges.length execPurge ++ each s.page.acks.length execPurgeAck
    ++ each s.page.unmaps.length execUnmapComplete ++ each s.hold.arriving.length execEvqRecordArrival ++ each s.hold.wakes.length execWakeFlit
    ++ each s.hold.returns.length execRecordReturn ++ each s.hold.flights.length execMessageDelivery ++ each s.hold.drops.length execDropNotice
    ++ each s.hold.credits.length execCreditReturn
/-- Events of sectors and pages. -/
def pendingMemory (s : State) : List Deed :=
  let net (r : MemReq) (k : Nat) : Deed := match r.kind with
    | .read | .ncRead => execLeaseRead k
    | .renew _ => execLeaseRenewal k
    | .write _ | .ncWrite _ => execHomeWrite k
    | .own => execOwnershipRequest k
    | .amo .. => execFarAtomic k
  let coh (m : Coh) (k : Nat) : Deed := match m with
    | .ask .. => execRecall k
    | .data .. => execRecallReplyData k
    | .notHeld .. => execNotHeld k
    | .writeBack .. => execWriteBack k
  (s.coh.net.zipIdx.map fun r => net r.1 r.2) ++ (s.coh.coh.zipIdx.map fun m => coh m.1.2 m.2)
    ++ s.coh.writebacks.map (fun l => execMemoryWriteBackAck l) ++ each s.page.stores.length execPteStore
    ++ each s.page.faults.length (fun n s => .next (confine s (sendFault s n))) ++ each s.page.backing.length execPageBacked ++ each s.page.moving.length execPageMove ++ sliceIds.map fun u => execHotnessExamination u
/-- Events of the engines of clusters. -/
def pendingEngines (s : State) : List Deed :=
  (s.eng.copyq.flatMap fun e => [execQueueEntry e.1 false, execEngineOperationStart e.1 false, execCopyBeat e.1])
    ++ (s.eng.facq.flatMap fun e => [execQueueEntry e.1 true, execEngineOperationStart e.1 true, execFactorStartEvent e.1,
      execFactorCommitEvent e.1, execEngineOperationEnd e.1 2])
    ++ (s.eng.pairs.flatMap fun e => if e.2.st == 0 then [] else
      [execEngineOperationEnd e.1 0, execEngineOperationEnd e.1 1, execSemwStreamDesync e.1 false, execSemwStreamDesync e.1 true])
    ++ each (s.core.park.length + s.core.slots.length + 2 * s.eng.pairs.length) execOverlayLoad ++ each s.core.loadEnds.length execOverlayLoadEnd
/-- Events of scheduling. -/
def pendingWork (s : State) : List Deed :=
  (coreIds.filter fun c => corePresent s c && !s.core.idle.contains c).flatMap (fun c =>
      ((List.range 16).filter (slotFree s c)).map fun i => execSlotBind c i)
    ++ each s.core.outside.length (fun n s => .next (confine s (landOutside s n)))
    ++ s.core.rings.map (fun e => execRecordPromotion (e.1 / 16) (e.1 % 16)) ++ each s.core.migr.length execMigrationArrival
    ++ each s.work.ends.length execChildEnds ++ s.work.casts.zipIdx.flatMap (fun b => b.1.toTake.map fun u => execCancelToken u b.2)
    ++ each ((s.work.casts.map fun b => b.left.length).sum) execCancelAcknowledgment
    ++ each ((s.work.retires.map fun r => r.2.length).sum) execCancelRetire ++ each s.work.bars.length execBarrierAck
    ++ [execGovernorCheck] ++ each 4 execThermalEvaluation ++ s.core.slotOff.map (fun e => execSlotDisplace (e.1 / 16) (e.1 % 16))
    ++ each ((s.work.halts.map fun h => h.left.length).sum) execHaltAck
    ++ (s.core.slots.filter fun e => e.2.st == 4).map fun e => execWaitdtWake (e.1 / 16) (e.1 % 16)
/-- Events of censuses. -/
def pendingCensus (s : State) : List Deed :=
  s.census.open_.zipIdx.flatMap (fun c => c.1.toTake.map (fun u => execWave u c.2) ++ c.1.left.map (fun u => execCensusReport u c.2)
      ++ [execCensusComplete c.2] ++ (c.1.closing.getD []).map fun u => execCensusClose u c.2)
    ++ s.census.cores.flatMap (fun c => each c.2.resp.length (execResponderSpawn c.1))
    ++ (List.range s.census.moves.length).flatMap fun k =>
      [execMoveReserve k, execMoveReserveReply k, execEntrySend k, execEntryArrival k, execMoveAck k]
/-- Events of links. -/
def pendingLinks (s : State) : List Deed :=
  s.link.ports.flatMap fun e =>
    let p := e.1
    [execAckIdleTimeout p, execLinkReplayTimeout p, execTrainingTimeout p] ++ e.2.rx.flatMap fun q =>
      match q.type with
      | 1 => [execWrite p]
      | 2 => execWdone p :: clusters.filterMap fun k => if (remoteRun s k p).isSome then some (execWdoneArrival k q.xid) else none
      | 3 => [execRead p]
      | 4 => [execRdata p]
      | 5 => [execAmoPacket p]
      | 6 => [execAmodata p]
      | 7 => [execMsg p]
      | 8 => [execDrop p]
      | _ => [execLink p]
/-- Events of firmware. -/
def pendingHub (s : State) : List Deed :=
  (if s.hub.cqhead == s.hub.cqtail then [] else
    [execStatus, execSummary, execGrantctx, execRenewctx, execLoadovl, execHostLaunch, execHostCancel,
     execCheckpoint, execRestore, execAttest, execSensors, execThermtabRead, execThermtabWrite, execLinkcfgDown,
     execLinkcfgTrain, execReset, fun s => .next (confineHub s (badCommand s))])
    ++ s.core.soft.map (fun e => execSoftErrorOutOfService e.1) ++ [execLongCommandEnd, execSnapshotExpiry, execBringupPhase, execDtTick]
/-- Every act that is pending. -/
def pending (s : State) : List Deed :=
  pendingTurns s ++ pendingHoldings s ++ pendingMemory s ++ pendingEngines s ++ pendingWork s ++ pendingCensus s ++ pendingLinks s ++ pendingHub s
/-- The next pending act, in turn. -/
def nextPending (s : State) : Deed :=
  let l := pending s
  l[s.turnNo % l.length]?.getD execDtTick

end Sys2Proof.Machine
end

