-- ==== Sys2Proof/Machine/Step.lean ====
section
/-! DEFINITION. One step of the machine: a tick that is due, or the next act. -/

namespace Sys2Proof.Machine
open Sys2Proof

/-- One step: a lapse or DARK tick that is due comes first (R31); else the agenda's first act; else what is pending, in turn
(log entry 1). -/
def step (s : State) : Host.Outcome State Fault Refusal :=
  match due s with
  | some i => exec i s
  | none => match s.agenda with
    | a :: r => doAct a { s with agenda := r }
    | [] => nextPending s { s with turnNo := s.turnNo + 1 }

/-- The entry of the context under which the placed strand runs. -/
def placedKey : Nat := entryKey 3 0xC0 0

/-- The state with an instruction where the next step fetches it (log entry 16): core 0 READY, a strand in its slot 0 at the first
instruction of overlay 1, which frame 0 holds, under a LIVE context, and the strand's turn next on the agenda. -/
def State.withFetchWord (s : State) (nbits w : Nat) : State :=
  { s with
    hub.ready := tset 0 (tset 0 s.hub.ready 0 2) (kCluster 0) 2
    mem := memWrite s.mem (frameAt 0 0 0) 12 (w % 2 ^ nbits)
    core.ovt := tset 0 s.core.ovt 0 1
    core.slotGen := tset 0 s.core.slotGen 0 1
    core.slots := tput s.core.slots 0 { ctx := { pc := mkPc 1 0 }, ctxh := mkHandle placedKey 1 }
    hold.lives := tset {} s.hold.lives placedKey
      { st := 1, expiry := localDt s 0xC0 + 2 ^ 20, gen := 1, owner := mkHandle placedKey 1 }
    agenda := [.turn (.strand 0 0) false] }

end Sys2Proof.Machine
end

