-- ==== Sys2Proof/Laws/State.lean ====
section
/-! SUPPORT. What each update of the state leaves alone, field by field, and what a table, a slot, a pair or an entry holds after it
has been set. -/

namespace Sys2Proof.Machine
open Sys2Proof

/-! ### Tables -/

theorem tfind_tput {α : Type} (m : Sparse α) (k : Nat) (v : α) : tfind (tput m k v) k = some v := by
  induction m with
  | nil => simp [tput, tfind]
  | cons e r ih =>
    obtain ⟨j, w⟩ := e
    simp only [tput]
    split
    · simp [tfind]
    · split
      · simp [tfind]
      · simp only [tfind]
        rw [if_neg (by omega)]
        exact ih

theorem tfind_tput_ne {α : Type} (m : Sparse α) (k j : Nat) (v : α) (h : j ≠ k) : tfind (tput m k v) j = tfind m j := by
  induction m with
  | nil => simp [tput, tfind, Ne.symm h]
  | cons e r ih =>
    obtain ⟨i, w⟩ := e
    simp only [tput]
    split
    · simp [tfind, Ne.symm h]
    · split
      · next hk => subst hk; simp [tfind, Ne.symm h]
      · simp only [tfind, ih]

theorem tfind_tdel {α : Type} (m : Sparse α) (k : Nat) : tfind (tdel m k) k = none := by
  induction m with
  | nil => rfl
  | cons e r ih =>
    obtain ⟨j, w⟩ := e
    by_cases h : j = k
    · subst h; simpa [tdel] using ih
    · simp only [tdel, List.filter_cons] at ih ⊢
      simp [h, tfind, ih]

theorem tfind_tdel_ne {α : Type} (m : Sparse α) (k j : Nat) (h : j ≠ k) : tfind (tdel m k) j = tfind m j := by
  induction m with
  | nil => rfl
  | cons e r ih =>
    obtain ⟨i, w⟩ := e
    by_cases hi : i = k
    · subst hi; simpa [tdel, tfind, Ne.symm h] using ih
    · simp only [tdel, List.filter_cons] at ih ⊢
      simp [hi, tfind, ih]

/-- A key that has been set holds what it was set to. -/
@[simp] theorem tget_tset {α : Type} [DecidableEq α] (d : α) (m : Sparse α) (k : Nat) (v : α) :
    tget d (tset d m k v) k = v := by
  unfold tget tset
  split
  · next h => simp [tfind_tdel, h]
  · simp [tfind_tput]

/-- Setting a key leaves every other key alone. -/
theorem tget_tset_ne {α : Type} [DecidableEq α] (d : α) (m : Sparse α) (k j : Nat) (v : α) (h : j ≠ k) :
    tget d (tset d m k v) j = tget d m j := by
  unfold tget tset
  split
  · rw [tfind_tdel_ne _ _ _ h]
  · rw [tfind_tput_ne _ _ _ _ h]

@[simp] theorem tput_tput {α : Type} (m : Sparse α) (k : Nat) (v w : α) : tput (tput m k v) k w = tput m k w := by
  induction m with
  | nil => simp [tput]
  | cons e r ih =>
    obtain ⟨j, x⟩ := e
    simp only [tput]
    split
    · simp [tput]
    · split
      · simp [tput]
      · next h1 h2 => simp [tput, h1, h2, ih]

/-- Two settings of one key are the second, when the first is an entry of its own. -/
theorem tset_tset {α : Type} [DecidableEq α] (d : α) (m : Sparse α) (k : Nat) (v w : α) (hv : v ≠ d) (hw : w ≠ d) :
    tset d (tset d m k v) k w = tset d m k w := by
  simp [tset, hv, hw]

/-! ### Updates, field by field -/

@[simp] theorem setLife_time (s : State) (k : Nat) (x : Life) : (setLife s k x).time = s.time := rfl
@[simp] theorem setLife_hub (s : State) (k : Nat) (x : Life) : (setLife s k x).hub = s.hub := rfl
@[simp] theorem setLife_sregs (s : State) (k : Nat) (x : Life) : (setLife s k x).sregs = s.sregs := rfl
@[simp] theorem setLife_mem (s : State) (k : Nat) (x : Life) : (setLife s k x).mem = s.mem := rfl
@[simp] theorem setLife_coh (s : State) (k : Nat) (x : Life) : (setLife s k x).coh = s.coh := rfl
@[simp] theorem setLife_core (s : State) (k : Nat) (x : Life) : (setLife s k x).core = s.core := rfl
@[simp] theorem setLife_stat (s : State) (k : Nat) (x : Life) : (setLife s k x).stat = s.stat := rfl
@[simp] theorem setLife_page (s : State) (k : Nat) (x : Life) : (setLife s k x).page = s.page := rfl
@[simp] theorem setLife_work (s : State) (k : Nat) (x : Life) : (setLife s k x).work = s.work := rfl
@[simp] theorem setLife_eng (s : State) (k : Nat) (x : Life) : (setLife s k x).eng = s.eng := rfl
@[simp] theorem setLife_census (s : State) (k : Nat) (x : Life) : (setLife s k x).census = s.census := rfl
@[simp] theorem setLife_link (s : State) (k : Nat) (x : Life) : (setLife s k x).link = s.link := rfl
@[simp] theorem setLife_agenda (s : State) (k : Nat) (x : Life) : (setLife s k x).agenda = s.agenda := rfl
@[simp] theorem setLife_cur (s : State) (k : Nat) (x : Life) : (setLife s k x).cur = s.cur := rfl
@[simp] theorem setLife_far (s : State) (k : Nat) (x : Life) : (setLife s k x).far = s.far := rfl
@[simp] theorem setLife_issues (s : State) (k : Nat) (x : Life) : (setLife s k x).issues = s.issues := rfl
@[simp] theorem setLife_turnNo (s : State) (k : Nat) (x : Life) : (setLife s k x).turnNo = s.turnNo := rfl
@[simp] theorem setLife_fresh (s : State) (k : Nat) (x : Life) : (setLife s k x).fresh = s.fresh := rfl
@[simp] theorem setLife_hold_locks (s : State) (k : Nat) (x : Life) : (setLife s k x).hold.locks = s.hold.locks := rfl
@[simp] theorem setLife_hold_routes (s : State) (k : Nat) (x : Life) : (setLife s k x).hold.routes = s.hold.routes := rfl
@[simp] theorem setLife_hold_evqs (s : State) (k : Nat) (x : Life) : (setLife s k x).hold.evqs = s.hold.evqs := rfl
@[simp] theorem setLife_hold_ranges (s : State) (k : Nat) (x : Life) : (setLife s k x).hold.ranges = s.hold.ranges := rfl
@[simp] theorem setLife_hold_reqs (s : State) (k : Nat) (x : Life) : (setLife s k x).hold.reqs = s.hold.reqs := rfl
@[simp] theorem setLife_hold_withdrawals (s : State) (k : Nat) (x : Life) : (setLife s k x).hold.withdrawals = s.hold.withdrawals := rfl
@[simp] theorem setLife_hold_arriving (s : State) (k : Nat) (x : Life) : (setLife s k x).hold.arriving = s.hold.arriving := rfl
@[simp] theorem setLife_hold_wakes (s : State) (k : Nat) (x : Life) : (setLife s k x).hold.wakes = s.hold.wakes := rfl
@[simp] theorem setLife_hold_returns (s : State) (k : Nat) (x : Life) : (setLife s k x).hold.returns = s.hold.returns := rfl
@[simp] theorem setLife_hold_flights (s : State) (k : Nat) (x : Life) : (setLife s k x).hold.flights = s.hold.flights := rfl
@[simp] theorem setLife_hold_drops (s : State) (k : Nat) (x : Life) : (setLife s k x).hold.drops = s.hold.drops := rfl
@[simp] theorem setLife_hold_credits (s : State) (k : Nat) (x : Life) : (setLife s k x).hold.credits = s.hold.credits := rfl
@[simp] theorem setLife_hold_notices (s : State) (k : Nat) (x : Life) : (setLife s k x).hold.notices = s.hold.notices := rfl
@[simp] theorem setLife_hold_noticed (s : State) (k : Nat) (x : Life) : (setLife s k x).hold.noticed = s.hold.noticed := rfl
@[simp] theorem setLife_hold_dropped (s : State) (k : Nat) (x : Life) : (setLife s k x).hold.dropped = s.hold.dropped := rfl
@[simp] theorem setLife_hold_lapsedCtx (s : State) (k : Nat) (x : Life) : (setLife s k x).hold.lapsedCtx = s.hold.lapsedCtx := rfl

@[simp] theorem putEvq_time (s : State) (k : Nat) (x : Evq) : (putEvq s k x).time = s.time := rfl
@[simp] theorem putEvq_hub (s : State) (k : Nat) (x : Evq) : (putEvq s k x).hub = s.hub := rfl
@[simp] theorem putEvq_sregs (s : State) (k : Nat) (x : Evq) : (putEvq s k x).sregs = s.sregs := rfl
@[simp] theorem putEvq_mem (s : State) (k : Nat) (x : Evq) : (putEvq s k x).mem = s.mem := rfl
@[simp] theorem putEvq_coh (s : State) (k : Nat) (x : Evq) : (putEvq s k x).coh = s.coh := rfl
@[simp] theorem putEvq_core (s : State) (k : Nat) (x : Evq) : (putEvq s k x).core = s.core := rfl
@[simp] theorem putEvq_stat (s : State) (k : Nat) (x : Evq) : (putEvq s k x).stat = s.stat := rfl
@[simp] theorem putEvq_page (s : State) (k : Nat) (x : Evq) : (putEvq s k x).page = s.page := rfl
@[simp] theorem putEvq_work (s : State) (k : Nat) (x : Evq) : (putEvq s k x).work = s.work := rfl
@[simp] theorem putEvq_eng (s : State) (k : Nat) (x : Evq) : (putEvq s k x).eng = s.eng := rfl
@[simp] theorem putEvq_census (s : State) (k : Nat) (x : Evq) : (putEvq s k x).census = s.census := rfl
@[simp] theorem putEvq_link (s : State) (k : Nat) (x : Evq) : (putEvq s k x).link = s.link := rfl
@[simp] theorem putEvq_agenda (s : State) (k : Nat) (x : Evq) : (putEvq s k x).agenda = s.agenda := rfl
@[simp] theorem putEvq_cur (s : State) (k : Nat) (x : Evq) : (putEvq s k x).cur = s.cur := rfl
@[simp] theorem putEvq_far (s : State) (k : Nat) (x : Evq) : (putEvq s k x).far = s.far := rfl
@[simp] theorem putEvq_issues (s : State) (k : Nat) (x : Evq) : (putEvq s k x).issues = s.issues := rfl
@[simp] theorem putEvq_turnNo (s : State) (k : Nat) (x : Evq) : (putEvq s k x).turnNo = s.turnNo := rfl
@[simp] theorem putEvq_fresh (s : State) (k : Nat) (x : Evq) : (putEvq s k x).fresh = s.fresh := rfl
@[simp] theorem putEvq_hold_lives (s : State) (k : Nat) (x : Evq) : (putEvq s k x).hold.lives = s.hold.lives := rfl
@[simp] theorem putEvq_hold_locks (s : State) (k : Nat) (x : Evq) : (putEvq s k x).hold.locks = s.hold.locks := rfl
@[simp] theorem putEvq_hold_routes (s : State) (k : Nat) (x : Evq) : (putEvq s k x).hold.routes = s.hold.routes := rfl
@[simp] theorem putEvq_hold_ranges (s : State) (k : Nat) (x : Evq) : (putEvq s k x).hold.ranges = s.hold.ranges := rfl
@[simp] theorem putEvq_hold_reqs (s : State) (k : Nat) (x : Evq) : (putEvq s k x).hold.reqs = s.hold.reqs := rfl
@[simp] theorem putEvq_hold_withdrawals (s : State) (k : Nat) (x : Evq) : (putEvq s k x).hold.withdrawals = s.hold.withdrawals := rfl
@[simp] theorem putEvq_hold_arriving (s : State) (k : Nat) (x : Evq) : (putEvq s k x).hold.arriving = s.hold.arriving := rfl
@[simp] theorem putEvq_hold_wakes (s : State) (k : Nat) (x : Evq) : (putEvq s k x).hold.wakes = s.hold.wakes := rfl
@[simp] theorem putEvq_hold_returns (s : State) (k : Nat) (x : Evq) : (putEvq s k x).hold.returns = s.hold.returns := rfl
@[simp] theorem putEvq_hold_flights (s : State) (k : Nat) (x : Evq) : (putEvq s k x).hold.flights = s.hold.flights := rfl
@[simp] theorem putEvq_hold_drops (s : State) (k : Nat) (x : Evq) : (putEvq s k x).hold.drops = s.hold.drops := rfl
@[simp] theorem putEvq_hold_credits (s : State) (k : Nat) (x : Evq) : (putEvq s k x).hold.credits = s.hold.credits := rfl
@[simp] theorem putEvq_hold_notices (s : State) (k : Nat) (x : Evq) : (putEvq s k x).hold.notices = s.hold.notices := rfl
@[simp] theorem putEvq_hold_noticed (s : State) (k : Nat) (x : Evq) : (putEvq s k x).hold.noticed = s.hold.noticed := rfl
@[simp] theorem putEvq_hold_dropped (s : State) (k : Nat) (x : Evq) : (putEvq s k x).hold.dropped = s.hold.dropped := rfl
@[simp] theorem putEvq_hold_lapsedCtx (s : State) (k : Nat) (x : Evq) : (putEvq s k x).hold.lapsedCtx = s.hold.lapsedCtx := rfl

@[simp] theorem putRange_time (s : State) (k : Nat) (x : Range) : (putRange s k x).time = s.time := rfl
@[simp] theorem putRange_hub (s : State) (k : Nat) (x : Range) : (putRange s k x).hub = s.hub := rfl
@[simp] theorem putRange_sregs (s : State) (k : Nat) (x : Range) : (putRange s k x).sregs = s.sregs := rfl
@[simp] theorem putRange_mem (s : State) (k : Nat) (x : Range) : (putRange s k x).mem = s.mem := rfl
@[simp] theorem putRange_coh (s : State) (k : Nat) (x : Range) : (putRange s k x).coh = s.coh := rfl
@[simp] theorem putRange_core (s : State) (k : Nat) (x : Range) : (putRange s k x).core = s.core := rfl
@[simp] theorem putRange_stat (s : State) (k : Nat) (x : Range) : (putRange s k x).stat = s.stat := rfl
@[simp] theorem putRange_page (s : State) (k : Nat) (x : Range) : (putRange s k x).page = s.page := rfl
@[simp] theorem putRange_work (s : State) (k : Nat) (x : Range) : (putRange s k x).work = s.work := rfl
@[simp] theorem putRange_eng (s : State) (k : Nat) (x : Range) : (putRange s k x).eng = s.eng := rfl
@[simp] theorem putRange_census (s : State) (k : Nat) (x : Range) : (putRange s k x).census = s.census := rfl
@[simp] theorem putRange_link (s : State) (k : Nat) (x : Range) : (putRange s k x).link = s.link := rfl
@[simp] theorem putRange_agenda (s : State) (k : Nat) (x : Range) : (putRange s k x).agenda = s.agenda := rfl
@[simp] theorem putRange_cur (s : State) (k : Nat) (x : Range) : (putRange s k x).cur = s.cur := rfl
@[simp] theorem putRange_far (s : State) (k : Nat) (x : Range) : (putRange s k x).far = s.far := rfl
@[simp] theorem putRange_issues (s : State) (k : Nat) (x : Range) : (putRange s k x).issues = s.issues := rfl
@[simp] theorem putRange_turnNo (s : State) (k : Nat) (x : Range) : (putRange s k x).turnNo = s.turnNo := rfl
@[simp] theorem putRange_fresh (s : State) (k : Nat) (x : Range) : (putRange s k x).fresh = s.fresh := rfl
@[simp] theorem putRange_hold_lives (s : State) (k : Nat) (x : Range) : (putRange s k x).hold.lives = s.hold.lives := rfl
@[simp] theorem putRange_hold_locks (s : State) (k : Nat) (x : Range) : (putRange s k x).hold.locks = s.hold.locks := rfl
@[simp] theorem putRange_hold_routes (s : State) (k : Nat) (x : Range) : (putRange s k x).hold.routes = s.hold.routes := rfl
@[simp] theorem putRange_hold_evqs (s : State) (k : Nat) (x : Range) : (putRange s k x).hold.evqs = s.hold.evqs := rfl
@[simp] theorem putRange_hold_reqs (s : State) (k : Nat) (x : Range) : (putRange s k x).hold.reqs = s.hold.reqs := rfl
@[simp] theorem putRange_hold_withdrawals (s : State) (k : Nat) (x : Range) : (putRange s k x).hold.withdrawals = s.hold.withdrawals := rfl
@[simp] theorem putRange_hold_arriving (s : State) (k : Nat) (x : Range) : (putRange s k x).hold.arriving = s.hold.arriving := rfl
@[simp] theorem putRange_hold_wakes (s : State) (k : Nat) (x : Range) : (putRange s k x).hold.wakes = s.hold.wakes := rfl
@[simp] theorem putRange_hold_returns (s : State) (k : Nat) (x : Range) : (putRange s k x).hold.returns = s.hold.returns := rfl
@[simp] theorem putRange_hold_flights (s : State) (k : Nat) (x : Range) : (putRange s k x).hold.flights = s.hold.flights := rfl
@[simp] theorem putRange_hold_drops (s : State) (k : Nat) (x : Range) : (putRange s k x).hold.drops = s.hold.drops := rfl
@[simp] theorem putRange_hold_credits (s : State) (k : Nat) (x : Range) : (putRange s k x).hold.credits = s.hold.credits := rfl
@[simp] theorem putRange_hold_notices (s : State) (k : Nat) (x : Range) : (putRange s k x).hold.notices = s.hold.notices := rfl
@[simp] theorem putRange_hold_noticed (s : State) (k : Nat) (x : Range) : (putRange s k x).hold.noticed = s.hold.noticed := rfl
@[simp] theorem putRange_hold_dropped (s : State) (k : Nat) (x : Range) : (putRange s k x).hold.dropped = s.hold.dropped := rfl
@[simp] theorem putRange_hold_lapsedCtx (s : State) (k : Nat) (x : Range) : (putRange s k x).hold.lapsedCtx = s.hold.lapsedCtx := rfl

@[simp] theorem putStrand_time (s : State) (c i : Nat) (x : Strand) : (putStrand s c i x).time = s.time := rfl
@[simp] theorem putStrand_hub (s : State) (c i : Nat) (x : Strand) : (putStrand s c i x).hub = s.hub := rfl
@[simp] theorem putStrand_sregs (s : State) (c i : Nat) (x : Strand) : (putStrand s c i x).sregs = s.sregs := rfl
@[simp] theorem putStrand_mem (s : State) (c i : Nat) (x : Strand) : (putStrand s c i x).mem = s.mem := rfl
@[simp] theorem putStrand_coh (s : State) (c i : Nat) (x : Strand) : (putStrand s c i x).coh = s.coh := rfl
@[simp] theorem putStrand_stat (s : State) (c i : Nat) (x : Strand) : (putStrand s c i x).stat = s.stat := rfl
@[simp] theorem putStrand_hold (s : State) (c i : Nat) (x : Strand) : (putStrand s c i x).hold = s.hold := rfl
@[simp] theorem putStrand_page (s : State) (c i : Nat) (x : Strand) : (putStrand s c i x).page = s.page := rfl
@[simp] theorem putStrand_work (s : State) (c i : Nat) (x : Strand) : (putStrand s c i x).work = s.work := rfl
@[simp] theorem putStrand_eng (s : State) (c i : Nat) (x : Strand) : (putStrand s c i x).eng = s.eng := rfl
@[simp] theorem putStrand_census (s : State) (c i : Nat) (x : Strand) : (putStrand s c i x).census = s.census := rfl
@[simp] theorem putStrand_link (s : State) (c i : Nat) (x : Strand) : (putStrand s c i x).link = s.link := rfl
@[simp] theorem putStrand_agenda (s : State) (c i : Nat) (x : Strand) : (putStrand s c i x).agenda = s.agenda := rfl
@[simp] theorem putStrand_cur (s : State) (c i : Nat) (x : Strand) : (putStrand s c i x).cur = s.cur := rfl
@[simp] theorem putStrand_far (s : State) (c i : Nat) (x : Strand) : (putStrand s c i x).far = s.far := rfl
@[simp] theorem putStrand_issues (s : State) (c i : Nat) (x : Strand) : (putStrand s c i x).issues = s.issues := rfl
@[simp] theorem putStrand_turnNo (s : State) (c i : Nat) (x : Strand) : (putStrand s c i x).turnNo = s.turnNo := rfl
@[simp] theorem putStrand_fresh (s : State) (c i : Nat) (x : Strand) : (putStrand s c i x).fresh = s.fresh := rfl
@[simp] theorem putStrand_core_slotGen (s : State) (c i : Nat) (x : Strand) : (putStrand s c i x).core.slotGen = s.core.slotGen := rfl
@[simp] theorem putStrand_core_slotOff (s : State) (c i : Nat) (x : Strand) : (putStrand s c i x).core.slotOff = s.core.slotOff := rfl
@[simp] theorem putStrand_core_idle (s : State) (c i : Nat) (x : Strand) : (putStrand s c i x).core.idle = s.core.idle := rfl
@[simp] theorem putStrand_core_rings (s : State) (c i : Nat) (x : Strand) : (putStrand s c i x).core.rings = s.core.rings := rfl
@[simp] theorem putStrand_core_ringTs (s : State) (c i : Nat) (x : Strand) : (putStrand s c i x).core.ringTs = s.core.ringTs := rfl
@[simp] theorem putStrand_core_park (s : State) (c i : Nat) (x : Strand) : (putStrand s c i x).core.park = s.core.park := rfl
@[simp] theorem putStrand_core_held (s : State) (c i : Nat) (x : Strand) : (putStrand s c i x).core.held = s.core.held := rfl
@[simp] theorem putStrand_core_ovt (s : State) (c i : Nat) (x : Strand) : (putStrand s c i x).core.ovt = s.core.ovt := rfl
@[simp] theorem putStrand_core_ovUse (s : State) (c i : Nat) (x : Strand) : (putStrand s c i x).core.ovUse = s.core.ovUse := rfl
@[simp] theorem putStrand_core_icnt (s : State) (c i : Nat) (x : Strand) : (putStrand s c i x).core.icnt = s.core.icnt := rfl
@[simp] theorem putStrand_core_stale (s : State) (c i : Nat) (x : Strand) : (putStrand s c i x).core.stale = s.core.stale := rfl
@[simp] theorem putStrand_core_bconf (s : State) (c i : Nat) (x : Strand) : (putStrand s c i x).core.bconf = s.core.bconf := rfl
@[simp] theorem putStrand_core_layout (s : State) (c i : Nat) (x : Strand) : (putStrand s c i x).core.layout = s.core.layout := rfl
@[simp] theorem putStrand_core_chan (s : State) (c i : Nat) (x : Strand) : (putStrand s c i x).core.chan = s.core.chan := rfl
@[simp] theorem putStrand_core_chanWait (s : State) (c i : Nat) (x : Strand) : (putStrand s c i x).core.chanWait = s.core.chanWait := rfl
@[simp] theorem putStrand_core_filter (s : State) (c i : Nat) (x : Strand) : (putStrand s c i x).core.filter = s.core.filter := rfl
@[simp] theorem putStrand_core_loadEnds (s : State) (c i : Nat) (x : Strand) : (putStrand s c i x).core.loadEnds = s.core.loadEnds := rfl
@[simp] theorem putStrand_core_outside (s : State) (c i : Nat) (x : Strand) : (putStrand s c i x).core.outside = s.core.outside := rfl
@[simp] theorem putStrand_core_tickets (s : State) (c i : Nat) (x : Strand) : (putStrand s c i x).core.tickets = s.core.tickets := rfl
@[simp] theorem putStrand_core_soft (s : State) (c i : Nat) (x : Strand) : (putStrand s c i x).core.soft = s.core.soft := rfl
@[simp] theorem putStrand_core_routeCount (s : State) (c i : Nat) (x : Strand) : (putStrand s c i x).core.routeCount = s.core.routeCount := rfl
@[simp] theorem putStrand_core_migr (s : State) (c i : Nat) (x : Strand) : (putStrand s c i x).core.migr = s.core.migr := rfl

@[simp] theorem putRing_time (s : State) (c p : Nat) (x : List RingEntry) : (putRing s c p x).time = s.time := rfl
@[simp] theorem putRing_hub (s : State) (c p : Nat) (x : List RingEntry) : (putRing s c p x).hub = s.hub := rfl
@[simp] theorem putRing_sregs (s : State) (c p : Nat) (x : List RingEntry) : (putRing s c p x).sregs = s.sregs := rfl
@[simp] theorem putRing_mem (s : State) (c p : Nat) (x : List RingEntry) : (putRing s c p x).mem = s.mem := rfl
@[simp] theorem putRing_coh (s : State) (c p : Nat) (x : List RingEntry) : (putRing s c p x).coh = s.coh := rfl
@[simp] theorem putRing_stat (s : State) (c p : Nat) (x : List RingEntry) : (putRing s c p x).stat = s.stat := rfl
@[simp] theorem putRing_hold (s : State) (c p : Nat) (x : List RingEntry) : (putRing s c p x).hold = s.hold := rfl
@[simp] theorem putRing_page (s : State) (c p : Nat) (x : List RingEntry) : (putRing s c p x).page = s.page := rfl
@[simp] theorem putRing_work (s : State) (c p : Nat) (x : List RingEntry) : (putRing s c p x).work = s.work := rfl
@[simp] theorem putRing_eng (s : State) (c p : Nat) (x : List RingEntry) : (putRing s c p x).eng = s.eng := rfl
@[simp] theorem putRing_census (s : State) (c p : Nat) (x : List RingEntry) : (putRing s c p x).census = s.census := rfl
@[simp] theorem putRing_link (s : State) (c p : Nat) (x : List RingEntry) : (putRing s c p x).link = s.link := rfl
@[simp] theorem putRing_agenda (s : State) (c p : Nat) (x : List RingEntry) : (putRing s c p x).agenda = s.agenda := rfl
@[simp] theorem putRing_cur (s : State) (c p : Nat) (x : List RingEntry) : (putRing s c p x).cur = s.cur := rfl
@[simp] theorem putRing_far (s : State) (c p : Nat) (x : List RingEntry) : (putRing s c p x).far = s.far := rfl
@[simp] theorem putRing_issues (s : State) (c p : Nat) (x : List RingEntry) : (putRing s c p x).issues = s.issues := rfl
@[simp] theorem putRing_turnNo (s : State) (c p : Nat) (x : List RingEntry) : (putRing s c p x).turnNo = s.turnNo := rfl
@[simp] theorem putRing_fresh (s : State) (c p : Nat) (x : List RingEntry) : (putRing s c p x).fresh = s.fresh := rfl
@[simp] theorem putRing_core_slots (s : State) (c p : Nat) (x : List RingEntry) : (putRing s c p x).core.slots = s.core.slots := rfl
@[simp] theorem putRing_core_slotGen (s : State) (c p : Nat) (x : List RingEntry) : (putRing s c p x).core.slotGen = s.core.slotGen := rfl
@[simp] theorem putRing_core_slotOff (s : State) (c p : Nat) (x : List RingEntry) : (putRing s c p x).core.slotOff = s.core.slotOff := rfl
@[simp] theorem putRing_core_idle (s : State) (c p : Nat) (x : List RingEntry) : (putRing s c p x).core.idle = s.core.idle := rfl
@[simp] theorem putRing_core_ringTs (s : State) (c p : Nat) (x : List RingEntry) : (putRing s c p x).core.ringTs = s.core.ringTs := rfl
@[simp] theorem putRing_core_park (s : State) (c p : Nat) (x : List RingEntry) : (putRing s c p x).core.park = s.core.park := rfl
@[simp] theorem putRing_core_held (s : State) (c p : Nat) (x : List RingEntry) : (putRing s c p x).core.held = s.core.held := rfl
@[simp] theorem putRing_core_ovt (s : State) (c p : Nat) (x : List RingEntry) : (putRing s c p x).core.ovt = s.core.ovt := rfl
@[simp] theorem putRing_core_ovUse (s : State) (c p : Nat) (x : List RingEntry) : (putRing s c p x).core.ovUse = s.core.ovUse := rfl
@[simp] theorem putRing_core_icnt (s : State) (c p : Nat) (x : List RingEntry) : (putRing s c p x).core.icnt = s.core.icnt := rfl
@[simp] theorem putRing_core_stale (s : State) (c p : Nat) (x : List RingEntry) : (putRing s c p x).core.stale = s.core.stale := rfl
@[simp] theorem putRing_core_bconf (s : State) (c p : Nat) (x : List RingEntry) : (putRing s c p x).core.bconf = s.core.bconf := rfl
@[simp] theorem putRing_core_layout (s : State) (c p : Nat) (x : List RingEntry) : (putRing s c p x).core.layout = s.core.layout := rfl
@[simp] theorem putRing_core_chan (s : State) (c p : Nat) (x : List RingEntry) : (putRing s c p x).core.chan = s.core.chan := rfl
@[simp] theorem putRing_core_chanWait (s : State) (c p : Nat) (x : List RingEntry) : (putRing s c p x).core.chanWait = s.core.chanWait := rfl
@[simp] theorem putRing_core_filter (s : State) (c p : Nat) (x : List RingEntry) : (putRing s c p x).core.filter = s.core.filter := rfl
@[simp] theorem putRing_core_loadEnds (s : State) (c p : Nat) (x : List RingEntry) : (putRing s c p x).core.loadEnds = s.core.loadEnds := rfl
@[simp] theorem putRing_core_outside (s : State) (c p : Nat) (x : List RingEntry) : (putRing s c p x).core.outside = s.core.outside := rfl
@[simp] theorem putRing_core_tickets (s : State) (c p : Nat) (x : List RingEntry) : (putRing s c p x).core.tickets = s.core.tickets := rfl
@[simp] theorem putRing_core_soft (s : State) (c p : Nat) (x : List RingEntry) : (putRing s c p x).core.soft = s.core.soft := rfl
@[simp] theorem putRing_core_routeCount (s : State) (c p : Nat) (x : List RingEntry) : (putRing s c p x).core.routeCount = s.core.routeCount := rfl
@[simp] theorem putRing_core_migr (s : State) (c p : Nat) (x : List RingEntry) : (putRing s c p x).core.migr = s.core.migr := rfl

@[simp] theorem putPair_time (s : State) (k : Nat) (x : Pair) : (putPair s k x).time = s.time := rfl
@[simp] theorem putPair_hub (s : State) (k : Nat) (x : Pair) : (putPair s k x).hub = s.hub := rfl
@[simp] theorem putPair_sregs (s : State) (k : Nat) (x : Pair) : (putPair s k x).sregs = s.sregs := rfl
@[simp] theorem putPair_mem (s : State) (k : Nat) (x : Pair) : (putPair s k x).mem = s.mem := rfl
@[simp] theorem putPair_coh (s : State) (k : Nat) (x : Pair) : (putPair s k x).coh = s.coh := rfl
@[simp] theorem putPair_core (s : State) (k : Nat) (x : Pair) : (putPair s k x).core = s.core := rfl
@[simp] theorem putPair_stat (s : State) (k : Nat) (x : Pair) : (putPair s k x).stat = s.stat := rfl
@[simp] theorem putPair_hold (s : State) (k : Nat) (x : Pair) : (putPair s k x).hold = s.hold := rfl
@[simp] theorem putPair_page (s : State) (k : Nat) (x : Pair) : (putPair s k x).page = s.page := rfl
@[simp] theorem putPair_work (s : State) (k : Nat) (x : Pair) : (putPair s k x).work = s.work := rfl
@[simp] theorem putPair_census (s : State) (k : Nat) (x : Pair) : (putPair s k x).census = s.census := rfl
@[simp] theorem putPair_link (s : State) (k : Nat) (x : Pair) : (putPair s k x).link = s.link := rfl
@[simp] theorem putPair_agenda (s : State) (k : Nat) (x : Pair) : (putPair s k x).agenda = s.agenda := rfl
@[simp] theorem putPair_cur (s : State) (k : Nat) (x : Pair) : (putPair s k x).cur = s.cur := rfl
@[simp] theorem putPair_far (s : State) (k : Nat) (x : Pair) : (putPair s k x).far = s.far := rfl
@[simp] theorem putPair_issues (s : State) (k : Nat) (x : Pair) : (putPair s k x).issues = s.issues := rfl
@[simp] theorem putPair_turnNo (s : State) (k : Nat) (x : Pair) : (putPair s k x).turnNo = s.turnNo := rfl
@[simp] theorem putPair_fresh (s : State) (k : Nat) (x : Pair) : (putPair s k x).fresh = s.fresh := rfl
@[simp] theorem putPair_eng_copyq (s : State) (k : Nat) (x : Pair) : (putPair s k x).eng.copyq = s.eng.copyq := rfl
@[simp] theorem putPair_eng_facq (s : State) (k : Nat) (x : Pair) : (putPair s k x).eng.facq = s.eng.facq := rfl
@[simp] theorem putPair_eng_acc (s : State) (k : Nat) (x : Pair) : (putPair s k x).eng.acc = s.eng.acc := rfl
@[simp] theorem putPair_eng_mslots (s : State) (k : Nat) (x : Pair) : (putPair s k x).eng.mslots = s.eng.mslots := rfl
@[simp] theorem putPair_eng_codebook (s : State) (k : Nat) (x : Pair) : (putPair s k x).eng.codebook = s.eng.codebook := rfl
@[simp] theorem putPair_eng_fac (s : State) (k : Nat) (x : Pair) : (putPair s k x).eng.fac = s.eng.fac := rfl
@[simp] theorem putPair_eng_order (s : State) (k : Nat) (x : Pair) : (putPair s k x).eng.order = s.eng.order := rfl
@[simp] theorem putPair_eng_svc (s : State) (k : Nat) (x : Pair) : (putPair s k x).eng.svc = s.eng.svc := rfl

@[simp] theorem putLaunch_time (s : State) (k : Nat) (x : Launch) : (putLaunch s k x).time = s.time := rfl
@[simp] theorem putLaunch_hub (s : State) (k : Nat) (x : Launch) : (putLaunch s k x).hub = s.hub := rfl
@[simp] theorem putLaunch_sregs (s : State) (k : Nat) (x : Launch) : (putLaunch s k x).sregs = s.sregs := rfl
@[simp] theorem putLaunch_mem (s : State) (k : Nat) (x : Launch) : (putLaunch s k x).mem = s.mem := rfl
@[simp] theorem putLaunch_coh (s : State) (k : Nat) (x : Launch) : (putLaunch s k x).coh = s.coh := rfl
@[simp] theorem putLaunch_core (s : State) (k : Nat) (x : Launch) : (putLaunch s k x).core = s.core := rfl
@[simp] theorem putLaunch_stat (s : State) (k : Nat) (x : Launch) : (putLaunch s k x).stat = s.stat := rfl
@[simp] theorem putLaunch_hold (s : State) (k : Nat) (x : Launch) : (putLaunch s k x).hold = s.hold := rfl
@[simp] theorem putLaunch_page (s : State) (k : Nat) (x : Launch) : (putLaunch s k x).page = s.page := rfl
@[simp] theorem putLaunch_eng (s : State) (k : Nat) (x : Launch) : (putLaunch s k x).eng = s.eng := rfl
@[simp] theorem putLaunch_census (s : State) (k : Nat) (x : Launch) : (putLaunch s k x).census = s.census := rfl
@[simp] theorem putLaunch_link (s : State) (k : Nat) (x : Launch) : (putLaunch s k x).link = s.link := rfl
@[simp] theorem putLaunch_agenda (s : State) (k : Nat) (x : Launch) : (putLaunch s k x).agenda = s.agenda := rfl
@[simp] theorem putLaunch_cur (s : State) (k : Nat) (x : Launch) : (putLaunch s k x).cur = s.cur := rfl
@[simp] theorem putLaunch_far (s : State) (k : Nat) (x : Launch) : (putLaunch s k x).far = s.far := rfl
@[simp] theorem putLaunch_issues (s : State) (k : Nat) (x : Launch) : (putLaunch s k x).issues = s.issues := rfl
@[simp] theorem putLaunch_turnNo (s : State) (k : Nat) (x : Launch) : (putLaunch s k x).turnNo = s.turnNo := rfl
@[simp] theorem putLaunch_fresh (s : State) (k : Nat) (x : Launch) : (putLaunch s k x).fresh = s.fresh := rfl
@[simp] theorem putLaunch_work_counters (s : State) (k : Nat) (x : Launch) : (putLaunch s k x).work.counters = s.work.counters := rfl
@[simp] theorem putLaunch_work_ends (s : State) (k : Nat) (x : Launch) : (putLaunch s k x).work.ends = s.work.ends := rfl
@[simp] theorem putLaunch_work_tokens (s : State) (k : Nat) (x : Launch) : (putLaunch s k x).work.tokens = s.work.tokens := rfl
@[simp] theorem putLaunch_work_casts (s : State) (k : Nat) (x : Launch) : (putLaunch s k x).work.casts = s.work.casts := rfl
@[simp] theorem putLaunch_work_retires (s : State) (k : Nat) (x : Launch) : (putLaunch s k x).work.retires = s.work.retires := rfl
@[simp] theorem putLaunch_work_bars (s : State) (k : Nat) (x : Launch) : (putLaunch s k x).work.bars = s.work.bars := rfl
@[simp] theorem putLaunch_work_halts (s : State) (k : Nat) (x : Launch) : (putLaunch s k x).work.halts = s.work.halts := rfl
@[simp] theorem putLaunch_work_therm (s : State) (k : Nat) (x : Launch) : (putLaunch s k x).work.therm = s.work.therm := rfl
@[simp] theorem putLaunch_work_rank (s : State) (k : Nat) (x : Launch) : (putLaunch s k x).work.rank = s.work.rank := rfl
@[simp] theorem putLaunch_work_evaluated (s : State) (k : Nat) (x : Launch) : (putLaunch s k x).work.evaluated = s.work.evaluated := rfl
@[simp] theorem putLaunch_work_governed (s : State) (k : Nat) (x : Launch) : (putLaunch s k x).work.governed = s.work.governed := rfl
@[simp] theorem putLaunch_work_kills (s : State) (k : Nat) (x : Launch) : (putLaunch s k x).work.kills = s.work.kills := rfl
@[simp] theorem putLaunch_work_thermTab (s : State) (k : Nat) (x : Launch) : (putLaunch s k x).work.thermTab = s.work.thermTab := rfl
@[simp] theorem putLaunch_work_bundles (s : State) (k : Nat) (x : Launch) : (putLaunch s k x).work.bundles = s.work.bundles := rfl

/-! ### What is there after an update -/

@[simp] theorem lifeOf_setLife (s : State) (k : Nat) (x : Life) : lifeOf (setLife s k x) k = x := by simp [lifeOf, setLife]
@[simp] theorem evqAt_putEvq (s : State) (k : Nat) (x : Evq) : evqAt (putEvq s k x) k = x := by simp [evqAt, putEvq]
@[simp] theorem pairAt_putPair (s : State) (k : Nat) (x : Pair) : pairAt (putPair s k x) k = x := by simp [pairAt, putPair]
@[simp] theorem launchAt_putLaunch (s : State) (k : Nat) (x : Launch) : launchAt (putLaunch s k x) k = x := by
  simp [launchAt, putLaunch]
@[simp] theorem ringAt_putRing (s : State) (c p : Nat) (x : List RingEntry) : ringAt (putRing s c p x) c p = x := by
  simp [ringAt, putRing]
@[simp] theorem rangeAt_putRange (s : State) (k : Nat) (x : Range) : rangeAt (putRange s k x) k = x := by
  simp [rangeAt, putRange]
@[simp] theorem queueAt_putQueue (s : State) (k : Nat) (f : Bool) (q : Queue) : queueAt (putQueue s k f q) k f = q := by
  cases f <;> simp [queueAt, putQueue]
@[simp] theorem strandAt_putStrand (s : State) (c i : Nat) (x : Strand) : strandAt (putStrand s c i x) c i = some x := by
  simp [strandAt, putStrand, tfind_tput]
theorem strandAt_putStrand_ne (s : State) (c i c' i' : Nat) (x : Strand) (h : c' * 16 + i' ≠ c * 16 + i) :
    strandAt (putStrand s c i x) c' i' = strandAt s c' i' := by
  simp [strandAt, putStrand, tfind_tput_ne _ _ _ _ h]
@[simp] theorem putStrand_putStrand (s : State) (c i : Nat) (x y : Strand) :
    putStrand (putStrand s c i x) c i y = putStrand s c i y := by
  simp [putStrand]
theorem putPair_putPair (s : State) (k : Nat) (x y : Pair) (hx : x ≠ {}) (hy : y ≠ {}) :
    putPair (putPair s k x) k y = putPair s k y := by
  simp only [putPair]
  rw [tset_tset _ _ _ _ _ hx hy]
@[simp] theorem Pair.stream_setStream (p : Pair) (cp : Bool) (x : Stream) : (p.setStream cp x).stream cp = x := by
  cases cp <;> rfl
@[simp] theorem Pair.setStream_setStream (p : Pair) (cp : Bool) (x y : Stream) :
    (p.setStream cp x).setStream cp y = p.setStream cp y := by
  cases cp <;> rfl
@[simp] theorem Pair.setStream_st (p : Pair) (cp : Bool) (x : Stream) : (p.setStream cp x).st = p.st := by cases cp <;> rfl

end Sys2Proof.Machine
end

