-- ==== Sys2Proof/Laws/Memory.lean ====
section
/-! SUPPORT. The list of memory cells: every operation on it keeps its canonical form, and reads what was written. -/

namespace Sys2Proof.Machine
open Sys2Proof

/-- The canonical form, cell by cell: no cell equals what an unlisted address reads as, and addresses rise strictly. -/
theorem Memory.wf_cons (c : Host.Cell) (m : List Host.Cell) :
    Memory.wf (c :: m) = true ↔ c.2 ≠ 0 ∧ (∀ e ∈ m, c.1 < e.1) ∧ Memory.wf m = true := by
  induction m generalizing c with
  | nil => simp [Memory.wf]
  | cons e r ih =>
    simp only [Memory.wf, Bool.and_eq_true, bne_iff_ne, decide_eq_true_eq, List.mem_cons, forall_eq_or_imp]
    constructor
    · rintro ⟨⟨h1, h2⟩, h3⟩
      exact ⟨h1, ⟨h2, fun x hx => lt_trans h2 ((ih e).mp h3 |>.2.1 x hx)⟩, h3⟩
    · rintro ⟨h1, ⟨h2, _⟩, h3⟩
      exact ⟨⟨h1, h2⟩, h3⟩

/-- Dropping cells keeps the form. -/
theorem Memory.wf_filter (p : Host.Cell → Bool) (m : List Host.Cell) (h : Memory.wf m = true) : Memory.wf (m.filter p) = true := by
  induction m with
  | nil => rfl
  | cons c r ih =>
    obtain ⟨h1, h2, h3⟩ := (Memory.wf_cons c r).mp h
    rw [List.filter_cons]
    split
    · exact (Memory.wf_cons _ _).mpr ⟨h1, fun e he => h2 e (List.mem_of_mem_filter he), ih h3⟩
    · exact ih h3

theorem mem_tput {α : Type} (m : Sparse α) (k : Nat) (v : α) (e : Nat × α) (h : e ∈ tput m k v) : e = (k, v) ∨ e ∈ m := by
  induction m with
  | nil => simpa [tput] using h
  | cons c r ih =>
    obtain ⟨j, w⟩ := c
    simp only [tput] at h
    split at h
    · simpa using h
    · split at h
      · simp only [List.mem_cons] at h ⊢; tauto
      · simp only [List.mem_cons] at h ⊢
        rcases h with h | h
        · exact .inr (.inl h)
        · rcases ih h with h | h <;> tauto

/-- Writing one byte keeps the form. -/
theorem memPut_wf (m : List Host.Cell) (a : Nat) (b : Byte) (h : Memory.wf m = true) : Memory.wf (memPut m a b) = true := by
  unfold memPut tset
  split
  · exact Memory.wf_filter _ m h
  · next hb =>
    have hb : b ≠ 0 := hb
    clear ‹¬b = unlisted›
    induction m with
    | nil => simpa [tput, Memory.wf, unlisted] using hb
    | cons c r ih =>
      obtain ⟨j, w⟩ := c
      obtain ⟨h1, h2, h3⟩ := (Memory.wf_cons _ _).mp h
      simp only [tput]
      split
      · refine (Memory.wf_cons _ _).mpr ⟨hb, ?_, h⟩
        intro e he
        rcases List.mem_cons.mp he with rfl | he
        · assumption
        · exact lt_trans (by assumption) (h2 e he)
      · split
        · next hk => subst hk; exact (Memory.wf_cons _ _).mpr ⟨hb, h2, h3⟩
        · refine (Memory.wf_cons _ _).mpr ⟨h1, ?_, ih h3⟩
          intro e he
          rcases mem_tput _ _ _ _ he with rfl | he
          · simp only; omega
          · exact h2 e he

theorem memWrite_wf (m : List Host.Cell) (a n v : Nat) (h : Memory.wf m = true) : Memory.wf (memWrite m a n v) = true := by
  induction n generalizing m a v with
  | zero => exact h
  | succ n ih => exact ih _ _ _ (memPut_wf m a _ h)

theorem memPuts_wf (m : List Host.Cell) (a : Nat) (bs : List Byte) (h : Memory.wf m = true) : Memory.wf (memPuts m a bs) = true := by
  induction bs generalizing m a with
  | nil => exact h
  | cons b r ih => exact ih _ _ (memPut_wf m a _ h)

/-- The memory of the state after reset has the form. -/
theorem reset_mem_wf : Memory.wf State.reset.mem = true := rfl

/-- A byte that has been written reads as written. -/
@[simp] theorem memByte_memPut (m : List Host.Cell) (a : Nat) (b : Byte) : memByte (memPut m a b) a = b := tget_tset ..

/-- Every other byte is as it was. -/
theorem memByte_memPut_ne (m : List Host.Cell) (a x : Nat) (b : Byte) (h : x ≠ a) : memByte (memPut m a b) x = memByte m x :=
  tget_tset_ne _ _ _ _ _ h

/-- Bytes outside those written are as they were. -/
theorem memByte_memWrite_out (m : List Host.Cell) (a n v x : Nat) (h : x < a ∨ a + n ≤ x) :
    memByte (memWrite m a n v) x = memByte m x := by
  induction n generalizing m a v with
  | zero => rfl
  | succ n ih =>
    rw [memWrite, ih _ _ _ (by omega), memByte_memPut_ne _ _ _ _ (by omega)]

end Sys2Proof.Machine
end

