-- ==== Sys2Proof/Safety.lean ====
section
/-! DEFINITION. What statements speak of: who issues an instruction, what an instruction leaves as it was, and the invariant that
every step keeps. -/

namespace Sys2Proof.Machine
open Sys2Proof

/-! ### Who issues -/

/-- The acting agent is a strand bound to its slot, or a stream of a pair that is not IDLE (R91, R248). -/
def Acting (s : State) : Prop :=
  match s.cur with
  | .strand c i => (strandAt s c i).isSome = true
  | .stream k _ => (pairAt s k).st ≠ 0
  | .none => False

/-- The acting agent stands where the instruction is admitted (R247), and the guard holds (R69). -/
structure Issues (pl : Place) (g : Guard) (s : State) : Prop where
  place : placeOk pl s.cur = true
  guard : guardHolds s g = true
  acting : Acting s
  clean : s.coh.hit = none

/-- The acting agent is a strand bound to slot `i` of the 16 of core `c` (R91), the guard holds, and no word of memory has failed (R106). -/
structure StrandIssues (g : Guard) (s : State) (c i : Nat) (t : Strand) : Prop where
  cur : s.cur = .strand c i
  slot : i < 16
  bound : strandAt s c i = some t
  guard : guardHolds s g = true
  clean : s.coh.hit = none
  sound : s.coh.failed = []

/-! ### What stays as it was -/

/-- The two states differ at most in the registers of the acting agent. -/
def OnlyRegisters (s t : State) : Prop := ∃ c : Ctx, t = mapCtx s fun _ => c

/-- The two states differ at most in the acting agent: its strand, or the sequencer pair whose stream it is. -/
def OnlyAgent (s t : State) : Prop :=
  match s.cur with
  | .strand c i => ∃ x, t = putStrand s c i x
  | .stream k _ => ∃ p, t = putPair s k p
  | .none => t = s

/-- Every general register but those of `gs`, every predicate but those of `ps`, PTS, and every byte of memory are as they were. -/
structure Keeps (gs : List GReg) (ps : List PReg) (s t : State) : Prop where
  regs : ∀ r, r ∉ gs → rG t r = rG s r
  preds : ∀ p, p ∉ ps → rP t p = rP s p
  pts : rPts t = rPts s
  bytes : ∀ a, memByte t.mem a = memByte s.mem a

/-- The instruction answers a next state in which `d` holds `v` and the PC is at the next instruction; nothing else has changed. -/
def Writes (i : Instr) (s : State) (d : GReg) (v : Word) : Prop :=
  ∃ t, exec i s = .next t ∧ rG t d = v ∧ (curCtx t).pc = nextPc (curCtx s).pc ∧ Keeps [d] [] s t ∧ OnlyRegisters s t

/-- The same of a predicate. -/
def WritesPred (i : Instr) (s : State) (d : PReg) (v : Bool) : Prop :=
  ∃ t, exec i s = .next t ∧ rP t d = v ∧ (curCtx t).pc = nextPc (curCtx s).pc ∧ Keeps [] [d] s t ∧ OnlyRegisters s t

/-- The instruction answers a next state with the PC at `pc`, `gs` the only registers that may have changed. -/
def Jumps (i : Instr) (s : State) (gs : List GReg) (pc : BitVec 32) : Prop :=
  ∃ t, exec i s = .next t ∧ (curCtx t).pc = pc ∧ Keeps gs [] s t ∧ OnlyRegisters s t

/-- The same of an instruction that takes rotations (R127): a strand is out of rotation for `n` rotations, its result in place; a stream
goes on. -/
def WritesAfter (n : Nat) (i : Instr) (s : State) (d : GReg) (v : Word) : Prop :=
  ∃ t, exec i s = .next t ∧ rG t d = v ∧ (curCtx t).pc = nextPc (curCtx s).pc ∧ Keeps [d] [] s t ∧ OnlyAgent s t
    ∧ ∀ c i, s.cur = .strand c i → ∃ x, strandAt t c i = some x ∧ x.st = 1 ∧ x.wait = .rot n

/-- The instruction takes the trap: the next state is the one in which the acting agent has trapped with `e`. -/
def Traps (i : Instr) (s : State) (e : Exc) : Prop := exec i s = .next (confine s (raise e s))

/-! ### Floating-point results -/

/-- A result and its flags, under .T or not: FP_TRAP with the flag set when .T meets NV, DZ or OF, else the result written (R123, R124). -/
def WritesFloat (i : Instr) (s : State) (d : GReg) (t : Bool) (r : Nat × Nat) : Prop :=
  (t = true ∧ 4 ≤ r.2 → Traps i s { cause := .fpTrap, step := 7, info0 := BitVec.ofNat 64 r.2 })
    ∧ (¬ (t = true ∧ 4 ≤ r.2) → Writes i s d (BitVec.ofNat 64 r.1))

/-- The same of a division or a root, which takes rotations (R127). -/
def WritesFloatAfter (n : Nat) (i : Instr) (s : State) (d : GReg) (t : Bool) (r : Nat × Nat) : Prop :=
  (t = true ∧ 4 ≤ r.2 → Traps i s { cause := .fpTrap, step := 7, info0 := BitVec.ofNat 64 r.2 })
    ∧ (¬ (t = true ∧ 4 ≤ r.2) → WritesAfter n i s d (BitVec.ofNat 64 r.1))

/-- The rational number that a finite value stands for (R120). -/
def ratOf (neg : Bool) (m : Nat) (e : Int) : ℚ := (if neg then -1 else 1) * (m : ℚ) * (2 : ℚ) ^ e

/-- Of two values the first is the smaller; −0 equals +0, and a NaN compares with nothing (R144). -/
def Below : FVal → FVal → Prop
  | .fin n₁ m₁ e₁, .fin n₂ m₂ e₂ => ratOf n₁ m₁ e₁ < ratOf n₂ m₂ e₂
  | .inf x, .inf y => x = true ∧ y = false
  | .inf x, .fin .. => x = true
  | .fin .., .inf y => y = false
  | _, _ => False

/-- The order of R141, in which −0 stands before +0. -/
def Before (x y : FVal) : Prop := Below x y ∨ (x.isZero = true ∧ y.isZero = true ∧ x.neg = true ∧ y.neg = false)

/-- The integer that a number is rounded to by a mode (R122). -/
def RoundsTo (m : RMode) (q : ℚ) (k : Int) : Prop :=
  match m with
  | .rne => 2 * |(k : ℚ) - q| ≤ 1 ∧ (2 * |(k : ℚ) - q| = 1 → k % 2 = 0)
  | .rtz => |(k : ℚ)| ≤ |q| ∧ |q| < |(k : ℚ)| + 1 ∧ 0 ≤ (k : ℚ) * q
  | .rup => q ≤ k ∧ (k : ℚ) < q + 1
  | .rdn => (k : ℚ) ≤ q ∧ q < k + 1

/-- The canonical NaN of a precision (R121). -/
def nanOf : Prec → Nat
  | .s => 0x7FC00000
  | .d => 0x7FF8000000000000

/-- The bit that FCLASS sets for a pattern with sign, exponent E of `eb` bits and fraction F of `fb` bits (R120, R143). -/
def classBit (eb fb b : Nat) : Nat :=
  let neg := b / 2 ^ (eb + fb) % 2 = 1
  let E := b / 2 ^ fb % 2 ^ eb
  let F := b % 2 ^ fb
  if E = 2 ^ eb - 1 then
    if F = 0 then (if neg then 0 else 7) else if F < 2 ^ (fb - 1) then 8 else 9
  else if E = 0 then
    if F = 0 then (if neg then 3 else 4) else (if neg then 2 else 5)
  else (if neg then 1 else 6)

/-! ### Shapes -/

/-- The shape record that a register names (R181). -/
def shapeAt (s : State) (c : Nat) (r : GReg) : Shape := shapeOf s c (rG s r) (memRead s.mem (scratchAt c (pOff (rG s r))) 32)

/-- The bits of an element of a shape (R182). -/
def elemAt (s : State) (c : Nat) (x : Shape) (n : Nat) : Nat := memRead s.mem (scratchAt c (x.addr x.size n)) x.size

/-- The element that a source supplies for index `n`: its own, or its single one (R184). -/
def srcElem (s : State) (c : Nat) (x : Shape) (n : Nat) : Nat := elemAt s c x (if x.count = 1 then 0 else n)

/-- Element `m` of one shape and element `n` of another have no byte in common. -/
def Apart (x : Shape) (m : Nat) (y : Shape) (n : Nat) : Prop :=
  x.addr x.size m + x.size ≤ y.addr y.size n ∨ y.addr y.size n + y.size ≤ x.addr x.size m

/-- The registers name shape records in the core's own scratchpad, none a channel shape, that keep R181 to R184 for `N` elements;
`src` are the sources, with their element indices, and `dst` the destination, if there is one. No two elements of the destination
overlap, and none overlaps what a later beat reads (R190, R191). The strand has no vector instruction in progress. -/
structure ShapesFit (s : State) (c N : Nat) (dst : Option GReg) (src : List GReg) (index : Nat → Nat := fun n => n) : Prop where
  begins : curProg s = none
  named : ∀ r ∈ dst.toList ++ src, recPtr s (rG s r) = .ok (pOff (rG s r))
  plain : ∀ r ∈ dst.toList ++ src, (shapeAt s c r).zeroOk = true ∧ (shapeAt s c r).ch = false
    ∧ (shapeAt s c r).inBank (shapeAt s c r).size (shapeAt s c r).size = true
  dstCount : ∀ d ∈ dst, (shapeAt s c d).count = N
  srcCount : ∀ r ∈ src, (shapeAt s c r).count = N ∨ (shapeAt s c r).count = 1
  first : dst = none → ∀ r ∈ src.head?, (shapeAt s c r).count = N
  apart : ∀ d ∈ dst, ∀ m n, m < N → n < N → m ≠ n → Apart (shapeAt s c d) m (shapeAt s c d) n
  later : ∀ d ∈ dst, ∀ r ∈ src, ∀ m n, m < N → n < N →
    (let L := lanes ((dst.toList ++ src).foldl (fun z r => max z (shapeAt s c r).size) 1)
     m / L < n / L) → Apart (shapeAt s c d) m (shapeAt s c r) (if (shapeAt s c r).count = 1 then 0 else index n)

/-- The same, and the strand makes all its accesses in this turn: no other slot of its core has beats pending (R190; log entry 2). -/
structure Shapes (s : State) (c N : Nat) (dst : Option GReg) (src : List GReg) (index : Nat → Nat := fun n => n) : Prop
    extends ShapesFit s c N dst src index where
  near : s.far = false
  alone : (List.range 16).any (beatPending s c) = false

/-- The instruction answers a next state in which the elements of `d` are those of `f`, cut to their size, VSTAT has the flags and the
count of `f`, the PC is at the next instruction, and every other byte and register is as it was. -/
def VectorWrites (i : Instr) (s : State) (c : Nat) (d : Shape) (f : Nat → Nat × Nat × Nat) : Prop :=
  ∃ u, exec i s = .next u
    ∧ (∀ n, n < d.count → elemAt u c d n = (f n).1 % 256 ^ d.size)
    ∧ (∀ a, (∀ n, n < d.count → ¬ (scratchAt c (d.addr d.size n) ≤ a ∧ a < scratchAt c (d.addr d.size n) + d.size)) →
        memByte u.mem a = memByte s.mem a)
    ∧ u.stat = (raiseVstat s c ((List.range d.count).foldl (fun x n => x ||| (f n).2.1) 0)
        ((List.range d.count).map fun n => (f n).2.2).sum).stat
    ∧ (∀ r, rG u r = rG s r) ∧ (∀ p, rP u p = rP s p) ∧ (curCtx u).pc = nextPc (curCtx s).pc

/-- The same of a form that writes a register: no byte of memory changes, and VSTAT has the flags `fl`. -/
def VectorGives (i : Instr) (s : State) (c : Nat) (d : GReg) (v : Word) (fl : Nat) : Prop :=
  ∃ u, exec i s = .next u ∧ rG u d = v ∧ (∀ a, memByte u.mem a = memByte s.mem a) ∧ u.stat = (raiseVstat s c fl 0).stat
    ∧ (∀ r, r ≠ d → rG u r = rG s r) ∧ (∀ p, rP u p = rP s p) ∧ (curCtx u).pc = nextPc (curCtx s).pc

/-! ### Commands -/

/-- The instruction answers a next state in which the command that `op` says has entered the queue of the strand's cluster at its tail,
when the queue has a free entry and no command waits for one, or else waits for an entry with its strand out of rotation. A strand whose
command has entered goes on, or in a plain factor form is out of rotation for the reply. Memory and the registers are as they were (R20,
R214, R280). The command's timestamp is `pts`, that of the record loads, which the PTS takes too; in a plain form only the operation's end
moves it (R8). -/
def Offered (i : Instr) (s : State) (c j : Nat) (t : Strand) (factor plain : Bool) (op : CmdOp) (evq : Word) (pts : Nat) : Prop :=
  ∃ (u : State) (x : Strand) (cmd : Cmd), exec i s = .next u ∧ strandAt u c j = some x ∧ x.ctx.g = t.ctx.g ∧ x.ctx.p = t.ctx.p
    ∧ (∀ a, memByte u.mem a = memByte s.mem a)
    ∧ cmd.op = op ∧ cmd.tag = curTag s ∧ cmd.core = c ∧ cmd.ctxh = t.ctxh ∧ cmd.record = t.record ∧ cmd.privb = t.privb
    ∧ cmd.pts = pts ∧ x.ctx.pts = (if plain then t.ctx.pts else pts) ∧ cmd.evq = evq ∧ cmd.plain = plain ∧ cmd.own = false
    ∧ (let q := queueAt s (clusterOf c) factor
       if q.cmds.length < 64 ∧ q.waits = [] then
         queueAt u (clusterOf c) factor = { q with cmds := q.cmds ++ [cmd], last := c % 4 }
           ∧ if plain then x.st = 1 ∧ x.wait = .reply ∧ x.ctx.pc = t.ctx.pc else x.st = t.st ∧ x.ctx.pc = nextPc t.ctx.pc
       else queueAt u (clusterOf c) factor = { q with waits := q.waits ++ [{ core := c, cmd := cmd }] }
         ∧ x.st = 1 ∧ x.wait = .reply ∧ x.ctx.pc = t.ctx.pc)

/-- The completion record of a command on its way to its event queue (R221). -/
def completion (c : Cmd) (r : Run) (status cause : Nat) (info : Word) : Arrive :=
  { q := c.evq, ctxh := c.ctxh,
    msg := { bytes := complBits status (cmdCode c.op) cause (tagBits c.tag) r.bytes r.ets info, ts := r.ets } }

/-- A copy descriptor of 32 bytes that the checks of R218 admit at an endpoint of this device: `dst` says that it is D's, `index` that its
AUX points to an index array. -/
structure DescOk (s : State) (b : Nat) (dst index : Bool) : Prop where
  spare : descSpareOk b = true
  here : (descOf b).rt = false
  bank : (descOf b).scratch = true → (descOf b).fmt = 0
  stride : dst = true → (descOf b).stride ≠ 0
  aux : index = false → (descOf b).aux = 0
  space : pSpace (descOf b).ptr ≤ 4 ∧ pZeroOk (descOf b).ptr = true
    ∧ (pSpace (descOf b).ptr = 3 → corePresent s ((descOf b).ptr.toNat / 2 ^ 48 % 1024) = true)
  aligned : (descOf b).ptr.toNat % fmtSize (withFmt s (descOf b)).fmt = 0
  indices : index = true → checkPtr s (descOf b).aux 4 1 = .ok ()

/-! ### Streams -/

/-- The acting agent is a stream of a pair that is not IDLE, at the beginning of an instruction, and the guard holds. -/
structure StreamIssues (g : Guard) (s : State) (k : Nat) (cp : Bool) (x : Stream) : Prop where
  cur : s.cur = .stream k cp
  stream : x = (pairAt s k).stream cp
  runs : (pairAt s k).st ≠ 0
  guard : guardHolds s g = true
  clean : s.coh.hit = none
  sound : s.coh.failed = []
  begins : x.head = [] ∧ x.vals = [] ∧ x.pos = 0 ∧ x.sent = false ∧ x.refused = none
  quiet : (∀ e ∈ s.coh.served, e.engine ≠ (streamWho s).id) ∧ engineQueued s (streamWho s).id = false

/-- A pointer to a matrix shape in the issuing cluster's scratchpad that keeps R256. -/
structure MShapeNamed (s : State) (c : Nat) (p : Word) (x : Shape) : Prop where
  ptr : mshapePtr s c p = true
  window : winOk s (pCore c p) c (pOff p) 32 true false = true
  record : x = shapeOf s (pCore c p) p (memRead s.mem (scratchAt (pCore c p) (pOff p)) 32)
  plain : x.ch = false ∧ x.zeroOk = true ∧ x.e2 = 1 ∧ x.e3 = 1
  placed : mshapePlaced x = .ok ()

/-- The same, its units in reach of the accesses that read or write them. -/
structure MShape (s : State) (c : Nat) (p : Word) (x : Shape) (wr : Bool) : Prop extends MShapeNamed s c p x where
  reach : ∀ i, i < x.count * (unitAccess x.fmt).2 →
    winOk s (pCore c p) c (pOff (mshapeAt x i)) (unitAccess x.fmt).1 (!wr) wr = true

/-- The bytes of unit `i` of a matrix shape, as a number. -/
def unitAt (s : State) (c : Nat) (x : Shape) (i : Nat) : Nat :=
  memRead s.mem (scratchAt (pCore c x.ptr) (x.addr (unitBytes x.fmt) i)) (unitBytes x.fmt)

/-- The stream's instruction answers a next state with the PC at the next instruction and the stream busy until the operation ends; its
general registers and predicates are as they were. -/
def StreamDoes (i : Instr) (s : State) (k : Nat) (cp : Bool) (x : Stream) (P : State → Prop) : Prop :=
  ∃ u, exec i s = .next u ∧ ((pairAt u k).stream cp).ctx.pc = nextPc x.ctx.pc ∧ ((pairAt u k).stream cp).busy = true
    ∧ ((pairAt u k).stream cp).ctx.g = x.ctx.g ∧ ((pairAt u k).stream cp).ctx.p = x.ctx.p ∧ P u

/-! ### Work -/

/-- The record has gone to the end of its ring at the core, or of the queue of its stage when it names one of its launch's, and the
push timestamp there is the larger (R299, R307, R46). -/
def Pushed (s u : State) (core : Nat) (r : Rec) (ts : Nat) : Prop :=
  match (recStage r).bind fun k => ((launchAt s r.launch.toNat).stages[k]?).map fun g => (k, g) with
  | some (k, g) => (launchAt u r.launch.toNat).stages[k]?
      = some { g with ts := max g.ts ts, queue := g.queue ++ [.record r (localDt s core) (max g.ts ts) none none] }
  | none => ringAt u core (recPrio r) = ringAt s core (recPrio r) ++ [.record r (localDt s core) (max (ringTsOf s core (recPrio r)) ts) none none]
      ∧ ringTsOf u core (recPrio r) = max (ringTsOf s core (recPrio r)) ts

/-- The queue of a stage, or the ring of a core and priority, holds fewer than its 4,096 entries, and no push waits outside it (R299, R307). -/
def Room (s : State) (stage : Option (Nat × Nat)) (core prio : Nat) : Prop :=
  ringFull s stage core prio = false ∧ ∀ o ∈ s.core.outside, o.same stage core prio = false

/-- The stage queue a record goes to: the one of its launch that it names (R307); else it goes to a ring. -/
def stageFor (s : State) (r : Rec) : Option (Nat × Nat) :=
  (recStage r).bind fun k => ((launchAt s r.launch.toNat).stages[k]?).map fun _ => (r.launch.toNat, k)

/-- Where the record goes there is room. -/
def RoomFor (s : State) (core : Nat) (r : Rec) : Prop := Room s (stageFor s r) core (recPrio r)

/-- The record waits outside the full ring or queue it goes to, after all pushes that wait (R299). -/
def Awaits (s u : State) (core : Nat) (r : Rec) (ts : Nat) : Prop :=
  u.core.tickets = s.core.tickets + 1 ∧ u.core.outside = s.core.outside ++
    [{ stage := stageFor s r, core := core, prio := if (stageFor s r).isSome then 0 else recPrio r, entry := .record r 0 ts none none
       ticket := s.core.tickets }]

/-- No L1 and no slice of L2 is full: what is filled displaces nothing (R14). -/
structure Roomy (s : State) : Prop where
  l1 : s.coh.l1.length < 500
  l2 : s.coh.dir.length < 16000

/-- A launch descriptor of 128 bytes whose fields, but for the handles, keep the limits of R315, with no stage table. -/
structure LaunchFields (s : State) (b : Nat) : Prop where
  code : descField b 0 4 / 65536 ≠ 0 ∧ descField b 0 4 / 65536 ≠ 0xFFFF ∧ descField b 0 4 % 65536 ≤ 5460
  prio : descField b 4 1 < 16
  flags : descField b 5 1 < 2
  units : descField b 6 2 ≠ 0
  privsz : descField b 0x28 4 % 65536 = 0 ∧ 65536 ≤ descField b 0x28 4 ∧ descField b 0x28 4 ≤ 2 ^ 24
  terms : 64 ≤ descField b 0x2C 4 ∧ descField b 0x2C 4 ≤ 65536 ∧ 1 ≤ descField b 0x30 1 ∧ descField b 0x30 1 ≤ 64
  regions : 1 ≤ descField b 0x48 4 ∧ descField b 0x48 4 ≤ 65535
  zeros : descField b 0x31 7 = 0 ∧ descField b 0x4C 4 = 0 ∧ descField b 0x70 16 = 0
  cores : ∃ c, c < 1024 ∧ corePresent s c = true ∧ (descField b 0x50 24).testBit (48 * dieOf c + unitOf c) = true
  table : descField b 0x68 8 = 0

/-- The same, and its handles pass the checks under a context (R25, R315). -/
structure LaunchOk (s : State) (ctxh : Word) (b : Nat) : Prop extends LaunchFields s b where
  queues : (descField b 0x18 8 ≠ 0 → checkHandle s [7] (BitVec.ofNat 64 (descField b 0x18 8)) = .ok ()
      ∧ checkHome s ctxh (BitVec.ofNat 64 (descField b 0x18 8)) = .ok ())
    ∧ checkHandle s [7] (BitVec.ofNat 64 (descField b 0x20 8)) = .ok () ∧ checkHome s ctxh (BitVec.ofNat 64 (descField b 0x20 8)) = .ok ()
  ranges : ∀ e ∈ [(0x38, descField b 0x28 4 * descField b 0x48 4), (0x40, 256 * descField b 0x48 4)],
    checkHandle s [0] (BitVec.ofNat 64 (descField b e.1 8)) = .ok () ∧ checkHome s ctxh (BitVec.ofNat 64 (descField b e.1 8)) = .ok ()
      ∧ e.2 ≤ (rangeAt s (hKey (BitVec.ofNat 64 (descField b e.1 8)))).size

/-- A child of a counter or launch has ended: one fewer is out, one more has ended, CTS is the larger, the first fatal cause stays. -/
def ended (out : Nat × Nat × Nat × Nat) (m cause : Nat) : Nat × Nat × Nat × Nat :=
  (out.1 - 1, out.2.1 + 1, max out.2.2.1 m, if out.2.2.2 = 0 then cause else out.2.2.2)

/-! ### Commands of the host -/

/-- The entry at CQHEAD holds the command `opc` with FLAGS that it admits, in a phase that takes it, and its buffer is apart from it (R371, R372,
R381). -/
structure Command (s : State) (opc flags : Nat) : Prop where
  waits : s.hub.cqhead ≠ s.hub.cqtail
  named : cmdField s 0 1 = opc
  options : cmdFlags s = flags
  taken : accepts s opc = true
  apart : cmdBuf s + cmdBufLen s ≤ cmdAddr s ∨ cmdAddr s + 64 ≤ cmdBuf s

/-- The command ends with a STATUS, RES and bytes in its buffer, RESLEN being their number; CQHEAD advances, and every other byte of memory is as
it was (R372). -/
def CommandEnds (i : Instr) (s : State) (status : Nat) (res : Word) (bs : List Byte) (P : State → Prop) : Prop :=
  ∃ u, exec i s = .next u ∧ u.hub.cqhead = (s.hub.cqhead + 1) % s.hub.cqsize
    ∧ memRead u.mem (cmdAddr s + 2) 2 = status ∧ memRead u.mem (cmdAddr s + 0x34) 4 = bs.length
    ∧ memRead u.mem (cmdAddr s + 0x38) 8 = res.toNat ∧ memBytes u.mem (cmdBuf s) bs.length = bs
    ∧ (∀ a, ¬ (cmdBuf s ≤ a ∧ a < cmdBuf s + bs.length) → ¬ (cmdAddr s ≤ a ∧ a < cmdAddr s + 64) → memByte u.mem a = memByte s.mem a)
    ∧ P u

/-- Nothing but the command's entry and CQHEAD has changed. -/
def OnlyEntry (s u : State) : Prop := { u with mem := s.mem, hub.cqhead := s.hub.cqhead } = s

/-! ### The invariant -/

/-- A WIN register holds a value R99 admits, its reserved bits 0. -/
def winStored (v : Word) : Bool := winLegal v && v &&& winMask == v
/-- A BFMT register holds an assigned format code (R233). -/
def bfmtStored (v : BitVec 4) : Bool := v != 15
/-- EXPR holds a SPLIT of at most 16 and nothing else (R205). -/
def exprStored (v : Word) : Bool := decide (v.toNat ≤ 16)
/-- FCTL holds a THR that is a non-negative finite value below 1 and nothing else (R279). -/
def fctlStored (v : Word) : Bool := decide (v.toNat < 0x3F800000)

/-- What every step keeps: each special register that SRW alone writes holds a value its rule admits, and no unit's device time
is more than two ticks ahead (R22); no access of an instruction that is over is remembered. -/
structure Inv (s : State) : Prop where
  win : ∀ e ∈ s.sregs.win, winStored e.2 = true
  bfmt : ∀ e ∈ s.sregs.bfmt, bfmtStored e.2 = true
  expr : ∀ e ∈ s.sregs.expr, exprStored e.2 = true
  fctl : ∀ e ∈ s.sregs.fctl, fctlStored e.2 = true
  skew : ∀ e ∈ s.time.early, e.2 ≤ 2
  hit : s.coh.hit = none

end Sys2Proof.Machine
end

