-- ==== Sys2Proof/Laws/Perform.lean ====
section
/-! SUPPORT. What the shared operations can do, said once: the registers of the acting agent, the performing of an instruction, the
confinement of its effect. -/

namespace Sys2Proof.Machine
open Sys2Proof

/-! ### Registers of the acting agent -/

/-- What a change of registers does: to the strand, or to the stream of the pair, and to nothing else. -/
theorem mapCtx_strand (s : State) (f : Ctx → Ctx) (c i : Nat) (t : Strand) (hc : s.cur = .strand c i) (ht : strandAt s c i = some t) :
    mapCtx s f = putStrand s c i { t with ctx := f t.ctx } := by
  simp [mapCtx, hc, mapStrand, ht]

theorem mapCtx_stream (s : State) (f : Ctx → Ctx) (k : Nat) (cp : Bool) (hc : s.cur = .stream k cp) :
    mapCtx s f = putPair s k ((pairAt s k).setStream cp { (pairAt s k).stream cp with ctx := f ((pairAt s k).stream cp).ctx }) := by
  simp [mapCtx, hc]

/-- A change of registers touches the strand slots and the pairs only. -/
theorem mapCtx_frame (s : State) (f : Ctx → Ctx) : ∃ m n,
    mapCtx s f = { s with core.slots := m, eng.pairs := n } := by
  unfold mapCtx mapStrand
  split
  · split
    · exact ⟨_, _, rfl⟩
    · exact ⟨_, _, rfl⟩
  · exact ⟨_, _, rfl⟩
  · exact ⟨_, _, rfl⟩

@[simp] theorem mapCtx_time (s : State) (f : Ctx → Ctx) : (mapCtx s f).time = s.time := by
  obtain ⟨_, _, h⟩ := mapCtx_frame s f; rw [h]
@[simp] theorem mapCtx_hub (s : State) (f : Ctx → Ctx) : (mapCtx s f).hub = s.hub := by
  obtain ⟨_, _, h⟩ := mapCtx_frame s f; rw [h]
@[simp] theorem mapCtx_sregs (s : State) (f : Ctx → Ctx) : (mapCtx s f).sregs = s.sregs := by
  obtain ⟨_, _, h⟩ := mapCtx_frame s f; rw [h]
@[simp] theorem mapCtx_mem (s : State) (f : Ctx → Ctx) : (mapCtx s f).mem = s.mem := by
  obtain ⟨_, _, h⟩ := mapCtx_frame s f; rw [h]
@[simp] theorem mapCtx_coh (s : State) (f : Ctx → Ctx) : (mapCtx s f).coh = s.coh := by
  obtain ⟨_, _, h⟩ := mapCtx_frame s f; rw [h]
@[simp] theorem mapCtx_stat (s : State) (f : Ctx → Ctx) : (mapCtx s f).stat = s.stat := by
  obtain ⟨_, _, h⟩ := mapCtx_frame s f; rw [h]
@[simp] theorem mapCtx_hold (s : State) (f : Ctx → Ctx) : (mapCtx s f).hold = s.hold := by
  obtain ⟨_, _, h⟩ := mapCtx_frame s f; rw [h]
@[simp] theorem mapCtx_page (s : State) (f : Ctx → Ctx) : (mapCtx s f).page = s.page := by
  obtain ⟨_, _, h⟩ := mapCtx_frame s f; rw [h]
@[simp] theorem mapCtx_work (s : State) (f : Ctx → Ctx) : (mapCtx s f).work = s.work := by
  obtain ⟨_, _, h⟩ := mapCtx_frame s f; rw [h]
@[simp] theorem mapCtx_census (s : State) (f : Ctx → Ctx) : (mapCtx s f).census = s.census := by
  obtain ⟨_, _, h⟩ := mapCtx_frame s f; rw [h]
@[simp] theorem mapCtx_link (s : State) (f : Ctx → Ctx) : (mapCtx s f).link = s.link := by
  obtain ⟨_, _, h⟩ := mapCtx_frame s f; rw [h]
@[simp] theorem mapCtx_agenda (s : State) (f : Ctx → Ctx) : (mapCtx s f).agenda = s.agenda := by
  obtain ⟨_, _, h⟩ := mapCtx_frame s f; rw [h]
@[simp] theorem mapCtx_cur (s : State) (f : Ctx → Ctx) : (mapCtx s f).cur = s.cur := by
  obtain ⟨_, _, h⟩ := mapCtx_frame s f; rw [h]
@[simp] theorem mapCtx_far (s : State) (f : Ctx → Ctx) : (mapCtx s f).far = s.far := by
  obtain ⟨_, _, h⟩ := mapCtx_frame s f; rw [h]
@[simp] theorem mapCtx_issues (s : State) (f : Ctx → Ctx) : (mapCtx s f).issues = s.issues := by
  obtain ⟨_, _, h⟩ := mapCtx_frame s f; rw [h]
@[simp] theorem mapCtx_turnNo (s : State) (f : Ctx → Ctx) : (mapCtx s f).turnNo = s.turnNo := by
  obtain ⟨_, _, h⟩ := mapCtx_frame s f; rw [h]
@[simp] theorem mapCtx_fresh (s : State) (f : Ctx → Ctx) : (mapCtx s f).fresh = s.fresh := by
  obtain ⟨_, _, h⟩ := mapCtx_frame s f; rw [h]

/-- The registers after a change of them. -/
theorem curCtx_mapCtx (s : State) (f : Ctx → Ctx) (h : Acting s) : curCtx (mapCtx s f) = f (curCtx s) := by
  unfold Acting at h
  split at h
  · next c i hc =>
    obtain ⟨t, ht⟩ := Option.isSome_iff_exists.mp h
    simp [mapCtx_strand s f c i t hc ht, curCtx, hc, ht]
  · next k cp hc => simp [mapCtx_stream s f k cp hc, curCtx, hc]
  · exact h.elim

/-- Two changes of registers are one. -/
theorem mapCtx_mapCtx (s : State) (f f' : Ctx → Ctx) (h : Acting s) : mapCtx (mapCtx s f) f' = mapCtx s fun c => f' (f c) := by
  unfold Acting at h
  split at h
  · next c i hc =>
    obtain ⟨t, ht⟩ := Option.isSome_iff_exists.mp h
    rw [mapCtx_strand s f c i t hc ht, mapCtx_strand _ f' c i _ (by simpa using hc) (strandAt_putStrand ..),
      mapCtx_strand s _ c i t hc ht]
    simp
  · next k cp hc =>
    have hne : ∀ x, (pairAt s k).setStream cp x ≠ {} := fun x e => by
      have := congrArg Pair.st e
      simp at this
      exact h this
    rw [mapCtx_stream s f k cp hc, mapCtx_stream _ f' k cp (by simpa using hc), mapCtx_stream s _ k cp hc]
    simp only [pairAt_putPair, Pair.stream_setStream, Pair.setStream_setStream]
    rw [putPair_putPair _ _ _ _ (hne _) (hne _)]
  · exact h.elim

/-- A change of registers changes nothing but registers. -/
theorem onlyRegisters_mapCtx (s : State) (f : Ctx → Ctx) : OnlyRegisters s (mapCtx s f) := by
  refine ⟨f (curCtx s), ?_⟩
  unfold mapCtx mapStrand curCtx
  split
  · next c i hc => cases ht : strandAt s c i <;> simp [ht]
  · rfl
  · rfl

/-- A vector of registers after one is set. -/
theorem get_set (v : Vector Word 16) (d r : Fin 16) (x : Word) : (v.set d.val x).get r = if r = d then x else v.get r := by
  simp only [Vector.get_eq_getElem, Vector.getElem_set, Fin.ext_iff, eq_comm]

theorem rG_wG (s : State) (d r : GReg) (v : Word) (h : Acting s) : rG (wG s d v) r = if r = d then v else rG s r := by
  simp only [rG, wG, curCtx_mapCtx _ _ h, get_set]

/-! ### What writing a register, going on and going out of rotation leave alone -/

@[simp] theorem wG_time (s : State) (r : GReg) (v : Word) : (wG s r v).time = s.time := mapCtx_time ..
@[simp] theorem wG_hub (s : State) (r : GReg) (v : Word) : (wG s r v).hub = s.hub := mapCtx_hub ..
@[simp] theorem wG_sregs (s : State) (r : GReg) (v : Word) : (wG s r v).sregs = s.sregs := mapCtx_sregs ..
@[simp] theorem wG_mem (s : State) (r : GReg) (v : Word) : (wG s r v).mem = s.mem := mapCtx_mem ..
@[simp] theorem wG_coh (s : State) (r : GReg) (v : Word) : (wG s r v).coh = s.coh := mapCtx_coh ..
@[simp] theorem wG_stat (s : State) (r : GReg) (v : Word) : (wG s r v).stat = s.stat := mapCtx_stat ..
@[simp] theorem wG_hold (s : State) (r : GReg) (v : Word) : (wG s r v).hold = s.hold := mapCtx_hold ..
@[simp] theorem wG_page (s : State) (r : GReg) (v : Word) : (wG s r v).page = s.page := mapCtx_page ..
@[simp] theorem wG_work (s : State) (r : GReg) (v : Word) : (wG s r v).work = s.work := mapCtx_work ..
@[simp] theorem wG_census (s : State) (r : GReg) (v : Word) : (wG s r v).census = s.census := mapCtx_census ..
@[simp] theorem wG_link (s : State) (r : GReg) (v : Word) : (wG s r v).link = s.link := mapCtx_link ..
@[simp] theorem wG_agenda (s : State) (r : GReg) (v : Word) : (wG s r v).agenda = s.agenda := mapCtx_agenda ..
@[simp] theorem wG_cur (s : State) (r : GReg) (v : Word) : (wG s r v).cur = s.cur := mapCtx_cur ..
@[simp] theorem wG_far (s : State) (r : GReg) (v : Word) : (wG s r v).far = s.far := mapCtx_far ..
@[simp] theorem wG_issues (s : State) (r : GReg) (v : Word) : (wG s r v).issues = s.issues := mapCtx_issues ..
@[simp] theorem wG_turnNo (s : State) (r : GReg) (v : Word) : (wG s r v).turnNo = s.turnNo := mapCtx_turnNo ..
@[simp] theorem wG_fresh (s : State) (r : GReg) (v : Word) : (wG s r v).fresh = s.fresh := mapCtx_fresh ..
@[simp] theorem wP_time (s : State) (p : PReg) (v : Bool) : (wP s p v).time = s.time := mapCtx_time ..
@[simp] theorem wP_hub (s : State) (p : PReg) (v : Bool) : (wP s p v).hub = s.hub := mapCtx_hub ..
@[simp] theorem wP_sregs (s : State) (p : PReg) (v : Bool) : (wP s p v).sregs = s.sregs := mapCtx_sregs ..
@[simp] theorem wP_mem (s : State) (p : PReg) (v : Bool) : (wP s p v).mem = s.mem := mapCtx_mem ..
@[simp] theorem wP_coh (s : State) (p : PReg) (v : Bool) : (wP s p v).coh = s.coh := mapCtx_coh ..
@[simp] theorem wP_stat (s : State) (p : PReg) (v : Bool) : (wP s p v).stat = s.stat := mapCtx_stat ..
@[simp] theorem wP_hold (s : State) (p : PReg) (v : Bool) : (wP s p v).hold = s.hold := mapCtx_hold ..
@[simp] theorem wP_page (s : State) (p : PReg) (v : Bool) : (wP s p v).page = s.page := mapCtx_page ..
@[simp] theorem wP_work (s : State) (p : PReg) (v : Bool) : (wP s p v).work = s.work := mapCtx_work ..
@[simp] theorem wP_census (s : State) (p : PReg) (v : Bool) : (wP s p v).census = s.census := mapCtx_census ..
@[simp] theorem wP_link (s : State) (p : PReg) (v : Bool) : (wP s p v).link = s.link := mapCtx_link ..
@[simp] theorem wP_agenda (s : State) (p : PReg) (v : Bool) : (wP s p v).agenda = s.agenda := mapCtx_agenda ..
@[simp] theorem wP_cur (s : State) (p : PReg) (v : Bool) : (wP s p v).cur = s.cur := mapCtx_cur ..
@[simp] theorem wP_far (s : State) (p : PReg) (v : Bool) : (wP s p v).far = s.far := mapCtx_far ..
@[simp] theorem wP_issues (s : State) (p : PReg) (v : Bool) : (wP s p v).issues = s.issues := mapCtx_issues ..
@[simp] theorem wP_turnNo (s : State) (p : PReg) (v : Bool) : (wP s p v).turnNo = s.turnNo := mapCtx_turnNo ..
@[simp] theorem wP_fresh (s : State) (p : PReg) (v : Bool) : (wP s p v).fresh = s.fresh := mapCtx_fresh ..
@[simp] theorem advance_time (s : State) : (advance s).time = s.time := mapCtx_time ..
@[simp] theorem advance_hub (s : State) : (advance s).hub = s.hub := mapCtx_hub ..
@[simp] theorem advance_sregs (s : State) : (advance s).sregs = s.sregs := mapCtx_sregs ..
@[simp] theorem advance_mem (s : State) : (advance s).mem = s.mem := mapCtx_mem ..
@[simp] theorem advance_coh (s : State) : (advance s).coh = s.coh := mapCtx_coh ..
@[simp] theorem advance_stat (s : State) : (advance s).stat = s.stat := mapCtx_stat ..
@[simp] theorem advance_hold (s : State) : (advance s).hold = s.hold := mapCtx_hold ..
@[simp] theorem advance_page (s : State) : (advance s).page = s.page := mapCtx_page ..
@[simp] theorem advance_work (s : State) : (advance s).work = s.work := mapCtx_work ..
@[simp] theorem advance_census (s : State) : (advance s).census = s.census := mapCtx_census ..
@[simp] theorem advance_link (s : State) : (advance s).link = s.link := mapCtx_link ..
@[simp] theorem advance_agenda (s : State) : (advance s).agenda = s.agenda := mapCtx_agenda ..
@[simp] theorem advance_cur (s : State) : (advance s).cur = s.cur := mapCtx_cur ..
@[simp] theorem advance_far (s : State) : (advance s).far = s.far := mapCtx_far ..
@[simp] theorem advance_issues (s : State) : (advance s).issues = s.issues := mapCtx_issues ..
@[simp] theorem advance_turnNo (s : State) : (advance s).turnNo = s.turnNo := mapCtx_turnNo ..
@[simp] theorem advance_fresh (s : State) : (advance s).fresh = s.fresh := mapCtx_fresh ..
@[simp] theorem jump_time (s : State) (pc : BitVec 32) : (jump s pc).time = s.time := mapCtx_time ..
@[simp] theorem jump_hub (s : State) (pc : BitVec 32) : (jump s pc).hub = s.hub := mapCtx_hub ..
@[simp] theorem jump_sregs (s : State) (pc : BitVec 32) : (jump s pc).sregs = s.sregs := mapCtx_sregs ..
@[simp] theorem jump_mem (s : State) (pc : BitVec 32) : (jump s pc).mem = s.mem := mapCtx_mem ..
@[simp] theorem jump_coh (s : State) (pc : BitVec 32) : (jump s pc).coh = s.coh := mapCtx_coh ..
@[simp] theorem jump_stat (s : State) (pc : BitVec 32) : (jump s pc).stat = s.stat := mapCtx_stat ..
@[simp] theorem jump_hold (s : State) (pc : BitVec 32) : (jump s pc).hold = s.hold := mapCtx_hold ..
@[simp] theorem jump_page (s : State) (pc : BitVec 32) : (jump s pc).page = s.page := mapCtx_page ..
@[simp] theorem jump_work (s : State) (pc : BitVec 32) : (jump s pc).work = s.work := mapCtx_work ..
@[simp] theorem jump_census (s : State) (pc : BitVec 32) : (jump s pc).census = s.census := mapCtx_census ..
@[simp] theorem jump_link (s : State) (pc : BitVec 32) : (jump s pc).link = s.link := mapCtx_link ..
@[simp] theorem jump_agenda (s : State) (pc : BitVec 32) : (jump s pc).agenda = s.agenda := mapCtx_agenda ..
@[simp] theorem jump_cur (s : State) (pc : BitVec 32) : (jump s pc).cur = s.cur := mapCtx_cur ..
@[simp] theorem jump_far (s : State) (pc : BitVec 32) : (jump s pc).far = s.far := mapCtx_far ..
@[simp] theorem jump_issues (s : State) (pc : BitVec 32) : (jump s pc).issues = s.issues := mapCtx_issues ..
@[simp] theorem jump_turnNo (s : State) (pc : BitVec 32) : (jump s pc).turnNo = s.turnNo := mapCtx_turnNo ..
@[simp] theorem jump_fresh (s : State) (pc : BitVec 32) : (jump s pc).fresh = s.fresh := mapCtx_fresh ..

/-- Changing a slot's strand touches the slots only. -/
theorem mapStrand_frame (s : State) (c i : Nat) (f : Strand → Strand) : ∃ m, mapStrand s c i f = { s with core.slots := m } := by
  unfold mapStrand
  split
  · exact ⟨_, rfl⟩
  · exact ⟨_, rfl⟩

@[simp] theorem mapStrand_time (s : State) (c i : Nat) (f : Strand → Strand) : (mapStrand s c i f).time = s.time := by
  obtain ⟨_, h⟩ := mapStrand_frame s c i f; rw [h]
@[simp] theorem mapStrand_hub (s : State) (c i : Nat) (f : Strand → Strand) : (mapStrand s c i f).hub = s.hub := by
  obtain ⟨_, h⟩ := mapStrand_frame s c i f; rw [h]
@[simp] theorem mapStrand_sregs (s : State) (c i : Nat) (f : Strand → Strand) : (mapStrand s c i f).sregs = s.sregs := by
  obtain ⟨_, h⟩ := mapStrand_frame s c i f; rw [h]
@[simp] theorem mapStrand_mem (s : State) (c i : Nat) (f : Strand → Strand) : (mapStrand s c i f).mem = s.mem := by
  obtain ⟨_, h⟩ := mapStrand_frame s c i f; rw [h]
@[simp] theorem mapStrand_coh (s : State) (c i : Nat) (f : Strand → Strand) : (mapStrand s c i f).coh = s.coh := by
  obtain ⟨_, h⟩ := mapStrand_frame s c i f; rw [h]
@[simp] theorem mapStrand_stat (s : State) (c i : Nat) (f : Strand → Strand) : (mapStrand s c i f).stat = s.stat := by
  obtain ⟨_, h⟩ := mapStrand_frame s c i f; rw [h]
@[simp] theorem mapStrand_hold (s : State) (c i : Nat) (f : Strand → Strand) : (mapStrand s c i f).hold = s.hold := by
  obtain ⟨_, h⟩ := mapStrand_frame s c i f; rw [h]
@[simp] theorem mapStrand_page (s : State) (c i : Nat) (f : Strand → Strand) : (mapStrand s c i f).page = s.page := by
  obtain ⟨_, h⟩ := mapStrand_frame s c i f; rw [h]
@[simp] theorem mapStrand_work (s : State) (c i : Nat) (f : Strand → Strand) : (mapStrand s c i f).work = s.work := by
  obtain ⟨_, h⟩ := mapStrand_frame s c i f; rw [h]
@[simp] theorem mapStrand_census (s : State) (c i : Nat) (f : Strand → Strand) : (mapStrand s c i f).census = s.census := by
  obtain ⟨_, h⟩ := mapStrand_frame s c i f; rw [h]
@[simp] theorem mapStrand_link (s : State) (c i : Nat) (f : Strand → Strand) : (mapStrand s c i f).link = s.link := by
  obtain ⟨_, h⟩ := mapStrand_frame s c i f; rw [h]
@[simp] theorem mapStrand_agenda (s : State) (c i : Nat) (f : Strand → Strand) : (mapStrand s c i f).agenda = s.agenda := by
  obtain ⟨_, h⟩ := mapStrand_frame s c i f; rw [h]
@[simp] theorem mapStrand_cur (s : State) (c i : Nat) (f : Strand → Strand) : (mapStrand s c i f).cur = s.cur := by
  obtain ⟨_, h⟩ := mapStrand_frame s c i f; rw [h]
@[simp] theorem mapStrand_far (s : State) (c i : Nat) (f : Strand → Strand) : (mapStrand s c i f).far = s.far := by
  obtain ⟨_, h⟩ := mapStrand_frame s c i f; rw [h]
@[simp] theorem mapStrand_issues (s : State) (c i : Nat) (f : Strand → Strand) : (mapStrand s c i f).issues = s.issues := by
  obtain ⟨_, h⟩ := mapStrand_frame s c i f; rw [h]
@[simp] theorem mapStrand_turnNo (s : State) (c i : Nat) (f : Strand → Strand) : (mapStrand s c i f).turnNo = s.turnNo := by
  obtain ⟨_, h⟩ := mapStrand_frame s c i f; rw [h]
@[simp] theorem mapStrand_fresh (s : State) (c i : Nat) (f : Strand → Strand) : (mapStrand s c i f).fresh = s.fresh := by
  obtain ⟨_, h⟩ := mapStrand_frame s c i f; rw [h]
@[simp] theorem mapStrand_eng (s : State) (c i : Nat) (f : Strand → Strand) : (mapStrand s c i f).eng = s.eng := by
  obtain ⟨_, h⟩ := mapStrand_frame s c i f; rw [h]

/-- Going out of rotation touches the slots and the pairs only. -/
theorem suspend_frame (s : State) (st : Nat) (w : Wait) : ∃ m n, suspend s st w = { s with core.slots := m, eng.pairs := n } := by
  unfold suspend mapStrand
  split
  · split
    · exact ⟨_, _, rfl⟩
    · exact ⟨_, _, rfl⟩
  · exact ⟨_, _, rfl⟩
  · exact ⟨_, _, rfl⟩

@[simp] theorem suspend_time (s : State) (st : Nat) (w : Wait) : (suspend s st w).time = s.time := by
  obtain ⟨_, _, h⟩ := suspend_frame s st w; rw [h]
@[simp] theorem suspend_hub (s : State) (st : Nat) (w : Wait) : (suspend s st w).hub = s.hub := by
  obtain ⟨_, _, h⟩ := suspend_frame s st w; rw [h]
@[simp] theorem suspend_sregs (s : State) (st : Nat) (w : Wait) : (suspend s st w).sregs = s.sregs := by
  obtain ⟨_, _, h⟩ := suspend_frame s st w; rw [h]
@[simp] theorem suspend_mem (s : State) (st : Nat) (w : Wait) : (suspend s st w).mem = s.mem := by
  obtain ⟨_, _, h⟩ := suspend_frame s st w; rw [h]
@[simp] theorem suspend_coh (s : State) (st : Nat) (w : Wait) : (suspend s st w).coh = s.coh := by
  obtain ⟨_, _, h⟩ := suspend_frame s st w; rw [h]
@[simp] theorem suspend_stat (s : State) (st : Nat) (w : Wait) : (suspend s st w).stat = s.stat := by
  obtain ⟨_, _, h⟩ := suspend_frame s st w; rw [h]
@[simp] theorem suspend_hold (s : State) (st : Nat) (w : Wait) : (suspend s st w).hold = s.hold := by
  obtain ⟨_, _, h⟩ := suspend_frame s st w; rw [h]
@[simp] theorem suspend_page (s : State) (st : Nat) (w : Wait) : (suspend s st w).page = s.page := by
  obtain ⟨_, _, h⟩ := suspend_frame s st w; rw [h]
@[simp] theorem suspend_work (s : State) (st : Nat) (w : Wait) : (suspend s st w).work = s.work := by
  obtain ⟨_, _, h⟩ := suspend_frame s st w; rw [h]
@[simp] theorem suspend_census (s : State) (st : Nat) (w : Wait) : (suspend s st w).census = s.census := by
  obtain ⟨_, _, h⟩ := suspend_frame s st w; rw [h]
@[simp] theorem suspend_link (s : State) (st : Nat) (w : Wait) : (suspend s st w).link = s.link := by
  obtain ⟨_, _, h⟩ := suspend_frame s st w; rw [h]
@[simp] theorem suspend_agenda (s : State) (st : Nat) (w : Wait) : (suspend s st w).agenda = s.agenda := by
  obtain ⟨_, _, h⟩ := suspend_frame s st w; rw [h]
@[simp] theorem suspend_cur (s : State) (st : Nat) (w : Wait) : (suspend s st w).cur = s.cur := by
  obtain ⟨_, _, h⟩ := suspend_frame s st w; rw [h]
@[simp] theorem suspend_far (s : State) (st : Nat) (w : Wait) : (suspend s st w).far = s.far := by
  obtain ⟨_, _, h⟩ := suspend_frame s st w; rw [h]
@[simp] theorem suspend_issues (s : State) (st : Nat) (w : Wait) : (suspend s st w).issues = s.issues := by
  obtain ⟨_, _, h⟩ := suspend_frame s st w; rw [h]
@[simp] theorem suspend_turnNo (s : State) (st : Nat) (w : Wait) : (suspend s st w).turnNo = s.turnNo := by
  obtain ⟨_, _, h⟩ := suspend_frame s st w; rw [h]
@[simp] theorem suspend_fresh (s : State) (st : Nat) (w : Wait) : (suspend s st w).fresh = s.fresh := by
  obtain ⟨_, _, h⟩ := suspend_frame s st w; rw [h]

/-- A strand that goes out of rotation. -/
theorem suspend_strand {s : State} {c i : Nat} {t : Strand} (hc : s.cur = .strand c i) (ht : strandAt s c i = some t) (st : Nat) (w : Wait) :
    suspend s st w = putStrand s c i { t with st := st, wait := w } := by
  simp [suspend, hc, mapStrand, ht]

/-- A strand that issues is an agent that issues. -/
theorem StrandIssues.issues {g : Guard} {s : State} {c i : Nat} {t : Strand} (h : StrandIssues g s c i t) : Issues .strand g s :=
  ⟨by simp [h.cur, placeOk], h.guard, by simp [Acting, h.cur, h.bound], h.clean⟩

/-! ### Performing an instruction (R69, R70, R247) -/

/-- Where the agent is admitted, no static check fails and the guard holds, the instruction has its own effect. -/
theorem perform_issues {pl : Place} {g : Guard} {s : State} (body : State → State) (h : Issues pl g s) :
    perform pl g none body s = body s := by
  simp [perform, h.place, h.guard]

/-- Where the guard does not hold, the instruction is passed over (R69). -/
theorem perform_skipped {pl : Place} {g : Guard} {s : State} (body : State → State) (hp : placeOk pl s.cur = true)
    (hg : guardHolds s g = false) : perform pl g none body s = advance s := by
  simp [perform, hp, hg]

/-- An effect whose accesses have met no failed word stands; so does any where none has failed (R106). -/
theorem orSoft_of_hit {s t : State} (h : t.coh.hit = none) : orSoft s t = t := by
  simp [orSoft, h]
theorem orSoft_sound {s : State} (h : s.coh.failed = []) (t : State) : orSoft s t = t := by
  simp [orSoft, h]
/-- Where no word has failed, no access is remembered and no check after it fails (R106). -/
theorem softWord_sound {s : State} (h : s.coh.failed = []) (a n : Nat) : softWord s a n = none := by
  simp [softWord, h]
theorem noteSoft_sound {s : State} (h : s.coh.failed = []) (a n : Nat) : noteSoft s a n = s := by
  simp [noteSoft, h]
theorem softCheck_sound {t : State} (h : t.coh.failed = []) : softCheck t = .ok () := by
  simp [softCheck, h]

/-- An instruction whose checks pass answers the next state of its effect, when that has met no failed word. -/
theorem run_ok {pl : Place} {g : Guard} {s t : State} {body : State → Except Exc State} (h : Issues pl g s)
    (hb : body s = .ok t) (hs : t.coh.hit = none ∨ s.coh.failed = []) : run pl g none body s = .next (confine s t) := by
  have : orSoft s t = t := hs.elim orSoft_of_hit fun h => orSoft_sound h t
  simp [run, perform_issues _ h, hb, orTrap, this]

/-- One whose checks fail answers the state in which its trap has been taken. -/
theorem run_trap {pl : Place} {g : Guard} {s : State} {e : Exc} {body : State → Except Exc State} (h : Issues pl g s)
    (hb : body s = .error e) : run pl g none body s = .next (confine s (raise e s)) := by
  simp [run, perform_issues _ h, hb, orTrap]

/-- What leaves device time, the hub's registers and the special registers alone, and remembers no access, is confined already. -/
theorem confine_eq {s t : State} (ht : t.time = s.time) (hh : t.hub = s.hub) (hr : t.sregs = s.sregs) (hc : t.coh.hit = s.coh.hit) :
    confine s t = t := by
  simp [confine, ← ht, ← hh, ← hr, ← hc]

@[simp] theorem confine_mapCtx (s : State) (f : Ctx → Ctx) : confine s (mapCtx s f) = mapCtx s f :=
  confine_eq (by simp) (by simp) (by simp) (by simp)
@[simp] theorem confine_putStrand (s : State) (c i : Nat) (t : Strand) : confine s (putStrand s c i t) = putStrand s c i t := rfl
@[simp] theorem confine_putPair (s : State) (k : Nat) (p : Pair) : confine s (putPair s k p) = putPair s k p := rfl
@[simp] theorem confine_self (s : State) : confine s s = s := rfl
@[simp] theorem confine_time (s t : State) : (confine s t).time = s.time := rfl
@[simp] theorem confine_hub (s t : State) : (confine s t).hub = s.hub := rfl
@[simp] theorem confine_sregs (s t : State) : (confine s t).sregs = s.sregs := rfl
@[simp] theorem confine_hit (s t : State) : (confine s t).coh.hit = s.coh.hit := rfl

/-- An instruction that writes one register and goes on. -/
theorem writes_of_ok {i : Instr} {s : State} {d : GReg} {v : Word} (h : Acting s)
    (he : exec i s = .next (advance (wG s d v))) : Writes i s d v := by
  have hm : advance (wG s d v) = mapCtx s fun c => { c with g := c.g.set d v, pc := nextPc c.pc } := by
    simp only [advance, wG, mapCtx_mapCtx _ _ _ h]
  refine ⟨_, he, ?_, ?_, ⟨?_, ?_, ?_, ?_⟩, ?_⟩ <;> rw [hm]
  · simp [rG, curCtx_mapCtx _ _ h, get_set]
  · simp [curCtx_mapCtx _ _ h]
  · intro r hr
    simp only [List.mem_singleton] at hr
    simp [rG, curCtx_mapCtx _ _ h, get_set, hr]
  · intro p _; simp [rP, curCtx_mapCtx _ _ h]
  · simp [rPts, curCtx_mapCtx _ _ h]
  · intro a; simp
  · exact onlyRegisters_mapCtx _ _

/-- The same, from the form in which the meanings of one issue are written. -/
theorem writes_of_run {pl : Place} {i : Instr} {g : Guard} {s : State} {d : GReg} {v : Word} {body : State → Except Exc State}
    (h : Issues pl g s) (he : exec i s = run pl g none body s) (hb : body s = .ok (advance (wG s d v))) : Writes i s d v := by
  refine writes_of_ok h.acting ?_
  rw [he, run_ok h hb (.inl (by simpa using h.clean))]
  congr 1
  exact confine_eq (by simp) (by simp) (by simp) (by simp)

/-- An instruction whose checks fail traps. -/
theorem traps_of_run {pl : Place} {i : Instr} {g : Guard} {s : State} {e : Exc} {body : State → Except Exc State}
    (h : Issues pl g s) (he : exec i s = run pl g none body s) (hb : body s = .error e) : Traps i s e := by
  rw [Traps, he, run_trap h hb]

/-- What an instruction that is no SRW never touches. -/
theorem run_frame {pl : Place} {g : Guard} {st : Option Exc} {s t : State} {body : State → Except Exc State}
    (h : run pl g st body s = .next t) : t.time = s.time ∧ t.hub = s.hub ∧ t.sregs = s.sregs ∧ t.coh.hit = s.coh.hit := by
  unfold run at h
  cases h
  simp

end Sys2Proof.Machine
end

