-- ==== Sys2Proof/Certificates/Slice0/Obligations.lean ====
section
/-! DEFINITION. The statements for the provers. Each says, in terms of the state before and after, what rules of the spec say that an
instruction or an event does. -/

open Sys2Proof Sys2Proof.Machine


/-! ### Integer, address and predicate instructions -/

/-- R129: the single-issue arithmetic and logical instructions write gd as the table has it, and change nothing else but the PC. The
products, the comparisons and the counts of bits are said of the integers that the words stand for.
R130 and R127: the division group writes the quotient truncated toward zero, or the remainder, with the two overflow cases as the
rule gives them; a strand is out of rotation for 4 rotations with its result in place. A zero divisor traps DIVIDE_ZERO. -/
def Obligations.IntegerArithmeticWritesItsTables : Prop :=
  (∀ (s : State) (g : Guard) (d a : GReg) (x y : Src), Issues .any g s →
     Writes (.add g d x y) s d (srcS s x + srcS s y)
     ∧ Writes (.sub g d x y) s d (srcS s x - srcS s y)
     ∧ Writes (.mul g d x y) s d (BitVec.ofInt 64 ((srcS s x).toInt * (srcS s y).toInt))
     ∧ Writes (.mulh g d x y) s d (BitVec.ofInt 64 ((srcS s x).toInt * (srcS s y).toInt / 2 ^ 64))
     ∧ Writes (.mulhu g d x y) s d (BitVec.ofNat 64 ((srcZ s x).toNat * (srcZ s y).toNat / 2 ^ 64))
     ∧ Writes (.and g d x y) s d (srcZ s x &&& srcZ s y)
     ∧ Writes (.or g d x y) s d (srcZ s x ||| srcZ s y)
     ∧ Writes (.xor g d x y) s d (srcZ s x ^^^ srcZ s y)
     ∧ Writes (.andn g d x y) s d (srcZ s x &&& ~~~(srcZ s y))
     ∧ Writes (.shl g d x y) s d (BitVec.ofNat 64 ((srcZ s x).toNat * 2 ^ ((srcZ s y).toNat % 64)))
     ∧ Writes (.shr g d x y) s d (BitVec.ofNat 64 ((srcZ s x).toNat / 2 ^ ((srcZ s y).toNat % 64)))
     ∧ Writes (.sar g d x y) s d (BitVec.ofInt 64 ((srcZ s x).toInt / 2 ^ ((srcZ s y).toNat % 64)))
     ∧ Writes (.rotl g d x y) s d
         (let n := (srcZ s y).toNat % 64
          if n = 0 then srcZ s x else srcZ s x <<< n ||| srcZ s x >>> (64 - n))
     ∧ Writes (.min g d x y) s d (if (srcS s x).toInt ≤ (srcS s y).toInt then srcS s x else srcS s y)
     ∧ Writes (.max g d x y) s d (if (srcS s x).toInt ≤ (srcS s y).toInt then srcS s y else srcS s x)
     ∧ Writes (.minu g d x y) s d (if (srcZ s x).toNat ≤ (srcZ s y).toNat then srcZ s x else srcZ s y)
     ∧ Writes (.maxu g d x y) s d (if (srcZ s x).toNat ≤ (srcZ s y).toNat then srcZ s y else srcZ s x)
     ∧ (∃ n, n ≤ 64 ∧ Writes (.clz g d a) s d (BitVec.ofNat 64 n)
         ∧ (∀ j, 64 - n ≤ j → (rG s a).getLsbD j = false) ∧ (n < 64 → (rG s a).getLsbD (63 - n) = true))
     ∧ (∃ n, n ≤ 64 ∧ Writes (.ctz g d a) s d (BitVec.ofNat 64 n)
         ∧ (∀ j, j < n → (rG s a).getLsbD j = false) ∧ (n < 64 → (rG s a).getLsbD n = true))
     ∧ Writes (.popc g d a) s d (BitVec.ofNat 64 ((List.range 64).countP fun j => (rG s a).getLsbD j)))
  ∧ (∀ (s : State) (g : Guard) (d : GReg) (x y : Src), Issues .any g s →
       (srcS s y ≠ 0 →
         WritesAfter 4 (.div g d x y) s d
           (if srcS s x = BitVec.intMin 64 ∧ srcS s y = BitVec.allOnes 64 then srcS s x
            else BitVec.ofInt 64 ((srcS s x).toInt.tdiv (srcS s y).toInt))
         ∧ WritesAfter 4 (.rem g d x y) s d
           (if srcS s x = BitVec.intMin 64 ∧ srcS s y = BitVec.allOnes 64 then 0
            else BitVec.ofInt 64 ((srcS s x).toInt - (srcS s y).toInt * (srcS s x).toInt.tdiv (srcS s y).toInt)))
       ∧ (srcZ s y ≠ 0 →
         WritesAfter 4 (.divu g d x y) s d (BitVec.ofNat 64 ((srcZ s x).toNat / (srcZ s y).toNat))
         ∧ WritesAfter 4 (.remu g d x y) s d (BitVec.ofNat 64 ((srcZ s x).toNat - (srcZ s y).toNat * ((srcZ s x).toNat / (srcZ s y).toNat))))
       ∧ (srcS s y = 0 → Traps (.div g d x y) s { cause := .divideZero } ∧ Traps (.rem g d x y) s { cause := .divideZero })
       ∧ (srcZ s y = 0 → Traps (.divu g d x y) s { cause := .divideZero } ∧ Traps (.remu g d x y) s { cause := .divideZero }))

/-- R131 and R132: BFX, BFXS and BFI take the field that their spec names, bit by bit; SEXT and ZEXT extend the low n bits. A spec or a
width that its rule does not admit traps BAD_OPERAND with INFO0 the value of B.
R133 to R136: constants, addresses, moves and selections. -/
def Obligations.FieldsConstantsAddressesAndMoves : Prop :=
  (∀ (s : State) (g : Guard) (d a : GReg) (x y : Src), Issues .any g s →
     (∀ pos w : Nat, srcZ s y = BitVec.ofNat 64 (pos + 256 * w) → pos < 64 → 1 ≤ w → pos + w ≤ 64 →
       Writes (.bfx g d a y) s d (BitVec.ofNat 64 ((rG s a).toNat / 2 ^ pos % 2 ^ w))
       ∧ Writes (.bfxs g d a y) s d (((rG s a).extractLsb' pos w).signExtend 64)
       ∧ (∃ v, Writes (.bfi g d x y) s d v
           ∧ ∀ j, j < 64 → v.getLsbD j = if pos ≤ j ∧ j < pos + w then (srcZ s x).getLsbD (j - pos) else (rG s d).getLsbD j))
     ∧ (∀ n : Nat, srcZ s y = BitVec.ofNat 64 n → 1 ≤ n → n ≤ 64 →
       Writes (.sext g d a y) s d (((rG s a).extractLsb' 0 n).signExtend 64)
       ∧ Writes (.zext g d a y) s d (BitVec.ofNat 64 ((rG s a).toNat % 2 ^ n)))
     ∧ ((∀ pos w : Nat, srcZ s y = BitVec.ofNat 64 (pos + 256 * w) → ¬ (pos < 64 ∧ 1 ≤ w ∧ pos + w ≤ 64)) →
       Traps (.bfx g d a y) s (bad (srcZ s y)) ∧ Traps (.bfxs g d a y) s (bad (srcZ s y)) ∧ Traps (.bfi g d x y) s (bad (srcZ s y)))
     ∧ ((srcZ s y).toNat = 0 ∨ 64 < (srcZ s y).toNat →
       Traps (.sext g d a y) s (bad (srcZ s y)) ∧ Traps (.zext g d a y) s (bad (srcZ s y))))
  ∧ (∀ (s : State) (g : Guard) (d : GReg) (x y : Src) (v : BitVec 56) (h : BitVec 8) (m : MemOp) (p : PReg) (neg : Bool), Issues .any g s →
       Writes (.limm g d v) s d (v.signExtend 64)
       ∧ Writes (.limmZ g d v) s d (v.zeroExtend 64)
       ∧ Writes (.limmH g d h) s d (BitVec.ofNat 64 (h.toNat * 2 ^ 56 + (rG s d).toNat % 2 ^ 56))
       ∧ Writes (.lea g d m) s d
           (rG s m.base + (m.index.elim 0 fun r => BitVec.ofNat 64 ((rG s r).toNat * 2 ^ m.shift.val)) + m.disp.signExtend 64)
       ∧ Writes (.mov g d x) s d (srcS s x)
       ∧ Writes (.movPr g d) s d (BitVec.ofNat 64 (1 + ((List.finRange 8).map fun q => if q.val ≠ 0 ∧ rP s q then 2 ^ q.val else 0).sum))
       ∧ (∃ t, exec (.movRp g x) s = .next t ∧ (∀ q : PReg, q.val ≠ 0 → rP t q = (srcZ s x).getLsbD q.val)
           ∧ (curCtx t).pc = nextPc (curCtx s).pc ∧ Keeps [] [1, 2, 3, 4, 5, 6, 7] s t ∧ OnlyRegisters s t)
       ∧ Writes (.sel g d neg p x y) s d (if (rP s p ^^ neg) then srcS s x else srcS s y))

/-- R137 and R138: SETP writes the comparison that its condition names, of sign-extended values for the signed conditions and of
zero-extended ones for the others; PAND, POR, PXOR and PNOT write theirs. Nothing but the predicate and the PC changes. -/
def Obligations.PredicatesAreWrittenAsCompared : Prop :=
  ∀ (s : State) (g : Guard) (d p q : PReg) (x y : Src), Issues .any g s → d ≠ 0 →
    WritesPred (.setp g .eq d x y) s d (decide (srcS s x = srcS s y))
    ∧ WritesPred (.setp g .ne d x y) s d (decide (srcS s x ≠ srcS s y))
    ∧ WritesPred (.setp g .lt d x y) s d (decide ((srcS s x).toInt < (srcS s y).toInt))
    ∧ WritesPred (.setp g .le d x y) s d (decide ((srcS s x).toInt ≤ (srcS s y).toInt))
    ∧ WritesPred (.setp g .gt d x y) s d (decide ((srcS s x).toInt > (srcS s y).toInt))
    ∧ WritesPred (.setp g .ge d x y) s d (decide ((srcS s x).toInt ≥ (srcS s y).toInt))
    ∧ WritesPred (.setp g .ltu d x y) s d (decide ((srcZ s x).toNat < (srcZ s y).toNat))
    ∧ WritesPred (.setp g .leu d x y) s d (decide ((srcZ s x).toNat ≤ (srcZ s y).toNat))
    ∧ WritesPred (.setp g .gtu d x y) s d (decide ((srcZ s x).toNat > (srcZ s y).toNat))
    ∧ WritesPred (.setp g .geu d x y) s d (decide ((srcZ s x).toNat ≥ (srcZ s y).toNat))
    ∧ WritesPred (.setp g .tst d x y) s d (decide (srcZ s x &&& srcZ s y ≠ 0))
    ∧ WritesPred (.pand g d p q) s d (rP s p && rP s q)
    ∧ WritesPred (.por g d p q) s d (rP s p || rP s q)
    ∧ WritesPred (.pxor g d p q) s d (rP s p ^^ rP s q)
    ∧ WritesPred (.pnot g d p) s d (!rP s p)

/-! ### Scalar floating point -/

/-- R140: FADD, FSUB, FMUL, FFMA, FDIV and FSQRT write the exact result rounded once to their format under their mode, c of FFMA being
the old value of gd; with .T and NV, DZ or OF they trap FP_TRAP with the flag set and leave gd. FDIV and FSQRT take the rotations of
R127. -/
def Obligations.FloatArithmeticRoundsOnceOrTraps : Prop :=
  ∀ (s : State) (g : Guard) (d : GReg) (a b : Src) (m : FMods), Issues .strand g s →
    let f := precFmt m.p
    let n := match m.p with | .s => 2 | .d => 4
    WritesFloat (.fadd g d a b m) s d m.t (f.finish m.rm (fAdd m.rm (fSrc s m.p a) (fSrc s m.p b)))
    ∧ WritesFloat (.fsub g d a b m) s d m.t (f.finish m.rm (fAdd m.rm (fSrc s m.p a) (fSrc s m.p b).negate))
    ∧ WritesFloat (.fmul g d a b m) s d m.t (f.finish m.rm (fMul (fSrc s m.p a) (fSrc s m.p b)))
    ∧ WritesFloat (.ffma g d a b m) s d m.t (f.finish m.rm (fFma m.rm (fSrc s m.p a) (fSrc s m.p b) (fSrc s m.p (.reg d))))
    ∧ WritesFloatAfter n (.fdiv g d a b m) s d m.t (f.finish m.rm (fDiv (fSrc s m.p a) (fSrc s m.p b)))
    ∧ WritesFloatAfter n (.fsqrt g d a m) s d m.t (f.finish m.rm (fSqrt (fSrc s m.p a)))

/-- R140: sums and products of finite values are exact, and an exact zero has the sign the rule gives it; a zero divisor, opposite
infinities, infinity times zero, and signalling NaN operands give the results and flags of the table. -/
def Obligations.SumsAndProductsAreExactAndSpecialCasesTabled : Prop :=
  (∀ rm n₁ m₁ e₁ n₂ m₂ e₂, ∃ n m e, fAdd rm (.fin n₁ m₁ e₁) (.fin n₂ m₂ e₂) = (.fin n m e, 0)
      ∧ ratOf n m e = ratOf n₁ m₁ e₁ + ratOf n₂ m₂ e₂
      ∧ (m = 0 → n = if m₁ = 0 ∧ m₂ = 0 ∧ n₁ = n₂ then n₁ else decide (rm = .rdn)))
  ∧ (∀ n₁ m₁ e₁ n₂ m₂ e₂, ∃ n m e, fMul (.fin n₁ m₁ e₁) (.fin n₂ m₂ e₂) = (.fin n m e, 0)
      ∧ ratOf n m e = ratOf n₁ m₁ e₁ * ratOf n₂ m₂ e₂ ∧ n = (n₁ ^^ n₂))
  ∧ (∀ rm n, fAdd rm (.inf n) (.inf !n) = (.nan false, 16) ∧ fSub rm (.inf n) (.inf n) = (.nan false, 16))
  ∧ (∀ rm n k e c, fMul (.inf n) (.fin k 0 e) = (.nan false, 16) ∧ fMul (.fin k 0 e) (.inf n) = (.nan false, 16)
      ∧ (c.isNan = false → fFma rm (.inf n) (.fin k 0 e) c = (.nan false, 16)))
  ∧ (∀ n k e e' m, fDiv (.fin n 0 e) (.fin k 0 e') = (.nan false, 16) ∧ fDiv (.inf n) (.inf k) = (.nan false, 16)
      ∧ (m ≠ 0 → fDiv (.fin n m e) (.fin k 0 e') = (.inf (n ^^ k), 8)))
  ∧ (∀ m e, (m ≠ 0 → fSqrt (.fin true m e) = (.nan false, 16)) ∧ fSqrt (.fin true 0 e) = (.fin true 0 0, 0)
      ∧ fSqrt (.inf true) = (.nan false, 16))
  ∧ (∀ rm x sig, x.isNan = false → fAdd rm x (.nan sig) = (.nan false, if sig then 16 else 0)
      ∧ fAdd rm (.nan sig) x = (.nan false, if sig then 16 else 0) ∧ fMul x (.nan sig) = (.nan false, if sig then 16 else 0)
      ∧ fDiv x (.nan sig) = (.nan false, if sig then 16 else 0) ∧ fSqrt (.nan sig) = (.nan false, if sig then 16 else 0))

/-- R122: a magnitude rounded to a multiple of a unit lies within half a unit of it, an even multiple at a tie, or on the side that its
mode names; it is marked exact when and only when it is the magnitude. A nonzero value, 2^top the power of two that its magnitude reaches, is
rounded so to the spacing that FP32 or FP64 has there, or to that of the subnormals: beyond the largest finite magnitude OF and NX are raised
and the result is the infinity or that magnitude, as the mode directs; otherwise the result is the rounded value, NX is raised when it is
inexact, and UF besides when the magnitude, rounded with the exponent unbounded, lies below the smallest normal one. -/
def Obligations.RoundingGoesWhereItsModeDirects : Prop :=
  (∀ (f : FFmt) (m : RMode) (neg : Bool) (mag : Nat) (e top : Int), f = f32 ∨ f = f64 →
    let x := ratOf false mag e
    2 ^ top ≤ x → x < 2 ^ (top + 1) →
    let emin : Int := 1 - f.bias
    let u : Int := max top emin - f.fb
    let y := ratOf false (roundAt m neg mag e u).1 u
    let free := ratOf false (roundAt m neg mag e (top - f.fb)).1 (top - f.fb)
    let largest : ℚ := (2 - 2 ^ (-(f.fb : Int))) * 2 ^ f.bias
    let r := f.finish m (.fin neg mag e, 0)
    (largest < y → r.2 = 5 ∧
      if m = .rne ∨ (m = .rup ∧ neg = false) ∨ (m = .rdn ∧ neg = true) then f.unpack r.1 = .inf neg
      else ∃ m' e', f.unpack r.1 = .fin neg m' e' ∧ ratOf false m' e' = largest)
    ∧ (y ≤ largest → (∃ m' e', f.unpack r.1 = .fin neg m' e' ∧ ratOf false m' e' = y)
      ∧ (y = x → r.2 = 0) ∧ (y ≠ x → 2 ^ emin ≤ free → r.2 = 1) ∧ (y ≠ x → free < 2 ^ emin → r.2 = 3)))
  ∧ ∀ (neg : Bool) (mag : Nat) (e u : Int) (m : RMode),
    let x := ratOf false mag e
    let n := (roundAt m neg mag e u).1
    let y := ratOf false n u
    (m = .rne → 2 * |y - x| ≤ 2 ^ u ∧ (2 * |y - x| = 2 ^ u → n % 2 = 0))
    ∧ (m = .rtz ∨ (m = .rup ∧ neg = true) ∨ (m = .rdn ∧ neg = false) → y ≤ x ∧ x < y + 2 ^ u)
    ∧ ((m = .rup ∧ neg = false) ∨ (m = .rdn ∧ neg = true) → x ≤ y ∧ y < x + 2 ^ u)
    ∧ ((roundAt m neg mag e u).2 = true ↔ y = x)

/-- R141: FMIN and FMAX give the smaller and the larger operand, −0 before +0; the other operand when exactly one is a NaN, the canonical NaN
when both are; a signalling NaN raises NV.
R142 and R143: FSGN and its variants replace the sign bit of a bit pattern and raise no flag; FCLASS sets the one bit of its class.
R144: FCMP writes the comparison that its condition names, −0 equal to +0, an unordered pair giving 1 for .NE and .UN alone; NV is raised by
a signalling NaN, and for the four order conditions by any NaN.
R145: FCVT to an integer gives the source's value rounded by the mode, NX raised when it differs; NaN gives 0, and a value out of range the
type's nearest end, with NV. FCVT to a float gives the value rounded once, or the canonical NaN.
R146: FRND gives an operand's own bits for an infinity or a zero, and otherwise the integral value that the mode rounds it to, with its sign.
R123: with .T, a result that raises NV, DZ or OF traps FP_TRAP with the flag set and writes nothing. -/
def Obligations.FloatComparesSignsAndConversions : Prop :=
  ∀ (s : State) (g : Guard) (d : GReg) (pd : PReg) (a b : Src) (p : Prec) (t : Bool) (cc : FCond) (dst src : CvtTy) (rm : RMode)
    (m : FMods), Issues .strand g s →
    let f := precFmt p
    let top := match p with | .s => 2 ^ 31 | .d => 2 ^ 63
    let sgn (x : Src) : Nat := fBits s p x / top % 2
    let x := fSrc s p a
    let y := fSrc s p b
    let un : Prop := x.isNan = true ∨ y.isNan = true
    let sig : Prop := x.isSig = true ∨ y.isSig = true
    (∃ lo hi fl, WritesFloat (.fmin g d a b p t) s d t (lo, fl) ∧ WritesFloat (.fmax g d a b p t) s d t (hi, fl)
      ∧ (sig → fl = 16) ∧ (¬ sig → fl = 0)
      ∧ (x.isNan = true → y.isNan = true → lo = nanOf p ∧ hi = nanOf p)
      ∧ (x.isNan = true → y.isNan = false → lo = fBits s p b ∧ hi = fBits s p b)
      ∧ (x.isNan = false → y.isNan = true → lo = fBits s p a ∧ hi = fBits s p a)
      ∧ (Before x y → lo = fBits s p a ∧ hi = fBits s p b) ∧ (Before y x → lo = fBits s p b ∧ hi = fBits s p a)
      ∧ (¬ un → ¬ Before x y → ¬ Before y x → lo = fBits s p a ∧ hi = fBits s p a))
    ∧ Writes (.fsgn g d a b p) s d (BitVec.ofNat 64 (fBits s p a % top + sgn b * top))
    ∧ Writes (.fsgnN g d a b p) s d (BitVec.ofNat 64 (fBits s p a % top + (1 - sgn b) * top))
    ∧ Writes (.fsgnX g d a b p) s d (BitVec.ofNat 64 (fBits s p a % top + (sgn a + sgn b) % 2 * top))
    ∧ Writes (.fclass g d a p) s d (BitVec.ofNat 64 (2 ^ classBit f.eb f.fb (fBits s p a)))
    ∧ (let holds : Prop := match cc with
        | .eq => ¬ un ∧ ¬ Below x y ∧ ¬ Below y x
        | .ne => un ∨ Below x y ∨ Below y x
        | .lt => Below x y
        | .le => ¬ un ∧ ¬ Below y x
        | .gt => Below y x
        | .ge => ¬ un ∧ ¬ Below x y
        | .un => un
        | .or => ¬ un
       let nv : Prop := match cc with
        | .lt | .le | .gt | .ge => un
        | .eq | .ne | .un | .or => sig
       (t = true → nv → Traps (.fcmp g cc pd a b p t) s { cause := .fpTrap, step := 7, info0 := 16 })
       ∧ (¬ (t = true ∧ nv) → pd ≠ 0 → ∃ v, WritesPred (.fcmp g cc pd a b p t) s pd v ∧ (v = true ↔ holds)))
    ∧ (let c : FVal := match src with
        | .si32 => FVal.ofInt ((srcS s a).extractLsb' 0 32).toInt
        | .ui32 => FVal.ofInt ((srcZ s a).extractLsb' 0 32).toNat
        | .si64 => FVal.ofInt (srcS s a).toInt
        | .ui64 => FVal.ofInt (srcZ s a).toNat
        | .f32 => fSrc s .s a
        | .f64 => fSrc s .d a
       let gives (v fl : Nat) : Prop := WritesFloat (.fcvt g dst src d a rm t) s d t (v, fl)
       let int (lo hi : Int) : Prop :=
        let word (k : Int) : Nat := (BitVec.ofInt 64 k).toNat
        (c.isNan = true → gives (word 0) 16)
        ∧ (c = .inf true → gives (word lo) 16) ∧ (c = .inf false → gives (word hi) 16)
        ∧ ∀ n v e, c = .fin n v e → ∃ k, RoundsTo rm (ratOf n v e) k
            ∧ (k < lo → gives (word lo) 16) ∧ (hi < k → gives (word hi) 16)
            ∧ (lo ≤ k → k ≤ hi → (k = ratOf n v e → gives (word k) 0) ∧ (k ≠ ratOf n v e → gives (word k) 1))
       let flt (q : Prec) : Prop :=
        (c.isNan = true → gives (nanOf q) (if c.isSig = true then 16 else 0))
        ∧ (c.isNan = false → WritesFloat (.fcvt g dst src d a rm t) s d t ((precFmt q).finish rm (c, 0)))
       match dst with
        | .si32 => int (-2 ^ 31) (2 ^ 31 - 1)
        | .ui32 => int 0 (2 ^ 32 - 1)
        | .si64 => int (-2 ^ 63) (2 ^ 63 - 1)
        | .ui64 => int 0 (2 ^ 64 - 1)
        | .f32 => flt .s
        | .f64 => flt .d)
    ∧ (let z := fSrc s m.p a
       let gives (v fl : Nat) : Prop := WritesFloat (.frnd g d a m) s d m.t (v, fl)
       (z.isNan = true → gives (nanOf m.p) (if z.isSig = true then 16 else 0))
       ∧ (z = .inf true ∨ z = .inf false ∨ z.isZero = true → gives (fBits s m.p a) 0)
       ∧ ∀ n v e, z = .fin n v e → v ≠ 0 → ∃ k r v' e', RoundsTo m.rm (ratOf n v e) k ∧ (precFmt m.p).unpack r = .fin n v' e'
           ∧ ratOf n v' e' = k ∧ (k = ratOf n v e → gives r 0) ∧ (k ≠ ratOf n v e → gives r 1))

/-! ### Control -/

/-- R147 and R148: BR, BRI, BRI.L, CALL and LOOP go to their target, the link being the code pointer of the next instruction; BRI.L reads
its target first; LOOP counts down and branches unless it has reached 0; NOP goes on. A target that names no instruction traps.
R149: CALLO and RET go to a target whose overlay the core maps; they wait in STATE 1 for one that is in the launch's bundle and not
mapped, CALLO's link written; for one that is not in the bundle they trap OVERLAY_MISS as Fatal. -/
def Obligations.BranchesCallsAndReturnsGoToTheirTargets : Prop :=
  (∀ (s : State) (g : Guard) (d a : GReg) (ovl idx : BitVec 16),
     let pc := (curCtx s).pc
     let here (o i : Nat) : BitVec 32 := BitVec.ofNat 32 (o * 65536 + i)
     let target := here (if ovl = 0 then pc.toNat / 65536 else ovl.toNat) idx.toNat
     let link : Word := BitVec.ofNat 64 (pc.toNat + 1)
     (Issues .any g s → ovl ≠ 0xFFFF → idx.toNat ≤ 5460 →
       Jumps (.br g ovl idx) s [] target
       ∧ (rG s d ≠ 1 → Jumps (.loop g d ovl idx) s [d] target ∧ ∀ t, exec (.loop g d ovl idx) s = .next t → rG t d = rG s d - 1)
       ∧ (rG s d = 1 → Writes (.loop g d ovl idx) s d 0))
     ∧ (Issues .any g s → Jumps (.nop g) s [] (nextPc pc))
     ∧ (Issues .strand g s → pc.toNat % 65536 ≤ 5460 → ovl ≠ 0xFFFF → idx.toNat ≤ 5460 →
       Jumps (.call g d ovl idx) s [d] target ∧ ∀ t, exec (.call g d ovl idx) s = .next t → rG t d = link)
     ∧ (Issues .strand g s → pc.toNat % 65536 ≤ 5460 →
         (rG s a).toNat < 2 ^ 32 → (rG s a).toNat / 65536 ≠ 0 → (rG s a).toNat / 65536 ≠ 0xFFFF → (rG s a).toNat % 65536 ≤ 5460 →
       Jumps (.bri g a) s [] ((rG s a).setWidth 32)
       ∧ Jumps (.briL g d a) s [d] ((rG s a).setWidth 32) ∧ ∀ t, exec (.briL g d a) s = .next t → rG t d = link)
     ∧ (Issues .strand g s →
         2 ^ 32 ≤ (rG s a).toNat ∨ (rG s a).toNat / 65536 = 0 ∨ (rG s a).toNat / 65536 = 0xFFFF ∨ 5460 < (rG s a).toNat % 65536 →
       Traps (.bri g a) s (bad (rG s a)) ∧ Traps (.briL g d a) s (bad (rG s a)) ∧ Traps (.ret g a) s (bad (rG s a)))
     ∧ (Issues .any g s → ovl = 0xFFFF ∨ 5460 < idx.toNat → Traps (.br g ovl idx) s (wordExc s .badOperand 6)
       ∧ Traps (.loop g d ovl idx) s (wordExc s .badOperand 6)))
  ∧ (∀ (s : State) (g : Guard) (c i : Nat) (t : Strand) (d a : GReg) (ovl idx : BitVec 16), StrandIssues g s c i t →
       let pc := t.ctx.pc
       let target : BitVec 32 := BitVec.ofNat 32 ((if ovl = 0 then pc.toNat / 65536 else ovl.toNat) * 65536 + idx.toNat)
       let link : Word := BitVec.ofNat 64 (pc.toNat + 1)
       let mapped (p : BitVec 32) : Prop := ∃ f, f < 4 ∧ tget 0 s.core.ovt (c * 4 + f) = p.toNat / 65536
       let bundled (p : BitVec 32) : Prop := inBundle s (launchAt s t.record.launch.toNat) (p.toNat / 65536) = true
       let waits (x : Instr) (g : Vector Word 16) (p : BitVec 32) : Prop :=
         exec x s = .next (putStrand s c i { t with ctx := { t.ctx with g := g }, st := 1, wait := .overlay p })
       (pc.toNat / 65536 ≠ 0 → pc.toNat % 65536 ≤ 5460 → ovl ≠ 0xFFFF → idx.toNat ≤ 5460 →
         (mapped target → Jumps (.callo g d ovl idx) s [d] target ∧ ∀ u, exec (.callo g d ovl idx) s = .next u → rG u d = link)
         ∧ (¬ mapped target → bundled target → waits (.callo g d ovl idx) (t.ctx.g.set d.val link) target)
         ∧ (¬ mapped target → ¬ bundled target → Traps (.callo g d ovl idx) s
             { cause := .overlayMiss, info0 := BitVec.ofNat 64 (target.toNat / 65536), fatal := true }))
       ∧ ((rG s a).toNat < 2 ^ 32 → (rG s a).toNat / 65536 ≠ 0 → (rG s a).toNat / 65536 ≠ 0xFFFF → (rG s a).toNat % 65536 ≤ 5460 →
         let p := (rG s a).setWidth 32
         (mapped p → Jumps (.ret g a) s [] p)
         ∧ (¬ mapped p → bundled p → waits (.ret g a) t.ctx.g p)
         ∧ (¬ mapped p → ¬ bundled p → Traps (.ret g a) s
             { cause := .overlayMiss, info0 := BitVec.ofNat 64 (p.toNat / 65536), fatal := true })))

/-! ### The end of a strand, traps, and the return from them -/

/-- R95 and R150: DONE discards the strand's image and frees its slot; the end of its unit, with its PTS and no cause, is told to its
launch. No other strand and no byte of memory changes.
R249 and R274: DONE of a stream leaves its pair HALF, JOINABLE when the other stream is at its DONE, FAULTED when the other has faulted
or stopped; a SEMW of the other that waits on a count of 0 is then bound to fault; nothing else changes. -/
def Obligations.DoneEndsAStrandOrAStream : Prop :=
  (∀ (s : State) (g : Guard) (c i : Nat) (t : Strand), StrandIssues g s c i t → t.resp = none →
     ∃ u, exec (.done g) s = .next u ∧ strandAt u c i = none
       ∧ u.work.ends = s.work.ends ++ [{ launch := t.record.launch.toNat, ts := t.ctx.pts, cause := 0 }]
       ∧ (∀ c' i', c' * 16 + i' ≠ c * 16 + i → strandAt u c' i' = strandAt s c' i')
       ∧ (∀ a, memByte u.mem a = memByte s.mem a) ∧ u.sregs = s.sregs ∧ u.stat = s.stat ∧ u.hold.lives = s.hold.lives)
  ∧ (∀ (s : State) (g : Guard) (k : Nat) (cp : Bool), s.cur = .stream k cp → guardHolds s g = true → s.coh.hit = none →
       let p := pairAt s k
       let o := p.stream (!cp)
       let starved : Bool := o.st == 1 && o.wait && p.sems.any fun e => e.2.count == 0 && e.2.queue.contains (.stream k (!cp))
       let p' := p.setStream cp { p.stream cp with st := 2, wait := false }
       let p' := p'.setStream (!cp) { o with doomed := o.doomed || starved }
       p.ended = false →
       exec (.done g) s = .next (putPair s k { p' with st := if o.st = 2 then 3 else if o.st = 3 ∨ o.st = 4 then 4 else 2 }))

/-- R103, R104 and R108: a Fatal trap ends the strand with its cause; a Resume trap parks it in its slot in STATE 5, its registers and PC
as they were; a page fault, or an overlay miss on an overlay of the bundle, puts its record and PTS in the lowest free park entry under
a new tag and frees the slot, or, with no entry free, keeps the strand in STATE 1; CANCELLED ends it. A Fatal trap, a Resume trap and a
page fault raise one trap record of R105 each, under the strand's tag or the park entry's: the records held at the core, and those of
every queue, become what `raiseRecord` makes of them; the others raise none.
That the entry taken is the lowest free one is the model's choice (log entry 7). -/
def Obligations.TrapsFollowTheirClass : Prop :=
  ∀ (s : State) (c i : Nat) (t : Strand) (e : Exc), s.cur = .strand c i → strandAt s c i = some t →
    let u := raise e s
    let bundled : Bool := inBundle s (launchAt s t.record.launch.toNat) e.info0.toNat
    let free := freePark s c
    let tag : Tag := { core := c, slot := i, gen := slotGenOf s c i }
    let recs (x : State) : List (Nat × List Msg) := x.hold.evqs.map fun q => (q.1, q.2.recs)
    let quiet : Prop := u.core.held = s.core.held ∧ recs u = recs s
    let raises (w : Tag) (fatal restart : Bool) : Prop := ∃ b : State,
      b.core.held = s.core.held ∧ recs b = recs s ∧ b.hold.lives = s.hold.lives ∧ b.time = s.time
      ∧ (∀ k, ∃ gone, (evqAt b k).blocked = (evqAt s k).blocked.filter gone ∧ (evqAt b k).waiting = (evqAt s k).waiting
          ∧ (evqAt b k).cap = (evqAt s k).cap)
      ∧ (let v := raiseRecord b c
           { bytes := trapBytes t w (max (s.time.dt + tget 0 s.time.early c) t.dtlast) e fatal restart false, fatal := fatal,
             launch := t.record.launch.toNat, tq := (launchAt s t.record.launch.toNat).tq, ctxh := t.ctxh }
         u.core.held = v.core.held ∧ recs u = recs v)
    let ended (n : Nat) : Prop := strandAt u c i = none
      ∧ (t.resp = none → u.work.ends = s.work.ends ++ [{ launch := t.record.launch.toNat, ts := t.ctx.pts, cause := n }])
    let parks (k : Nat) (ovl : Nat) : Prop := strandAt u c i = none ∧ u.work.ends = s.work.ends
      ∧ tget {} u.core.park (c * 32 + k) = { used := true, gen := nextGen (tget {} s.core.park (c * 32 + k)).gen, record := t.record,
                                             pts := t.ctx.pts, ovl := ovl, resp := t.resp, ctxh := t.ctxh,
                                             former := keptTags s tag t.former }
    let fatal : Prop := e.fatal = true
      ∨ e.cause ∈ [Cause.illegalOpcode, .reservedBits, .badOperand, .misaligned, .protection, .streamDesync, .scaleRange, .factorShape,
          .softError, .exhausted] ∨ (e.cause = .brk ∧ e.sw = true) ∨ (e.cause = .overlayMiss ∧ bundled = false)
    (fatal → ended (causeCode e.cause) ∧ raises tag true false)
    ∧ (e.fatal = false → e.cause = .cancelled → ended 0 ∧ quiet)
    ∧ (e.fatal = false → e.cause ∈ [Cause.lapsed, .windowRefused, .atomicUncarried, .divideZero, .fpTrap, .factorIndefinite, .peerGone,
          .censusLimit, .step] ∨ (e.cause = .brk ∧ e.sw = false) →
        strandAt u c i = some { t with st := 5, wait := .none, steps := 0, lastCause := causeCode e.cause } ∧ u.work.ends = s.work.ends
        ∧ raises tag false false)
    ∧ (e.fatal = false → e.cause = .pageFault → ∀ k, free = some k → parks k 0
        ∧ raises { core := c, slot := k, gen := nextGen (tget {} s.core.park (c * 32 + k)).gen, park := true } false true)
    ∧ (e.fatal = false → e.cause = .overlayMiss → bundled = true → ∀ k, free = some k →
        parks k (t.ctx.pc.toNat / 65536) ∧ quiet)
    ∧ (e.fatal = false → e.cause = .pageFault ∨ (e.cause = .overlayMiss ∧ bundled = true) → free = none →
        u = putStrand s c i { t with st := 1, wait := .parkFull e })
    ∧ (∀ k, free = some k → k < 32 ∧ (tget {} s.core.park (c * 32 + k)).used = false
        ∧ ∀ j, j < k → (tget {} s.core.park (c * 32 + j)).used = true)
    ∧ ∀ a, memByte u.mem a = memByte s.mem a

/-- R104 and R105: the fields of a trap record, and the default layout of INFO1.
R107: a trap record lands in a live trap queue with no one waiting there when its core holds none that it must follow to that queue (a
fatal one; any, for a record that is not fatal) and the queue has 1 entry free for a fatal record, 2 for another; else it is held in its
core, marked HELD. One whose queue has lapsed is dropped. -/
def Obligations.TrapRecordsHaveTheirLayoutAndLand : Prop :=
  (∀ (t : Strand) (tag : Tag) (dt : Nat) (e : Exc) (fatal restart held : Bool),
     let b := trapBytes t tag dt e fatal restart held
     (b.extractLsb' 0 8).toNat = causeCode e.cause ∧ b.getLsbD 8 = fatal ∧ b.getLsbD 9 = restart ∧ b.getLsbD 10 = held ∧ b.getLsbD 11 = e.sw
     ∧ (b.extractLsb' 12 20).toNat = 0 ∧ b.extractLsb' 32 32 = t.ctx.pc
     ∧ (b.extractLsb' 64 5).toNat = tag.slot % 32 ∧ b.getLsbD 69 = tag.park ∧ (b.extractLsb' 70 10).toNat = tag.core % 1024
     ∧ (b.extractLsb' 80 16).toNat = tag.gen % 65536 ∧ (b.extractLsb' 96 32).toNat = dt % 2 ^ 32 ∧ b.extractLsb' 128 64 = e.info0
     ∧ (e.info1 = none → b.extractLsb' 192 32 = t.ctx.iw.extractLsb' 64 32 ∧ (b.extractLsb' 224 8).toNat = e.step % 256
         ∧ (b.extractLsb' 232 8).toNat = e.detail % 256 ∧ (b.extractLsb' 240 16).toNat = 0)
     ∧ (∀ v, e.info1 = some v → b.extractLsb' 192 64 = v)
     ∧ [Cause.illegalOpcode, .reservedBits, .badOperand, .misaligned, .pageFault, .protection, .lapsed, .windowRefused, .overlayMiss,
         .streamDesync, .scaleRange, .factorIndefinite, .factorShape, .atomicUncarried, .divideZero, .fpTrap, .cancelled, .peerGone,
         .censusLimit, .step, .brk, .softError, .exhausted].map causeCode = (List.range 23).map (· + 1))
  ∧ (∀ (s : State) (c : Nat) (r : TrapRec),
       let q := evqAt s (hKey r.tq)
       let held := tget [] s.core.held c
       let first : Prop := ∀ x ∈ held, x.tq = r.tq → x.fatal = false ∧ r.fatal = true
       let room : Prop := q.recs.length + (if r.fatal = true then 1 else 2) ≤ q.cap
       (first → liveHandle s r.tq = true → room → q.blocked = [] → q.waiting = [] →
         (evqAt (raiseRecord s c r) (hKey r.tq)).recs = q.recs ++ [{ bytes := r.bytes }])
       ∧ (¬ first ∨ (liveHandle s r.tq = true ∧ ¬ room) →
         raiseRecord s c r = { s with core.held := tset [] s.core.held c (held ++ [{ r with bytes := r.bytes ||| 1024#256 }]) })
       ∧ (first → liveHandle s r.tq = false → raiseRecord s c r = { s with hold.dropped := s.hold.dropped + 1 }))

/-- R114: TRAP and BRK take a BREAK trap, of class Fatal with FLAGS.SW and the code in INFO0 for TRAP, of class Resume for BRK: the strand
has ended, or stands trap-parked at its own PC. A register value above 2^32 - 1 traps BAD_OPERAND.
R119: REPLAY of a trap-parked strand of the issuer's context resumes it where it stopped, at the next instruction, for one
instruction, or ends it, its PTS raised to the issuer's, and gives 0; a tag that is stale or names no trap-parked strand gives 1, a stale
one being counted (R93); a park entry with .SKIP or .STEP gives 2; the record of a park entry goes to its core's ring, or is discarded
with .END, and its entry is freed. -/
def Obligations.TrapBrkAndReplay : Prop :=
  (∀ (s : State) (g : Guard) (c i : Nat) (t : Strand) (a : Src), StrandIssues g s c i t →
     ((srcZ s a).toNat < 2 ^ 32 → Traps (.trap g a) s { cause := .brk, step := 7, info0 := srcZ s a, sw := true }
       ∧ ∃ u, exec (.trap g a) s = .next u ∧ strandAt u c i = none)
     ∧ (2 ^ 32 ≤ (srcZ s a).toNat → Traps (.trap g a) s (bad (srcZ s a)))
     ∧ Traps (.brk g) s { cause := .brk, step := 7 }
     ∧ ∃ u x, exec (.brk g) s = .next u ∧ strandAt u c i = some x ∧ x.st = 5 ∧ x.ctx = t.ctx ∧ x.lastCause = 0x15)
  ∧ (∀ (s : State) (g : Guard) (c i : Nat) (t : Strand) (d a : GReg) (v : Strand) (tag : Tag),
       StrandIssues g s c i t → (rG s a).toNat < 2 ^ 32 → tag = tagOf (rG s a).toNat → corePresent s tag.core = true →
       (∀ x, tagCtxh s tag = some x → x = t.ctxh) →
       let n := max v.ctx.pts t.ctx.pts
       let done (m : ReplayMod) (u : State) (k : Nat) : Prop := exec (.replay g d a m) s = .next (advance (wG u d (BitVec.ofNat 64 k)))
       let counted : State := { s with core.stale := tset 0 s.core.stale tag.core (tget 0 s.core.stale tag.core + 1) }
       (tag.park = false → tagged s tag = some v → v.st = 5 →
         let back (pc : BitVec 32) (k : Nat) : State := putStrand s tag.core tag.slot
           { v with ctx := { v.ctx with pts := n, pc := pc }, lhit := if n = v.ctx.pts then v.lhit else 0, st := 0, wait := .none, steps := k }
         done .plain (back v.ctx.pc v.steps) 0 ∧ done .skip (back (nextPc v.ctx.pc) v.steps) 0 ∧ done .step (back v.ctx.pc 1) 0
         ∧ done .stop (endStrand s tag.core tag.slot 0) 0)
       ∧ (tag.park = false → (∀ x, tagged s tag = some x → x.st ≠ 5) → ∀ m,
           done m (if tag.slot < 16 ∧ slotGenOf s tag.core tag.slot ≠ tag.gen then counted else s) 1)
       ∧ (tag.park = true → done .skip s 2 ∧ done .step s 2)
       ∧ (let p := tget {} s.core.park (tag.core * 32 + tag.slot)
          let freed : State := { s with core.park := tset {} s.core.park (tag.core * 32 + tag.slot) { gen := p.gen } }
          tag.park = true →
          ((p.used = false ∨ p.gen ≠ tag.gen) → let u := if p.gen ≠ tag.gen then counted else s; done .plain u 1 ∧ done .stop u 1)
          ∧ (p.used = true → p.gen = tag.gen → (∀ f ∈ s.page.faults, f.tag ≠ tag) →
             (s.core.outside = [] → (ringAt s tag.core (recPrio p.record)).length < 4096 →
               done .plain (pushRing freed tag.core p.record (max p.pts t.ctx.pts) p.resp (some p.former)) 0)
             ∧ ∃ u, done .stop u 0 ∧ (tget {} u.core.park (tag.core * 32 + tag.slot)).used = false ∧ u.core.rings = s.core.rings
                 ∧ (p.resp = none → u.work.ends = s.work.ends ++ [{ launch := p.record.launch.toNat, ts := p.pts, cause := 0 }]))))

/-! ### System instructions -/

/-- R115, R101, R92 and R23: SRR gives the value that R101 says each register has; a read of DTIME is at least the strand's last one, and
becomes it; PTS stays.
R102, R99, R205, R233 and R279: SRW writes a value that the register's rule admits, its reserved bits 0, to that register alone; a
value it forbids traps BAD_OPERAND and leaves the register. MSTAT and VSTAT clear the bits written as 1, and VSTAT its count when the
upper half written is not 0. -/
def Obligations.SpecialRegistersAreReadAndWritten : Prop :=
  (∀ (s : State) (g : Guard) (c i : Nat) (t : Strand) (d : GReg), StrandIssues g s c i t →
     let l := launchAt s t.record.launch.toNat
     let k := c / 4
     let n (x : Nat) : Word := BitVec.ofNat 64 x
     (∃ u x, exec (.srr g d .dtime) s = .next u ∧ strandAt u c i = some x ∧ x.dtlast = max (s.time.dt + tget 0 s.time.early c) t.dtlast
         ∧ rG u d = n x.dtlast ∧ x.ctx.pc = nextPc t.ctx.pc ∧ Keeps [d] [] s u ∧ OnlyAgent s u)
     ∧ Writes (.srr g d .ptsr) s d (n t.ctx.pts) ∧ Writes (.srr g d .coreid) s d (n c)
     ∧ (i < 16 → c < 1024 → Writes (.srr g d .stag) s d (n (slotGenOf s c i % 65536 * 65536 + c * 64 + i)))
     ∧ Writes (.srr g d .ctxh) s d t.ctxh ∧ Writes (.srr g d .privb) s d t.privb ∧ Writes (.srr g d .privsz) s d (n l.privsz)
     ∧ (∃ v, Writes (.srr g d .stat) s d v ∧ (v.extractLsb' 28 4).toNat = t.record.prio.toNat % 16 ∧ v.extractLsb' 24 4 = 0
         ∧ v.getLsbD 23 = t.evict ∧ v.getLsbD 22 = t.restart ∧ v.getLsbD 21 = decide (t.steps ≠ 0) ∧ v.extractLsb' 16 5 = 0
         ∧ (v.extractLsb' 8 8).toNat = t.lastCause % 256 ∧ v.extractLsb' 0 8 = 0 ∧ v.extractLsb' 32 32 = 0)
     ∧ Writes (.srr g d .tqh) s d l.tq
     ∧ (∃ v, Writes (.srr g d .ovt) s d v ∧ ∀ f, f < 4 → (v.extractLsb' (16 * f) 16).toNat = tget 0 s.core.ovt (c * 4 + f) % 65536)
     ∧ Writes (.srr g d .icnt) s d (n (tget 0 s.core.icnt c)) ∧ Writes (.srr g d .stale) s d (n (tget 0 s.core.stale c))
     ∧ Writes (.srr g d .bconf) s d (n (tget 0 s.core.bconf c))
     ∧ (∀ j, Writes (.srr g d (.win j)) s d (tget 0 s.sregs.win (c * 8 + j.val)))
     ∧ (∀ j, Writes (.srr g d (.bfmt j)) s d ((tget 0 s.sregs.bfmt (c * 16 + j.val)).zeroExtend 64))
     ∧ Writes (.srr g d .mstat) s d (tget 0 s.stat.mstat k) ∧ Writes (.srr g d .fctl) s d (tget 0x35800000 s.sregs.fctl k)
     ∧ Writes (.srr g d .vstat) s d (tget 0 s.stat.vstat c) ∧ Writes (.srr g d .expr) s d (tget 0 s.sregs.expr c))
  ∧ (∀ (s : State) (g : Guard) (c i : Nat) (t : Strand) (a : Src), StrandIssues g s c i t →
       let v := srcZ s a
       let k := c / 4
       let low (m : Nat) : Word := BitVec.ofNat 64 (v.toNat % 2 ^ m)
       let base := v.toNat % 2 ^ 20
       let limit := v.toNat / 2 ^ 20 % 2 ^ 20
       let forbidden : Prop := v.getLsbD 63 = true
         ∧ (v.toNat / 2 ^ 59 % 4 = 3 ∨ base % 64 ≠ 0 ∨ limit % 64 ≠ 0 ∨ 0x80000 < limit ∨ limit ≤ base)
       let after (x : Instr) (p : SregPart) (q : StatPart) : Prop :=
         exec x s = .next (advance { s with sregs := p, stat := q })
       let kept : Word := v &&& 0xF80000FFFFFFFFFF#64
       (∀ j, ¬ forbidden → after (.srw g (.win j) a) { s.sregs with win := tset 0 s.sregs.win (c * 8 + j.val) kept } s.stat)
       ∧ (∀ j, forbidden → ∃ u, exec (.srw g (.win j) a) s = .next u ∧ u = raise (bad v) s ∧ u.sregs = s.sregs)
       ∧ (∀ j, v.toNat % 16 ≠ 15 → after (.srw g (.bfmt j) a) { s.sregs with bfmt := tset 0 s.sregs.bfmt (c * 16 + j.val) (v.setWidth 4) } s.stat)
       ∧ (∀ j, v.toNat % 16 = 15 → exec (.srw g (.bfmt j) a) s = .next (raise (bad v) s))
       ∧ (v.toNat % 32 ≤ 16 → after (.srw g .expr a) { s.sregs with expr := tset 0 s.sregs.expr c (low 5) } s.stat)
       ∧ (16 < v.toNat % 32 → exec (.srw g .expr a) s = .next (raise (bad v) s))
       ∧ (v.toNat % 2 ^ 32 < 0x3F800000 →
           after (.srw g .fctl a) { s.sregs with fctl := tset 0x35800000 s.sregs.fctl k (low 32) } s.stat)
       ∧ (0x3F800000 ≤ v.toNat % 2 ^ 32 → exec (.srw g .fctl a) s = .next (raise (bad v) s))
       ∧ after (.srw g .mstat a) s.sregs { s.stat with mstat := tset 0 s.stat.mstat k (tget 0 s.stat.mstat k &&& ~~~(v &&& 0xF)) }
       ∧ (∃ w, after (.srw g .vstat a) s.sregs { s.stat with vstat := tset 0 s.stat.vstat c w }
           ∧ (∀ j, j < 32 → w.getLsbD j = ((tget 0 s.stat.vstat c).getLsbD j && !(v.getLsbD j && decide (j < 6))))
           ∧ ∀ j, 32 ≤ j → w.getLsbD j = ((tget 0 s.stat.vstat c).getLsbD j && decide (v.toNat < 2 ^ 32))))

/-- R116 and R117: PARK gives 1 at once when the queue holds a record, 0 when it is empty and its deadline has passed, and else blocks in
STATE 3 among those the queue wakes; WAITDT goes on once device time has reached its tick, else it blocks in STATE 4 until then.
R109 and R118: GSTOP of a launch that is not stopped halts it and waits for every core of its partition, and of one that is stopped
gives 0; GSTOP.GO of a stopped launch lets it run and gives the number of cores resumed, of another gives 0. Names of no launch, of the
issuer's own, or of another context's trap. That the stop of a launch with an empty partition ends at once is inferred (log entry 35), and that
INFO0 of the PROTECTION for another context's launch is ga is the model's choice (log entry 43). -/
def Obligations.WaitsAndGangStops : Prop :=
  (∀ (s : State) (g : Guard) (c i : Nat) (t : Strand) (d a b : GReg) (n : Src), StrandIssues g s c i t →
     let h := rG s a
     let q := evqAt s (hKey h)
     let tag := curTag s
     let dt := s.time.dt + tget 0 s.time.early c
     let blocks (x : Instr) (u : State) (st : Nat) (w : Wait) : Prop := exec x s = .next (putStrand u c i { t with st := st, wait := w })
     let others : State := putEvq s (hKey h) { q with parked := q.parked.filter (· != tag) }
     let joined : State := putEvq s (hKey h) { q with parked := q.parked.filter (· != tag) ++ [tag] }
     (checkAll s [7] h = .ok () →
       (q.recs ≠ [] → exec (.park g d a b) s = .next (advance (wG others d 1)) ∧ exec (.parkNt g d a) s = .next (advance (wG others d 1)))
       ∧ (q.recs = [] → (rG s b).toNat ≤ dt → exec (.park g d a b) s = .next (advance (wG others d 0)))
       ∧ (q.recs = [] → dt < (rG s b).toNat → blocks (.park g d a b) joined 3 (.park (some (rG s b).toNat)))
       ∧ (q.recs = [] → blocks (.parkNt g d a) joined 3 (.park none)))
     ∧ (∀ e, checkAll s [7] h = .error e → Traps (.park g d a b) s e ∧ Traps (.parkNt g d a) s e)
     ∧ (h.toNat ≤ dt → Jumps (.waitdt g a) s [] (nextPc t.ctx.pc))
     ∧ (dt < h.toNat → blocks (.waitdt g a) s 4 (.waitdt h.toNat))
     ∧ ((srcZ s n).toNat = 0 → Jumps (.waitdtRel g n) s [] (nextPc t.ctx.pc))
     ∧ (0 < (srcZ s n).toNat → (srcZ s n).toNat < 2 ^ 32 → blocks (.waitdtRel g n) s 4 (.waitdt (dt + (srcZ s n).toNat)))
     ∧ (2 ^ 32 ≤ (srcZ s n).toNat → Traps (.waitdtRel g n) s (bad (srcZ s n))))
  ∧ (∀ (s : State) (g : Guard) (c i : Nat) (t : Strand) (d a b : GReg), StrandIssues g s c i t →
       let n := (rG s a).toNat
       let l := launchAt s n
       let named : Prop := n < 65536 ∧ l.st ≠ 0 ∧ n ≠ t.record.launch.toNat
       let h : Halt := { launch := n, evq := rG s b, waiter := some (curTag s, d), left := partition s n, landed := 0, dropped := false }
       (named → l.ctxh = t.ctxh → checkAll s [7] (rG s b) = .ok () →
         (l.halted = true → Writes (.gstop g d a b) s d 0)
         ∧ (l.halted = false → partition s n ≠ [] → exec (.gstop g d a b) s = .next (putStrand
               { putLaunch s n { l with halted := true } with work.halts := s.work.halts ++ [h] } c i { t with st := 1, wait := .reply }))
         ∧ (l.halted = false → partition s n = [] → exec (.gstop g d a b) s = .next (advance (wG (putLaunch s n { l with halted := true }) d 0))))
       ∧ (named → l.ctxh = t.ctxh →
         (l.halted = false → Writes (.gstopGo g d a) s d 0)
         ∧ (l.halted = true → ∃ u, exec (.gstopGo g d a) s = .next u ∧ rG u d = BitVec.ofNat 64 (partition s n).length
             ∧ (launchAt u n).halted = false ∧ (∀ x ∈ u.work.halts, x.launch ≠ n)
             ∧ ∀ c' i' x, c' * 16 + i' ≠ c * 16 + i → i' < 16 → strandAt s c' i' = some x → x.record.launch.toNat = n → x.st = 6 →
                 strandAt u c' i' = some { x with st := 0, wait := .none }))
       ∧ (¬ named → Traps (.gstop g d a b) s (bad (rG s a)) ∧ Traps (.gstopGo g d a) s (bad (rG s a)))
       ∧ (named → l.ctxh ≠ t.ctxh → Traps (.gstop g d a b) s { cause := .protection, info0 := rG s a }
           ∧ Traps (.gstopGo g d a) s { cause := .protection, info0 := rG s a }))

/-! ### Memory -/

/-- R154, R47 and R49 on the core's own scratchpad: LD, LDL and LDX read the bytes at their offset, extended as .SX says, LDX into two
registers with the lower-addressed half in gd; the load's timestamp is the later of PTS and the sector's WTS, which the PTS becomes and
the sector's RTS is raised to. No byte of memory and no other register changes.
R154, R47 and R49 on the core's own scratchpad: ST, STL and STX put the low bytes of their register there, lowest address first, STX
those of two registers, and change no other byte; the store's timestamp is the later of PTS and one more than the sector's RTS, and PTS,
WTS and RTS become it.
R158, R159 and R64 on the core's own scratchpad: AMO gives gd the old value zero-extended and puts f(old, operand) in its place, at
one timestamp, the later of PTS and one more than the sector's RTS; MIN and MAX compare signed values, or unsigned ones with .U.
R42, R100, R154 and R52: LD, ST and AMO of another core's scratchpad that its windows admit do the same there; with .M a strand whose core is not
the owner goes there with its PC at the instruction, once the owner admits it, and one whose core is the owner makes the access. -/
def Obligations.ScratchpadAccessesAreMadeAtTheirTimestamps : Prop :=
  let amo (op : AmoOp) (un : Bool) (n old o cmp : Nat) : Nat :=
    let sg (v : Nat) : Int := if un then v else if v < 256 ^ n / 2 then v else (v : Int) - 256 ^ n
    match op with
    | .add => (old + o) % 256 ^ n
    | .and => old &&& o
    | .or => old ||| o
    | .xor => old ^^^ o
    | .min => if sg o < sg old then o else old
    | .max => if sg old < sg o then o else old
    | .swap => o
    | .cas => if old = cmp then o else old
  (∀ (s : State) (g : Guard) (c i : Nat) (t : Strand) (d : GReg) (m : MemOp) (w : Wid) (cls : ReqClass) (mig sx : Bool) (p : Word),
     StrandIssues g s c i t → cls ≠ .n → cls ≠ .w → mig = false →
     let off := p.toNat % 2 ^ 19
     let at_ := scratchAt c off
     let x := stampAt s c off
     let ts := max t.ctx.pts x.wts
     let ext (v : Nat) : Word := if sx then (BitVec.ofNat (8 * widBytes w) v).signExtend 64 else (BitVec.ofNat (8 * widBytes w) v).zeroExtend 64
     let reads (i : Instr) (gs : List GReg) (u : State) : Prop :=
       exec i s = .next u ∧ (∀ r, r ∉ gs → rG u r = rG s r) ∧ (∀ q, rP u q = rP s q) ∧ rPts u = ts ∧ (curCtx u).pc = nextPc t.ctx.pc
         ∧ stampAt u c off = { x with rts := max x.rts ts } ∧ ∀ a, memByte u.mem a = memByte s.mem a
     let admitted (n : Nat) : Prop := pSpace p = 1 ∧ p.toNat % 2 ^ 60 < 2 ^ 19 ∧ p.toNat % n = 0
     (p = memPtr s m → admitted (widBytes w) →
       ∃ u, reads (.ld g d m w cls mig sx) [d] u ∧ rG u d = ext (memRead s.mem at_ (widBytes w)))
     ∧ (p = memPtr s m ||| 0x1000000000000000#64 → (memPtr s m).toNat < 0x80000 → p.toNat % widBytes w = 0 →
       ∃ u, reads (.ldl g d m w sx) [d] u ∧ rG u d = ext (memRead s.mem at_ (widBytes w)))
     ∧ (p = memPtr s m → (w = .w32 ∨ w = .w64) → admitted (2 * widBytes w) → ∀ e : GReg, d.val % 2 = 0 → e.val = d.val + 1 →
       ∃ u, reads (.ldx g d m w cls mig sx) [d, e] u ∧ rG u d = ext (memRead s.mem at_ (widBytes w))
         ∧ rG u e = ext (memRead s.mem (at_ + widBytes w) (widBytes w))))
  ∧ (∀ (s : State) (g : Guard) (c i : Nat) (t : Strand) (d : GReg) (y : Src) (m : MemOp) (w : Wid) (cls : ReqClass) (mig : Bool) (p : Word),
       StrandIssues g s c i t → cls ≠ .n → cls ≠ .s → mig = false →
       let off := p.toNat % 2 ^ 19
       let base := scratchAt c off
       let x := stampAt s c off
       let ts := max t.ctx.pts (x.rts + 1)
       let stores (i : Instr) (n v : Nat) : Prop := ∃ u, exec i s = .next u
         ∧ (∀ a, memByte u.mem a = if base ≤ a ∧ a < base + n then BitVec.ofNat 8 (v / 256 ^ (a - base)) else memByte s.mem a)
         ∧ (∀ r, rG u r = rG s r) ∧ (∀ q, rP u q = rP s q) ∧ rPts u = ts ∧ (curCtx u).pc = nextPc t.ctx.pc
         ∧ stampAt u c off = { wts := ts, rts := ts } ∧ u.coh.l1 = s.coh.l1 ∧ u.coh.dir = s.coh.dir
       let admitted (n : Nat) : Prop := pSpace p = 1 ∧ p.toNat % 2 ^ 60 < 2 ^ 19 ∧ p.toNat % n = 0
       (p = memPtr s m → admitted (widBytes w) → stores (.st g y m w cls mig) (widBytes w) (srcZ s y).toNat)
       ∧ (p = memPtr s m ||| 0x1000000000000000#64 → (memPtr s m).toNat < 0x80000 → p.toNat % widBytes w = 0 →
         stores (.stl g y m w) (widBytes w) (srcZ s y).toNat)
       ∧ (p = memPtr s m → (w = .w32 ∨ w = .w64) → admitted (2 * widBytes w) → ∀ e : GReg, d.val % 2 = 0 → e.val = d.val + 1 →
         stores (.stx g d m w cls mig) (2 * widBytes w)
           ((rG s d).toNat % 256 ^ widBytes w + (rG s e).toNat % 256 ^ widBytes w * 256 ^ widBytes w)))
  ∧ (∀ (s : State) (g : Guard) (c i : Nat) (t : Strand) (op : AmoOp) (d base : GReg) (disp : BitVec 32) (y : Src) (w : Wid) (un : Bool),
       StrandIssues g s c i t → (w = .w32 ∨ w = .w64) →
       let n := widBytes w
       let p := rG s base + disp.signExtend 64
       let off := p.toNat % 2 ^ 19
       let a₀ := scratchAt c off
       let x := stampAt s c off
       let ts := max t.ctx.pts (x.rts + 1)
       let old : Nat := memRead s.mem a₀ n
       let new : Nat := amo op un n old ((srcZ s y).toNat % 256 ^ n) ((rG s d).toNat % 256 ^ n)
       pSpace p = 1 → p.toNat % 2 ^ 60 < 2 ^ 19 → p.toNat % n = 0 →
       ∃ u, exec (.amo g op d base disp y w un false) s = .next u ∧ rG u d = BitVec.ofNat 64 old
         ∧ (∀ a, memByte u.mem a = if a₀ ≤ a ∧ a < a₀ + n then BitVec.ofNat 8 (new / 256 ^ (a - a₀)) else memByte s.mem a)
         ∧ (∀ r, r ≠ d → rG u r = rG s r) ∧ (∀ q, rP u q = rP s q) ∧ rPts u = ts ∧ (curCtx u).pc = nextPc t.ctx.pc
         ∧ stampAt u c off = { wts := ts, rts := ts })
  ∧ (∀ (s : State) (g : Guard) (c i : Nat) (t : Strand) (d base : GReg) (y : Src) (m : MemOp) (disp : BitVec 32) (w : Wid) (cls : ReqClass)
       (mig sx un : Bool) (op : AmoOp) (p : Word), StrandIssues g s c i t → cls ≠ .n →
       let n := widBytes w
       let owner := if pSpace p = 2 then c / 4 * 4 + p.toNat / 2 ^ 48 % 4 else p.toNat / 2 ^ 48 % 1024
       (pSpace p = 2 ∨ pSpace p = 3 ∧ corePresent s owner = true) → pZeroOk p = true → p.toNat % n = 0 →
       let off := p.toNat % 2 ^ 19
       let at_ := scratchAt owner off
       let x := stampAt s owner off
       let load : Instr := .ld g d m w cls mig sx
       let store : Instr := .st g y m w cls mig
       let atomic : Instr := .amo g op d base disp y w un mig
       let loads : Prop := p = memPtr s m ∧ cls ≠ .w
       let stores : Prop := p = memPtr s m ∧ cls ≠ .s
       let swaps : Prop := p = rG s base + disp.signExtend 64 ∧ (w = .w32 ∨ w = .w64)
       let does (i : Instr) (gs : List GReg) (ts : Nat) (u : State) : Prop := exec i s = .next u ∧ (∀ r, r ∉ gs → rG u r = rG s r)
         ∧ (∀ q, rP u q = rP s q) ∧ rPts u = ts ∧ (curCtx u).pc = nextPc t.ctx.pc
       let puts (v ts : Nat) (u : State) : Prop := stampAt u owner off = { wts := ts, rts := ts }
         ∧ ∀ a, memByte u.mem a = if at_ ≤ a ∧ a < at_ + n then BitVec.ofNat 8 (v / 256 ^ (a - at_)) else memByte s.mem a
       (mig = false ∨ owner = c →
         (loads → winOk s owner c off n true false = true →
           let ts := max t.ctx.pts x.wts
           let v := memRead s.mem at_ n
           ∃ u, does load [d] ts u ∧ rG u d = (if sx then (BitVec.ofNat (8 * n) v).signExtend 64 else (BitVec.ofNat (8 * n) v).zeroExtend 64)
             ∧ stampAt u owner off = { x with rts := max x.rts ts } ∧ ∀ a, memByte u.mem a = memByte s.mem a)
         ∧ (stores → winOk s owner c off n false true = true →
           let ts := max t.ctx.pts (x.rts + 1)
           ∃ u, does store [] ts u ∧ puts (srcZ s y).toNat ts u)
         ∧ (swaps → winOk s owner c off n true true = true →
           let ts := max t.ctx.pts (x.rts + 1)
           let old := memRead s.mem at_ n
           ∃ u, does atomic [d] ts u ∧ rG u d = BitVec.ofNat 64 old
             ∧ puts (amo op un n old ((srcZ s y).toNat % 256 ^ n) ((rG s d).toNat % 256 ^ n)) ts u))
       ∧ (mig = true → owner ≠ c →
         let here (j : Instr) : Prop := loads ∧ j = load ∨ stores ∧ j = store ∨ swaps ∧ j = atomic
         let l := launchAt s t.record.launch.toNat
         (admits s l owner = true → ∀ j, here j → ∃ u, exec j s = .next u ∧ strandAt u c i = none
           ∧ u.core.migr = s.core.migr ++ [(owner, { t with
               st := 0, wait := .none
               former := keptTags s { core := c, slot := i, gen := slotGenOf s c i } t.former })]
           ∧ ∀ a, memByte u.mem a = memByte s.mem a)
         ∧ (admits s l owner = false → ∀ j, here j → Traps j s { cause := .protection, info0 := BitVec.ofNat 64 owner })))

/-- R40, R42, R153 and R154: the checks of an access in their order: the space and its zero bits, the alignment, .M and the class on
scratchpad, and the window of another core's scratchpad; the pointer is in INFO0. R104 and R106: an access that passes them and meets a word whose
uncorrectable error has been reported traps SOFT_ERROR, with nothing written; what INFO0 holds where no physical address is, 0, is the model's choice
(log entry 45). -/
def Obligations.AccessChecksTrapInOrder : Prop :=
  (∀ (s : State) (g : Guard) (c i : Nat) (t : Strand) (d : GReg) (m : MemOp) (w : Wid) (cls : ReqClass) (sx : Bool) (word : Nat),
    s.cur = .strand c i → i < 16 → strandAt s c i = some t → guardHolds s g = true → s.coh.hit = none → (cls = .s ∨ cls = .o) →
    let p := memPtr s m
    pSpace p = 1 → p.toNat % 2 ^ 60 < 2 ^ 19 → p.toNat % widBytes w = 0 →
    softWord s (scratchAt c (p.toNat % 2 ^ 19)) (widBytes w) = some word →
    Traps (.ld g d m w cls false sx) s { cause := .softError, step := 7, info0 := if 8 * word < 2 ^ 52 then BitVec.ofNat 64 (8 * word) else 0 })
  ∧ ∀ (s : State) (g : Guard) (c i : Nat) (t : Strand) (d : GReg) (m : MemOp) (w : Wid) (cls : ReqClass) (mig sx : Bool),
    StrandIssues g s c i t → cls ≠ .w →
    let p := memPtr s m
    let n := widBytes w
    let traps (k : Cause) : Prop := Traps (.ld g d m w cls mig sx) s { cause := k, info0 := p, detail := 1 }
    let named : Prop := pSpace p ≤ 4 ∧ pZeroOk p = true ∧ (pSpace p = 3 → corePresent s (p.toNat / 2 ^ 48 % 1024) = true)
    (¬ named → traps .badOperand)
    ∧ (named → p.toNat % n ≠ 0 → traps .misaligned)
    ∧ (named → p.toNat % n = 0 → mig = true → pSpace p ≠ 2 → pSpace p ≠ 3 → traps .badOperand)
    ∧ (named → p.toNat % n = 0 → mig = false → (pSpace p = 1 ∨ pSpace p = 2 ∨ pSpace p = 3) → cls = .n → traps .protection)
    ∧ (named → p.toNat % n = 0 → mig = false → (pSpace p = 2 ∨ pSpace p = 3) → cls = .s →
        winOk s (pCore c p) c (p.toNat % 2 ^ 19) n true false = false → traps .windowRefused)
    ∧ (2 ^ 56 ≤ p.toNat → Traps (.ldg g d m w cls sx) s (bad p))
    ∧ (0x80000 ≤ p.toNat → Traps (.ldl g d m w sx) s (bad p))

/-- R48, R52 and R154 in global memory: a load that finds a leased copy in its core's L1 while PTS is no later than the lease end is
served from it, and a store, that finds the sector owned there, changes the copy; a load of a sector the L1 does not hold becomes a
lease read on its way to the home, its strand out of rotation. `s'` is the state after the translation. Of the lease hits that leave PTS
as it is, the 32nd in a row adds 1; that one which moves PTS is not counted is the model's choice (log entry 43).
R158, R159, R47 and R64: AMO on global memory goes to the home of its sector as a request, and one that its home serves at once gives gd the old
value and puts f(old, operand) there, at one timestamp. -/
def Obligations.GlobalAccessesUseTheL1OrAskTheHome : Prop :=
  (∀ (s s' : State) (g : Guard) (c i : Nat) (t : Strand) (d : GReg) (y : Src) (m : MemOp) (w : Wid) (cls : ReqClass) (sx : Bool)
    (pa : Nat) (range : Word), StrandIssues g s c i t → StrandIssues g s' c i t →
    s'.time = s.time → s'.hub = s.hub → s'.sregs = s.sregs → s'.far = true →
    let p := memPtr s m
    let n := widBytes w
    let tl := (launchAt s t.record.launch.toNat).tl
    let l := launchAt s' t.record.launch.toNat
    let k := l1Core l.fused c pa
    let x := l1At s' k (pa / 64)
    let ts := max t.ctx.pts x.wts
    let ext (v : Nat) : Word := if sx then (BitVec.ofNat (8 * n) v).signExtend 64 else (BitVec.ofNat (8 * n) v).zeroExtend 64
    p.toNat < 2 ^ 56 → p.toNat % n = 0 →
    (translate s c t.ctxh tl p.toNat true false none p 1 = (s', .mem pa false range) → cls = .s →
      (x.kind = 1 → t.ctx.pts ≤ x.e → hasNoticed s' c range = false →
        ∃ u, exec (.ldg g d m w cls sx) s = .next u ∧ rG u d = ext (x.data / 256 ^ (pa % 64) % 256 ^ n) ∧ (∀ r, r ≠ d → rG u r = rG s' r)
          ∧ rPts u = (if ts = t.ctx.pts ∧ t.lhit = 31 then ts + 1 else ts) ∧ (curCtx u).pc = nextPc t.ctx.pc
          ∧ ∀ a, memByte u.mem a = memByte s'.mem a)
      ∧ (x.kind = 0 → exec (.ldg g d m w cls sx) s = .next (
          let v := putStrand s' c i { t with st := 1, wait := .reply }
          { v with coh.sent := s'.coh.sent + 1
                   coh.net := s'.coh.net ++ [{ seq := s'.coh.sent, tag := curTag s', pa := pa, n := n, kind := .read, pts := t.ctx.pts,
                                               ctxh := t.ctxh, range := range, ptr := p, ll := l.ll, post := .load d w sx }] })))
    ∧ (translate s c t.ctxh tl p.toNat false true none p 2 = (s', .mem pa false range) → cls = .w → x.kind = 2 →
        hasNoticed s' c range = false →
      ∃ u, exec (.stg g y m w cls) s = .next u
        ∧ l1At u k (pa / 64) = { x with data := sectorWith x.data pa n ((srcZ s y).toNat % 256 ^ n), wts := max t.ctx.pts (x.e + 1),
                                        e := max t.ctx.pts (x.e + 1), dirty := true }
        ∧ rPts u = max t.ctx.pts (x.e + 1) ∧ (∀ r, rG u r = rG s' r) ∧ (curCtx u).pc = nextPc t.ctx.pc
        ∧ ∀ a, memByte u.mem a = memByte s'.mem a))
  ∧ (∀ (s s' : State) (g : Guard) (c i : Nat) (t : Strand) (op : AmoOp) (d base : GReg) (disp : BitVec 32) (y : Src) (w : Wid) (un : Bool)
    (pa : Nat) (range : Word), StrandIssues g s c i t → StrandIssues g s' c i t → s'.time = s.time → s'.hub = s.hub → s'.sregs = s.sregs →
    let p := rG s base + disp.signExtend 64
    let n := widBytes w
    let o := (srcZ s y).toNat % 256 ^ n
    let cmp := (rG s d).toNat % 256 ^ n
    let l := launchAt s' t.record.launch.toNat
    let i' : Instr := .amo g op d base disp y w un false
    p.toNat < 2 ^ 56 → p.toNat % n = 0 → pa % n = 0 → pa < 2 ^ 52 → (w = .w32 ∨ w = .w64) →
    translate s c t.ctxh (launchAt s t.record.launch.toNat).tl p.toNat true true none p 4 = (s', .mem pa false range) →
    (s'.far = true → exec i' s = .next (
      let v := putStrand s' c i { t with st := 1, wait := .reply }
      { v with coh.sent := s'.coh.sent + 1
               coh.net := s'.coh.net ++ [{ seq := s'.coh.sent, tag := curTag s', pa := pa, n := n, kind := .amo op o cmp un, pts := t.ctx.pts
                                           ctxh := t.ctxh, range := range, ptr := p, ll := l.ll, post := .amo d w, plain := true, detail := 4 }] }))
    ∧ (s'.far = false → t.steps ≠ 2 → Roomy s' → s'.coh.replies = [] → quiet s' c (homeOf s' pa) = true → homeUp s' pa = true →
      (dirAt s' (pa / 64)).st = .h → hasNoticed s' (homeOf s' pa) range = false →
      let x := filled s' (pa / 64)
      let ts := max t.ctx.pts (x.rts + 1)
      let old := memRead s'.mem pa n
      let sg (v : Nat) : Int := if un then v else if v < 256 ^ n / 2 then v else (v : Int) - 256 ^ n
      let new : Nat := match op with
        | .add => (old + o) % 256 ^ n
        | .and => old &&& o
        | .or => old ||| o
        | .xor => old ^^^ o
        | .min => if sg o < sg old then o else old
        | .max => if sg old < sg o then o else old
        | .swap => o
        | .cas => if old = cmp then o else old
      ∃ u, exec i' s = .next u ∧ rG u d = BitVec.ofNat 64 old ∧ (∀ r, r ≠ d → rG u r = rG s' r) ∧ (∀ q, rP u q = rP s' q)
        ∧ rPts u = ts ∧ (curCtx u).pc = nextPc t.ctx.pc ∧ (dirAt u (pa / 64)).wts = ts ∧ (dirAt u (pa / 64)).rts = ts
        ∧ ∀ a, memByte u.mem a = if pa ≤ a ∧ a < pa + n then BitVec.ofNat 8 (new / 256 ^ (a - pa)) else memByte s'.mem a))

/-- R155 to R157, R60 and R173: PREF and CLFL of a scratchpad pointer only go on; PREF of a line whose sectors are in H leases each of
them to the L1 and leaves PTS; FENCE discards the NC copies of its L1 and nothing else; CLFL of a line with no owned sector makes its
sectors invalid; MIGR to the strand's own core goes on, and to another that its launch admits sends the image there. -/
def Obligations.CacheInstructionsAndMigration : Prop :=
  ∀ (s : State) (g : Guard) (c i : Nat) (t : Strand) (m : MemOp) (cls : ReqClass) (a : Src), StrandIssues g s c i t →
    let p := memPtr s m
    let l := launchAt s t.record.launch.toNat
    let named : Prop := pZeroOk p = true ∧ (pSpace p = 3 → corePresent s (p.toNat / 2 ^ 48 % 1024) = true)
    (named → pSpace p = 1 ∨ pSpace p = 2 ∨ pSpace p = 3 →
      Jumps (.pref g m cls) s [] (nextPc t.ctx.pc) ∧ Jumps (.clfl g m) s [] (nextPc t.ctx.pc))
    ∧ (∀ (e : Tlb) (pa : Nat), p.toNat < 2 ^ 56 → cls = .s → inSystem p.toNat = false → l.fused = false → s.far = false → Roomy s →
        quiet s c (homeOf s pa) = true → homeUp s pa = true →
        tlbFind s c t.ctxh l.tl p.toNat = some e → present s e.pte e.large p.toNat e.range true false { cause := .protection, info0 := p, detail := 1 }
          = .mem pa false e.range → pa < 2 ^ 52 → hasNoticed s c e.range = false → hasNoticed s (homeOf s pa) e.range = false →
        (∀ j, j < 4 → (filled s (pa / 256 * 4 + j)).st = .h ∧ (l1At s c (pa / 256 * 4 + j)).kind = 0) →
      ∃ u, exec (.pref g m cls) s = .next u ∧ (∀ r, rG u r = rG s r) ∧ rPts u = t.ctx.pts ∧ (curCtx u).pc = nextPc t.ctx.pc
        ∧ (∀ j, j < 4 → (l1At u c (pa / 256 * 4 + j)).kind = 1
            ∧ (l1At u c (pa / 256 * 4 + j)).e = max t.ctx.pts (filled s (pa / 256 * 4 + j)).wts + l.ll)
        ∧ ∀ a, memByte u.mem a = memByte s.mem a)
    ∧ (l.fused = false → exec (.fence g) s = .next (advance
        { s with coh.l1 := s.coh.l1.filter fun e => !(e.2.kind == 3 && e.1 / 2 ^ 128 == c) }))
    ∧ (∀ (e : Tlb), p.toNat < 2 ^ 56 → inSystem p.toNat = false → l.fused = false → (∃ r, rangeFor s t.ctxh p.toNat = some r ∧ r.2.lp = false) →
        tlbFind s c t.ctxh l.tl p.toNat = some e → e.pte.st = 1 →
        let line := (e.pte.pn * 65536 + p.toNat % 65536) / 256
        (∀ j, j < 4 → (l1At s c (line * 4 + j)).kind ≠ 2) → s.coh.coh = [] →
      ∃ u, exec (.clfl g m) s = .next u ∧ (∀ j, j < 4 → l1At u c (line * 4 + j) = {}) ∧ (∀ r, rG u r = rG s r) ∧ rPts u = t.ctx.pts
        ∧ (curCtx u).pc = nextPc t.ctx.pc ∧ ∀ a, memByte u.mem a = memByte s.mem a)
    ∧ ((srcZ s a).toNat = c → corePresent s c = true → Jumps (.migr g a) s [] (nextPc t.ctx.pc))
    ∧ (∀ k, (srcZ s a).toNat = k → k ≠ c → admits s l k = true →
      ∃ u, exec (.migr g a) s = .next u ∧ strandAt u c i = none
        ∧ u.core.migr = s.core.migr ++ [(k, { t with ctx := { t.ctx with pc := nextPc t.ctx.pc }, st := 0, wait := .none,
                                                      former := keptTags s { core := c, slot := i, gen := slotGenOf s c i } t.former })]
        ∧ ∀ a, memByte u.mem a = memByte s.mem a)
    ∧ (∀ k, (srcZ s a).toNat = k → k ≠ c → corePresent s k = true → admits s l k = false →
        Traps (.migr g a) s { cause := .protection, info0 := BitVec.ofNat 64 k })

/-! ### Holdings -/

/-- R24, R27, R29, R162 and R167: a GRANT that its home serves at once issues the lowest entry that the home may issue: LIVE, its expiry
the home's device time plus the term, its generation the next one, its owner the issuer's context; the handle is in gd, and a range's
base in the next register. With no entry to issue, no room for a queue's records, or no room for a range's page table in the reserve,
gd is 0 and no entry changes. Other registers and memory stay.
R161 and R162: an operand that GRANT does not admit, or a term above 2^32 - 1, traps BAD_OPERAND with the value in INFO0.
That the entry issued is the lowest, and what a page table takes of the reserve, is the model's choice (log entries 7 and 47). -/
def Obligations.GrantsIssueEntriesOrTrap : Prop :=
  (∀ (s : State) (g : Guard) (c i : Nat) (t : Strand) (d e a : GReg) (x y : Src) (nc lp : Bool) (key : Nat),
     StrandIssues g s c i t → s.far = false → t.steps ≠ 2 → (srcZ s y).toNat < 2 ^ 32 → e.val = d.val + 1 →
     let term := (srcZ s y).toNat
     let v := (srcZ s x).toNat
     let own := defaultSlice s c
     let h := mkHandle key (nextGen (lifeOf s key).gen)
     let back (ins : Instr) (ws : List (GReg × Word)) (u : State) : Prop := exec ins s = .next u ∧ (∀ w ∈ ws, rG u w.1 = w.2)
       ∧ (∀ r, r ∉ ws.map (·.1) → rG u r = rG s r) ∧ (curCtx u).pc = nextPc t.ctx.pc ∧ rPts u = t.ctx.pts
       ∧ ∀ b, memByte u.mem b = memByte s.mem b
     let issued (ins : Instr) (home : Nat) (ws : List (GReg × Word)) : Prop := ∃ u, back ins ws u
       ∧ lifeOf u key = { st := 1, expiry := localDt s home + term, gen := nextGen (lifeOf s key).gen, owner := t.ctxh }
       ∧ ∀ k, k ≠ key → lifeOf u k = lifeOf s k
     let failed (ins : Instr) (ws : List (GReg × Word)) : Prop := ∃ u, back ins ws u ∧ u.hold = s.hold
     let sizeOk : Prop := rG s a ≠ 0 ∧ (rG s a).toNat % (if lp then 2 ^ 21 else 2 ^ 16) = 0 ∧ (rG s a).toNat ≤ 2 ^ 43
     let slice (n : Nat) : Nat := if n = 0 then own else n
     (∀ home base, sizeOk → rangeHome s (c / 256) = some home → freeEntry s 0 home = some key → rangeBase s t.ctxh (rG s a).toNat = some base →
         let fits := tableFits s { base := base, size := (rG s a).toNat, nc := nc, lp := lp }
         (fits = true → issued (.grantRange g d a y nc lp) home [(d, h), (e, BitVec.ofNat 64 base)])
         ∧ (fits = false → failed (.grantRange g d a y nc lp) [(d, 0), (e, 0)]))
     ∧ (sizeOk → rangeBase s t.ctxh (rG s a).toNat = none → failed (.grantRange g d a y nc lp) [(d, 0), (e, 0)])
     ∧ (sizeOk → rangeHome s (c / 256) = none → failed (.grantRange g d a y nc lp) [(d, 0), (e, 0)])
     ∧ (v = 0 ∨ slicePresent s v = true → freeEntry s 1 (slice v) = some key → issued (.grantLock g d x y) (slice v) [(d, h)])
     ∧ (v = 0 ∨ slicePresent s v = true → freeEntry s 1 (slice v) = none → failed (.grantLock g d x y) [(d, 0)])
     ∧ (v ≤ 8 → slotEntry s 4 (c / 4 * 4) v = some key → issued (.grantMslot g d x y) (c / 4 * 4) [(d, h)])
     ∧ (v ≤ 8 → slotEntry s 4 (c / 4 * 4) v = none → failed (.grantMslot g d x y) [(d, 0)])
     ∧ (v ≤ 4 → slotEntry s 5 (c / 4 * 4) v = some key → issued (.grantFslot g d x y) (c / 4 * 4) [(d, h)])
     ∧ (v ≤ 4 → slotEntry s 5 (c / 4 * 4) v = none → failed (.grantFslot g d x y) [(d, 0)])
     ∧ (4 ≤ v → v ≤ 4096 → freeEntry s 7 own = some key → storeUsed s own + v ≤ 65536 → issued (.grantEvq g d x y) own [(d, h)])
     ∧ (4 ≤ v → v ≤ 4096 → freeEntry s 7 own = none ∨ 65536 < storeUsed s own + v → failed (.grantEvq g d x y) [(d, 0)])
     ∧ (∀ kind home, freeEntry s kind home = some key → ∃ j, j < kindCap kind ∧ key = entryKey kind home j ∧ issuable s kind key = true
         ∧ ∀ k, k < j → issuable s kind (entryKey kind home k) = false))
  ∧ (∀ (s : State) (g : Guard) (c i : Nat) (t : Strand) (d a : GReg) (x y : Src) (nc lp : Bool), StrandIssues g s c i t →
       let v := (srcZ s x).toNat
       let page := if lp then 2 ^ 21 else 2 ^ 16
       (rG s a = 0 ∨ (rG s a).toNat % page ≠ 0 ∨ 2 ^ 43 < (rG s a).toNat → Traps (.grantRange g d a y nc lp) s (bad (rG s a)))
       ∧ (v ≠ 0 → slicePresent s v = false → Traps (.grantLock g d x y) s (bad (srcZ s x)))
       ∧ (8 < v → Traps (.grantMslot g d x y) s (bad (srcZ s x)))
       ∧ (4 < v → Traps (.grantFslot g d x y) s (bad (srcZ s x)))
       ∧ (v < 4 ∨ 4096 < v → Traps (.grantEvq g d x y) s (bad (srcZ s x)))
       ∧ (2 ^ 32 ≤ (srcZ s y).toNat → v = 4 → Traps (.grantMslot g d x y) s (bad (srcZ s y)) ∧ Traps (.grantFslot g d x y) s (bad (srcZ s y))
           ∧ Traps (.grantEvq g d x y) s (bad (srcZ s y))))

/-- R31, R33, R164, R166 and R168, served at once: RENEW of a live handle of the issuer's context gives the new expiry, home time plus term,
which the entry then has; LIFE gives the ticks left to the core, 0 for a lapsed entry or another generation; LOCK of a free lock issues
its next tenure, .NW of a lock that is held gives 0, and LOCK of one waits in its queue; ROUTE issues an entry with the descriptor.
The model's choices: ROUTE takes the lowest free entry (log entry 7), and `routeOf` settles what a descriptor is checked for where R167 leaves it
open (log entries 25 and 43). -/
def Obligations.RenewLifeLockAndRouteAtTheirHome : Prop :=
  ∀ (s : State) (g : Guard) (c i : Nat) (t : Strand) (d a : GReg) (y : Src),
    StrandIssues g s c i t → s.far = false → t.steps ≠ 2 → (srcZ s y).toNat < 2 ^ 32 →
    let term := (srcZ s y).toNat
    let h := rG s a
    let key := hKey h
    let x := lifeOf s key
    let home := hHome h
    let q := (lockAt s key).queue
    let gives (ins : Instr) (v : Word) (u : State) : Prop := exec ins s = .next u ∧ rG u d = v ∧ (∀ r, r ≠ d → rG u r = rG s r)
      ∧ (curCtx u).pc = nextPc t.ctx.pc ∧ ∀ b, memByte u.mem b = memByte s.mem b
    (checkHandle s [0, 1, 2, 4, 5, 6, 7] h = .ok () → checkHome s t.ctxh h = .ok () →
      ∃ u, gives (.renew g d a y) (BitVec.ofNat 64 (localDt s home + term)) u
        ∧ lifeOf u key = { x with expiry := localDt s home + term } ∧ rPts u = t.ctx.pts)
    ∧ (checkHandle s [0, 1, 2, 3, 4, 5, 6, 7] h = .ok () → checkIndex h = .ok () →
      (x.gen ≠ hGen h → ∃ u, gives (.life g d a) 0 u)
      ∧ (x.gen = hGen h → x.owner = t.ctxh → ∃ u, gives (.life g d a)
          (BitVec.ofNat 64 ((if x.st = 1 ∧ localDt s (keyHome key) ≤ x.expiry then x.expiry else 0) - localDt s c)) u))
    ∧ (checkHandle s [1] h = .ok () → checkIndex h = .ok () → x.owner = t.ctxh → x.gen ≠ 0 →
      (x.st = 0 → q = [] → ∃ u, gives (.lock g d a y) (mkHandle key (nextGen x.gen)) u
        ∧ lifeOf u key = { st := 1, expiry := localDt s home + term, gen := nextGen x.gen, owner := x.owner })
      ∧ (x.st ≠ 0 ∨ q ≠ [] → (∃ u, gives (.lockNw g d a y) 0 u ∧ u.hold = s.hold)
        ∧ (lockWaiters s home < 16384 → (∀ r ∈ s.coh.replies, r.tag ≠ curTag s) →
            exec (.lock g d a y) s = .next (putLock (putStrand s c i { t with st := 1, wait := .reply }) key
              { queue := q ++ [{ tag := curTag s, term := term, d := d, pts := t.ctx.pts }] })))
      ∧ (x.st = 0 → q = [] → ∃ u, gives (.lockNw g d a y) (mkHandle key (nextGen x.gen)) u))
    ∧ (∀ off, ownPtr s h 32 = .ok off →
        (∀ desc k, routeOf s (memRead s.mem (scratchAt c off) 32) = .ok desc → freeEntry s 2 (defaultSlice s c) = some k →
          ∃ u, gives (.route g d a y) (mkHandle k (nextGen (lifeOf s k).gen)) u ∧ tget {} u.hold.routes k = desc
            ∧ lifeOf u k = { st := 1, expiry := localDt s (defaultSlice s c) + term, gen := nextGen (lifeOf s k).gen, owner := t.ctxh }
            ∧ rPts u = max t.ctx.pts (stampAt s c off).wts)
        ∧ (∀ desc, routeOf s (memRead s.mem (scratchAt c off) 32) = .ok desc → freeEntry s 2 (defaultSlice s c) = none →
          ∃ u, gives (.route g d a y) 0 u ∧ u.hold = s.hold)
        ∧ ∀ e, routeOf s (memRead s.mem (scratchAt c off) 32) = .error e → Traps (.route g d a y) s e)

/-- R32 and R94: a request that travels leaves its strand in STATE 1 and reaches its home as HOME_REQUEST, where a renewal changes the
entry and is answered; REPLY_ARRIVAL gives a waiting strand the registers and the PTS of the reply and its PC moves on; a reply whose tag
is stale is dropped and counted.
R55: a reply does not arrive before one that its home sent to the same core earlier. -/
def Obligations.RequestsTravelAndRepliesArrive : Prop :=
  (∀ (s : State) (g : Guard) (c i : Nat) (t : Strand) (d a : GReg) (y : Src), StrandIssues g s c i t → s.far = true →
    (srcZ s y).toNat < 2 ^ 32 → checkHandle s [0, 1, 2, 4, 5, 6, 7] (rG s a) = .ok () →
    exec (.renew g d a y) s = .next (
      let u := putStrand s c i { t with st := 1, wait := .reply }
      { u with hold.reqs := s.hold.reqs ++
          [{ tag := curTag s, ctxh := t.ctxh, pts := t.ctx.pts, op := .renew d (rG s a) (srcZ s y).toNat }] }))
  ∧ (∀ (s : State) (n : Nat) (r : HoldReq) (d : GReg) (h : Word) (term : Nat), s.hold.reqs[n]? = some r → r.op = .renew d h term →
    hKind h ≠ 4 →
    (checkHome s r.ctxh h = .ok () → exec (.homeRequest n) s = .next (
      let x := localDt s (hHome h) + term
      let u := setLife { s with hold.reqs := s.hold.reqs.eraseIdx n } (hKey h) { lifeOf s (hKey h) with expiry := x }
      { u with coh.replies := s.coh.replies ++ [{ tag := r.tag, act := .regs [(d.val, BitVec.ofNat 64 x)] r.pts }] }))
    ∧ (∀ e, checkHome s r.ctxh h = .error e → exec (.homeRequest n) s = .next
        { s with hold.reqs := s.hold.reqs.eraseIdx n, coh.replies := s.coh.replies ++ [{ tag := r.tag, act := .exc e }] }))
  ∧ (∀ (s : State) (c i : Nat) (t : Strand) (r : Reply) (rest : List Reply) (d : GReg) (v : Word) (pts : Nat),
    s.coh.replies = r :: rest → r.tag.core = c → r.tag.slot = i → r.act = .regs [(d.val, v)] pts →
    (i < 16 → r.tag.park = false → slotGenOf s c i = r.tag.gen → strandAt s c i = some t → t.st = 1 → t.wait = .reply → t.steps ≠ 2 →
      exec (.replyArrival c i) s = .next (putStrand { s with coh.replies := rest } c i
        { t with ctx := { t.ctx with g := t.ctx.g.set d.val v, pc := nextPc t.ctx.pc, pts := pts }
                 lhit := if pts = t.ctx.pts then t.lhit else 0, st := 0, wait := .none }))
    ∧ (slotGenOf s c i ≠ r.tag.gen → exec (.replyArrival c i) s = .next
        { s with coh.replies := rest, core.stale := tset 0 s.core.stale c (tget 0 s.core.stale c + 1) })
    ∧ (∀ q more, rest = q :: more → r.home.isSome = true → q.home = r.home → q.tag.core = c → q.tag.slot ≠ i →
      exec (.replyArrival c q.tag.slot) s = .next s))

/-- R31, R34, R35, R28, R36 and R166: LAPSE_TICK of an entry past its expiry makes it DUSK for 256 ticks, of a lock with a waiter issues the
next tenure and answers it; of a RANGE it sends a notice to every home slice and core that is READY or STARTING; of a ROUTE it answers the
SENDs that wait with LAPSED and wakes the strand blocked on it; of an EVQ it wakes those blocked or parked on it and keeps its records; of a
CONTEXT it wakes a strand blocked under it, and SUMMARY will report it.
DARK_TICK at the end of DUSK makes it DARK, or hands a lock to its longest waiter; before their time neither has an effect. An accumulator or
factor slot is cleared, a directory entry forgotten, a queue's records are dropped, those of routes with a notice, a page of a range is
unmapped with its frame to be freed (R353), and a context's bundles, launches and counters are freed (R301).
A lock's home takes a withdrawal after the request that it follows, and a unit a lapse notice. -/
def Obligations.LapseAndDarkTicksMoveTheLifeOn : Prop :=
  (∀ (s : State) (kind home index : Nat),
    let key := entryKey kind home index
    let x := lifeOf s key
    let dt := localDt s home
    (kind = 1 ∨ kind = 4 ∨ kind = 5 ∨ kind = 6 → x.st = 1 → x.expiry < dt → (lockAt s key).queue = [] →
      exec (.lapseTick kind home index) s = .next (setLife s key { x with st := 2, darkAt := dt + 256 }))
    ∧ (kind = 1 → (x.st = 1 ∧ x.expiry < dt → ∀ w ws, (lockAt s key).queue = w :: ws →
        ∃ u, exec (.lapseTick kind home index) s = .next u
          ∧ lifeOf u key = { st := 1, expiry := dt + w.term, gen := nextGen x.gen, owner := x.owner } ∧ (lockAt u key).queue = ws
          ∧ u.coh.replies = s.coh.replies ++ [{ tag := w.tag, act := .regs [(w.d.val, mkHandle key (nextGen x.gen))] w.pts }]))
    ∧ (x.st ≠ 1 ∨ dt ≤ x.expiry → exec (.lapseTick kind home index) s = .next s)
    ∧ (kind = 0 → x.st = 1 → x.expiry < dt → ∃ u, exec (.lapseTick kind home index) s = .next u
        ∧ lifeOf u key = { x with st := 2, darkAt := dt + 256 }
        ∧ ∃ units : List Nat, u.hold.notices = s.hold.notices ++ units.map (fun v => (v, x.expiry + 33, curHandle s key))
          ∧ ∀ v, v ∈ units ↔ v < 1024 ∧ (readyCode s v = 1 ∨ readyCode s v = 2)
              ∧ if unitOf v ≤ 47 then readyCode s (kCluster (clusterOf v)) = 1 ∨ readyCode s (kCluster (clusterOf v)) = 2 else unitOf v ≤ 51)
    ∧ (kind = 2 → x.st = 1 → x.expiry < dt → hKey (curHandle s key) = key →
        let rt := tget {} s.hold.routes key
        ∃ u, exec (.lapseTick kind home index) s = .next u ∧ lifeOf u key = { x with st := 2, darkAt := dt + 256 }
          ∧ tget {} u.hold.routes key = { rt with waiting := [] }
          ∧ u.coh.replies = s.coh.replies ++ rt.waiting.map (fun w =>
              { tag := w.tag, act := .exc { cause := .lapsed, info0 := curHandle s key, detail := 8 } })
          ∧ ∀ v, tagged s (tagOf rt.dtag) = some v → v.gotQ = curHandle s key → v.st = 2 →
              u.hold.wakes = s.hold.wakes ++ [{ tag := tagOf rt.dtag, q := curHandle s key }])
    ∧ (kind = 7 → x.st = 1 → x.expiry < dt →
        let q := evqAt s key
        ∃ u, exec (.lapseTick kind home index) s = .next u ∧ lifeOf u key = { x with st := 2, darkAt := dt + 256 }
          ∧ evqAt u key = { q with blocked := [], parked := [] }
          ∧ u.hold.wakes = s.hold.wakes ++ q.blocked.map (fun b => { tag := b.tag, q := curHandle s key })
              ++ q.parked.map fun t => { tag := t, q := curHandle s key })
    ∧ (kind = 3 → x.st = 1 → x.expiry < dt →
        ∃ u, exec (.lapseTick kind home index) s = .next u ∧ lifeOf u key = { x with st := 2, darkAt := dt + 256 }
          ∧ curHandle s key ∈ u.hold.lapsedCtx
          ∧ ∀ c i v, strandAt s c i = some v → i < 16 → v.ctxh = curHandle s key → v.st = 2 →
              (∀ e ∈ s.core.slots, e.2.ctxh = curHandle s key → e = (c * 16 + i, v)) → s.core.park = [] →
              strandAt u c i = some { v with st := 0, wait := .woken })
    ∧ (kind = 1 ∨ kind = 2 → x.st = 2 → x.darkAt ≤ dt → (lockAt s key).queue = [] →
        exec (.darkTick kind home index) s = .next (setLife s key { x with st := 0 }))
    ∧ (kind = 6 → x.st = 2 → x.darkAt ≤ dt → (lockAt s key).queue = [] → ∃ u, exec (.darkTick kind home index) s = .next u
        ∧ lifeOf u key = { x with st := 0 } ∧ tget {} u.census.dirents (keyHome key * 128 + key % 128) = {})
    ∧ (kind = 1 → x.st = 2 → x.darkAt ≤ dt → ∀ w ws, (lockAt s key).queue = w :: ws →
        ∃ u, exec (.darkTick kind home index) s = .next u
          ∧ lifeOf u key = { st := 1, expiry := dt + w.term, gen := nextGen x.gen, owner := x.owner } ∧ (lockAt u key).queue = ws
          ∧ u.coh.replies = s.coh.replies ++ [{ tag := w.tag, act := .regs [(w.d.val, mkHandle key (nextGen x.gen))] w.pts }])
    ∧ (kind = 4 → x.st = 2 → x.darkAt ≤ dt → ∃ u, exec (.darkTick kind home index) s = .next u ∧ lifeOf u key = { x with st := 0 }
        ∧ tget {} u.eng.mslots (slotKey key 8) = {} ∧ ∀ n, tget 0 u.eng.acc n = if n / 8192 = slotKey key 8 then 0 else tget 0 s.eng.acc n)
    ∧ (kind = 5 → x.st = 2 → x.darkAt ≤ dt → ∃ u, exec (.darkTick kind home index) s = .next u ∧ lifeOf u key = { x with st := 0 }
        ∧ tget 0 u.eng.order (slotKey key 4) = 0 ∧ ∀ n, tget 0 u.eng.fac n = if n / 4096 = slotKey key 4 then 0 else tget 0 s.eng.fac n)
    ∧ (kind = 7 → x.st = 2 → x.darkAt ≤ dt →
        let q := evqAt s key
        ∃ u, exec (.darkTick kind home index) s = .next u ∧ lifeOf u key = { x with st := 0 } ∧ evqAt u key = {}
          ∧ u.hold.drops = s.hold.drops ++ ((q.recs ++ q.waiting).map (·.route)).filter (· != 0)
          ∧ u.hold.dropped = s.hold.dropped + q.waiting.length)
    ∧ (kind = 3 → x.st = 2 → x.darkAt ≤ dt → ∃ u, exec (.darkTick kind home index) s = .next u ∧ lifeOf u key = { x with st := 0 }
        ∧ (∀ b ∈ u.work.bundles, b.ctxh ≠ curHandle s key) ∧ (∀ e ∈ u.work.launches, e.2.ctxh ≠ curHandle s key)
        ∧ ∀ e ∈ u.work.counters, e.2.ctxh = curHandle s key → e.2 = { gen := e.2.gen })
    ∧ (kind = 0 → x.st = 2 → x.darkAt ≤ dt → ∀ pk p, (pk, p) ∈ s.page.pte → p.st = 1 →
        (let lo := pteKey x.owner ((rangeAt s key).base / 65536)
         let hi := pteKey x.owner (((rangeAt s key).base + (rangeAt s key).size) / 65536)
         lo ≤ pk ∧ pk < hi ∧ ∀ e ∈ s.page.pte, lo ≤ e.1 → e.1 < hi → e = (pk, p)) →
        ∃ u, exec (.darkTick kind home index) s = .next u ∧ lifeOf u key = { x with st := 0 } ∧ tget {} u.page.pte pk = { purge := true }
          ∧ ∃ w ∈ u.page.unmaps, w.pte = pk ∧ w.freed = some p.pn)
    ∧ (x.st ≠ 2 ∨ dt < x.darkAt → exec (.darkTick kind home index) s = .next s))
  ∧ (∀ (s : State) (n key : Nat) (tag : Tag), s.hold.withdrawals[n]? = some (key, tag) →
      ((∀ r ∈ s.hold.reqs, r.tag = tag → ∀ d h term nw, r.op = .lock d h term nw → hKey h ≠ key) →
        exec (.lockWithdrawal n) s = .next (putLock { s with hold.withdrawals := s.hold.withdrawals.eraseIdx n } key
          { queue := (lockAt s key).queue.filter fun w => w.tag != tag }))
      ∧ (∀ r ∈ s.hold.reqs, r.tag = tag → ∀ d h term nw, r.op = .lock d h term nw → hKey h = key → exec (.lockWithdrawal n) s = .next s))
  ∧ (∀ (s : State) (n unit dt : Nat) (h : Word), s.hold.notices[n]? = some (unit, dt, h) →
      ∃ u, exec (.lapseNotice n) s = .next u ∧ hasNoticed u unit h = true ∧ u.hold.notices = s.hold.notices.eraseIdx n ∧ u.mem = s.mem)

/-! ### Messages, event queues and headers -/

/-- R170, R171 and R174: SEND reads the 32 bytes of its payload as a load and asks the route's home, at once or, for a home that is far, by
HOME_REQUEST. With a credit free it takes the credit, puts the payload with the SEND's timestamp on its way, and goes on with PTS at that
timestamp; without one it waits at the home; on a route that has GONE it takes PEER_GONE, its PTS as it was (R8).
RECV and POLL take the oldest record of an event queue, or the oldest message of a route to the strand that the core's channel buffer
holds, or what a wake flit has brought, to their buffer as one store, RECV giving its first 8 bytes and POLL 1; with none POLL gives 0
and RECV blocks in STATE 2. A lapsed route still gives what is held for it, and then LAPSED; a route to another destination traps.
That the timestamp of a message is the PTS after the payload's load is the model's choice (log entry 43). -/
def Obligations.SendRecvAndPollMoveRecords : Prop :=
  ∀ (s : State) (g : Guard) (c i : Nat) (t : Strand) (d a b : GReg) (off : Nat), StrandIssues g s c i t → ownPtr s (rG s b) 32 = .ok off →
    let h := rG s a
    let rt := routeAt s h
    let buf := scratchAt c off
    let x := stampAt s c off
    let ts := max t.ctx.pts x.wts
    let payload : BitVec 256 := BitVec.ofNat 256 (memRead s.mem buf 32)
    let asks : State := putStrand { s with coh.stamps := tset {} s.coh.stamps (c * 8192 + off / 64) { x with rts := max x.rts ts } } c i
      { t with st := 1, wait := .reply }
    (checkHandle s [2] h = .ok () →
      (s.far = true → exec (.send g a b) s = .next { asks with
          hold.reqs := s.hold.reqs ++ [{ tag := curTag s, ctxh := t.ctxh, pts := ts, op := .send h [payload] 0 0 }] })
      ∧ (s.far = false → checkHome s t.ctxh h = .ok () → rt.dtype ≠ 2 →
          (rt.gone = false → rt.credits ≠ 0 → rt.waiting = [] → t.steps ≠ 2 → ∃ u, exec (.send g a b) s = .next u
            ∧ (rt.peer = 0 → u.hold.flights = s.hold.flights ++ [{ route := h, msg := { bytes := payload, ts := ts, route := h } }])
            ∧ (rt.peer ≠ 0 → u.hold.flights = s.hold.flights ∧ u.link.sent = s.link.sent ++ [(rt.peer - 1, s.link.xid % 2 ^ 32, h)])
            ∧ routeAt u h = { rt with credits := rt.credits - 1 } ∧ rPts u = ts ∧ (curCtx u).pc = nextPc t.ctx.pc
            ∧ (∀ r, rG u r = rG s r) ∧ ∀ k, memByte u.mem k = memByte s.mem k)
          ∧ (rt.gone = false → rt.credits = 0 ∨ rt.waiting ≠ [] → (∀ r ∈ s.coh.replies, r.tag ≠ curTag s) →
              exec (.send g a b) s = .next (putRoute asks (hKey h)
                { rt with waiting := rt.waiting ++ [{ tag := curTag s, msgs := [payload], ts := ts }] }))
          ∧ (rt.gone = true → exec (.send g a b) s = .next (confine s (raise { cause := .peerGone, info0 := h, detail := 8 } asks)))))
    ∧ (checkHandle s [2, 7] h = .ok () →
      let took (ins : Instr) (v : Word) (m : Msg) (P : State → Prop) : Prop :=
        let n := max (max t.ctx.pts m.ts) (x.rts + 1)
        ∃ u, exec ins s = .next u ∧ rG u d = v ∧ (∀ r, r ≠ d → rG u r = rG s r) ∧ rPts u = n ∧ (curCtx u).pc = nextPc t.ctx.pc
          ∧ stampAt u c off = { wts := n, rts := n } ∧ u.hold.credits = s.hold.credits ++ (if ownRoute m.route then [m.route] else [])
          ∧ (∀ k, memByte u.mem k = if buf ≤ k ∧ k < buf + 32 then m.bytes.extractLsb' (8 * (k - buf)) 8 else memByte s.mem k) ∧ P u
      let both (m : Msg) (P : State → Prop) : Prop := took (.recv g d a b) (m.bytes.extractLsb' 0 64) m P ∧ took (.poll g d a b) 1 m P
      (∀ m ms, t.got = m :: ms → t.gotQ = h → both m fun u => ∃ y, strandAt u c i = some y ∧ y.got = [])
      ∧ (t.got = [] ∨ t.gotQ ≠ h → hKind h = 7 → checkHome s t.ctxh h = .ok () →
          let q := evqAt s (hKey h)
          (∀ m ms, q.recs = m :: ms → q.blocked = [] → q.waiting = [] → both m fun u => (evqAt u (hKey h)).recs = ms)
          ∧ (q.recs = [] → Writes (.poll g d a b) s d 0
              ∧ exec (.recv g d a b) s = .next (putStrand (putEvq s (hKey h)
                  { q with blocked := q.blocked ++ [{ tag := curTag s, want := 1, issue := t.lastIssue }] }) c i
                { t with st := 2, wait := .recv, gotQ := h, want := 1 })))
      ∧ (t.got = [] ∨ t.gotQ ≠ h → hKind h = 2 → checkIndex h = .ok () →
          let chan := tget [] s.core.chan c
          let mine (m : Msg) : Prop := m.route = h ∧ m.dtag = tagBits (curTag s)
          let own : Prop := (lifeOf s (hKey h)).owner = t.ctxh ∧ rt.dtype = 0 ∧ rt.peer = 0 ∧ rt.dtag = tagBits (curTag s)
          (∀ n m, chan[n]? = some m → mine m → (∀ k y, k < n → chan[k]? = some y → ¬ mine y) → tget [] s.core.chanWait c = [] →
              (liveHandle s h = true → own) → both m fun u => tget [] u.core.chan c = chan.eraseIdx n)
          ∧ ((∀ m ∈ chan, ¬ mine m) →
              (liveHandle s h = false → Traps (.recv g d a b) s (hExc .lapsed h) ∧ Traps (.poll g d a b) s (hExc .lapsed h))
              ∧ (liveHandle s h = true → own → Writes (.poll g d a b) s d 0
                  ∧ exec (.recv g d a b) s = .next (putStrand s c i { t with st := 2, wait := .recv, gotQ := h, want := 1 })))
          ∧ (liveHandle s h = true → (lifeOf s (hKey h)).owner = t.ctxh → rt.dtype ≠ 0 ∨ rt.peer ≠ 0 ∨ rt.dtag ≠ tagBits (curTag s) →
              Traps (.recv g d a b) s (hExc .badOperand h) ∧ Traps (.poll g d a b) s (hExc .badOperand h))))

/-- R176 to R178: MHDT takes 128 descriptors, each as R176 admits, from own scratchpad into the core's field-layout table; MHDR.P stores the
value of each valid field of a layout as 8 bytes, MHDR.B puts the values into the header; each is out for 2 rotations, and neither
changes a byte of memory but those of the values, or of the header bytes its fields cover. A descriptor that R176 does not admit traps
BAD_OPERAND.
R176 and R178: a field is the bits of the header from OFF on, the first bit the most significant, or, with LE, its bytes little-endian;
what is put into a field is what is then read from it, and no other bit of the header changes. -/
def Obligations.HeaderLayoutsMoveFieldsBothWays : Prop :=
  (∀ (s : State) (g : Guard) (c i : Nat) (t : Strand) (a b : GReg) (k : Fin 8) (h v : Nat), StrandIssues g s c i t →
     let out (ins : Instr) (u : State) : Prop := exec ins s = .next u ∧ (∀ r, rG u r = rG s r) ∧ (curCtx u).pc = nextPc t.ctx.pc
       ∧ ∃ x, strandAt u c i = some x ∧ x.st = 1 ∧ x.wait = .rot 2
     let desc (n : Nat) : BitVec 32 := BitVec.ofNat 32 (memRead s.mem (scratchAt c (h + 4 * n)) 4)
     let fs := (List.range 16).filter fun n => (tget 0 s.core.layout (c * 128 + k.val * 16 + n)).getLsbD 31
     let fd (n : Nat) : BitVec 32 := tget 0 s.core.layout (c * 128 + k.val * 16 + n)
     let hdr := memRead s.mem (scratchAt c h) 256
     (ownPtr s (rG s a) 64 = .ok h → h + 512 ≤ 2 ^ 19 → (∀ n, n < 128 → fldOk (desc n) = true) →
       ∃ u, out (.mhdt g a) u ∧ (∀ n, n < 128 → tget 0 u.core.layout (c * 128 + n) = desc n) ∧ ∀ x, memByte u.mem x = memByte s.mem x)
     ∧ (∀ n, ownPtr s (rG s a) 64 = .ok h → h + 512 ≤ 2 ^ 19 → n < 128 → fldOk (desc n) = false → (∀ m, m < n → fldOk (desc m) = true) →
         Traps (.mhdt g a) s (bad ((desc n).setWidth 64)))
     ∧ (ownPtr s (rG s a) 8 = .ok h → h + 256 ≤ 2 ^ 19 → ownPtr s (rG s b) 8 = .ok v → v + 128 ≤ 2 ^ 19 →
       (∃ u, out (.mhdrP g a b k) u ∧ (∀ n ∈ fs, memRead u.mem (scratchAt c (v + 8 * n)) 8 = (fldValue hdr (fd n)).toNat)
         ∧ ∀ x, (∀ n ∈ fs, x < scratchAt c (v + 8 * n) ∨ scratchAt c (v + 8 * n) + 8 ≤ x) → memByte u.mem x = memByte s.mem x)
       ∧ (∃ u, out (.mhdrB g a b k) u
         ∧ (∀ j, j < 256 → (∃ n ∈ fs, j ∈ fldBytes (fd n)) → memByte u.mem (scratchAt c (h + j)) = BitVec.ofNat 8
             (fs.foldl (fun x n => fldPut x (memRead s.mem (scratchAt c (v + 8 * n)) 8) (fd n)) hdr / 256 ^ j))
         ∧ ∀ x, (∀ j, j < 256 → (∃ n ∈ fs, j ∈ fldBytes (fd n)) → x ≠ scratchAt c (h + j)) → memByte u.mem x = memByte s.mem x)))
  ∧ (∀ (h v : Nat) (d : BitVec 32), d.getLsbD 31 = true → fldOk d = true →
       let off := d.toNat % 2048
       let w := d.toNat / 65536 % 64 + 1
       fldGet (fldPut h v d) d = v % 2 ^ w
       ∧ (d.getLsbD 30 = true → fldGet h d = h / 2 ^ off % 2 ^ w)
       ∧ (d.getLsbD 30 = false → ∀ j, j < w → (fldGet h d).testBit (w - 1 - j) = h.testBit (8 * ((off + j) / 8) + 7 - (off + j) % 8))
       ∧ (∀ n, (d.getLsbD 30 = true → n < off ∨ off + w ≤ n) → (d.getLsbD 30 = false → ∀ j, j < w → n ≠ 8 * ((off + j) / 8) + 7 - (off + j) % 8)
           → (fldPut h v d).testBit n = h.testBit n))

/-- R221, R222, R172 and R175: a record that reaches the home of a live queue of its context is its newest; one for a queue that has lapsed
or is of another context is dropped and counted. A message delivered to a strand enters its core's channel buffer and wakes a strand that
then holds all it waits for, or waits at the core's input while the buffer is full. A wake flit takes a blocked strand to its next issue
with its records, a stale one is counted; records for a wait that is over, or a stale tag, are given back; they go to the head of their
queue, and strands in PARK on it are woken, but of a queue that has been issued anew they are dropped, with notices to their routes. A
queue's home that learns that a waiter has left serves the next.
R107, R172 and R171: a held trap record lands, the first fatal one before all others, when its queue admits it; a drop notice of a route of this device sets
GONE, gives the credit back and answers every SEND that waits PEER_GONE; a credit that returns to a route with no SEND waiting is one
more, up to 8. -/
def Obligations.RecordsMessagesAndNoticesArrive : Prop :=
  ((∀ (s : State) (n : Nat) (r : Arrive), s.hold.arriving[n]? = some r → (∀ x ∈ s.hold.arriving.take n, x.q ≠ r.q) →
     let q := evqAt s (hKey r.q)
     (liveHandle s r.q = true → (lifeOf s (hKey r.q)).owner = r.ctxh → q.blocked = [] → q.waiting = [] →
       ∃ u, exec (.evqRecordArrival n) s = .next u ∧ u.hold.arriving = s.hold.arriving.eraseIdx n
         ∧ (q.recs.length < q.cap → (evqAt u (hKey r.q)).recs = q.recs ++ [r.msg] ∧ (evqAt u (hKey r.q)).waiting = [])
         ∧ (q.cap ≤ q.recs.length → (evqAt u (hKey r.q)).recs = q.recs ∧ (evqAt u (hKey r.q)).waiting = [r.msg])
         ∧ u.hold.wakes = s.hold.wakes ++ q.parked.map fun t => { tag := t, q := mkHandle (hKey r.q) 0 })
     ∧ (liveHandle s r.q = false ∨ (lifeOf s (hKey r.q)).owner ≠ r.ctxh → exec (.evqRecordArrival n) s = .next
         { s with hold.arriving := s.hold.arriving.eraseIdx n, hold.dropped := s.hold.dropped + 1 }))
   ∧ (∀ (s : State) (n : Nat) (f : Flight) (t : Strand), s.hold.flights[n]? = some f → (∀ x ∈ s.hold.flights.take n, x.route ≠ f.route) →
     let rt := routeAt s f.route
     let tag := tagOf rt.dtag
     let buf := tget [] s.core.chan tag.core ++ [{ f.msg with dtag := rt.dtag }]
     let entered : State := { s with hold.flights := s.hold.flights.eraseIdx n, core.chan := tset [] s.core.chan tag.core buf }
     let waits := tget [] s.core.chanWait tag.core
     rt.dtype = 0 → tagged s tag = some t →
       (waits = [] → buf.length ≤ 64 →
         (t.gotQ ≠ f.msg.route ∨ t.st = 0 → exec (.messageDelivery n) s = .next entered)
         ∧ (t.gotQ = f.msg.route → t.st = 2 → t.want ≤ buf.countP (fun m => m.route = f.msg.route ∧ m.dtag = rt.dtag) →
             exec (.messageDelivery n) s = .next (putStrand entered tag.core tag.slot { t with st := 0, wait := .woken })))
       ∧ (waits ≠ [] ∨ 64 < buf.length → exec (.messageDelivery n) s = .next { s with
            hold.flights := s.hold.flights.eraseIdx n
            core.chanWait := tset [] s.core.chanWait tag.core (waits ++ [{ f.msg with dtag := rt.dtag }]) }))
   ∧ (∀ (s : State) (n : Nat) (w : Wake) (t : Strand), s.hold.wakes[n]? = some w →
     (tagged s w.tag = some t → (t.st = 2 ∨ t.st = 3) → filtered s w.tag.core t.record = false → liveHandle s t.ctxh = true →
       (w.msgs = [] ∨ (t.gotQ = w.q ∧ t.lastIssue = w.issue) →
         exec (.wakeFlit n) s = .next (putStrand { s with hold.wakes := s.hold.wakes.eraseIdx n } w.tag.core w.tag.slot
           { t with st := 0, wait := .woken, got := w.msgs, gotQ := w.q }))
       ∧ (w.msgs ≠ [] → t.gotQ ≠ w.q ∨ t.lastIssue ≠ w.issue → exec (.wakeFlit n) s = .next { s with
           hold.wakes := s.hold.wakes.eraseIdx n, hold.returns := s.hold.returns ++ [w] }))
     ∧ (tagged s w.tag = none → exec (.wakeFlit n) s = .next { s with
         hold.wakes := s.hold.wakes.eraseIdx n
         hold.returns := if w.msgs = [] then s.hold.returns else s.hold.returns ++ [w]
         core.stale := tset 0 s.core.stale w.tag.core (tget 0 s.core.stale w.tag.core + 1) }))
   ∧ (∀ (s : State) (n : Nat) (w : Wake), s.hold.returns[n]? = some w →
     let q := evqAt s (hKey w.q)
     ((lifeOf s (hKey w.q)).gen = hGen w.q → (lifeOf s (hKey w.q)).st ≠ 0 → q.blocked = [] → q.waiting = [] → exec (.recordReturn n) s = .next
       { putEvq { s with hold.returns := s.hold.returns.eraseIdx n } (hKey w.q) { q with recs := w.msgs ++ q.recs, parked := [] } with
         hold.wakes := s.hold.wakes ++ q.parked.map fun t => { tag := t, q := mkHandle (hKey w.q) 0 } })
     ∧ ((lifeOf s (hKey w.q)).gen ≠ hGen w.q → exec (.recordReturn n) s = .next { s with
         hold.returns := s.hold.returns.eraseIdx n, hold.drops := s.hold.drops ++ (w.msgs.map (·.route)).filter (· != 0) }))
   ∧ (∀ (s : State) (n key : Nat) (r : HoldReq) (b : Blocked), s.hold.reqs[n]? = some r → r.op = .served key → key / 2 ^ 44 = 7 →
     let q := evqAt s key
     q.blocked = [b] → q.waiting = [] → b.want ≤ q.recs.length → exec (.homeRequest n) s = .next
       { putEvq { s with hold.reqs := s.hold.reqs.eraseIdx n } key { q with blocked := [], recs := q.recs.drop b.want } with
         hold.wakes := s.hold.wakes ++ [{ tag := b.tag, q := curHandle s key, msgs := q.recs.take b.want, issue := b.issue }] }))
  ∧ ((∀ (s : State) (c : Nat) (r : TrapRec) (rest : List TrapRec), tget [] s.core.held c = r :: rest → (r.fatal = true ∨ ∀ x ∈ rest, x.fatal = false) →
       let q := evqAt s (hKey r.tq)
       (liveHandle s r.tq = true → q.recs.length + (if r.fatal = true then 1 else 2) ≤ q.cap → q.blocked = [] → q.waiting = [] →
         ∃ u, exec (.trapRecordLand c) s = .next u ∧ (evqAt u (hKey r.tq)).recs = q.recs ++ [{ bytes := r.bytes }] ∧ tget [] u.core.held c = rest)
       ∧ (liveHandle s r.tq = true → q.cap < q.recs.length + (if r.fatal = true then 1 else 2) → exec (.trapRecordLand c) s = .next s))
     ∧ (∀ (s : State) (c : Nat) (pre post : List TrapRec) (r : TrapRec), tget [] s.core.held c = pre ++ r :: post → (∀ x ∈ pre, x.fatal = false) →
       r.fatal = true → liveHandle s r.tq = true →
       let q := evqAt s (hKey r.tq)
       q.recs.length + 1 ≤ q.cap → q.blocked = [] → q.waiting = [] →
       ∃ u, exec (.trapRecordLand c) s = .next u ∧ (evqAt u (hKey r.tq)).recs = q.recs ++ [{ bytes := r.bytes }]
         ∧ tget [] u.core.held c = pre ++ post)
     ∧ (∀ (s : State) (n : Nat) (h : Word), s.hold.drops[n]? = some h → h ≠ 0 → hKind h ≠ 14 → (lifeOf s (hKey h)).gen = hGen h →
       let rt := routeAt s h
       ∃ u, exec (.dropNotice n) s = .next u ∧ routeAt u h = { rt with gone := true, credits := min 8 (rt.credits + 1), waiting := [] }
         ∧ u.coh.replies = s.coh.replies ++ rt.waiting.map (fun w => { tag := w.tag, act := .exc { cause := .peerGone, info0 := h, detail := 8 } })
         ∧ u.hold.drops = s.hold.drops.eraseIdx n)
     ∧ (∀ (s : State) (n : Nat) (h : Word), s.hold.credits[n]? = some h → (lifeOf s (hKey h)).gen = hGen h → (routeAt s h).waiting = [] →
       let rt := routeAt s h
       ∃ u, exec (.creditReturn n) s = .next u ∧ routeAt u h = { rt with credits := min 8 (rt.credits + 1) }
         ∧ u.hold.credits = s.hold.credits.eraseIdx n ∧ u.hold.flights = s.hold.flights))

/-! ### The vector unit -/

/-- R199: VSHP puts its value into one field of the record at ga, at one timestamp, and changes no other byte and no register. A value
that the field does not admit traps BAD_OPERAND with INFO0 the value.
R183: a pointer that names no record traps before any record is read. With the records read, the first that breaks a check of steps 3
to 7 traps BAD_OPERAND with its pointer in INFO0, and the state it traps in is the one with the records read: the PTS keeps the value
that the loads gave. Said of VADD and VRED: reserved bits, the bank, a format, a count. -/
def Obligations.VshpAndTheChecksOfAVectorInstruction : Prop :=
  (∀ (s : State) (g : Guard) (c i : Nat) (t : Strand) (f : ShpField) (a : GReg) (b : Src), StrandIssues g s c i t →
     recPtr s (rG s a) = .ok (pOff (rG s a)) →
     let off := pOff (rG s a)
     let x := shapeAt s c a
     let st := stampAt s c off
     let ts := max t.ctx.pts (st.rts + 1)
     let z := srcZ s b
     let v := srcS s b
     let moved : Int := (x.base : Int) + v.toInt
     let puts (k n : Nat) (w : Int) : Prop := ∃ u, exec (.vshp g f a b) s = .next u
       ∧ ((memRead u.mem (scratchAt c (off + k)) n : Nat) : Int) = w % 256 ^ n
       ∧ (∀ m, ¬ (scratchAt c off + k ≤ m ∧ m < scratchAt c off + k + n) → memByte u.mem m = memByte s.mem m)
       ∧ (∀ r, rG u r = rG s r) ∧ (∀ p, rP u p = rP s p) ∧ rPts u = ts ∧ stampAt u c off = { wts := ts, rts := ts }
       ∧ (curCtx u).pc = nextPc t.ctx.pc
     let field (ok : Prop) (val : Word) (k n : Nat) (w : Int) : Prop :=
       (ok → puts k n w) ∧ (¬ ok → Traps (.vshp g f a b) s (bad val))
     match f with
     | .base => field (x.ch = true ∨ z.toNat < 0x80000) z 0 8 z.toNat
     | .e0 => field (z.toNat ≤ 65535) z 8 2 z.toNat
     | .e1 => field (z.toNat ≤ 65535) z 10 2 z.toNat
     | .e2 => field (z.toNat ≤ 65535) z 12 2 z.toNat
     | .e3 => field (z.toNat ≤ 65535) z 14 2 z.toNat
     | .s1 => field (-(2 ^ 23) ≤ v.toInt ∧ v.toInt < 2 ^ 23) v 0x10 3 v.toInt
     | .s2 => field (-(2 ^ 23) ≤ v.toInt ∧ v.toInt < 2 ^ 23) v 0x13 3 v.toInt
     | .s3 => field (-(2 ^ 23) ≤ v.toInt ∧ v.toInt < 2 ^ 23) v 0x16 3 v.toInt
     | .flags => field (z.toNat < 256 ∧ z.toNat / 2 % 8 = 0) z 0x1A 2 z.toNat
     | .adv => field (x.ch = false ∧ 0 ≤ moved ∧ moved < 0x80000) v 0 8 moved)
  ∧ (∀ (s : State) (g : Guard) (c i : Nat) (t : Strand) (d a b : GReg) (sat : Bool) (op : RedOp), StrandIssues g s c i t →
       t.prog = none →
       let ok (r : GReg) : Prop := recPtr s (rG s r) = .ok (pOff (rG s r))
       let xd := shapeAt s c d
       let xa := shapeAt s c a
       let xb := shapeAt s c b
       let read : State := (readShapes s [rG s d, rG s a, rG s b]).1
       let traps (r : GReg) : Prop := exec (.vadd g d a b sat) s = .next (confine s (raise (bad (rG s r)) read))
       let zero : Prop := xd.zeroOk = true ∧ xa.zeroOk = true ∧ xb.zeroOk = true
       let plain : Prop := xd.ch = false ∧ xa.ch = false ∧ xb.ch = false
       (recPtr s (rG s d) = .error (bad (rG s d)) → Traps (.vadd g d a b sat) s (bad (rG s d)))
       ∧ (ok d → recPtr s (rG s a) = .error (bad (rG s a)) → Traps (.vadd g d a b sat) s (bad (rG s a)))
       ∧ (recPtr s (rG s a) = .error (bad (rG s a)) → Traps (.vred g op d a) s (bad (rG s a)))
       ∧ (ok d → ok a → ok b →
         rPts read = max (max (max t.ctx.pts (stampAt s c (pOff (rG s d))).wts) (stampAt s c (pOff (rG s a))).wts)
             (stampAt s c (pOff (rG s b))).wts
         ∧ (∀ m, memByte read.mem m = memByte s.mem m)
         ∧ (xd.zeroOk = false → traps d)
         ∧ (xd.zeroOk = true → xa.zeroOk = false → traps a)
         ∧ (zero → plain → floatFmt xd.fmt = false → intFmt xd.fmt = false → traps d)
         ∧ (zero → plain → floatFmt xd.fmt = true → floatFmt xa.fmt = false → traps a)
         ∧ (zero → plain → intFmt xd.fmt = true → xa.fmt = xd.fmt → xb.fmt ≠ xd.fmt → traps b)
         ∧ (zero → plain → (∀ x ∈ [xd, xa, xb], floatFmt x.fmt = true) → xa.count ≠ xd.count → xa.count ≠ 1 → traps a)
         ∧ (zero → plain → (∀ x ∈ [xd, xa, xb], floatFmt x.fmt = true) → xa.count = xd.count → xb.count = xd.count →
             xd.inBank xd.size xd.size = false → traps d)))

/-- R186 to R188: how an element is written. A NaN is the canonical one of its format; an infinity is kept, is clamped with SAT under
.SAT, or is a NaN with NV in E4M3; an integer is taken modulo 256, or clamped with SAT to the range of its format; and an E4M3 or E5M2
element written as zero counts when the exact result is finite and not zero.
R200 with R184 and R186 to R191: the element-wise arithmetic on shapes. With float formats each element is the sum, difference,
product, fused sum, quotient, larger, smaller, magnitude or negation, written once; with one integer format the exact result is written
modulo 256 or clamped. Nothing else changes but VSTAT and the PTS.
R190 and R191: in turns that make memory requests travel, and while another slot of its core has beats pending, VADD of plain shapes is out of
rotation in STATE 1 until its last beat, and each of its turns makes one access: the elements of A of a beat, those of B, then the stores of
that beat, whose flags and count VSTAT then takes (R189); with no beat left it is done. A turn of a slot with beats pending serves it when its
beat has begun, or when none has and it is the first with beats pending from the one after the slot served last. One access to a turn that
makes requests travel is the model's choice (log entry 2), and so is where the round begins (log entry 50). -/
def Obligations.VectorArithmeticWritesEachElementOnce : Prop :=
  ((∀ (m : RMode) (sat : Bool) (sg n : Bool) (fl : Nat),
     wr 1 m sat (.nan sg, fl) = (0x7FC00000, fl) ∧ wr 2 m sat (.nan sg, fl) = (0x7FC0, fl)
     ∧ wr 3 m sat (.nan sg, fl) = (0x7F, fl) ∧ wr 4 m sat (.nan sg, fl) = (0x7E, fl)
     ∧ wr 1 m false (.inf n, fl) = ((if n then 0x80000000 else 0) + 0x7F800000, fl)
     ∧ wr 2 m false (.inf n, fl) = ((if n then 0x8000 else 0) + 0x7F80, fl)
     ∧ wr 4 m false (.inf n, fl) = ((if n then 0x80 else 0) + 0x7C, fl)
     ∧ wr 3 m false (.inf n, fl) = (0x7F, fl ||| 16)
     ∧ wr 1 m true (.inf n, fl) = ((if n then 0x80000000 else 0) + 0x7F7FFFFF, fl ||| 32)
     ∧ wr 2 m true (.inf n, fl) = ((if n then 0x8000 else 0) + 0x7F7F, fl ||| 32)
     ∧ wr 3 m true (.inf n, fl) = ((if n then 0x80 else 0) + 0x7E, fl ||| 32)
     ∧ wr 4 m true (.inf n, fl) = ((if n then 0x80 else 0) + 0x7B, fl ||| 32))
   ∧ (∀ x : Int,
     putInt 8 false x = ((x % 256).toNat, 0, 0) ∧ putInt 9 false x = ((x % 256).toNat, 0, 0)
     ∧ putInt 8 true x = (if x < -128 then (0x80, 32, 0) else if 127 < x then (0x7F, 32, 0) else ((x % 256).toNat, 0, 0))
     ∧ putInt 9 true x = (if x < 0 then (0, 32, 0) else if 255 < x then (0xFF, 32, 0) else ((x % 256).toNat, 0, 0)))
   ∧ (∀ (f : Nat) (m : RMode) (sat : Bool) (x : FVal) (fl : Nat),
     (putFloat f m sat (x, fl)).1 = (wr f m sat (x, fl)).1 ∧ (putFloat f m sat (x, fl)).2.1 = (wr f m sat (x, fl)).2
     ∧ (putFloat f m sat (x, fl)).2.2 =
       match x with
       | .fin _ k _ => if (f = 3 ∨ f = 4) ∧ (wr f m sat (x, fl)).1 % 128 = 0 ∧ k ≠ 0 then 1 else 0
       | _ => 0))
  ∧ (∀ (s : State) (g : Guard) (c i : Nat) (t : Strand) (d a b : GReg) (sat : Bool), StrandIssues g s c i t →
       let xd := shapeAt s c d
       let xa := shapeAt s c a
       let xb := shapeAt s c b
       let fa (n : Nat) : FVal := floatVal xa.fmt (srcElem s c xa n)
       let fb (n : Nat) : FVal := floatVal xb.fmt (srcElem s c xb n)
       let fd (n : Nat) : FVal := floatVal xd.fmt (elemAt s c xd n)
       let ia (n : Nat) : Int := intVal xa.fmt (srcElem s c xa n)
       let ib (n : Nat) : Int := intVal xb.fmt (srcElem s c xb n)
       let float (ins : Instr) (r : Nat → FVal × Nat) : Prop := VectorWrites ins s c xd fun n => putFloat xd.fmt .rne sat (r n)
       let int (ins : Instr) (r : Nat → Int) : Prop := VectorWrites ins s c xd fun n => putInt xd.fmt sat (r n)
       let quiet (h : FVal → FVal) (x : FVal) : FVal × Nat := if x.isNan then (.nan false, sigFlag x.isSig) else (h x, 0)
       (Shapes s c xd.count (some d) [a, b] → floatFmt xd.fmt = true → floatFmt xa.fmt = true → floatFmt xb.fmt = true →
         float (.vadd g d a b sat) (fun n => fAdd .rne (fa n) (fb n))
         ∧ float (.vsub g d a b sat) (fun n => fSub .rne (fa n) (fb n))
         ∧ float (.vmul g d a b sat) (fun n => fMul (fa n) (fb n))
         ∧ float (.vfma g d a b sat) (fun n => fFma .rne (fa n) (fb n) (fd n))
         ∧ float (.vdiv g d a b sat) (fun n => fDiv (fa n) (fb n))
         ∧ float (.vmax g d a b sat) (fun n => fMinMax true (fa n) (fb n))
         ∧ float (.vmin g d a b sat) (fun n => fMinMax false (fa n) (fb n)))
       ∧ (Shapes s c xd.count (some d) [a, b] → intFmt xd.fmt = true → xa.fmt = xd.fmt → xb.fmt = xd.fmt →
         int (.vadd g d a b sat) (fun n => ia n + ib n)
         ∧ int (.vsub g d a b sat) (fun n => ia n - ib n)
         ∧ int (.vmul g d a b sat) (fun n => ia n * ib n)
         ∧ int (.vmax g d a b sat) (fun n => if ia n ≤ ib n then ib n else ia n)
         ∧ int (.vmin g d a b sat) (fun n => if ia n ≤ ib n then ia n else ib n))
       ∧ (Shapes s c xd.count (some d) [a] → floatFmt xd.fmt = true → floatFmt xa.fmt = true →
         float (.vabs g d a sat) (fun n => quiet FVal.abs (fa n)) ∧ float (.vneg g d a sat) (fun n => quiet FVal.negate (fa n)))
       ∧ (Shapes s c xd.count (some d) [a] → intFmt xd.fmt = true → xa.fmt = xd.fmt →
         int (.vabs g d a sat) (fun n => if ia n < 0 then -ia n else ia n) ∧ int (.vneg g d a sat) (fun n => -ia n)))
  ∧ ((∀ (s : State) (g : Guard) (c i : Nat) (t : Strand) (d a b : GReg) (sat : Bool), StrandIssues g s c i t →
       s.far = true ∨ (List.range 16).any (beatPending s c) = true →
       let xs := [shapeAt s c d, shapeAt s c a, shapeAt s c b]
       ShapesFit s c (shapeAt s c d).count (some d) [a, b] → (∀ x ∈ xs, floatFmt x.fmt = true) →
       ∃ u x, exec (.vadd g d a b sat) s = .next u ∧ strandAt u c i = some x ∧ x.st = 1 ∧ x.wait = .beats
         ∧ x.prog = some { xs := xs, msgs := 0, expr := exprOf s c } ∧ x.ctx.pc = t.ctx.pc ∧ x.ctx.g = t.ctx.g
         ∧ ∀ m, memByte u.mem m = memByte s.mem m)
   ∧ (∀ (s : State) (g : Guard) (c i : Nat) (t : Strand) (p : VProg) (d a b : GReg) (sat : Bool) (xd xa xb : Shape),
       StrandIssues g s c i t → t.prog = some p → p.xs = [xd, xa, xb] → xd.ch = false → xa.ch = false → xb.ch = false →
       xa.count = xd.count → xb.count = xd.count → floatFmt xd.fmt = true → floatFmt xa.fmt = true → floatFmt xb.fmt = true →
       let L := lanes (max (max (max 1 xd.size) xa.size) xb.size)
       let m := p.beat * L
       let n := min L (xd.count - m)
       let k := p.vals.length
       let goes (pts : Nat) (q : VProg) (u : State) : Prop := exec (.vadd g d a b sat) s = .next u
         ∧ strandAt u c i = some { t with ctx := { t.ctx with pts := pts }, lhit := if pts = t.ctx.pts then t.lhit else 0, st := 1,
                                          wait := .beats, prog := some q }
       (p.beat < (xd.count + L - 1) / L →
         (k < 2 * n →
           let y := if k < n then xa else xb
           let off := y.addr y.size (m + if k < n then k else k - n)
           let ts := max t.ctx.pts (stampAt s c off).wts
           ∃ u, goes ts { p with vals := p.vals ++ [memRead s.mem (scratchAt c off) y.size] } u
             ∧ (stampAt u c off).rts = max (stampAt s c off).rts ts ∧ ∀ x, memByte u.mem x = memByte s.mem x)
         ∧ (k = 2 * n → p.stored < n →
             let off := xd.addr xd.size (m + p.stored)
             let ts := max t.ctx.pts ((stampAt s c off).rts + 1)
             let v := (putFloat xd.fmt .rne sat (fAdd .rne (floatVal xa.fmt (p.vals[p.stored]?.getD 0))
               (floatVal xb.fmt (p.vals[n + p.stored]?.getD 0)))).1
             ∃ u, goes ts { p with stored := p.stored + 1 } u ∧ stampAt u c off = { wts := ts, rts := ts }
               ∧ ∀ x, memByte u.mem x = if scratchAt c off ≤ x ∧ x < scratchAt c off + xd.size
                   then BitVec.ofNat 8 (v / 256 ^ (x - scratchAt c off)) else memByte s.mem x)
         ∧ (k = 2 * n → p.stored = n →
             let made (j : Nat) : Nat × Nat × Nat := putFloat xd.fmt .rne sat (fAdd .rne (floatVal xa.fmt (p.vals[j]?.getD 0))
               (floatVal xb.fmt (p.vals[n + j]?.getD 0)))
             ∃ u q, goes t.ctx.pts q u ∧ q.beat = p.beat + 1 ∧ q.vals = [] ∧ q.stored = 0 ∧ q.xs = p.xs
               ∧ u.stat = (raiseVstat s c ((List.range n).foldl (fun x j => x ||| (made j).2.1) 0)
                   ((List.range n).map fun j => (made j).2.2).sum).stat
               ∧ ∀ x, memByte u.mem x = memByte s.mem x))
       ∧ ((xd.count + L - 1) / L ≤ p.beat →
           ∃ u x, exec (.vadd g d a b sat) s = .next u ∧ strandAt u c i = some x ∧ x.prog = none ∧ x.st = t.st
             ∧ u.stat = (raiseVstat s c p.fl p.zeros).stat ∧ (∀ r, rG u r = rG s r) ∧ (curCtx u).pc = nextPc t.ctx.pc
             ∧ ∀ x, memByte u.mem x = memByte s.mem x))
   ∧ (∀ (s : State) (c j : Nat) (t : Strand) (p : VProg), strandAt s c j = some t → t.st = 1 → t.wait = .beats → t.prog = some p → j < 16 →
       let pending (k : Nat) : Prop := ∃ x q, strandAt s c k = some x ∧ x.st = 1 ∧ x.wait = .beats ∧ x.prog = some q
         ∧ q.beat < (vbeats q.xs).length
       let begun (k : Nat) : Prop := pending k ∧ ∃ x q, strandAt s c k = some x ∧ x.prog = some q ∧ (q.vals ≠ [] ∨ q.stored ≠ 0)
       let first := tget 0 s.core.beatNext c
       let serves : Prop := strandTurn c j s = afterStep c j (performWord t.ctx.iw
         (putStrand { s with core.beatNext := tset 0 s.core.beatNext c ((j + 1) % 16) } c j { t with st := 0, wait := .none }))
       pending j →
       (begun j → serves)
       ∧ (¬ begun j → (∃ k, k < 16 ∧ begun k) → strandTurn c j s = .next s)
       ∧ (∀ m, m < 16 → (first + m) % 16 = j → (∀ k, k < 16 → ¬ begun k) →
           ((∀ n, n < m → ¬ pending ((first + n) % 16)) → serves)
           ∧ ((∃ n, n < m ∧ pending ((first + n) % 16)) → strandTurn c j s = .next s))))

/-- R201 and R210: VMOV, VSEL, VAND, VOR, VXOR, VSHL, VSHR and VTRN copy, combine, choose, shift and transpose the bits of elements, and
raise no flag.
R202 to R206: VCMP writes 1 or 0 as its condition holds; VCVT converts by the row of its two formats; VEXP, VLOG, VRSQ and VRCP write
their function, whose special cases are those of the rules. -/
def Obligations.VectorBitsComparesConversionsAndFunctions : Prop :=
  (∀ (s : State) (g : Guard) (c i : Nat) (t : Strand) (d a b : GReg) (y : Src), StrandIssues g s c i t →
     let xd := shapeAt s c d
     let xa := shapeAt s c a
     let xb := shapeAt s c b
     let ea (n : Nat) : Nat := srcElem s c xa n
     let eb (n : Nat) : Nat := srcElem s c xb n
     let k := (srcZ s y).toNat
     let bits (ins : Instr) (r : Nat → Nat) : Prop := VectorWrites ins s c xd fun n => (r n, 0, 0)
     let kind (x : Shape) : Prop := x.fmt = 0 ∨ floatFmt x.fmt = true ∨ intFmt x.fmt = true
     (Shapes s c xd.count (some d) [a] → kind xd → kind xa → xa.size = xd.size → bits (.vmov g d a) ea)
     ∧ (Shapes s c xd.count (some d) [a, b] → kind xd → kind xa → kind xb → xa.size = xd.size → xb.size = xd.size →
       bits (.vand g d a b) (fun n => ea n &&& eb n) ∧ bits (.vor g d a b) (fun n => ea n ||| eb n)
       ∧ bits (.vxor g d a b) (fun n => ea n ^^^ eb n))
     ∧ (Shapes s c xd.count (some d) [a, b] → kind xd → xa.fmt = xd.fmt → xb.fmt = xd.fmt →
       bits (.vsel g d a b) (fun n =>
         let e := elemAt s c xd n
         if e = 0 ∨ (xd.fmt = 1 ∧ e = 2 ^ 31) ∨ (xd.fmt = 2 ∧ e = 2 ^ 15) ∨ ((xd.fmt = 3 ∨ xd.fmt = 4) ∧ e = 128) then eb n else ea n))
     ∧ (Shapes s c xd.count (some d) [a] → (xd.fmt = 0 ∨ intFmt xd.fmt = true) → xa.fmt = xd.fmt →
       bits (.vshl g d a y) (fun n => ea n * 2 ^ k)
       ∧ bits (.vshr g d a y) (fun n =>
           if xd.fmt = 8 ∧ 128 ≤ ea n then 255 - (255 - ea n) / 2 ^ k else ea n / 2 ^ k))
     ∧ (Shapes s c xd.count (some d) [a] (trnIndex xd) → kind xd → kind xa → xa.size = xd.size →
       xd.e0 = xa.e1 → xd.e1 = xa.e0 → xd.e2 = xa.e2 → xd.e3 = xa.e3 →
       ∃ u, exec (.vtrn g d a) s = .next u
         ∧ (∀ i0 i1 i2 i3, i0 < xd.e0 → i1 < xd.e1 → i2 < xd.e2 → i3 < xd.e3 →
             elemAt u c xd (i0 + xd.e0 * (i1 + xd.e1 * (i2 + xd.e2 * i3)))
               = elemAt s c xa (i1 + xa.e0 * (i0 + xa.e1 * (i2 + xa.e2 * i3))))
         ∧ (∀ m, (∀ n, n < xd.count →
             ¬ (scratchAt c (xd.addr xd.size n) ≤ m ∧ m < scratchAt c (xd.addr xd.size n) + xd.size)) →
             memByte u.mem m = memByte s.mem m)
         ∧ (∀ r, rG u r = rG s r) ∧ (∀ p, rP u p = rP s p) ∧ (curCtx u).pc = nextPc t.ctx.pc))
  ∧ ((∀ (s : State) (g : Guard) (c i : Nat) (t : Strand) (d a b : GReg) (sat : Bool) (cc : FCond) (m : RMode), StrandIssues g s c i t →
       let xd := shapeAt s c d
       let xa := shapeAt s c a
       let xb := shapeAt s c b
       let fa (n : Nat) : FVal := floatVal xa.fmt (srcElem s c xa n)
       let ia (n : Nat) : Int := intVal xa.fmt (srcElem s c xa n)
       let ib (n : Nat) : Int := intVal xb.fmt (srcElem s c xb n)
       let one : Nat := match xd.fmt with
         | 1 => 0x3F800000
         | 2 => 0x3F80
         | 3 => 0x38
         | 4 => 0x3C
         | _ => 1
       let number (x : Shape) : Prop := floatFmt x.fmt = true ∨ intFmt x.fmt = true
       (Shapes s c xd.count (some d) [a, b] → number xd → floatFmt xa.fmt = true → floatFmt xb.fmt = true →
         VectorWrites (.vcmp g cc d a b) s c xd fun n =>
           let r := fCond cc (fa n) (floatVal xb.fmt (srcElem s c xb n))
           (if r.1 then one else 0, r.2, 0))
       ∧ (Shapes s c xd.count (some d) [a, b] → number xd → intFmt xa.fmt = true → xb.fmt = xa.fmt → cc ≠ .un → cc ≠ .or →
         VectorWrites (.vcmp g cc d a b) s c xd fun n =>
           let holds : Bool := match cc with
             | .eq => ia n == ib n
             | .ne => ia n != ib n
             | .lt => decide (ia n < ib n)
             | .le => decide (ia n ≤ ib n)
             | .gt => decide (ib n < ia n)
             | .ge => decide (ib n ≤ ia n)
             | .un => false
             | .or => true
           (if holds then one else 0, 0, 0))
       ∧ (Shapes s c xd.count (some d) [a] → number xd → number xa →
         VectorWrites (.vcvt g d a m sat) s c xd fun n =>
           if floatFmt xa.fmt = true then
             if floatFmt xd.fmt = true then putFloat xd.fmt m sat (fa n, sigFlag (fa n).isSig)
             else
               let r := toInt m (intLo xd.fmt) (intHi xd.fmt) (fa n)
               ((r.1 % 256).toNat, r.2, 0)
           else if floatFmt xd.fmt = true then putFloat xd.fmt m sat (.ofInt (ia n), 0)
           else putInt xd.fmt sat (ia n))
       ∧ (Shapes s c xd.count (some d) [a] → floatFmt xd.fmt = true → floatFmt xa.fmt = true →
         (VectorWrites (.vexp g d a sat) s c xd fun n =>
           let y := vexp (decide (n % 16 < (exprOf s c).toNat % 32)) (f32.unpack (widen xa.fmt (srcElem s c xa n)))
           let r := wr xd.fmt .rne sat (f32.unpack y.1, y.2.1)
           (r.1, r.2, if (xd.fmt = 3 ∨ xd.fmt = 4) ∧ r.1 % 128 = 0 ∧ y.2.2 = true then 1 else 0))
         ∧ (VectorWrites (.vlog g d a sat) s c xd fun n => putFloat xd.fmt .rne sat (fLog (fa n)))
         ∧ (VectorWrites (.vrsq g d a sat) s c xd fun n => putFloat xd.fmt .rne sat (fRsq (fa n)))
         ∧ (VectorWrites (.vrcp g d a sat) s c xd fun n => putFloat xd.fmt .rne sat (fDiv (.fin false 1 0) (fa n)))))
     ∧ (∀ (poly n sg : Bool) (m : Nat) (e : Int),
       vexp poly (.nan sg) = (0x7FC00000, if sg then 16 else 0, false)
       ∧ vexp poly (.inf false) = (0x7F800000, 0, false) ∧ vexp poly (.inf true) = (0, 0, false)
       ∧ ((89 : ℚ) < ratOf n m e → vexp poly (.fin n m e) = (0x7F800000, 5, true))
       ∧ (ratOf n m e < -104 → vexp poly (.fin n m e) = (0, 3, true))
       ∧ fLog (.nan sg) = (.nan false, if sg then 16 else 0) ∧ fLog (.inf false) = (.inf false, 0) ∧ fLog (.inf true) = (.nan false, 16)
       ∧ fLog (.fin n 0 e) = (.inf true, 8) ∧ (m ≠ 0 → fLog (.fin true m e) = (.nan false, 16))
       ∧ (ratOf n m e = 1 → fLog (.fin n m e) = (.fin false 0 0, 0))
       ∧ fRsq (.nan sg) = (.nan false, if sg then 16 else 0) ∧ fRsq (.inf false) = (.fin false 0 0, 0) ∧ fRsq (.inf true) = (.nan false, 16)
       ∧ fRsq (.fin n 0 e) = (.inf n, 8) ∧ (m ≠ 0 → fRsq (.fin true m e) = (.nan false, 16))))

/-- R207: VRED and VDOT write a register: over floats the tree sum, maximum or minimum, which splits at the largest power of two below
the count, each node rounded to FP32; over integers the exact sum, largest or smallest value; with no element the identity.
R208, R188 and R209: VSCAN writes the running value at each element, and counts a zero by the exact prefix; VBCAST the scalar; VIOTA A + n·B; VCLAMP the value between its
bounds; VSCALE a·2^s. A scalar that the rule does not admit traps BAD_OPERAND with INFO0 the scalar, the record read. -/
def Obligations.VectorReductionsScansAndScalarForms : Prop :=
  ((∀ (s : State) (g : Guard) (c i : Nat) (t : Strand) (op : RedOp) (d a b : GReg), StrandIssues g s c i t →
     let xa := shapeAt s c a
     let xb := shapeAt s c b
     let N := xa.count
     let fa (n : Nat) : FVal := floatVal xa.fmt (srcElem s c xa n)
     let ints : List Int := (List.range N).map fun n => intVal xa.fmt (srcElem s c xa n)
     let node (op : RedOp) : FVal → FVal → FVal × Nat := match op with
       | .sum => fAdd .rne
       | .max => fMinMax true
       | .min => fMinMax false
     (Shapes s c N none [a] → floatFmt xa.fmt = true → N = 0 →
       VectorGives (.vred g op d a) s c d (match op with
         | .sum => 0
         | .max => 0xFF800000#64
         | .min => 0x7F800000#64) 0)
     ∧ (Shapes s c N none [a] → floatFmt xa.fmt = true → N ≠ 0 →
       let r := tree (node op) N ((List.range N).map fun n => widen xa.fmt (srcElem s c xa n))
       VectorGives (.vred g op d a) s c d (BitVec.ofNat 64 r.1) r.2)
     ∧ (Shapes s c N none [a] → intFmt xa.fmt = true → ∃ v : Int, VectorGives (.vred g op d a) s c d (BitVec.ofInt 64 v) 0
         ∧ (match op with
           | .sum => v = ints.sum
           | .max => (∀ x ∈ ints, x ≤ v) ∧ (v ∈ ints ∨ (N = 0 ∧ v = if xa.fmt = 8 then -128 else 0))
           | .min => (∀ x ∈ ints, v ≤ x) ∧ (v ∈ ints ∨ (N = 0 ∧ v = if xa.fmt = 8 then 127 else 255))))
     ∧ (Shapes s c N none [a, b] → floatFmt xa.fmt = true → floatFmt xb.fmt = true →
       let p : List (Nat × Nat) := (List.range N).map fun n => rn32 (fMul (fa n) (floatVal xb.fmt (srcElem s c xb n)))
       let r := tree (fAdd .rne) N (p.map (·.1))
       VectorGives (.vdot g d a b) s c d (if N = 0 then 0 else BitVec.ofNat 64 r.1) ((p.foldl (fun x e => x ||| e.2) 0) ||| if N = 0 then 0 else r.2)))
   ∧ (∀ (node : FVal → FVal → FVal × Nat) (vs : List Nat) (k : Nat), 2 ^ k < vs.length → vs.length ≤ 2 ^ (k + 1) →
     let l := tree node (2 ^ k) (vs.take (2 ^ k))
     let r := tree node (vs.length - 2 ^ k) (vs.drop (2 ^ k))
     let x := f32.finish .rne (node (f32.unpack l.1) (f32.unpack r.1))
     tree node vs.length vs = (x.1, l.2 ||| r.2 ||| x.2))
   ∧ ∀ (node : FVal → FVal → FVal × Nat) (v : Nat), tree node 1 [v] = (v, 0))
  ∧ (∀ (s : State) (g : Guard) (c i : Nat) (t : Strand) (op : RedOp) (d a : GReg) (x y : Src) (sat : Bool), StrandIssues g s c i t →
       let xd := shapeAt s c d
       let xa := shapeAt s c a
       let fa (n : Nat) : FVal := floatVal xa.fmt (srcElem s c xa n)
       let ia (n : Nat) : Int := intVal xa.fmt (srcElem s c xa n)
       let fx (v : Word) : FVal := f32.unpack (v.toNat % 2 ^ 32)
       let lo := (srcZ s y).toNat % 2 ^ 32
       let hi := (srcZ s y).toNat / 2 ^ 32
       let sx (v : Nat) : Int := if v < 2 ^ 31 then v else (v : Int) - 2 ^ 32
       let least : Int := if xd.fmt = 8 then -128 else 0
       let most : Int := if xd.fmt = 8 then 127 else 255
       let e := (srcS s y).toInt
       let one : Prop := Shapes s c xd.count (some d) [a]
       let float : Prop := floatFmt xd.fmt = true ∧ floatFmt xa.fmt = true
       let int : Prop := intFmt xd.fmt = true ∧ xa.fmt = xd.fmt
       let ordered : Prop := (f32.unpack lo).isNan = false ∧ (f32.unpack hi).isNan = false ∧ fCmp (f32.unpack lo) (f32.unpack hi) ≤ 0
       let read : State := (readShapes s [rG s d, rG s a]).1
       (one → float → ∃ (acc : Nat → FVal × Nat) (exact : Nat → FVal), acc 0 = (fa 0, 0) ∧ exact 0 = fa 0
         ∧ (∀ n, exact (n + 1) = (redNode op (exact n) (fa (n + 1))).1)
         ∧ (∀ n, acc (n + 1) =
             let r := rn32 (redNode op (acc n).1 (fa (n + 1)))
             (f32.unpack r.1, r.2))
         ∧ VectorWrites (.vscan g op d a sat) s c xd fun n =>
             let w := wr xd.fmt .rne sat ((acc n).1, (acc n).2 ||| sigFlag (acc n).1.isSig)
             (w.1, w.2, match exact n with
               | .fin _ k _ => if (xd.fmt = 3 ∨ xd.fmt = 4) ∧ w.1 % 128 = 0 ∧ k ≠ 0 then 1 else 0
               | _ => 0))
       ∧ (one → int → ∃ acc : Nat → Int, acc 0 = ia 0
         ∧ (∀ n, acc (n + 1) = match op with
             | .sum => acc n + ia (n + 1)
             | .max => if acc n ≤ ia (n + 1) then ia (n + 1) else acc n
             | .min => if acc n ≤ ia (n + 1) then acc n else ia (n + 1))
         ∧ VectorWrites (.vscan g op d a sat) s c xd fun n => putInt xd.fmt sat (acc n))
       ∧ (Shapes s c xd.count (some d) [] → floatFmt xd.fmt = true →
         (VectorWrites (.vbcast g d x sat) s c xd fun _ =>
           putFloat xd.fmt .rne sat (fx (srcZ s x), sigFlag (fx (srcZ s x)).isSig))
         ∧ VectorWrites (.viota g d x y sat) s c xd fun n => putFloat xd.fmt .rne sat
             (match n, fx (srcZ s y) with
             | 0, .fin .. => fAdd .rne (fx (srcZ s x)) (.fin false 0 0)
             | _, b => fFma .rne (.ofInt n) b (fx (srcZ s x))))
       ∧ (Shapes s c xd.count (some d) [] → intFmt xd.fmt = true →
         (VectorWrites (.vbcast g d x sat) s c xd fun _ => putInt xd.fmt sat (srcZ s x).toInt)
         ∧ VectorWrites (.viota g d x y sat) s c xd fun n => putInt xd.fmt sat ((srcS s x).toInt + n * (srcS s y).toInt))
       ∧ (one → float → ordered → VectorWrites (.vclamp g d a y) s c xd fun n =>
           if (fa n).isNan = true then putFloat xd.fmt .rne false (.nan false, sigFlag (fa n).isSig)
           else putFloat xd.fmt .rne false ((fMinMax false (fMinMax true (fa n) (f32.unpack lo)).1 (f32.unpack hi)).1, 0))
       ∧ (one → int → sx lo ≤ sx hi → VectorWrites (.vclamp g d a y) s c xd fun n =>
           ((min (max (ia n) (max least (min most (sx lo)))) (max least (min most (sx hi))) % 256).toNat, 0, 0))
       ∧ (one → float → -300 ≤ e → e ≤ 300 → VectorWrites (.vscale g d a y sat) s c xd fun n => putFloat xd.fmt .rne sat
           (match fa n with
           | .fin sg m k => (.fin sg m (k + e), 0)
           | .inf sg => (.inf sg, 0)
           | .nan sg => (.nan false, sigFlag sg)))
       ∧ (one → float → ¬ ordered → exec (.vclamp g d a y) s = .next (confine s (raise (bad (srcZ s y)) read)))
       ∧ (one → int → sx hi < sx lo → exec (.vclamp g d a y) s = .next (confine s (raise (bad (srcZ s y)) read)))
       ∧ (one → float → ¬ (-300 ≤ e ∧ e ≤ 300) → exec (.vscale g d a y sat) s = .next (confine s (raise (bad (srcS s y)) read))))

/-! ### Engine queues -/

/-- R214 to R218, R226 and R61: COPY, GATH, SCAT, FILL and OVLD whose operands pass the checks hand their descriptors, with the formats of
their banks, to the copy queue of the cluster. A descriptor that breaks step 3 of R218 traps with its pointer once both have been read, and so do
formats that do not combine and sizes that do not agree.
R277 to R284: the factor forms hand their command to the factor queue of the cluster with THR as it stands: FINIT and FDIA and the forms
without .Q keep their strand out of rotation for the reply. A slot handle of another cluster, or an order or λ that FINIT does not admit, traps.
R62 and R228: QFENCE of a strand enters the copy or the factor queue with the operations it is to wait for: those queued before it in
each queue that its wait set names. In a stream it waits where it stands until they have been performed, and the stream's ETS then is no less
than theirs. A set that is empty or names its own queue traps BAD_OPERAND at step 6.
R20: a queue with a free entry takes the waiting command that the round robin says: of the first core, after the one served last, that
has one, its longest; its strand, if it waits for the entry alone, is answered. A full queue takes none. -/
def Obligations.CommandsEnterTheirEngineQueue : Prop :=
  (∀ (s : State) (g : Guard) (c j : Nat) (t : Strand) (d a : GReg) (v : Src) (b : Option GReg) (frame : Option (Fin 4)),
     StrandIssues g s c j t →
     let bd := memRead s.mem (scratchAt c (pOff (rG s d))) 32
     let bs := memRead s.mem (scratchAt c (pOff (rG s a))) 32
     let xd := withFmt s (descOf bd)
     let xs := withFmt s (descOf bs)
     let named (r : GReg) : Prop := ownPtr s (rG s r) 32 = .ok (pOff (rG s r))
     let evq : Word := match b with
       | some r => rG s r
       | none => 0
     let posts : Prop := ∀ r, b = some r → checkHandle s [7] (rG s r) = .ok ()
     let one := max t.ctx.pts (stampAt s c (pOff (rG s d))).wts
     let both := max one (stampAt s c (pOff (rG s a))).wts
     let fits : Prop :=
       if xs.fmt = xd.fmt ∨ xs.fmt = 0 ∨ xd.fmt = 0 then
         xs.fmt ≠ 15 ∧ xd.fmt ≠ 15 ∧ xs.count * fmtSize xs.fmt = xd.count * fmtSize xd.fmt
       else convFmt xs.fmt = true ∧ convFmt xd.fmt = true ∧ xs.count = xd.count
     (named d → named a → posts → fits →
       (DescOk s bd true false → DescOk s bs false false → Offered (.copy g d a b) s c j t false false (.copy xd xs) evq both)
       ∧ (DescOk s bd true false → DescOk s bs false true → Offered (.gath g d a b) s c j t false false (.gath xd xs) evq both)
       ∧ (DescOk s bd true true → DescOk s bs false false → Offered (.scat g d a b) s c j t false false (.scat xd xs) evq both))
     ∧ (named d → posts → DescOk s bd true false → (xd.fmt = 0 ∨ convFmt xd.fmt = true) →
       Offered (.fill g d v b) s c j t false false (.fill xd (srcZ s v)) evq one)
     ∧ (1 ≤ (srcZ s v).toNat → (srcZ s v).toNat ≤ 0xFFFE → posts →
       Offered (.ovld g frame v b) s c j t false false (.ovld (srcZ s v).toNat (frame.map fun f => f.val)) evq t.ctx.pts)
     ∧ ((srcZ s v).toNat = 0 ∨ 0xFFFE < (srcZ s v).toNat → Traps (.ovld g frame v b) s (bad (srcZ s v)))
     ∧ (¬ (pSpace (rG s d) = 1 ∨ pSpace (rG s d) = 2 ∨ pSpace (rG s d) = 3) → Traps (.copy g d a b) s (bad (rG s d))
         ∧ Traps (.fill g d v b) s (bad (rG s d)))
     ∧ (named d → named a → (descOf bd).rt = false → (descOf bd).stride = 0 ∨ (DescOk s bd true false ∧ DescOk s bs false false ∧ ¬ fits) →
         Traps (.copy g d a b) s (bad (rG s d))))
  ∧ (∀ (s : State) (g : Guard) (c j : Nat) (t : Strand) (d a : GReg) (x y : Src) (q : Option GReg), StrandIssues g s c j t →
       let h := rG s d
       let p := rG s a
       let owner := pCore c p
       let b := memRead s.mem (scratchAt owner (pOff p)) 32
       let shape := shapeOf s owner p b
       let mine (h : Word) : Prop := checkHandle s [5] h = .ok () ∧ hHome h = c / 4 * 4
       let evq : Word := match q with
         | some r => rG s r
         | none => 0
       let posts : Prop := ∀ r, q = some r → checkHandle s [7] (rG s r) = .ok ()
       let ready : Prop := mshapePtr s c p = true ∧ winOk s owner c (pOff p) 32 true false = true ∧ shape.ch = false
         ∧ shape.zeroOk = true ∧ shape.e2 = 1 ∧ shape.e3 = 1 ∧ mine h ∧ posts
       let forms : List (Instr × CmdOp) := [(.fupd g d a q, .fupd h p b), (.fdwn g d a q, .fdwn h p b), (.ftrs g d a q, .ftrs h p b),
         (.ftrb g d a q, .ftrb h p b), (.frd g d a q, .frd h p b), (.fwr g d a q, .fwr h p b)]
       let n := (srcZ s x).toNat
       let lam := (srcZ s y).toNat % 2 ^ 32
       (ready → ∀ f ∈ forms, Offered f.1 s c j t true q.isNone f.2 evq (max t.ctx.pts (stampAt s owner (pOff p)).wts))
       ∧ (mshapePtr s c p = false → ∀ f ∈ forms, Traps f.1 s (bad p))
       ∧ (4 ≤ n → n ≤ 64 → n % 4 = 0 → 0 < lam → lam < 0x7F800000 → mine h →
         Offered (.finit g d x y) s c j t true true (.finit h n (BitVec.ofNat 32 lam)) 0 t.ctx.pts)
       ∧ (n < 4 ∨ 64 < n ∨ n % 4 ≠ 0 → Traps (.finit g d x y) s (bad (srcZ s x)))
       ∧ (4 ≤ n → n ≤ 64 → n % 4 = 0 → lam = 0 ∨ 0x7F800000 ≤ lam → Traps (.finit g d x y) s (bad (srcZ s y)))
       ∧ (mine p → Offered (.fdia g d a) s c j t true true (.fdia p d) 0 t.ctx.pts)
       ∧ (checkHandle s [5] p = .ok () → hHome p ≠ c / 4 * 4 → Traps (.fdia g d a) s { cause := .badOperand, info0 := p, detail := 8 }))
  ∧ (∀ (s : State) (g : Guard) (c j : Nat) (t : Strand) (q : Fin 4) (w : BitVec 4),
       (StrandIssues g s c j t → q.val < 2 → w ≠ 0 → w.getLsbD q.val = false →
         let k := clusterOf c
         let f : Bool := q == 1
         ∃ (u : State) (cmd : Cmd), exec (.qfence g q w) s = .next u ∧ cmd.tag = curTag s ∧ cmd.core = c ∧ cmd.pts = t.ctx.pts
           ∧ (let Q := queueAt s k f
              if Q.cmds.length < 64 ∧ Q.waits = [] then
                cmd.op = .qfence w (((List.range 4).filter fun n => w.getLsbD n).map fun n => (n, match n with
                  | 0 => (queueAt s k false).done + (queueAt s k false).cmds.length
                  | 1 => (queueAt s k true).done + (queueAt s k true).cmds.length
                  | 2 => (pairAt s k).sdone + if (pairAt s k).staging.inOp then 1 else 0
                  | _ => (pairAt s k).kdone + if (pairAt s k).compute.inOp then 1 else 0))
                ∧ queueAt u k f = { Q with cmds := Q.cmds ++ [cmd], last := c % 4 } ∧ (curCtx u).pc = nextPc t.ctx.pc
              else cmd.op = .qfence w [] ∧ queueAt u k f = { Q with waits := Q.waits ++ [{ core := c, cmd := cmd }] })
           ∧ (∀ r, rG u r = rG s r) ∧ ∀ a, memByte u.mem a = memByte s.mem a)
       ∧ (StrandIssues g s c j t → 2 ≤ q.val ∨ w = 0 ∨ w.getLsbD q.val = true →
         Traps (.qfence g q w) s (wordExc s .badOperand 6))
       ∧ (∀ (k : Nat) (cp : Bool), s.cur = .stream k cp → (pairAt s k).st ≠ 0 → guardHolds s g = true → s.coh.hit = none →
         q.val = (if cp then 3 else 2) → w ≠ 0 → w.getLsbD q.val = false →
         let x := (pairAt s k).stream cp
         let ts := x.fence.getD (fenceTargets s k w)
         (fenceMet s k ts = true → ∃ u, exec (.qfence g q w) s = .next u ∧ (curCtx u).pc = nextPc x.ctx.pc
           ∧ ((pairAt u k).stream cp).fence = none ∧ (∀ r, rG u r = rG s r)
           ∧ rPts u = max (rPts s) (ts.foldl (fun m e => max m (match e.1 with
               | 0 => (queueAt s k false).ets
               | 1 => (queueAt s k true).ets
               | 2 => (pairAt s k).sets
               | _ => (pairAt s k).kets)) 0))
         ∧ (fenceMet s k ts = false → ∃ u, exec (.qfence g q w) s = .next u ∧ ((pairAt u k).stream cp).ctx = x.ctx
           ∧ ((pairAt u k).stream cp).fence = some ts ∧ ((pairAt u k).stream cp).wait = true)))
  ∧ (∀ (s : State) (k : Nat) (f : Bool),
       let q := queueAt s k f
       let turn (w : QWait) : Nat := (w.core % 4 + 7 - q.last % 4) % 4
       (∀ (n : Nat) (w : QWait), q.cmds.length < 64 → q.waits[n]? = some w → w.core < 256 → w.cmd.core % 4 = w.core % 4 →
         (∀ m x, q.waits[m]? = some x → turn w ≤ turn x ∧ (m < n → turn x ≠ turn w)) →
         ∃ (u : State) (cmd : Cmd), exec (.queueEntry k f) s = .next u ∧ cmd.tag = w.cmd.tag ∧ cmd.core = w.cmd.core ∧ cmd.pts = w.cmd.pts
           ∧ cmd.evq = w.cmd.evq ∧ cmd.ctxh = w.cmd.ctxh ∧ cmd.plain = w.cmd.plain
           ∧ ((∀ ws ts, w.cmd.op ≠ .qfence ws ts) → cmd.op = w.cmd.op ∧ cmd.thr = (fctlOf s k).setWidth 32)
           ∧ queueAt u k f = { q with cmds := q.cmds ++ [cmd], waits := q.waits.eraseIdx n, last := w.cmd.core % 4 }
           ∧ (w.cmd.own = false → w.cmd.plain = false → ∀ t, tagged s w.cmd.tag = some t →
               u.coh.replies = s.coh.replies ++ [{ tag := w.cmd.tag, act := .regs [] t.ctx.pts }]))
       ∧ (64 ≤ q.cmds.length → exec (.queueEntry k f) s = .next s))

/-- R61, R219, R221 and R224: the operation at the head of a copy queue starts with an ETS that is the later of its strand's PTS and the
queue's last ETS; an operation that a cancel token or a power kill has reached ends instead, with BYTES 0; a QFENCE that is met is performed;
and a copy whose beats are done ends OK. An end takes the command off the queue and, when it names an event queue, sends it the record whose
layout R221 gives.
R217, R219, R220 and R223 on the issuing core's scratchpad: a beat reads all its source elements, by stride or through the index array, and
then writes its destination elements: the bits of the source where the formats are equal or one is RAW, the converted element where they
differ, the low bytes of the value of a FILL. No other byte changes, and BYTES counts the beat. A destination that the windows of its core
refuse ends the operation with FAULT and WINDOW_REFUSED. -/
def Obligations.CopyOperationsRunBeatByBeat : Prop :=
  ((∀ (s : State) (k : Nat) (c : Cmd) (r : List Cmd),
     let q := queueAt s k false
     q.cmds = c :: r →
     let ends (i : Instr) (run : Run) (status cause : Nat) (info : Word) : Prop := ∃ u, exec i s = .next u
       ∧ queueAt u k false = { q with cmds := r, ets := run.ets, done := q.done + 1, run := {} }
       ∧ u.hold.arriving = (if c.evq = 0 then s.hold.arriving else s.hold.arriving ++ [completion c run status cause info])
       ∧ ∀ a, memByte u.mem a = memByte s.mem a
     let start := Instr.engineOperationStart k false
     let fresh : Run := { started := true, ets := max c.pts q.ets }
     (q.run.started = false → cmdHeld s c = false → stopStatus s k c = 0 → (sidesOf c.op).isSome = true →
       exec start s = .next (putQueue s k false { q with run := fresh }))
     ∧ (q.run.started = false → cmdHeld s c = true → exec start s = .next s)
     ∧ (q.run.started = false → cmdHeld s c = false → stopStatus s k c ≠ 0 → ends start fresh (stopStatus s k c) 0 0)
     ∧ (∀ w ts, c.op = .qfence w ts → q.run.started = false → cmdHeld s c = false → stopStatus s k c = 0 → fenceMet s k ts = false →
         exec start s = .next s)
     ∧ (∀ w ts, c.op = .qfence w ts → q.run.started = false → cmdHeld s c = false → stopStatus s k c = 0 → fenceMet s k ts = true →
         ∃ u, exec start s = .next u ∧ (queueAt u k false).cmds = r ∧ (queueAt u k false).done = q.done + 1
         ∧ (queueAt u k false).ets = max (max c.pts q.ets) (fenceEts s k ts))
     ∧ (∀ x, sidesOf c.op = some x → x.d.rt = false → q.run.started = true → q.run.wait = false → q.run.fin = none → q.run.phase = 0 →
       q.run.out = [] → q.run.acked = [] →
       (x.total ≤ q.run.beat * (64 / x.ud) → ends (.copyBeat k) q.run 0 0 0)
       ∧ (q.run.beat * (64 / x.ud) < x.total → cmdHeld s c = true → exec (.copyBeat k) s = .next s)
       ∧ (q.run.beat * (64 / x.ud) < x.total → cmdHeld s c = false → stopStatus s k c ≠ 0 → ends (.copyBeat k) q.run (stopStatus s k c) 0 0))
     ∧ (c.own = true → stopStatus s k c = 0 ∧ cmdHeld s c = false)
     ∧ (c.own = false → cmdHeld s c = (launchAt s c.record.launch.toNat).halted
         ∧ ((∀ t ∈ tget [] s.core.filter (1024 + k), matchesToken c.record t = false) → stopStatus s k c = 0)
         ∧ (∀ t rest, tget [] s.core.filter (1024 + k) = t :: rest → matchesToken c.record t = true →
             stopStatus s k c = if t.kill then 4 else 3)))
   ∧ (∀ (status op cause tag bytes ets : Nat) (info : Word), status < 256 → op < 256 → cause < 256 → tag < 2 ^ 32 →
     let b := complBits status op cause tag bytes ets info
     b.extractLsb' 0 8 = BitVec.ofNat 8 status ∧ b.extractLsb' 8 8 = BitVec.ofNat 8 op ∧ b.extractLsb' 16 8 = BitVec.ofNat 8 cause
     ∧ b.extractLsb' 24 8 = 0#8 ∧ b.extractLsb' 32 32 = BitVec.ofNat 32 tag ∧ b.extractLsb' 64 64 = BitVec.ofNat 64 bytes
     ∧ b.extractLsb' 128 64 = BitVec.ofNat 64 ets ∧ b.extractLsb' 192 64 = info))
  ∧ (∀ (s : State) (k : Nat) (c : Cmd) (r : List Cmd) (x : Sides),
       let q := queueAt s k false
       q.cmds = c :: r → sidesOf c.op = some x → q.run.started = true → q.run.wait = false → q.run.fin = none → q.run.pos = 0 →
       q.run.vals = [] → q.run.phase = 1 ∨ (q.run.phase = 0 ∧ cmdHeld s c = false ∧ stopStatus s k c = 0) → x.d.rt = false →
       s.coh.failed = [] → (∀ e ∈ s.coh.served, e.engine ≠ copyHolder k * 4) → engineQueued s (copyHolder k * 4) = false →
       let zd := fmtSize x.d.fmt
       let y := x.s.getD {}
       let zs := fmtSize y.fmt
       let own (p : Word) : Prop := pSpace p = 1 ∧ p.toNat % 2 ^ 60 < 2 ^ 19
       let byteAt (p : Word) : Nat := scratchAt c.core (pOff p)
       let aux := if x.index = 1 then y.aux else x.d.aux
       let ixAt (e : Nat) : Word := aux + BitVec.ofNat 64 (4 * e)
       let ix (e : Nat) : Nat := memRead s.mem (byteAt (ixAt e)) 4
       let src (e : Nat) : Word := y.ptr + BitVec.ofInt 64 (((if x.index = 1 then ix e else e : Nat) : Int) * y.stride * zs)
       let dst (e : Nat) : Word := x.d.ptr + BitVec.ofInt 64 (((if x.index = 2 then ix e else e : Nat) : Int) * x.d.stride * zd)
       let lo := q.run.beat * (64 / zd)
       let hi := min x.d.count (lo + 64 / zd)
       let beat (e : Nat) : Prop := lo ≤ e ∧ e < hi
       let done (u : State) : Prop := (queueAt u k false).cmds = c :: r ∧ (queueAt u k false).run.beat = q.run.beat + 1
         ∧ (queueAt u k false).run.pos = 0 ∧ (queueAt u k false).run.phase = 0 ∧ (queueAt u k false).run.bytes = q.run.bytes + (hi - lo) * zd
         ∧ ∀ a, (∀ e, beat e → ¬ (byteAt (dst e) ≤ a ∧ a < byteAt (dst e) + zd)) → memByte u.mem a = memByte s.mem a
       let apart : Prop := ∀ e f, beat e → beat f → e ≠ f → byteAt (dst e) + zd ≤ byteAt (dst f) ∨ byteAt (dst f) + zd ≤ byteAt (dst e)
       (lo < hi → (∀ e, beat e → own (dst e) ∧ (dst e).toNat % zd = 0) → apart →
         (x.index ≠ 0 → aux.toNat % 4 = 0 ∧ ∀ e, beat e → own (ixAt e)) →
         (x.s = none → x.index = 0 → ∃ u, exec (.copyBeat k) s = .next u ∧ done u
           ∧ ∀ e, beat e → memRead u.mem (byteAt (dst e)) zd = x.fill % 256 ^ zd)
         ∧ (x.s.isSome = true → (y.fmt = x.d.fmt ∨ ((y.fmt = 0 ∨ x.d.fmt = 0) ∧ zs = zd)) → y.fmt ≠ 15 → x.d.fmt ≠ 15 →
           (∀ e, beat e → own (src e) ∧ (src e).toNat % zs = 0) →
           ∃ u, exec (.copyBeat k) s = .next u ∧ done u
             ∧ ∀ e, beat e → memRead u.mem (byteAt (dst e)) zd = memRead s.mem (byteAt (src e)) zd)
         ∧ (x.s.isSome = true → y.fmt ≠ x.d.fmt → convFmt y.fmt = true → convFmt x.d.fmt = true →
           (∀ e, beat e → own (src e) ∧ (src e).toNat % zs = 0) →
           ∃ u, exec (.copyBeat k) s = .next u ∧ done u
             ∧ ∀ e, beat e → memRead u.mem (byteAt (dst e)) zd
                 = (convert y.fmt x.d.fmt .rne false (memRead s.mem (byteAt (src e)) zs)).1 % 256 ^ zd))
       ∧ (x.s = none → x.index = 0 → lo < hi → q.run.out = [] → q.run.acked = [] → (dst lo).toNat % zd = 0 → pSpace (dst lo) = 3 →
         pZeroOk (dst lo) = true →
         corePresent s ((dst lo).toNat / 2 ^ 48 % 1024) = true → (dst lo).toNat / 2 ^ 48 % 1024 ≠ c.core →
         winOk s ((dst lo).toNat / 2 ^ 48 % 1024) c.core (pOff (dst lo)) zd false true = false → c.evq ≠ 0 →
         ∃ u, exec (.copyBeat k) s = .next u ∧ (queueAt u k false).cmds = r ∧ (∀ a, memByte u.mem a = memByte s.mem a)
           ∧ u.hold.arriving = s.hold.arriving ++ [completion c q.run 2 8 (dst lo)]))

/-- R226, R61 and R227: an overlay load takes its frame and unmaps it, copies 64 bytes of the image a beat, loaded in the memory order, with
zeros beyond it, and maps the overlay after beat 1,024; an overlay that is mapped ends OK with BYTES 0, and one that is not in the bundle with FAULT, CAUSE 0x09 and INFO
its id. A core queues one load of its own for a waiter, and when it ends lets in those who wait, or traps them.
R225 and R368: a remote copy that takes a WDONE for one of its packets counts the packet's bytes, or keeps the refusal that is to end it;
a WDONE for no packet of it, or a second one for a packet, ends it at once with STATUS DESYNC and INFO the route, and the route is GONE. -/
def Obligations.OverlayLoadsAndRemoteCopies : Prop :=
  ((∀ (s : State) (k : Nat) (c : Cmd) (r : List Cmd) (a : Nat) (frame : Option Nat),
     let q := queueAt s k false
     q.cmds = c :: r → c.op = .ovld a frame → a ≠ 0 → cmdHeld s c = false → stopStatus s k c = 0 → s.coh.failed = [] →
     let entry (f : Nat) : Nat := tget 0 s.core.ovt (c.core * 4 + f)
     let mapped : Prop := ∃ f, f < 4 ∧ entry f = a
     let record (run : Run) (status cause : Nat) (info : Word) (u : State) : Prop := (queueAt u k false).cmds = r
       ∧ u.hold.arriving = (if c.evq = 0 then s.hold.arriving else s.hold.arriving ++ [completion c run status cause info])
       ∧ u.core.loadEnds = s.core.loadEnds ++ [(c.core, a, status == 0)]
     let fresh : Run := { started := true, ets := max c.pts q.ets }
     (q.run.started = false →
       (mapped → ∃ u, exec (.engineOperationStart k false) s = .next u ∧ record fresh 0 0 0 u ∧ u.core.ovt = s.core.ovt)
       ∧ (¬ mapped → bundleEntry s c.ctxh c.env.bundle a = none →
         ∃ u, exec (.engineOperationStart k false) s = .next u ∧ record fresh 2 9 (BitVec.ofNat 64 a) u ∧ u.core.ovt = s.core.ovt)
       ∧ (¬ mapped → (bundleEntry s c.ctxh c.env.bundle a).isSome = true →
         ∃ u f, exec (.engineOperationStart k false) s = .next u ∧ queueAt u k false = { q with run := { fresh with frame := f } }
           ∧ u.core.ovt = tset 0 s.core.ovt (c.core * 4 + f) 0
           ∧ (∀ n, frame = some n → f = n)
           ∧ (frame = none → f < 4 ∧ ((∃ m, m < 4 ∧ entry m = 0) → entry f = 0 ∧ ∀ m, m < f → entry m ≠ 0)
               ∧ ((∀ m, m < 4 → entry m ≠ 0) → ∀ m, m < 4 →
                   let used (f : Nat) : Nat := tget 0 s.core.ovUse (c.core * 4 + f)
                   used f < used m ∨ (used f = used m ∧ f ≤ m)))))
     ∧ (∀ base len, q.run.started = true → q.run.wait = false → q.run.fin = none → bundleEntry s c.ctxh c.env.bundle a = some (base, len) →
       base + len ≤ 2 ^ 52 → q.run.pos = 0 → (∀ e ∈ s.coh.served, e.engine ≠ copyHolder k * 4) → engineQueued s (copyHolder k * 4) = false →
       let loaded (sec : Nat) : Prop := base + 64 * q.run.beat < sec * 64 + 64 ∧ sec * 64 < base + min len (64 * q.run.beat + 64)
       (∀ sec, loaded sec → homeUp s (sec * 64) = true ∧ hasNoticed s (homeOf s (sec * 64)) 0 = false) → s.coh.dir.length + 8 ≤ 16384 →
       ((∀ sec, loaded sec → (dirAt s sec).st = .h) → ∃ u, exec (.copyBeat k) s = .next u
         ∧ (∀ m, memByte u.mem m =
             let at_ := frameAt c.core q.run.frame (64 * q.run.beat)
             if at_ ≤ m ∧ m < at_ + 64 then
               if 64 * q.run.beat + (m - at_) < len then memByte s.mem (base + 64 * q.run.beat + (m - at_)) else 0
             else memByte s.mem m)
         ∧ ∃ e, q.run.ets ≤ e ∧ (∀ sec, loaded sec → (filled s sec).wts ≤ e ∧ (filled s sec).wts + c.env.ll ≤ (dirAt u sec).rts)
             ∧ (e = q.run.ets ∨ ∃ sec, loaded sec ∧ e = (filled s sec).wts)
             ∧ (q.run.beat < 1023 → queueAt u k false = { q with
                  run := { q.run with beat := q.run.beat + 1, phase := 0, bytes := q.run.bytes + 64, ets := e } } ∧ u.core.ovt = s.core.ovt)
             ∧ (q.run.beat = 1023 → record { q.run with bytes := q.run.bytes + 64, ets := e } 0 0 0 u
                 ∧ u.core.ovt = tset 0 s.core.ovt (c.core * 4 + q.run.frame) a))
       ∧ ((∀ sec, loaded sec → (dirAt s sec).st ≠ .h) → 64 * q.run.beat < len → ∃ u, exec (.copyBeat k) s = .next u
         ∧ queueAt u k false = { q with run := { q.run with phase := 1 } } ∧ engineQueued u (copyHolder k * 4) = true
         ∧ ∀ m, memByte u.mem m = memByte s.mem m)))
   ∧ (∀ (s : State) (n core ovl : Nat) (ctxh : Word) (w : Rec) (pts b : Nat), (overlayWants s)[n]? = some (core, ovl, ctxh, w, pts, b) →
     (b = (launchAt s w.launch.toNat).bundle ∨ ∃ e ∈ s.eng.pairs, e.2.record = w ∧ b = e.2.env.bundle) ∧
     let q := queueAt s (clusterOf core) false
     (overlayComing s core ovl = true → exec (.overlayLoad n) s = .next s)
     ∧ (overlayComing s core ovl = false → ∃ (u : State) (c : Cmd), exec (.overlayLoad n) s = .next u ∧ c.op = .ovld ovl none ∧ c.core = core
         ∧ c.ctxh = ctxh ∧ c.own = true ∧ c.evq = 0 ∧ c.pts = pts ∧ c.env.bundle = b
         ∧ queueAt u (clusterOf core) false =
           if q.cmds.length < 64 ∧ q.waits = [] then { q with cmds := q.cmds ++ [c], last := core % 4 }
           else { q with waits := q.waits ++ [{ core := core, cmd := c }] }))
   ∧ (∀ (s : State) (n core ovl : Nat) (ok : Bool), s.core.loadEnds[n]? = some (core, ovl, ok) → ovl ≠ 0 →
     ∃ u, exec (.overlayLoadEnd n) s = .next u ∧ u.core.loadEnds = s.core.loadEnds.eraseIdx n
       ∧ (ok = true → (∀ i t, strandAt s core i = some t → t.steps = 0) →
           (∀ i t pc, i < 16 → strandAt s core i = some t → t.wait = .overlay pc → pc.toNat / 2 ^ 16 = ovl →
             strandAt u core i = some { t with ctx := { t.ctx with pc := pc }, st := 0, wait := .none })
           ∧ ∀ i, i < 32 → (tget {} s.core.park (core * 32 + i)).used = true → (tget {} s.core.park (core * 32 + i)).ovl = ovl →
             (tget {} u.core.park (core * 32 + i)).used = false)
       ∧ (ok = false → ∀ i t pc, i < 16 → strandAt s core i = some t → t.wait = .overlay pc → pc.toNat / 2 ^ 16 = ovl →
           strandAt u core i = none)))
  ∧ (∀ (s : State) (k xid port status n a : Nat) (c : Cmd) (r : List Cmd) (d : CopyDesc) (p : Packet) (t : State),
       let q := queueAt s k false
       let i := Instr.wdoneArrival k xid
       q.cmds = c :: r → remoteRun s k port = some (c, d) → port < 8 →
       (∀ m, m < 8 → m ≠ port → (portAt s m).rx = []) → transOf s port xid = none → wdoneOwner s port xid = some k →
       firstRx s port 2 (fun p => p.xid == xid) = some (p, t) → p.status = status →
       let named (o : Nat × Nat × Nat) : Prop := q.run.out.find? (fun o => o.1 == xid) = some o
       let desync (u : State) (bytes : Nat) : Prop := (queueAt u k false).cmds = r
         ∧ (c.evq ≠ 0 → u.hold.arriving = s.hold.arriving ++ [completion c { q.run with bytes := bytes } 5 0 d.aux])
         ∧ ((lifeOf s (hKey d.aux)).gen = hGen d.aux → (routeAt u d.aux).gone = true)
       (named (xid, n, a) → xid ∉ q.run.acked → status = 0 → ∃ u, exec i s = .next u
           ∧ queueAt u k false = { q with run := { q.run with bytes := q.run.bytes + n, acked := xid :: q.run.acked } }
           ∧ (portAt u port).rx.length + 1 = (portAt s port).rx.length)
       ∧ (named (xid, n, a) → xid ∉ q.run.acked → status ≠ 0 → q.run.fin = none ∨ (∃ x y, q.run.fin = some (0, x, y)) → ∃ u, exec i s = .next u
           ∧ queueAt u k false = { q with run := { q.run with
               acked := xid :: q.run.acked, out := q.run.out.map fun o => if o.1 = xid then (xid, 0, a) else o
               fin := some (if status = 7 then 1 else 2, if 1 ≤ status ∧ status ≤ 23 then status else 6, BitVec.ofNat 64 a) } })
       ∧ (named (xid, n, a) → xid ∈ q.run.acked → ∃ u, exec i s = .next u ∧ desync u (q.run.bytes - n))
       ∧ (q.run.out.find? (fun o => o.1 == xid) = none → ∃ u, exec i s = .next u ∧ desync u q.run.bytes))

/-! ### The factor accumulator -/

/-- R284 to R286, R288, R290 to R292: at its event an operation is checked against the slot, whose lapse or foreign owner refuses it. FINIT
installs √λ on the diagonal, FDIA takes the smallest diagonal element, FWR installs the triangle that it has read unless an element is refused,
FUPD and FDWN commit the columns that they have swept; where a token or power kill has been taken the sweep is abandoned at the first
boundary of a vector. What the event does not install stays as it was.
R283, R284, R289 and R290: a factor operation that has begun reads its elements one access at a time in ascending index, FTRS, FTRB and
FRD after a start event that takes the committed copy; FTRS and FTRB write each vector solved, FRD the factor with +0 above the diagonal.
R61, R275, R280 and R294: a factor operation that has been performed leaves its queue. Its plain form answers the strand, with gd for
FDIA and a PTS no less than its ETS for the others, or with the trap; its .Q form posts the record. The end of a stream's operation puts the
buffer that it has loaded in place.
That a sweep runs whole at its start event, is abandoned there at the first boundary of a vector, and what a token between the start and the commit
does is inferred (log entry 33). -/
def Obligations.FactorOperationsReadCheckInstallAndWrite : Prop :=
  (∀ (s : State) (k : Nat) (c : Cmd) (r : List Cmd),
     let q := queueAt s k true
     q.cmds = c :: r → q.run.started = true → q.run.fin = none → q.run.fault = none →
     let h := (factorArgs c.op).1
     let slot := slotKey (hKey h) 4
     let x := factorUnits s c
     let commit := Instr.factorCommitEvent k
     let run (u : State) : Run := (queueAt u k true).run
     let cell (u : State) (i j : Nat) : BitVec 32 := tget 0 u.eng.fac (slot * 4096 + 64 * i + j)
     let same (u : State) : Prop := u.eng.fac = s.eng.fac ∧ u.eng.order = s.eng.order
     let others (u : State) : Prop := (∀ m, m ≠ slot → tget 0 u.eng.order m = tget 0 s.eng.order m)
       ∧ ∀ key, key / 4096 ≠ slot → tget 0 u.eng.fac key = tget 0 s.eng.fac key
     let ok : Prop := checkHome s c.ctxh h = .ok ()
     let noStop : Prop := stopStatus s k c = 0
     (∀ n lam, c.op = .finit h n lam → n ≤ 64 → ok → ∃ u, exec commit s = .next u ∧ (run u).fin = some (0, 0, 0) ∧ tget 0 u.eng.order slot = n
       ∧ (∀ i j, i < 64 → j < 64 → cell u i j =
           if i = j ∧ i < n then BitVec.ofNat 32 (f32.finish .rne (fSqrt (f32.unpack lam.toNat))).1 else 0) ∧ others u)
     ∧ (∀ d n, c.op = .fdia h d → n = tget 0 s.eng.order slot → 0 < n → n ≤ 64 → ok → ∃ u m, exec commit s = .next u ∧ same u ∧ m < n
       ∧ (∀ j, j < n → (cell s m m).toNat ≤ (cell s j j).toNat ∧ (j < m → cell s j j ≠ cell s m m))
       ∧ (run u).vals = [n * 2 ^ 40 + m * 2 ^ 32 + (cell s m m).toNat] ∧ (run u).fin = some (0, 0, 0))
     ∧ (∀ d, c.op = .fdia h d → tget 0 s.eng.order slot = 0 → ok → ∃ u, exec commit s = .next u ∧ same u
       ∧ (run u).fault = some ({ cause := .factorShape, info0 := h, info1 := some (BitVec.ofNat 64 (1 * 65536)) }, h))
     ∧ (∀ p b n, c.op = .fwr h p b → n = x.e0 → x.e1 = n → 4 ≤ n → n ≤ 64 → n % 4 = 0 → q.run.pos = n * n → q.run.vals.length = n * n →
       (∀ v ∈ q.run.vals, v < 2 ^ 32) → noStop → ok →
       let v (i j : Nat) : Nat := q.run.vals[i * n + j]?.getD 0
       let refused (i j : Nat) : Prop := v i j / 2 ^ 23 % 256 = 255 ∨ (i = j ∧ (v i i = 0 ∨ 2 ^ 31 ≤ v i i))
       ((∀ i j, i < n → j ≤ i → ¬ refused i j) → ∃ u, exec commit s = .next u ∧ tget 0 u.eng.order slot = n
         ∧ (∀ i j, i < 64 → j < 64 → cell u i j = if i < n ∧ j ≤ i then BitVec.ofNat 32 (v i j) else 0)
         ∧ (run u).fin = some (0, 0, 0) ∧ others u)
       ∧ (∀ i j, i < n → j ≤ i → refused i j → (∀ i' j', i' < n → j' ≤ i' → i' * n + j' < i * n + j → ¬ refused i' j') →
         ∃ u, exec commit s = .next u ∧ same u
           ∧ (run u).fault = some ({ cause := .factorShape, info0 := h, info1 := some (BitVec.ofNat 64 (4 * 65536 + (64 * i + j))) }, h)))
     ∧ ((∃ p b, c.op = .fupd h p b ∨ c.op = .fdwn h p b) →
       let down : Bool := match c.op with
         | .fdwn .. => true
         | _ => false
       let n := tget 0 s.eng.order slot
       let cols : List (List Nat) := (List.range n).map fun j => (List.range (n - j)).map fun i => (cell s (j + i) j).toNat
       let xs : List (List Nat) := (List.range x.e1).map fun j => (q.run.vals.drop (j * n)).take n
       (q.run.phase = 0 → q.run.pos = x.e0 * x.e1 → 0 < n → x.e0 = n → 1 ≤ x.e1 → x.e1 ≤ 256 → ok →
         (∀ res, noStop → sweepAll down c.thr.toNat 0 cols xs = .ok res → ∃ u, exec (.factorStartEvent k) s = .next u ∧ same u
           ∧ run u = { q.run with phase := 1, work := res.flatten.map (BitVec.ofNat 32), vals := [] })
         ∧ (∀ res, stopStatus s k c ≠ 0 → sweepAll down c.thr.toNat 0 cols (xs.take 1) = .ok res →
             ∃ u, exec (.factorStartEvent k) s = .next u ∧ same u ∧ (run u).fin = some (stopStatus s k c, 0, 0))
         ∧ (∀ j m, sweepAll down c.thr.toNat 0 cols (if stopStatus s k c = 0 then xs else xs.take 1) = .error (j, m) →
             ∃ u, exec (.factorStartEvent k) s = .next u ∧ same u
           ∧ (run u).fault = some ({ cause := .factorIndefinite, info0 := h, info1 := some (BitVec.ofNat 64 (j * 65536 + m)) },
               mshapeAt x (j * n + m))))
       ∧ (q.run.phase = 1 → x.e0 ≤ 64 → q.run.work.length = x.e0 * (x.e0 + 1) / 2 → noStop → ok → ∃ u, exec commit s = .next u
         ∧ tget 0 u.eng.order slot = x.e0 ∧ (run u).fin = some (0, 0, 0) ∧ others u
         ∧ ∀ i j, i < 64 → j < 64 → cell u i j =
             if i < x.e0 ∧ j ≤ i then (q.run.work[j * x.e0 - j * (j - 1) / 2 + (i - j)]?).getD 0 else 0)
       ∧ (q.run.phase = 1 → stopStatus s k c ≠ 0 → ∃ u, exec commit s = .next u ∧ same u ∧ (run u).fin = some (stopStatus s k c, 0, 0)))
     ∧ (∀ e, checkHome s c.ctxh h = .error e → noStop →
       ((∃ n lam, c.op = .finit h n lam) ∨ (∃ d, c.op = .fdia h d)
         ∨ (∃ p b, c.op = .fwr h p b ∧ q.run.pos = x.e0 * x.e1) ∨ (∃ p b, c.op = .fupd h p b ∧ q.run.phase = 1)) →
       ∃ u, exec commit s = .next u ∧ same u ∧ (run u).fault = some (e, h)))
  ∧ (∀ (s : State) (k : Nat) (c : Cmd) (r : List Cmd) (h p : Word) (b : Nat),
       let q := queueAt s k true
       q.cmds = c :: r → c.op ∈ [CmdOp.fupd h p b, .fdwn h p b, .ftrs h p b, .ftrb h p b, .frd h p b, .fwr h p b] →
       s.coh.failed = [] → (∀ e ∈ s.coh.served, e.engine ≠ copyHolder k * 4 + 3) → engineQueued s (copyHolder k * 4 + 3) = false →
       let x := factorShape s c
       let n := x.e0
       let total := x.e0 * x.e1
       let slot := slotKey (hKey h) 4
       let step := Instr.engineOperationStart k true
       let run (u : State) : Run := (queueAt u k true).run
       let addr (i : Nat) : Nat := scratchAt (pCore c.core p) (x.addr 4 i)
       let solving : Prop := c.op = .ftrs h p b ∨ c.op = .ftrb h p b
       let placed : Prop := x.fmt = 1 ∧ x.inBank 4 4 = true
       let reach : Prop := pScratch p = true ∧ pZeroOk p = true ∧ (pSpace p = 3 → corePresent s (pCore c.core p) = true)
         ∧ ∀ i, i < total → ∀ rd wr, winOk s (pCore c.core p) c.core (x.addr 4 i) 4 rd wr = true
       let cols : List (List Nat) := cutCols n (q.run.work.map fun v => v.toNat)
       let pure (u : State) : Prop := ∀ a, memByte u.mem a = memByte s.mem a
       let stores (u : State) (i v : Nat) : Prop := memRead u.mem (addr i) 4 = v % 2 ^ 32
         ∧ ∀ a, ¬ (addr i ≤ a ∧ a < addr i + 4) → memByte u.mem a = memByte s.mem a
       (q.run.started = false → cmdHeld s c = false → stopStatus s k c = 0 →
         (placed → ∃ u, exec step s = .next u ∧ run u = { started := true, ets := max c.pts q.ets })
         ∧ (x.fmt ≠ 1 → ∃ u, exec step s = .next u ∧ (run u).fault = some (bad p, h)))
       ∧ (placed → reach → q.run.started = true → q.run.fin = none → q.run.fault = none → stopStatus s k c = 0 →
         (readsFirst c.op = true → q.run.pos < total → ∃ u, exec step s = .next u ∧ pure u ∧ (run u).pos = q.run.pos + 1
           ∧ (run u).vals = q.run.vals ++ [memRead s.mem (addr q.run.pos) 4])
         ∧ (solving ∨ c.op = .frd h p b → q.run.phase = 0 → checkHome s c.ctxh h = .ok () → 0 < tget 0 s.eng.order slot →
           x.e0 = tget 0 s.eng.order slot → (if c.op = .frd h p b then x.e1 = x.e0 else 1 ≤ x.e1 ∧ x.e1 ≤ 256) →
           ∃ u, exec (.factorStartEvent k) s = .next u ∧ pure u
             ∧ run u = { q.run with phase := 1, vals := [],
                                    work := ((List.range n).flatMap fun j => (List.range (n - j)).map fun i =>
                                      tget (0 : BitVec 32) s.eng.fac (slot * 4096 + 64 * (j + i) + j)) })
         ∧ (solving → q.run.phase = 1 → 0 < n →
           let j := q.run.pos / (2 * n)
           let i := q.run.pos % (2 * n)
           let got := q.run.vals ++ [memRead s.mem (addr (j * n + i)) 4]
           j < x.e1 →
           (i < n → ∃ u, exec step s = .next u ∧ pure u ∧ (run u).pos = q.run.pos + 1
             ∧ (run u).vals = if i + 1 = n then (if c.op = .ftrs h p b then solveForward cols got else solveBackward cols got) else got)
           ∧ (n ≤ i → ∃ u, exec step s = .next u ∧ stores u (j * n + (i - n)) (q.run.vals[i - n]?.getD 0) ∧ (run u).pos = q.run.pos + 1
             ∧ (run u).fin = if j * n + (i - n) + 1 = total then some (0, 0, 0) else none))
         ∧ (c.op = .frd h p b → q.run.phase = 1 → x.e1 = n → q.run.pos < total → ∃ u, exec step s = .next u ∧ (run u).pos = q.run.pos + 1
           ∧ stores u q.run.pos (let i := q.run.pos / n
                                 let j := q.run.pos % n
                                 if j ≤ i then ((cols[j]?.getD [])[i - j]?).getD 0 else 0)
           ∧ (run u).fin = if q.run.pos + 1 = total then some (0, 0, 0) else none)))
  ∧ ((∀ (s : State) (k : Nat) (c : Cmd) (r : List Cmd),
       let q := queueAt s k true
       q.cmds = c :: r →
       let i := Instr.engineOperationEnd k 2
       let popped (u : State) : Prop := queueAt u k true = { q with cmds := r, ets := q.run.ets, done := q.done + 1, run := {} }
         ∧ ∀ a, memByte u.mem a = memByte s.mem a
       let replies (u : State) (a : ReplyAct) : Prop := u.coh.replies = s.coh.replies ++ [{ tag := c.tag, act := a }]
       let posted (u : State) (status cause : Nat) (info : Word) : Prop :=
         u.hold.arriving = if c.evq = 0 then s.hold.arriving else s.hold.arriving ++ [completion c q.run status cause info]
       (q.run.fin = none → q.run.fault = none → exec i s = .next s)
       ∧ (∀ t, c.plain = true → tagged s c.tag = some t → q.run.fault = none → q.run.fin = some (0, 0, 0) →
         ((∀ h d, c.op ≠ .fdia h d) → ∃ u, exec i s = .next u ∧ popped u ∧ replies u (.regs [] (max t.ctx.pts q.run.ets)))
         ∧ ∀ h d v, c.op = .fdia h d → q.run.vals = [v] → ∃ u, exec i s = .next u ∧ popped u
           ∧ replies u (.regs [(d.val, BitVec.ofNat 64 v)] t.ctx.pts))
       ∧ (∀ t st ca info, c.plain = true → tagged s c.tag = some t → q.run.fault = none → q.run.fin = some (st, ca, info) → st ≠ 0 →
         (∀ h d, c.op ≠ .fdia h d) → ∃ u, exec i s = .next u ∧ popped u ∧ replies u (.regs [] (max t.ctx.pts c.pts)))
       ∧ (∀ t e info, c.plain = true → tagged s c.tag = some t → q.run.fault = some (e, info) →
         ∃ u, exec i s = .next u ∧ popped u ∧ replies u (.exc e))
       ∧ (∀ st ca info, c.plain = false → q.run.fault = none → q.run.fin = some (st, ca, info) →
         ∃ u, exec i s = .next u ∧ popped u ∧ posted u st ca info)
       ∧ (∀ e info, c.plain = false → q.run.fault = some (e, info) →
         ∃ u, exec i s = .next u ∧ popped u ∧ posted u (if e.cause = .lapsed then 1 else 2) (causeCode e.cause) info))
     ∧ (∀ (s : State) (k : Nat) (cp : Bool), ((pairAt s k).stream cp).busy = true →
       let p := pairAt s k
       let x := p.stream cp
       ∃ u, exec (.engineOperationEnd k (if cp then 1 else 0)) s = .next u
         ∧ (pairAt u k).stream cp = { x with busy := false, load := none } ∧ (pairAt u k).stream (!cp) = p.stream (!cp)
         ∧ (∀ n b, x.load = some (n, b) → b ≠ {} → bufAt u k n = b) ∧ (x.load = none → (pairAt u k).bufs = p.bufs)
         ∧ (pairAt u k).kdone = p.kdone + (if cp then 1 else 0) ∧ (pairAt u k).sdone = p.sdone + (if cp then 0 else 1)
         ∧ (pairAt u k).kets = (if cp then max p.kets x.ctx.pts else p.kets) ∧ (pairAt u k).sets = if cp then p.sets else max p.sets x.ctx.pts))

/-- R287 and R289: one column of the sweep is the rotation that the rule writes out, each operation rounded once; a zero element leaves the
column as it is; and each element of a solve is what the loops of R289 give. -/
def Obligations.SweepsAndSolvesFollowTheirLoops : Prop :=
  let rn (x : FVal × Nat) : Nat := (f32.finish .rne x).1
  let v (a : Nat) : FVal := f32.unpack a
  let neg (a : Nat) : Nat := a ^^^ 0x80000000
  let mul (a b : Nat) : Nat := rn (fMul (v a) (v b))
  let div (a b : Nat) : Nat := rn (fDiv (v a) (v b))
  let fma (a b c : Nat) : Nat := rn (fFma .rne (v a) (v b) (v c))
  let fin (a : Nat) : Bool := a / 2 ^ 23 % 256 != 255
  (∀ (down : Bool) (thr k a b : Nat) (l x : List Nat) (cols : List (List Nat)), l.length = x.length →
    let sg (a : Nat) : Nat := if down then neg a else a
    let p := mul a a
    let q := fma (sg b) b p
    let rho := rn (fSqrt (v q))
    let c := div rho a
    let s := div b a
    let stops : Bool := (down && (fCond .le (v q) (v (mul thr p))).1)
      || !(fin p && fin q && fin rho && fin c && fin s) || rho % 0x80000000 == 0
    let col := (l.zip x).map fun e => div (fma (sg s) e.2 e.1) c
    let rest := (col.zip x).map fun e => fma c e.2 (neg (mul s e.1))
    (b % 0x80000000 = 0 → sweep down thr k ((a :: l) :: cols) (b :: x) = (sweep down thr (k + 1) cols x).map fun r => (a :: l) :: r)
    ∧ (b % 0x80000000 ≠ 0 → stops = true → sweep down thr k ((a :: l) :: cols) (b :: x) = .error k)
    ∧ (b % 0x80000000 ≠ 0 → stops = false → (∀ e ∈ col ++ rest, fin e = true) →
      sweep down thr k ((a :: l) :: cols) (b :: x) = (sweep down thr (k + 1) cols rest).map fun r => (rho :: col) :: r)
    ∧ (b % 0x80000000 ≠ 0 → stops = false → (∃ e ∈ col ++ rest, fin e = false) →
      sweep down thr k ((a :: l) :: cols) (b :: x) = .error k))
  ∧ (∀ (cols : List (List Nat)) (w : List Nat), cols.length = w.length → (∀ j c, cols[j]? = some c → c.length = w.length - j) →
    let n := w.length
    let L (i j : Nat) : Nat := ((cols[j]?.getD [])[i - j]?).getD 0
    let y := solveForward cols w
    let z := solveBackward cols w
    y.length = n ∧ z.length = n
    ∧ (∀ i, i < n → y[i]?.getD 0 =
        div ((List.range i).foldl (fun t j => fma (neg (L i j)) (y[j]?.getD 0) t) (w[i]?.getD 0)) (L i i))
    ∧ (∀ i, i < n → z[i]?.getD 0 =
        div ((List.range (n - 1 - i)).foldl (fun t j => fma (neg (L (n - 1 - j) i)) (z[n - 1 - j]?.getD 0) t) (w[i]?.getD 0)) (L i i)))

/-! ### The matrix engine and the sequencer pair -/

/-- R256, R257 and R259 to R261: MLDA and MLDB read the units of their shape, and MLDA.G and MLDB.G the rows of their tile in global memory,
and are to fill their buffer with the elements expanded to BF16, K and M from the shape or the word; a load that an access's refusal ends has
written the elements read before it. Group records hold 32 elements each,
element kk in bits b·kk and up. An operand that its rule does not admit faults with it.
R235, R237, R239 to R241 and R262 to R264: MSCL puts the bytes of a scale segment at the tail of the FIFO, or waits while it has no room;
MLUT writes the codebook of a bank; MCFG sets the formats. A segment is decoded nibble by nibble: a code below 8 adds to the column's exponent
of the group before, one above 8 subtracts, 8 escapes to the byte that follows; a segment that is too short or too long, and an exponent above
254, fault. -/
def Obligations.BuffersScalesAndFormatsAreLoaded : Prop :=
  (∀ (s : State) (g : Guard) (k : Nat) (x : Stream) (b r q : GReg) (y : Src) (sh : Shape), StreamIssues g s k false x →
     let c := (pairAt s k).owner.core
     let p := rG s b
     let n := (srcZ s y).toNat
     let mem (u : State) : Prop := ∀ m, memByte u.mem m = memByte s.mem m
     let loads (i : Instr) (m : Nat) (P : Buf → Prop) : Prop := StreamDoes i s k false x fun u =>
       mem u ∧ ∃ B : Buf, ((pairAt u k).stream false).load = some (m, B) ∧ B.filled = true ∧ (pairAt u k).bufs = (pairAt s k).bufs ∧ P B
     let code := codebookOf s (pCore c p) (sh.base / 2 ^ 15)
     let bits := fmtBits sh.fmt
     (MShape s c p sh false → n < 2 → aFmt sh.fmt = true → kOk sh.e0 = true → 1 ≤ sh.e1 → sh.e1 ≤ 128 →
       loads (.mlda g y b) (4 + n) fun B => B.fmt = sh.fmt ∧ B.k = sh.e0 ∧ B.m = sh.e1
         ∧ B.elems = (List.range (sh.e0 * sh.e1)).map fun i => expand sh.fmt 0 (unitAt s c sh i))
     ∧ (MShape s c p sh false → n < 4 → bFmt sh.fmt = true → sh.e0 = 64 →
       (scaledFmt sh.fmt = false → kOk sh.e1 = true → loads (.mldb g y b) n fun B => B.fmt = sh.fmt ∧ B.k = sh.e1
         ∧ B.elems = (List.range (64 * sh.e1)).map fun i => expand sh.fmt code (unitAt s c sh i))
       ∧ (scaledFmt sh.fmt = true → 1 ≤ sh.e1 → sh.e1 ≤ 8 → loads (.mldb g y b) n fun B => B.fmt = sh.fmt ∧ B.k = 32 * sh.e1
         ∧ B.elems.length = 64 * (32 * sh.e1) ∧ ∀ kk m, kk < 32 * sh.e1 → m < 64 →
           B.elems[64 * kk + m]? = some (expand sh.fmt code (unitAt s c sh (64 * (kk / 32) + m) / 2 ^ (bits * (kk % 32)) % 2 ^ bits))))
     ∧ (∀ j, MShapeNamed s c p sh → n < 2 → aFmt sh.fmt = true → kOk sh.e0 = true → 1 ≤ sh.e1 → sh.e1 ≤ 128 → j < sh.count →
       (∀ i, i < j → winOk s (pCore c p) c (pOff (mshapeAt sh i)) (fmtSize sh.fmt) true false = true) →
       winOk s (pCore c p) c (pOff (mshapeAt sh j)) (fmtSize sh.fmt) true false = false → (bufAt s k (4 + n)).k = sh.e0 →
       (pairAt s k).ended = false →
       ∃ u, exec (.mlda g y b) s = .next u ∧ ((pairAt u k).stream false).st = 3
         ∧ (bufAt u k (4 + n)).elems = (bufAt s k (4 + n)).elems.zipIdx.map fun e =>
             if e.2 < j then expand sh.fmt 0 (unitAt s c sh e.2) else e.1)
     ∧ (2 ≤ n → exec (.mlda g y b) s = .next (confine s (raise (bad (srcZ s y)) s)))
     ∧ (4 ≤ n → exec (.mldb g y b) s = .next (confine s (raise (bad (srcZ s y)) s)))
     ∧ (n < 2 → mshapePtr s c p = false → exec (.mlda g y b) s = .next (confine s (raise (bad p) s)))
     ∧ (∀ (w : Fin 2) (K : BitVec 16) (M : BitVec 8) (t : State) (vs : List Nat),
       let f := (pairAt s k).mcfg.toNat / 16 % 16
       let z := fmtSize f
       let base := rG s r
       let pitch := rG s q
       kOk K.toNat = true → 1 ≤ M.toNat → M.toNat ≤ 128 → (pSpace base = 0 ∨ pSpace base = 4) → checkPtr s base 32 1 = .ok () →
       pitch.toNat % 32 = 0 → K.toNat * z ≤ pitch.toNat →
       readAll z (K.toNat * M.toNat) (fun i => base + BitVec.ofNat 64 (i / K.toNat * pitch.toNat) + BitVec.ofNat 64 (z * (i % K.toNat))) 32769
         (mapStream (loadInto s (4 + w.val)) fun x => { x with head := [f] }) = .ok t vs →
       ∃ u, exec (.mldaG g w r q K M) s = .next u ∧ (curCtx u).pc = nextPc (curCtx t).pc
         ∧ ((pairAt u k).stream false).load = some (4 + w.val, { filled := true, fmt := f, k := K.toNat, m := M.toNat,
                                                                  elems := vs.map (expand f 0) })
         ∧ ∀ m, memByte u.mem m = memByte t.mem m)
     ∧ (∀ (w : Fin 4) (K : BitVec 16) (t : State) (vs : List Nat),
       let f := (pairAt s k).mcfg.toNat % 16
       let cb := codebookOf s c ((pairAt s k).mcfg.toNat / 256 % 16)
       let z := (unitAccess f).1
       let per := 64 * (unitAccess f).2
       let rows := if scaledFmt f = true then K.toNat / 32 else K.toNat
       let base := rG s r
       let pitch := rG s q
       kOk K.toNat = true → (pSpace base = 0 ∨ pSpace base = 4) → checkPtr s base 32 1 = .ok () → pitch.toNat % 32 = 0 →
       64 * unitBytes f ≤ pitch.toNat →
       readAll z (per * rows) (fun i => base + BitVec.ofNat 64 (i / per * pitch.toNat) + BitVec.ofNat 64 (z * (i % per))) 16385
         (mapStream (loadInto s w.val) fun x => { x with head := [f, cb] }) = .ok t vs →
       ∃ u B, exec (.mldbG g w r q K) s = .next u ∧ (curCtx u).pc = nextPc (curCtx t).pc
         ∧ ((pairAt u k).stream false).load = some (w.val, B) ∧ B.filled = true ∧ B.fmt = f ∧ B.k = K.toNat
         ∧ (scaledFmt f = false → B.elems = vs.map (expand f cb))
         ∧ (scaledFmt f = true → ∀ kk m, kk < K.toNat → m < 64 → B.elems[64 * kk + m]? = some (expand f cb
             ((((vs.drop ((64 * (kk / 32) + m) * fmtBits f)).take (fmtBits f)).foldr (fun v n => v + 2 ^ 32 * n) 0)
               / 2 ^ (fmtBits f * (kk % 32)) % 2 ^ fmtBits f))))
     ∧ (∀ (w : Fin 2) (K : BitVec 16) (M : BitVec 8), kOk K.toNat = false →
       exec (.mldaG g w r q K M) s = .next (confine s (raise (bad (BitVec.ofNat 64 K.toNat)) s))))
  ∧ ((∀ (s : State) (g : Guard) (k : Nat) (x : Stream) (a : GReg) (b : Src), StreamIssues g s k false x →
       let c := (pairAt s k).owner.core
       let p := rG s a
       let n := (srcZ s b).toNat
       let fifo := (pairAt s k).fifo
       let own : Prop := pSpace p = 1 ∧ p.toNat % 2 ^ 60 + n ≤ 2 ^ 19
       (own → 1 ≤ n → n ≤ 1024 → fifo.length < 8 → (fifo.map List.length).sum + n ≤ 2048 →
         StreamDoes (.mscl g a b) s k false x fun u => (∀ m, memByte u.mem m = memByte s.mem m)
           ∧ (pairAt u k).fifo = fifo ++ [(List.range n).map fun i => memByte s.mem (scratchAt c (pOff p) + i)])
       ∧ (own → 1 ≤ n → n ≤ 1024 → ¬ (fifo.length < 8 ∧ (fifo.map List.length).sum + n ≤ 2048) →
         ∃ u, exec (.mscl g a b) s = .next u ∧ pairAt u k = { pairAt s k with staging := { x with wait := true, rest := true } })
       ∧ (n = 0 ∨ 1024 < n → exec (.mscl g a b) s = .next (confine s (raise (bad (BitVec.ofNat 64 n)) s)))
       ∧ (n < 64 → pSpace p = 1 → p.toNat % 2 ^ 60 < 2 ^ 19 → p.toNat % 32 = 0 → k < 256 →
         StreamDoes (.mlut g a b) s k false x fun u => (∀ m, memByte u.mem m = memByte s.mem m)
           ∧ (∀ i, i < 16 → tget 0 u.eng.codebook (((k * 4 + n / 16) * 16 + n % 16) * 16 + i)
               = BitVec.ofNat 16 (memRead s.mem (scratchAt c (pOff p) + 2 * i) 2))
           ∧ ∀ e, e / 16 ≠ (k * 4 + n / 16) * 16 + n % 16 → tget (0 : BitVec 16) u.eng.codebook e = tget 0 s.eng.codebook e)
       ∧ (64 ≤ n → exec (.mlut g a b) s = .next (confine s (raise (bad (srcZ s b)) s))))
     ∧ (∀ (s : State) (g : Guard) (k : Nat) (x : Stream) (a : Src), StreamIssues g s k true x →
       let v := srcZ s a
       let ok : Prop := v.toNat < 2 ^ 12 ∧ (2 ≤ v.toNat / 16 % 16 ∧ v.toNat / 16 % 16 ≤ 4) ∧ (2 ≤ v.toNat % 16 ∧ v.toNat % 16 ≤ 14)
       (ok → StreamDoes (.mcfg g a) s k true x fun u => (pairAt u k).mcfg = v ∧ ∀ m, memByte u.mem m = memByte s.mem m)
       ∧ (¬ ok → exec (.mcfg g a) s = .next (confine s (raise (bad v) s))))
     ∧ (∀ (prev : Int) (col grp n lo hi : Nat) (r : List Nat),
       let after (e : Int) : Except ScaleFault (Int × List Nat) := if 0 ≤ e ∧ e ≤ 254 then .ok (e, r) else .error ⟨.scaleRange, e, col, grp⟩
       (n < 8 → oneScale prev col grp (n :: r) = after (prev + n))
       ∧ (8 < n → n < 16 → oneScale prev col grp (n :: r) = after (prev - (16 - n)))
       ∧ oneScale prev col grp (8 :: lo :: hi :: r) = after (16 * hi + lo : Nat)
       ∧ oneScale prev col grp [] = .error ⟨.streamDesync, 0xFFFF, col, grp⟩
       ∧ oneScale prev col grp [8] = .error ⟨.streamDesync, 0xFFFF, col, grp⟩
       ∧ oneScale prev col grp [8, lo] = .error ⟨.streamDesync, 0xFFFF, col, grp⟩
       ∧ nibbles [] = [] ∧ (∀ (b : Byte) (bs : List Byte), nibbles (b :: bs) = b.toNat % 16 :: b.toNat / 16 :: nibbles bs)
       ∧ (∀ (es : List Int) (ns : List Nat), decodeScales 0 grp es ns = if ns = [] ∨ ns = [0] then .ok [] else .error ⟨.streamDesync, ns.length, 0xFF, 0xFFFF⟩)))

/-- R243: one element after one group of 32 products is the accumulator plus the exact sum of the products times 2^(scale − 127), rounded once
to FP32; the accumulator itself when the sum is zero; a canonical NaN when a NaN enters, infinities of both signs meet, or an infinity meets a
zero, with NV in the last two cases. -/
def Obligations.GroupsAreAddedExactly : Prop :=
  (∀ (acc : Nat) (scale : Int) (as bs : List Int), as.length = bs.length →
    let sum : Int := ((as.zip bs).map fun e => e.1 * e.2).sum
    (sum = 0 → addGroup acc scale (as.map .fin) (bs.map .fin) = (acc, 0))
    ∧ (sum ≠ 0 →
      let r := f32.finish .rne (fAdd .rne (f32.unpack acc) (.fin (decide (sum < 0)) sum.natAbs (scale - 127 - 266)))
      addGroup acc scale (as.map .fin) (bs.map .fin) = (r.1, (if r.2 / 16 % 2 = 1 then 2 else 0) + if r.2 / 4 % 2 = 1 then 1 else 0)))
  ∧ (∀ (acc : Nat) (scale : Int) (as bs : List BVal), as.length = bs.length →
    let ps := as.zip bs
    let nan : Prop := ∃ e ∈ ps, e.1 = .nan ∨ e.2 = .nan
    let invalid : Prop := ∃ e ∈ ps, (∃ n, e = (.inf n, .fin 0)) ∨ ∃ n, e = (.fin 0, .inf n)
    let infinite (neg : Bool) : Prop := ∃ e ∈ ps, (∃ n m, e = (.inf n, .inf m) ∧ (n != m) = neg)
      ∨ ∃ n v, v ≠ 0 ∧ (e = (.inf n, .fin v) ∨ e = (.fin v, .inf n)) ∧ (n != decide (v < 0)) = neg
    (nan → ¬ invalid → ¬ (infinite true ∧ infinite false) → addGroup acc scale as bs = (0x7FC00000, 0))
    ∧ (invalid → addGroup acc scale as bs = (0x7FC00000, 2))
    ∧ (infinite true → infinite false → addGroup acc scale as bs = (0x7FC00000, 2))
    ∧ (∀ neg, infinite neg → ¬ infinite (!neg) → ¬ nan → ¬ invalid → acc / 2 ^ 23 % 256 ≠ 255 →
        addGroup acc scale as bs = (if neg then 0xFF800000 else 0x7F800000, 0)))
  ∧ (∀ b : Nat, bval b = match bf16.unpack b with
    | .nan _ => .nan
    | .inf n => .inf n
    | .fin n m e => .fin ((if n then -1 else 1) * (m * 2 ^ (e + 133).toNat)))

/-- R245, R251, R258 and R265 to R269: MMA, MMA.X and MMV add the products of their operands to the slot group by group, each element as R243
has it, the scales from the oldest segment where B's format is scaled; the zero map of the MMA before is counted as predicted, mispredicted where
the groups do not bear it out, and replaced (R245); MZRO clears a slot; MWB stores its elements; MRDS reads one. A slot
that is parked or lapsed refuses. -/
def Obligations.AccumulationsChangeTheirSlotAlone : Prop :=
  ∀ (s : State) (g : Guard) (k : Nat) (x : Stream) (d a b : GReg) (w v : Src) (sat : Bool) (slot : Nat), StreamIssues g s k true x →
    let c := (pairAt s k).owner.core
    let h := rG s d
    let cell (u : State) (i n : Nat) : BitVec 32 := tget 0 u.eng.acc (slot * 8192 + 64 * i + n)
    let others (u : State) : Prop := ∀ e, e / 8192 ≠ slot → tget (0 : BitVec 32) u.eng.acc e = tget 0 s.eng.acc e
    let same (u : State) : Prop := ∀ e, tget (0 : BitVec 32) u.eng.acc e = tget 0 s.eng.acc e
    let mem (u : State) : Prop := ∀ m, memByte u.mem m = memByte s.mem m
    let fifo := (pairAt s k).fifo
    let scales (f K : Nat) (sc : List (List Int)) (rest : List (List Byte)) : Prop :=
      (scaledFmt f = false ∧ sc = List.replicate (K / 32) (List.replicate 64 127) ∧ rest = fifo)
      ∨ (scaledFmt f = true ∧ ∃ seg, fifo = seg :: rest ∧ decodeScales (K / 32) 0 (List.replicate 64 127) (nibbles seg) = .ok sc)
    let added (u : State) (A B : Nat → Nat → Nat) (K M : Nat) (sc : List (List Int)) : Prop :=
      (∀ i n, i < M → n < 64 → (cell u i n).toNat = (List.range (K / 32)).foldl (fun acc G =>
        (addGroup acc ((sc[G]?.getD [])[n]?.getD 127) ((List.range 32).map fun j => bval (A i (32 * G + j)))
          ((List.range 32).map fun j => bval (B (32 * G + j) n))).1) (cell s i n).toNat)
      ∧ (∀ i n, M ≤ i → i < 128 → n < 64 → cell u i n = cell s i n) ∧ others u
    let sh := shapeOf s (pCore c (rG s b)) (rG s b) (memRead s.mem (scratchAt (pCore c (rG s b)) (pOff (rG s b))) 32)
    let wb := bufAt s k (srcZ s w).toNat
    let xb := bufAt s k (4 + (srcZ s v).toNat)
    let zeros (A : Nat → Nat → Nat) (K M : Nat) : List Bool :=
      (List.range (K / 32)).map fun G => (List.range M).all fun i => (List.range 32).all fun j => (bval (A i (32 * G + j))).isZero
    let predicts (u : State) (A B : Nat → Nat → Nat) (K M : Nat) : Prop :=
      let predicted := (List.range (K / 32)).filter fun G => (pairAt s k).zmap[G]?.getD false
      let missed := predicted.filter fun G =>
        !((zeros A K M)[G]?.getD false && (List.range 64).all fun n => (List.range 32).all fun j => (bval (B (32 * G + j) n)).finite)
      tget 0 u.eng.svc (k * 32 + 20) = tget 0 s.eng.svc (k * 32 + 20) + predicted.length
        ∧ tget 0 u.eng.svc (k * 32 + 21) = tget 0 s.eng.svc (k * 32 + 21) + missed.length ∧ (pairAt u k).zmap = zeros A K M
    (slotEvent s h = .ok slot → (pairAt s k).staging.load = none → (pairAt s k).staging.into = none →
      (∀ sc rest, MShape s c (rG s b) sh false → (srcZ s w).toNat < 4 → wb.filled = true → aFmt sh.fmt = true → kOk sh.e0 = true →
        1 ≤ sh.e1 → sh.e1 ≤ 128 → sh.e0 = wb.k → scales wb.fmt sh.e0 sc rest →
        let A (i kk : Nat) : Nat := expand sh.fmt 0 (unitAt s c sh (i * sh.e0 + kk))
        let B (kk n : Nat) : Nat := wb.elems[64 * kk + n]?.getD 0
        wb.elems.length = 64 * sh.e0 →
        StreamDoes (.mma g d w b) s k true x fun u => added u A B sh.e0 sh.e1 sc ∧ (pairAt u k).fifo = rest ∧ mem u ∧ predicts u A B sh.e0 sh.e1)
      ∧ (∀ sc rest, (srcZ s w).toNat < 4 → wb.filled = true → (srcZ s v).toNat < 2 → xb.filled = true → xb.k = wb.k → kOk wb.k = true →
        xb.m ≤ 128 → wb.elems.length = 64 * wb.k → xb.elems.length = xb.m * xb.k → scales wb.fmt wb.k sc rest →
        let A (i kk : Nat) : Nat := xb.elems[i * xb.k + kk]?.getD 0
        let B (kk n : Nat) : Nat := wb.elems[64 * kk + n]?.getD 0
        StreamDoes (.mmaX g d w v) s k true x fun u => added u A B wb.k xb.m sc ∧ (pairAt u k).fifo = rest ∧ mem u ∧ predicts u A B wb.k xb.m)
      ∧ (∀ (n : Fin 2) (t : State) (vs : List Nat) sc rest,
        let yb := bufAt s k (4 + n.val)
        let f := (pairAt s k).mcfg.toNat % 16
        let cb := codebookOf s c ((pairAt s k).mcfg.toNat / 256 % 16)
        let (z, per, rows) := bTile f yb.k
        yb.filled = true → 1 ≤ yb.m → yb.m ≤ 8 → kOk yb.k = true → yb.elems.length = yb.m * yb.k → tileCheck s (rG s a) (rG s b) (64 * unitBytes f) = .ok () →
        readAll z (per * rows) (tileAt (rG s a) (rG s b) z per) 16385
          (mapStream s fun x => { x with head := [f, cb, yb.fmt, yb.k, yb.m] ++ yb.elems }) = .ok t vs →
        vs.length = per * rows → (pairAt t k).staging = (pairAt s k).staging → (pairAt t k).bufs = (pairAt s k).bufs → t.eng.acc = s.eng.acc → slotEvent t h = .ok slot → (pairAt t k).fifo = fifo →
        (pairAt t k).mcfg = (pairAt s k).mcfg → scales f yb.k sc rest →
        let A (i kk : Nat) : Nat := yb.elems[i * yb.k + kk]?.getD 0
        let B (kk m : Nat) : Nat := (bElems f cb yb.k vs)[64 * kk + m]?.getD 0
        ∃ u, exec (.mmv g d a b n) s = .next u ∧ added u A B yb.k yb.m sc ∧ (pairAt u k).fifo = rest ∧ ∀ m, memByte u.mem m = memByte t.mem m)
      ∧ (StreamDoes (.mzro g d) s k true x fun u => (∀ i n, i < 128 → n < 64 → cell u i n = 0) ∧ others u ∧ mem u))
    ∧ (let sa := shapeOf s (pCore c (rG s a)) (rG s a) (memRead s.mem (scratchAt (pCore c (rG s a)) (pOff (rG s a))) 32)
       slotEvent s h = .ok slot → MShape s c (rG s a) sa true → 1 ≤ sa.fmt → sa.fmt ≤ 4 → 1 ≤ sa.e0 → sa.e0 ≤ 64 → 1 ≤ sa.e1 → sa.e1 ≤ 128 →
       (∀ m n, m < sa.count → n < sa.count → m ≠ n → Apart sa m sa n) →
       StreamDoes (.mwb g d a sat) s k true x fun u => same u
        ∧ (∀ i n, i < sa.e1 → n < sa.e0 → unitAt u c sa (i * sa.e0 + n) =
            if sa.fmt = 1 then (cell s i n).toNat else (wr sa.fmt .rne sat (f32.unpack (cell s i n).toNat, 0)).1 % 256 ^ sa.size)
        ∧ ∀ m, (∀ e, e < sa.count → ¬ (scratchAt (pCore c (rG s a)) (sa.addr sa.size e) ≤ m
            ∧ m < scratchAt (pCore c (rG s a)) (sa.addr sa.size e) + sa.size)) → memByte u.mem m = memByte s.mem m)
    ∧ (∀ e, slotEvent s h = .error e → exec (.mzro g d) s = .next (confine s (raise e s)))
    ∧ (checkHandle s [4] h = .ok () → hHome h = 4 * k → checkHome s (pairAt s k).ctxh h = .ok () →
        (tget ({} : Mslot) s.eng.mslots (slotKey (hKey h) 8)).parked = true →
        slotEvent s h = .error { cause := .protection, info0 := h, detail := 8 })
    ∧ (slotEvent s (rG s a) = .ok slot → (srcZ s w).toNat < 8192 →
      Writes (.mrds g d a w) s d ((cell s ((srcZ s w).toNat / 64) ((srcZ s w).toNat % 64)).setWidth 64))
    ∧ (8192 ≤ (srcZ s w).toNat → Traps (.mrds g d a w) s (bad (srcZ s w)))

/-- R249, R250 and R270 to R274: FORK takes an idle pair and starts its streams with the strand's registers, a null pointer's at DONE; RDZV joins
the open fork when both have ended, with a PTS no less than theirs, or takes the trap that the pair holds, and waits till then. SEMP counts up
with the caller's timestamp and SEMW down, in the order of arrival; a stream whose partner has ended does not wait on a count of 0, and one
whose partner had ended while it waited so faults whatever SEMPs have come since. MRDS of a strand is answered by a reply. -/
def Obligations.ForksJoinsAndSemaphores : Prop :=
  (∀ (s : State) (g : Guard) (c i : Nat) (t : Strand) (a b : Src), StrandIssues g s c i t →
    let k := c / 4
    let p := pairAt s k
    let x := srcZ s a
    let y := srcZ s b
    let me := curTag s
    let ok (v : Word) : Prop := v = 0 ∨ codeOk v.toNat = true
    let start (v : Word) : Stream := if v = 0 then { ctx := { t.ctx with pc := 0 }, st := 2 } else { ctx := { t.ctx with pc := v.setWidth 32 }, st := 1 }
    (ok x → ok y → p.st = 0 → (p.forks = [] ∨ p.forks.head? = some me) →
      ∃ u, exec (.fork g a b) s = .next u ∧ (curCtx u).pc = nextPc t.ctx.pc ∧ (∀ r, rG u r = rG s r)
        ∧ (∀ m, memByte u.mem m = memByte s.mem m)
        ∧ (let q := pairAt u k
           q.st = (if x = 0 ∧ y = 0 then 3 else if x = 0 ∨ y = 0 then 2 else 1) ∧ q.owner = me ∧ q.ctxh = t.ctxh ∧ q.record = t.record
           ∧ q.privb = t.privb ∧ q.staging = start x ∧ q.compute = start y ∧ q.fifo = [] ∧ q.zmap = [] ∧ q.fault = none ∧ q.bufs = p.bufs
           ∧ q.mcfg = p.mcfg ∧ ∀ n, (tget {} q.sems n).count = (tget {} p.sems n).count))
    ∧ (ok x → ok y → ¬ (p.st = 0 ∧ (p.forks = [] ∨ p.forks.head? = some me)) →
      exec (.fork g a b) s = .next (suspend (putPair s k { p with forks := if me ∈ p.forks then p.forks else p.forks ++ [me] }) 1 .again))
    ∧ (¬ ok x → Traps (.fork g a b) s (bad x))
    ∧ (p.st = 0 ∨ p.owner ≠ me → exec (.rdzv g) s = .next (advance s))
    ∧ (p.st = 3 → p.owner = me → p.fifo = [] → ∃ u, exec (.rdzv g) s = .next u ∧ (curCtx u).pc = nextPc t.ctx.pc
        ∧ rPts u = max t.ctx.pts (max p.staging.ctx.pts p.compute.ctx.pts) ∧ (pairAt u k).st = 0 ∧ (∀ r, rG u r = rG s r))
    ∧ (∀ f, p.st = 4 → p.owner = me → p.fault = some f → exec (.rdzv g) s = .next (confine s
        (raise { cause := f.cause, info0 := f.info0, info1 := some f.info1, fatal := f.cause == .overlayMiss }
          (putPair s k { p with st := 0, fifo := [], fault := none }))))
    ∧ (p.owner = me → p.st = 1 ∨ p.st = 2 → exec (.rdzv g) s = .next (suspend s 1 .again))
    ∧ (∀ (d r : GReg) (slot : Nat), slotEvent s (rG s r) = .ok slot → x.toNat < 8192 → s.far = true →
      exec (.mrds g d r a) s = .next
        (let v := suspend s 1 .reply
         { v with coh.replies := s.coh.replies ++
             [{ tag := me, act := .regs [(d.val, (tget (0 : BitVec 32) s.eng.acc (slot * 8192 + x.toNat)).setWidth 64)] t.ctx.pts }] })))
  ∧ (∀ (s : State) (g : Guard) (a : Src), Issues .any g s →
    let n := (srcZ s a).toNat
    let x := semAt s n
    let q := x.queue.filter fun y => y == s.cur || inSemw s y
    let first : Prop := q = [] ∨ q.head? = some s.cur
    let lives : Prop := (curStream s).doomed = false
    (8 ≤ n → Traps (.semp g a) s (bad (srcZ s a)) ∧ Traps (.semw g a) s (bad (srcZ s a)))
    ∧ (n < 8 → x.count < 65535 → ∃ u, exec (.semp g a) s = .next u ∧ (curCtx u).pc = nextPc (curCtx s).pc ∧ rPts u = rPts s
        ∧ semAt u n = { x with count := x.count + 1, ets := max x.ets (rPts s) } ∧ (∀ m, m ≠ n → semAt u m = semAt s m)
        ∧ (∀ r, rG u r = rG s r) ∧ ∀ m, memByte u.mem m = memByte s.mem m)
    ∧ (n < 8 → 65535 ≤ x.count → Traps (.semp g a) s (bad (BitVec.ofNat 64 n)))
    ∧ (n < 8 → lives → x.count ≠ 0 → first → ∃ u, exec (.semw g a) s = .next u ∧ (curCtx u).pc = nextPc (curCtx s).pc
        ∧ rPts u = max (rPts s) x.ets ∧ (semAt u n).count = x.count - 1 ∧ (semAt u n).ets = x.ets ∧ s.cur ∉ (semAt u n).queue
        ∧ (∀ m, m ≠ n → semAt u m = semAt s m) ∧ (∀ r, rG u r = rG s r) ∧ (∀ m, memByte u.mem m = memByte s.mem m)
        ∧ (∀ k cp, k = curCluster s → s.cur ≠ .stream k cp → ((pairAt s k).stream (!cp)).st = 2 → ((pairAt s k).stream cp).st = 1 →
            ((pairAt s k).stream cp).wait = true → ((pairAt s k).stream cp).fetched = true → x.count = 1 → .stream k cp ∈ x.queue → ((pairAt u k).stream cp).doomed = true))
    ∧ (n < 8 → lives → ¬ (x.count ≠ 0 ∧ first) → ¬ (x.count = 0 ∧ partnerEnded s = true) → ∃ u, exec (.semw g a) s = .next u
        ∧ curCtx u = curCtx s ∧ s.cur ∈ (semAt u n).queue ∧ (semAt u n).count = x.count)
    ∧ (n < 8 → ¬ lives ∨ x.count = 0 ∧ partnerEnded s = true → Traps (.semw g a) s { cause := .streamDesync, info0 := 0 }))
  ∧ (∀ (s : State) (k : Nat) (cp : Bool) (n : Nat) (z : Sem),
    let p := pairAt s k
    let x := p.stream cp
    (p.st = 1 ∨ p.st = 2) → x.st = 1 → x.wait = true → x.fetched = true → x.ctx.iw.extractLsb' 88 8 = 0xBD#8 →
    (x.doomed = true ∨ (n, z) ∈ p.sems ∧ z.count = 0 ∧ .stream k cp ∈ z.queue) → (p.stream (!cp)).st ≠ 1 →
    exec (.semwStreamDesync k cp) s = .next (confine s (faultStream s k cp { cause := .streamDesync, info0 := 0 })))

/-! ### Records, cells and launches -/

/-- R297, R298, R299 and R313: SPAWN reads its record, adds a child to the record's launch entry and, at count 0, pushes the record on the
ring of the core that the cell pointer names; at a count n it arms the cell with the record, COUNT = n and STATE = 1, as one access. At a cell
that is armed or that no window opens, the count is undone and it traps. A record pushed to a full ring waits outside it, and keeps the strand
out of rotation.
R298 and R314: DECP takes its amount from COUNT as one access; at 0 the cell is fired: STATE 2, and its record is pushed on the ring of the
cell's owner with the access's timestamp. A cell that is not armed, or holds less, traps; so does an amount of 0.
R319 and R320: BAR at a cell with arrivals to come counts its own and waits in STATE 1; the last arrival turns the phase, releases every
waiter with its timestamp, and goes on with its sense turned; while acknowledgments are pending a BAR is held. A sense that is no bit, or not the
phase, traps, and so does a cell of no barrier. An acknowledgment takes 1 from PEND, or from WAIT for a waiter that has left unreleased:
halted, cancelled or gone.
That the child of a SPAWN that its cell refuses ends with the SPAWN's PTS at its issue is inferred (log entry 36). -/
def Obligations.RecordsAreSpawnedJoinedAndBarred : Prop :=
  (∀ (s : State) (g : Guard) (c j : Nat) (t : Strand) (d a : GReg) (b : Src) (off core coff : Nat), StrandIssues g s c j t → c < 1024 →
     ownPtr s (rG s d) 32 = .ok off → cellPtr s (rG s a) = .ok (core, coff) →
     let ld := spLoad s c off 32 t.ctx.pts
     let ts := ld.2.2
     let r := recOf (BitVec.ofNat 256 (memRead s.mem (scratchAt c off) 32))
     let n := (srcZ s b).toNat
     let l := launchAt s r.launch.toNat
     let cell := scratchAt core coff
     let join : Word := if n = 0 then 0 else BitVec.ofNat 64 (3 * 2 ^ 60 + core * 2 ^ 48 + coff)
     let r' : Rec := { r with join := join, graph := BitVec.ofNat 32 l.graph, phase := BitVec.ofNat 32 l.phase }
     let undone : State := { putLaunch s r.launch.toNat { l with out := l.out + 1 } with
       work.ends := s.work.ends ++ [{ launch := r.launch.toNat, ts := t.ctx.pts, cause := 0 }] }
     (codeOk r.code.toNat = false → Traps (.spawn g d a b) s (bad (r.code.zeroExtend 64)))
     ∧ (recOk r = true → n < 2 ^ 32 → l.st ≠ 0 → l.ctxh ≠ t.ctxh →
         Traps (.spawn g d a b) s { cause := .protection, info0 := r.launch.zeroExtend 64 })
     ∧ (recOk r = true → n < 2 ^ 32 → l.st = 0 → Traps (.spawn g d a b) s (bad (r.launch.zeroExtend 64)))
     ∧ (recOk r = true → n < 2 ^ 32 → l.st ≠ 0 → l.ctxh = t.ctxh → admits s l core = true →
       (n = 0 → ∃ u v, exec (.spawn g d a b) s = .next u ∧ (launchAt u r.launch.toNat).out = l.out + 1
         ∧ (∀ x, memByte u.mem x = memByte s.mem x) ∧ strandAt u c j = some v ∧ v.ctx.g = t.ctx.g ∧ v.ctx.pts = ts
         ∧ v.ctx.pc = nextPc t.ctx.pc ∧ (RoomFor s core r' → Pushed s u core r' ts ∧ v.st = t.st ∧ v.wait = t.wait)
         ∧ (¬ RoomFor s core r' → Awaits s u core r' ts ∧ v.st = 1 ∧ v.wait = .room s.core.tickets (s.core.tickets + 1)))
       ∧ (n ≠ 0 → winOk s core c coff 64 true true = true →
         (memRead s.mem (cell + 4) 1 ≠ 1 →
           let w := max ts ((stampAt ld.1 core coff).rts + 1)
           ∃ u, exec (.spawn g d a b) s = .next u ∧ (launchAt u r.launch.toNat).out = l.out + 1
             ∧ memRead u.mem cell 4 = n ∧ memRead u.mem (cell + 4) 1 = 1 ∧ memRead u.mem (cell + 32) 32 = (recBits r').toNat
             ∧ (∀ x, (x < cell ∨ cell + 5 ≤ x ∧ x < cell + 32 ∨ cell + 64 ≤ x) → memByte u.mem x = memByte s.mem x)
             ∧ u.core.rings = s.core.rings ∧ stampAt u core coff = { wts := w, rts := w } ∧ rPts u = w
             ∧ (curCtx u).pc = nextPc t.ctx.pc ∧ ∀ x, rG u x = rG s x)
         ∧ (memRead s.mem (cell + 4) 1 = 1 → exec (.spawn g d a b) s = .next (confine s (raise (bad (rG s a)) undone))))
       ∧ (n ≠ 0 → winOk s core c coff 64 true true = false → exec (.spawn g d a b) s = .next (confine s
           (raise { cause := .windowRefused, info0 := rG s a, detail := 4 } undone)))))
  ∧ (∀ (s : State) (g : Guard) (c j : Nat) (t : Strand) (a : GReg) (b : Src) (core coff : Nat), StrandIssues g s c j t →
       cellPtr s (rG s a) = .ok (core, coff) →
       let k := (srcZ s b).toNat
       let cell := scratchAt core coff
       let count := memRead s.mem cell 4
       let r := recOf (BitVec.ofNat 256 (memRead s.mem (cell + 32) 32))
       let w := max t.ctx.pts ((stampAt s core coff).rts + 1)
       (k = 0 → Traps (.decp g a b) s (bad 0))
       ∧ (2 ^ 32 ≤ k → Traps (.decp g a b) s (bad (srcZ s b)))
       ∧ (0 < k → k < 2 ^ 32 → winOk s core c coff 64 true true = false →
           Traps (.decp g a b) s { cause := .windowRefused, info0 := rG s a, detail := 4 })
       ∧ (0 < k → k < 2 ^ 32 → winOk s core c coff 64 true true = true →
         (memRead s.mem (cell + 4) 1 = 1 → k ≤ count → ∃ u v, exec (.decp g a b) s = .next u
           ∧ memRead u.mem cell 4 = count - k ∧ memRead u.mem (cell + 4) 1 = (if k = count then 2 else 1)
           ∧ (∀ x, (x < cell ∨ cell + 5 ≤ x) → memByte u.mem x = memByte s.mem x)
           ∧ stampAt u core coff = { wts := w, rts := w } ∧ strandAt u c j = some v ∧ v.ctx.pts = w ∧ v.ctx.g = t.ctx.g
           ∧ v.ctx.pc = nextPc t.ctx.pc
           ∧ (k < count → u.core.rings = s.core.rings ∧ v.st = t.st)
           ∧ (k = count → RoomFor s core r → Pushed s u core r w ∧ v.st = t.st ∧ v.wait = t.wait)
           ∧ (k = count → ¬ RoomFor s core r → Awaits s u core r w ∧ v.st = 1 ∧ v.wait = .room s.core.tickets (s.core.tickets + 1)))
         ∧ (memRead s.mem (cell + 4) 1 ≠ 1 ∨ count < k → Traps (.decp g a b) s (bad (rG s a)))))
  ∧ ((∀ (s : State) (g : Guard) (c j : Nat) (t : Strand) (d a : GReg) (core coff : Nat), StrandIssues g s c j t →
       let cell := scratchAt core coff
       let f (m : List Host.Cell) (k : Nat) : Nat := memRead m (cell + 4 * k) 4
       let n := f s.mem 0
       let arr := f s.mem 1
       let wait := f s.mem 2
       let sense := rG s d
       let w := max t.ctx.pts ((stampAt s core coff).rts + 1)
       let rest (u : State) : Prop := ∀ x, (x < cell + 4 ∨ cell + 20 ≤ x) → memByte u.mem x = memByte s.mem x
       (2 ≤ sense.toNat → Traps (.bar g d a) s (bad sense))
       ∧ (sense.toNat < 2 → cellPtr s (rG s a) = .ok (core, coff) → winOk s core c coff 64 true true = true →
         let ok : Prop := n ≠ 0 ∧ arr < n ∧ sense.toNat = f s.mem 4 % 2
         (¬ ok → Traps (.bar g d a) s (bad (rG s a)))
         ∧ (ok → f s.mem 3 ≠ 0 → exec (.bar g d a) s = .next (putStrand s c j { t with st := 1, wait := .held }))
         ∧ (ok → f s.mem 3 = 0 → arr + 1 = n → ∃ u, exec (.bar g d a) s = .next u ∧ f u.mem 1 = 0 ∧ f u.mem 2 = 0 ∧ f u.mem 3 = wait
             ∧ f u.mem 4 % 2 = 1 - f s.mem 4 % 2 ∧ rest u ∧ rG u d = 1 - sense ∧ rPts u = w ∧ (curCtx u).pc = nextPc t.ctx.pc
             ∧ stampAt u core coff = { wts := w, rts := w }
             ∧ ∀ b v, b ∈ s.work.bars → b.core = core → b.off = coff → b.released = none → b.left = false → tagged s b.tag = some v →
                 { b with released := some v.lastIssue } ∈ u.work.bars
                 ∧ { tag := b.tag, act := .regs [(b.d.val, 1 - v.ctx.g.get b.d)] (max v.ctx.pts w) } ∈ u.coh.replies
             ∧ (∀ b, b ∈ s.work.bars → b.core = core → b.off = coff → b.released = none → b.left = true →
                 { b with released := some 0 } ∈ u.work.bars))
         ∧ (ok → f s.mem 3 = 0 → arr + 1 < n → ∃ u x, exec (.bar g d a) s = .next u ∧ f u.mem 1 = arr + 1 ∧ f u.mem 2 = (wait + 1) % 2 ^ 32
             ∧ f u.mem 3 = 0 ∧ f u.mem 4 = f s.mem 4 ∧ rest u ∧ strandAt u c j = some x ∧ x.st = 1 ∧ x.wait = .barrier core coff
             ∧ x.ctx.pc = t.ctx.pc ∧ x.ctx.g = t.ctx.g ∧ x.ctx.pts = w
             ∧ u.work.bars = s.work.bars ++ [{ core := core, off := coff, tag := curTag s, d := d, released := none }])))
     ∧ (∀ (s : State) (k : Nat) (b : BarWait), s.work.bars[k]? = some b →
       let left : Prop := b.left = true ∨ match tagged s b.tag, b.released with
         | none, _ => True
         | some t, some i => t.lastIssue ≠ i ∨ (launchAt s t.record.launch.toNat).halted = true
         | some _, none => False
       let at_ := scratchAt b.core b.off + (if b.released = none then 8 else 12)
       (left → ∃ u, exec (.barrierAck k) s = .next u ∧ u.work.bars = s.work.bars.eraseIdx k
         ∧ memRead u.mem at_ 4 = memRead s.mem at_ 4 - 1 ∧ ∀ x, (x < at_ ∨ at_ + 4 ≤ x) → memByte u.mem x = memByte s.mem x)
       ∧ (¬ left → exec (.barrierAck k) s = .next s)))

/-- R302, R315 and R316: LAUNCH of a descriptor that keeps R315, under a graph of the issuer's context that is OPEN, adds a child to the graph,
creates a SEALED launch entry with OUT = UNITS from the descriptor, gives its name, and pushes the start records round the present admitted cores
in ascending order, each with the issuer's PTS. With the graph not OPEN, or no entry free, it gives 0 and creates nothing.
R307: the clusters of a launch's placed cores are dealt to its stages in ascending order, each taking the number that its entry gives; an
entry needs LO < HI ≤ 4,096 and zeros above.
That the launch entry issued is the lowest free one is the model's choice (log entry 7). -/
def Obligations.LaunchesCreateTheirStartRecords : Prop :=
  (∀ (s : State) (g : Guard) (c j : Nat) (t : Strand) (d a : GReg) (off : Nat), StrandIssues g s c j t → c < 1024 →
     ownPtr s (rG s a) 64 = .ok off → (2 ^ 19 < off + 128 → Traps (.launch g d a) s (bad (rG s a))) ∧ (off + 128 ≤ 2 ^ 19 →
     let b := memRead s.mem (scratchAt c off) 128
     let ld := spLoads s c off 4 t.ctx.pts
     let pts := ld.2.2
     let read : State := wPts ld.1 pts
     let check : List Nat → Word → Except Exc Unit := checkHandle s
     let gr := descField b 0x14 4
     let graph := counterAt s gr
     let units := descField b 6 2
     let prio := descField b 4 1
     let cores := (List.range 1024).filter fun c => corePresent s c && (descField b 0x50 24).testBit (48 * dieOf c + unitOf c)
     let base (o : Nat) : Nat := (rangeAt s (hKey (BitVec.ofNat 64 (descField b o 8)))).base
     let opened : Prop := counterLive s gr = true ∧ graph.ctxh = t.ctxh ∧ graph.level = 1 ∧ graph.st = 1
     (LaunchOk s t.ctxh b → opened → (∀ core ∈ cores, (ringAt s core prio).length + units ≤ 4096) → s.core.outside = [] →
       ∀ n, freeLaunch s (counterHome gr) = some n →
       (launchAt s n).st = 0 ∧ ∃ u, exec (.launch g d a) s = .next u ∧ rG u d = BitVec.ofNat 64 n
         ∧ (∀ r, r ≠ d → rG u r = rG s r) ∧ rPts u = pts ∧ (curCtx u).pc = nextPc t.ctx.pc ∧ (∀ x, memByte u.mem x = memByte s.mem x)
         ∧ counterAt u gr = { graph with out := graph.out + 1 }
         ∧ launchAt u n = { st := 2, out := units, ctxh := t.ctxh, evq := BitVec.ofNat 64 (descField b 0x18 8)
                            tq := BitVec.ofNat 64 (descField b 0x20 8), privsz := descField b 0x28 4, tl := descField b 0x2C 4
                            ll := descField b 0x30 1, fused := decide (descField b 5 1 = 1), privb := base 0x38, imgb := base 0x40
                            rgn := descField b 0x48 4, cmask := descField b 0x50 24, graph := gr, phase := graph.parent
                            bundle := (launchAt s t.record.launch.toNat).bundle }
         ∧ ∀ core, ringAt u core prio = ringAt s core prio ++
             (((List.range units).filter fun i => cores[i % cores.length]? == some core).map fun i =>
               .record { code := BitVec.ofNat 32 (descField b 0 4), prio := BitVec.ofNat 8 prio, flags := BitVec.ofNat 8 (descField b 5 1)
                         launch := BitVec.ofNat 16 n, frame := BitVec.ofNat 64 (descField b 8 8 + i * descField b 0x10 4), join := 0
                         graph := BitVec.ofNat 32 gr, phase := BitVec.ofNat 32 graph.parent }
                 (localDt s core) (max (ringTsOf s core prio) pts) none none))
     ∧ (LaunchOk s t.ctxh b → (counterLive s gr = false ∨ opened ∧ freeLaunch s (counterHome gr) = none
           ∨ graph.ctxh = t.ctxh ∧ graph.level = 1 ∧ graph.st ≠ 1) →
         exec (.launch g d a) s = .next (advance (wG read d 0)))
     ∧ (LaunchOk s t.ctxh b → counterLive s gr = true → graph.ctxh ≠ t.ctxh →
         Traps (.launch g d a) s { cause := .protection, info0 := BitVec.ofNat 64 gr })
     ∧ (∀ e, checkFields s check (checkStgt s) b = .error e → e.cause = .badOperand ∧ Traps (.launch g d a) s e)
     ∧ (∀ e, checkFields s check (checkStgt s) b = .ok () → descField b 0x68 8 = 0 → checkHomes s b = .error e → Traps (.launch g d a) s e)
     ∧ (∀ es e, checkFields s check (checkStgt s) b = .ok () →
         (es = (List.range (descField b 0x68 8 / 2 ^ 61 + 1)).map fun i => memRead s.mem (scratchAt c (descField b 0x68 8 % 2 ^ 19 + 8 * i)) 8) →
         descField b 0x68 8 ≠ 0 → stageEntries es = .error e → Traps (.launch g d a) s e)))
  ∧ (∀ (es : List Nat) (r : List (Nat × Nat × Nat)) (cs : List Nat), (∀ e ∈ es, e < 2 ^ 64) →
       (stageEntries es = .ok r ↔ r = es.map (fun e => (e % 65536, e / 65536 % 65536, e / 2 ^ 32 % 256))
         ∧ ∀ e ∈ es, e / 65536 % 65536 < e % 65536 ∧ e % 65536 ≤ 4096 ∧ e / 2 ^ 40 = 0)
       ∧ (dealStages r cs).map (fun g => (g.hi, g.lo, g.clusters, g.ts, g.queue))
         = (List.range r.length).map fun i =>
             ((r[i]?.getD default).1, (r[i]?.getD default).2.1,
               (cs.drop ((r.take i).map fun e => e.2.2).sum).take (r[i]?.getD default).2.2, 0, []))

/-! ### Counters and cancellation -/

/-- R301, R302 and R318: CNTR.OPEN of 0 opens a job on the issuer's default slice, and of an OPEN job or phase a phase or graph below it, whose
parent has one child more; of a parent not OPEN, or with no entry free, it gives 0. CNTR.SEAL seals an OPEN counter with children and leaves a
launch alone. CNTR.READ gives state and OUT, and of a free instance follows the CTS that the home still holds.
R302 and R303: the end of a unit, at its launch entry, is one child fewer out and one more ended; with the last the launch completes: its
record is posted with STATUS, OP 0xD2, the first fatal cause, the number ended, CTS and its name, its entry is freed, and its graph takes the end
of a child, completing in turn when it is SEALED or CANCELLING and has no more.
R304, R305 and R317: CANCEL of a free instance gives 3 and of one CANCELLING 2; with its tokens not fitting it gives 0 and changes nothing.
Else the instance and those below it that are not free are CANCELLING, its tokens are broadcast to every present core and cluster engine, and the
strand waits, gd 1, for their acknowledgments. A core that takes the token filters by it, and stops what matches; the last acknowledgment replies;
a retired token is removed.
That the counter entry issued is the lowest free one is the model's choice (log entry 7). -/
def Obligations.CountersAndCancellation : Prop :=
  (∀ (s : State) (g : Guard) (c j : Nat) (t : Strand) (d a b : GReg) (level id : Nat), StrandIssues g s c j t → id < 2 ^ 32 →
     let name (level id : Nat) : Word := BitVec.ofNat 64 (level * 2 ^ 32 + id)
     let v := rG s a
     let q := rG s b
     let opens (ins : Instr) (new lv parent home : Nat) : Prop := counterHome new = home ∧ (counterAt s new).st = 0
       ∧ new % 16384 = nextCounterGen (counterAt s new).gen ∧ ∃ u, exec ins s = .next u ∧ rG u d = name lv new
       ∧ counterAt u new = { st := 1, level := lv, parent := parent, ctxh := t.ctxh, evq := q, gen := new % 16384 }
       ∧ (curCtx u).pc = nextPc t.ctx.pc ∧ (∀ r, r ≠ d → rG u r = rG s r)
       ∧ (lv < 3 → counterAt u parent = { counterAt s parent with out := (counterAt s parent).out + 1 })
       ∧ ∀ m, m / 16384 ≠ new / 16384 → (lv < 3 → m / 16384 ≠ parent / 16384) → counterAt u m = counterAt s m
     let x := counterAt s id
     let mine : Prop := counterLive s id = true ∧ x.level = level ∧ x.ctxh = t.ctxh
     (q = 0 ∨ checkHandle s [7] q = .ok () ∧ checkHome s t.ctxh q = .ok () →
       (v = 0 → (∀ new, slicePresent s (defaultSlice s c) = true → freeCounter s (defaultSlice s c) = some new →
           opens (.cntrOpen g d a b) new 3 0 (defaultSlice s c))
         ∧ (freeCounter s (defaultSlice s c) = none → Writes (.cntrOpen g d a b) s d 0))
       ∧ (level = 2 ∨ level = 3 → v = name level id → mine →
         (x.st = 1 → (∀ new, freeCounter s (counterHome id) = some new → opens (.cntrOpen g d a b) new (level - 1) id (counterHome id))
           ∧ (freeCounter s (counterHome id) = none → Writes (.cntrOpen g d a b) s d 0))
         ∧ (x.st ≠ 1 → Writes (.cntrOpen g d a b) s d 0)))
     ∧ (v ≠ 0 → level < 2 → v = name level id → (level = 0 → id < 65536) → Traps (.cntrOpen g d a b) s (bad v))
     ∧ (4 ≤ v.toNat / 2 ^ 32 → Traps (.cntrOpen g d a b) s (bad v) ∧ Traps (.cntrSeal g a) s (bad v) ∧ Traps (.cntrRead g d a) s (bad v)
         ∧ Traps (.cancel g d a) s (bad v))
     ∧ (1 ≤ level → level ≤ 3 → v = name level id → counterLive s id = true → x.level = level →
       (x.ctxh ≠ t.ctxh → Traps (.cntrSeal g a) s { cause := .protection, info0 := v }
         ∧ Traps (.cancel g d a) s { cause := .protection, info0 := v })
       ∧ (x.ctxh = t.ctxh → x.st = 1 → x.out ≠ 0 → ∃ u, exec (.cntrSeal g a) s = .next u ∧ counterAt u id = { x with st := 2 }
         ∧ (∀ m, m / 16384 ≠ id / 16384 → counterAt u m = counterAt s m) ∧ (∀ r, rG u r = rG s r) ∧ (curCtx u).pc = nextPc t.ctx.pc)
       ∧ (x.ctxh = t.ctxh → x.st ≠ 1 → Jumps (.cntrSeal g a) s [] (nextPc t.ctx.pc))
       ∧ Writes (.cntrRead g d a) s d (BitVec.ofNat 64 (x.st * 2 ^ 62 + x.out % 2 ^ 32)))
     ∧ (level = 0 → id < 65536 → v = name 0 id → (launchAt s id).st ≠ 0 → (launchAt s id).ctxh = t.ctxh →
       Jumps (.cntrSeal g a) s [] (nextPc t.ctx.pc)
       ∧ Writes (.cntrRead g d a) s d (BitVec.ofNat 64 ((launchAt s id).st * 2 ^ 62 + (launchAt s id).out % 2 ^ 32)))
     ∧ (1 ≤ level → level ≤ 3 → v = name level id → x.st = 0 →
         exec (.cntrRead g d a) s = .next (advance (wG (wPts s (max t.ctx.pts (if x.gen = id % 16384 then x.cts else 0))) d 0))))
  ∧ (∀ (s : State) (k : Nat) (e : UnitEnd), s.work.ends[k]? = some e →
       let l := launchAt s e.launch
       let x := counterAt s l.graph
       let y := ended (l.out, l.ended, l.cts, l.cause) e.ts e.cause
       let z := ended (x.out, x.ended, x.cts, x.cause) y.2.2.1 y.2.2.2
       let status (st cause : Nat) (killed : Bool) : Nat := if st = 3 then (if killed then 4 else 3) else if cause = 0 then 0 else 2
       let posted (q ctxh : Word) (op st : Nat) (killed : Bool) (name : Nat) (y : Nat × Nat × Nat × Nat) : List Arrive :=
         if q = 0 then [] else [{ q := q, ctxh := ctxh, msg := { bytes := BitVec.ofNat 256 (status st y.2.2.2 killed + op * 2 ^ 8
             + y.2.2.2 * 2 ^ 16 + y.2.1 % 2 ^ 64 * 2 ^ 64 + y.2.2.1 % 2 ^ 64 * 2 ^ 128 + name % 2 ^ 64 * 2 ^ 192), ts := y.2.2.1 } }]
       let end_ := Instr.childEnds k
       (l.st = 0 → exec end_ s = .next { s with work.ends := s.work.ends.eraseIdx k })
       ∧ (l.st ≠ 0 → 1 < l.out → exec end_ s = .next (putLaunch { s with work.ends := s.work.ends.eraseIdx k } e.launch
           { l with out := y.1, ended := y.2.1, cts := y.2.2.1, cause := y.2.2.2 }))
       ∧ (l.st ≠ 0 → l.out = 1 → counterLive s l.graph = true → ∃ u, exec end_ s = .next u ∧ u.work.ends = s.work.ends.eraseIdx k
           ∧ launchAt u e.launch = { cts := y.2.2.1, ctxh := l.ctxh }
           ∧ (1 < x.out ∨ x.st = 1 → counterAt u l.graph = { x with out := z.1, ended := z.2.1, cts := z.2.2.1, cause := z.2.2.2 }
             ∧ u.hold.arriving = s.hold.arriving ++ posted l.evq l.ctxh 0xD2 l.st l.killed e.launch y)
           ∧ (x.out = 1 → x.st ≠ 1 → counterLive s x.parent = false →
             counterAt u l.graph = { gen := x.gen, cts := z.2.2.1, ctxh := x.ctxh }
             ∧ u.hold.arriving = s.hold.arriving ++ posted l.evq l.ctxh 0xD2 l.st l.killed e.launch y
                 ++ posted x.evq x.ctxh 0xD4 x.st x.killed (x.level * 2 ^ 32 + l.graph) z)))
  ∧ ((∀ (s : State) (g : Guard) (c j : Nat) (t : Strand) (d a : GReg) (id : Nat), StrandIssues g s c j t → rG s a = BitVec.ofNat 64 id →
       id < 65536 →
       let l := launchAt s id
       let tok : Token := { level := 0, id := id, kill := false }
       let units := cancelUnits s
       let fresh : Prop := tok ∉ s.work.tokens
       (l.st = 0 → Writes (.cancel g d a) s d 3)
       ∧ (l.st = 3 → l.ctxh = t.ctxh → Writes (.cancel g d a) s d 2)
       ∧ (l.st ≠ 0 → l.ctxh ≠ t.ctxh → Traps (.cancel g d a) s { cause := .protection, info0 := rG s a })
       ∧ (l.st ≠ 0 → l.st ≠ 3 → l.ctxh = t.ctxh → fresh → 256 ≤ s.work.tokens.length → Writes (.cancel g d a) s d 0)
       ∧ (l.st ≠ 0 → l.st ≠ 3 → l.ctxh = t.ctxh → fresh → s.work.tokens.length < 256 → units ≠ [] →
           exec (.cancel g d a) s = .next (putStrand { putLaunch s id { l with st := 3, killed := false } with
               work.tokens := s.work.tokens ++ [tok]
               work.casts := s.work.casts ++ [{ token := tok, toTake := units, left := units, waiter := some (curTag s) }] }
             c j { t with st := 1, wait := .reply, ctx := { t.ctx with g := t.ctx.g.set d 1 } })))
     ∧ (∀ (s : State) (g : Guard) (c j : Nat) (t : Strand) (d a : GReg) (id : Nat), StrandIssues g s c j t →
       rG s a = BitVec.ofNat 64 (2 ^ 32 + id) → id < 2 ^ 32 →
       let x := counterAt s id
       counterLive s id = true → x.level = 1 → x.ctxh = t.ctxh → x.st ≠ 3 → x.out ≠ 0 → s.work.tokens.length < 256 → cancelUnits s ≠ [] →
         ({ level := 1, id := id, kill := false } : Token) ∉ s.work.tokens →
         ∃ u v, exec (.cancel g d a) s = .next u ∧ counterAt u id = { x with st := 3, killed := false }
           ∧ (∀ n, n < 65536 → (launchAt s n).st ≠ 0 → (launchAt s n).st ≠ 3 → (launchAt s n).graph = id →
               launchAt u n = { launchAt s n with st := 3, killed := false })
           ∧ (∀ n, (∀ e ∈ s.work.launches, e.1 = n → e.2.st = 0 ∨ e.2.graph ≠ id) → launchAt u n = launchAt s n)
           ∧ u.work.tokens = s.work.tokens ++ [{ level := 1, id := id, kill := false }] ∧ strandAt u c j = some v ∧ v.st = 1 ∧ v.ctx.g.get d = 1)
     ∧ (∀ (s : State) (core n : Nat) (b : Broadcast), s.work.casts[n]? = some b → core ∈ b.toTake →
       let kept (u : State) : Prop := u.work.casts = s.work.casts.set n { b with toTake := b.toTake.filter (· != core) }
         ∧ tget [] u.core.filter core = tget [] s.core.filter core ++ [b.token]
       (core < 1024 → (∀ i t, i < 16 → strandAt s core i = some t → matchesToken t.record b.token = false) →
         (∀ i, i < 32 → (tget {} s.core.park (core * 32 + i)).used = false) →
         ∃ u, exec (.cancelToken core n) s = .next u ∧ kept u ∧ u.core.slots = s.core.slots ∧ u.core.park = s.core.park)
       ∧ (core < 1024 → ∀ i t, i < 16 → strandAt s core i = some t → matchesToken t.record b.token = true → 2 ≤ t.st → t.st ≤ 4 →
         (∀ k v, k < 16 → k ≠ i → strandAt s core k = some v → matchesToken v.record b.token = false) →
         (∀ k, k < 32 → (tget {} s.core.park (core * 32 + k)).used = false) →
         ∃ u, exec (.cancelToken core n) s = .next u ∧ kept u ∧ strandAt u core i = some { t with st := 0, wait := .woken })
       ∧ (1024 ≤ core → (pairAt s (core - 1024)).st = 0 → ∃ u, exec (.cancelToken core n) s = .next u ∧ kept u ∧ u.eng = s.eng))
     ∧ (∀ (s : State) (b : Broadcast) (unit : Nat) (tag : Tag) (t : Strand), s.work.casts = [b] → b.toTake = [] → b.left = [unit] →
       b.waiter = some tag → tagged s tag = some t → exec (.cancelAcknowledgment 0) s = .next
         { s with work.casts := [], coh.replies := s.coh.replies ++ [{ tag := tag, act := .regs [] t.ctx.pts }] })
     ∧ (∀ (s : State) (tok : Token) (unit : Nat) (rest : List Nat), s.work.retires = [(tok, unit :: rest)] → unit ∉ rest →
       (∀ b ∈ s.work.casts, b.token = tok → unit ∉ b.toTake) →
       ∃ u, exec (.cancelRetire 0) s = .next u ∧ tget [] u.core.filter unit = (tget [] s.core.filter unit).filter (· != tok)
         ∧ (rest = [] → u.work.tokens = s.work.tokens.erase tok ∧ u.work.retires = [])
         ∧ (rest ≠ [] → u.work.tokens = s.work.tokens ∧ u.work.retires = [(tok, rest)])))

/-! ### Slots, stages and temperatures -/

/-- R46, R87, R93, R95, R300 and R316: a free slot binds the head of the highest ring that has one, when no resident image waits: the strand starts
with g0 its FRAME, g15 the top of its private region, p0, and PTS the push timestamp, in the lowest free region of its launch, under the slot's next
generation. A record that the core's filter matches is dropped and its unit ends; one whose launch has no free region goes to the tail; a withheld
core leaves it at the head. A resident image is bound before any record.
R300, R96, R98 and R310: a record that has waited 4,096 ticks goes to the tail of the next ring up. Pre-emption marks the resident images of a
launch's strands and stops nothing. The strand of a disabled slot that is blocked goes, its image stored, to a resume entry; one in rotation
migrates to a cooler cluster when R310 names one and its HOLD has passed. A migrated strand binds the lowest free slot of its core.
R97, R109, R110, R117 and R118: a core of a stopped launch's partition halts its strands that are in rotation or blocked, writes its core
record to the stop's event queue, and with the last acknowledgment the issuer is answered with the number of records landed, bit 63 set when some
did not. WAITDT completes once the core's device time is there.
That the region and the slot taken are the lowest is the model's choice (log entry 7), as is where an image is stored and read back (log entry 12). -/
def Obligations.StrandsTakeAndLeaveSlots : Prop :=
  (∀ (s : State) (core slot p : Nat), corePresent s core = true → slot < 16 → slotFree s core slot = true → core ∉ s.core.idle → p < 16 →
     let bind := Instr.slotBind core slot
     let bound (u : State) (x : Strand) : Prop := strandAt u core slot = some x
       ∧ slotGenOf u core slot = (let n := (slotGenOf s core slot + 1) % 65536; if n = 0 then 1 else n)
     (∀ (t : Strand) (k n : Nat), (ringAt s core p)[n]? = some (.resume t k) → t.st ≠ 7 →
       let issued : Bool := t.steps == 2 && t.stepPc == t.ctx.pc
       t.steps ≠ 2 ∨ issued = true →
       (∀ e ∈ (ringAt s core p).take n, RingEntry.isResident e = false) →
       (∀ q, p < q → q < 16 → ∀ e ∈ ringAt s core q, RingEntry.isResident e = false) → ∃ u, exec bind s = .next u
         ∧ bound u { t with st := 0, wait := .none, got := [], steps := if issued then 1 else t.steps }
         ∧ ringAt u core p = (ringAt s core p).eraseIdx n)
     ∧ (∀ (r : Rec) (since pushed : Nat) (resp : Option (Nat × Nat)) (rs : Option (List Tag)) (rest : List RingEntry),
       ringAt s core p = .record r since pushed resp rs :: rest →
       (∀ q, q < 16 → ∀ e ∈ ringAt s core q, RingEntry.isResident e = false) → imagesHeld s core < 32 →
       (∀ q, p < q → q < 16 → ringAt s core q = []) → (∀ e ∈ s.work.launches, ∀ g ∈ e.2.stages, core / 4 ∉ g.clusters) →
       let n := r.launch.toNat
       let l := launchAt s n
       let runs : Prop := filtered s core r = false ∧ liveHandle s l.ctxh = true ∧ l.st ≠ 0
       let free (k : Nat) : Prop := k < l.rgn ∧ k ∉ l.used ∧ ∀ i, i < k → i ∈ l.used
       let alone : Prop := rest = [] ∧ ∀ q, q < p → ringAt s core q = []
       (∀ k, runs → withheld s core = false → free k → ∃ u x, exec bind s = .next u ∧ bound u x ∧ x.st = 0 ∧ x.wait = .none
         ∧ (∀ i : GReg, x.ctx.g.get i = if i = 0 then r.frame else if i = 15 then 0x4000000000000000#64 + BitVec.ofNat 64 l.privsz else 0)
         ∧ x.ctx.p = 1 ∧ x.ctx.pc = r.code ∧ x.ctx.pts = pushed ∧ x.restart = rs.isSome ∧ x.former = rs.getD [] ∧ x.ctxh = l.ctxh ∧ x.record = r ∧ x.resp = resp
         ∧ x.region = k ∧ x.privb = BitVec.ofNat 64 (l.privb + k * l.privsz) ∧ (launchAt u n).used = l.used ++ [k]
         ∧ ringAt u core p = rest)
       ∧ (¬ runs → resp = none → alone → ∃ u, exec bind s = .next u ∧ strandAt u core slot = none ∧ ringAt u core p = [] ∧ core ∈ u.core.idle
         ∧ u.work.ends = s.work.ends ++ [{ launch := n, ts := pushed, cause := 0 }])
       ∧ (runs → alone → (withheld s core = true ∨ ∀ k, k < l.rgn → k ∈ l.used) → ∃ u, exec bind s = .next u
         ∧ strandAt u core slot = none ∧ ringAt u core p = ringAt s core p ∧ core ∈ u.core.idle ∧ u.work.ends = s.work.ends)
       ∧ (∀ (r2 : Rec) (since2 pushed2 k : Nat) (resp2 : Option (Nat × Nat)) (rs2 : Option (List Tag)), runs → withheld s core = false →
         (∀ k, k < l.rgn → k ∈ l.used) → rest = [.record r2 since2 pushed2 resp2 rs2] →
         let l2 := launchAt s r2.launch.toNat
         filtered s core r2 = false → liveHandle s l2.ctxh = true → l2.st ≠ 0 → k < l2.rgn → k ∉ l2.used → (∀ i, i < k → i ∈ l2.used) →
         ∃ u x, exec bind s = .next u ∧ bound u x ∧ x.record = r2 ∧ x.region = k ∧ ringAt u core p = [.record r since pushed resp rs])))
  ∧ ((∀ (s : State) (core p n : Nat) (r : Rec) (since pushed : Nat) (resp : Option (Nat × Nat)) (rs : Option (List Tag)),
       let dt := s.time.dt + tget 0 s.time.early core
       let waits : RingEntry → Bool := fun
         | .record _ since .. => decide (since + 4096 ≤ dt)
         | .resume .. => false
       p < 15 → (ringAt s core p)[n]? = some (.record r since pushed resp rs) → since + 4096 ≤ dt →
       (ringAt s core (p + 1)).length < 4096 → (∀ e ∈ (ringAt s core p).take n, waits e = false) → ∃ u, exec (.recordPromotion core p) s = .next u
         ∧ ringAt u core p = (ringAt s core p).eraseIdx n
         ∧ ringAt u core (p + 1) = ringAt s core (p + 1) ++ [.record r dt pushed resp rs])
     ∧ (∀ (s : State) (n core slot : Nat) (t : Strand), strandAt s core slot = some t → ∃ u, exec (.preEmption n) s = .next u
       ∧ strandAt u core slot = some { t with evict := t.evict || (t.record.launch.toNat == n) })
     ∧ (∀ (s : State) (core slot : Nat) (t : Strand), slot < 16 → tget false s.core.slotOff (core * 16 + slot) = true →
       strandAt s core slot = some t →
       let displace := Instr.slotDisplace core slot
       let kept := keptTags s { core := core, slot := slot, gen := slotGenOf s core slot } t.former
       (t.st = 1 ∨ 5 ≤ t.st → exec displace s = .next s)
       ∧ (∀ pa, 2 ≤ t.st → t.st ≤ 4 → imagePlace s core t = .at_ pa → Room s none core (recPrio t.record) → ∃ u, exec displace s = .next u ∧ strandAt u core slot = none
         ∧ memRead u.mem pa 256 = imageBits t % 2 ^ 2048 ∧ (∀ x, (x < pa ∨ pa + 256 ≤ x) → memByte u.mem x = memByte s.mem x)
         ∧ ringAt u core (recPrio t.record) = ringAt s core (recPrio t.record)
             ++ [.resume { t with st := 7, wait := .none, got := [], former := kept } (s.time.dt + tget 0 s.time.early core)])
       ∧ (∀ target, t.st = 0 → displaceTarget s (launchAt s t.record.launch.toNat) (core / 256) = some target →
         let dt := s.time.dt + tget 0 s.time.early core
         t.hold ≤ dt → ∃ u, exec displace s = .next u ∧ strandAt u core slot = none
           ∧ u.core.migr = s.core.migr ++ [(target, { t with hold := dt + 32768, wait := .none, st := 0, got := [], former := kept })]))
     ∧ (∀ (s : State) (n core i : Nat) (t : Strand), s.core.migr[n]? = some (core, t) → t.steps = 0 → imagesHeld s core < 32 → i < 16 →
       slotFree s core i = true → (∀ k, k < i → slotFree s core k = false) → ∃ u, exec (.migrationArrival n) s = .next u
         ∧ u.core.migr = s.core.migr.eraseIdx n ∧ strandAt u core i = some { t with st := 0, wait := .none, got := [] }
         ∧ slotGenOf u core i = nextGen (slotGenOf s core i)))
  ∧ ((∀ (s : State) (h : Halt) (c slot : Nat) (t v : Strand) (tag : Tag) (d : GReg), s.work.halts = [h] → h.left = [c] →
       h.waiter = some (tag, d) → h.evq ≠ 0 → tag.core ≠ c → tagged s tag = some v →
       (∀ e ∈ s.core.routeCount, e.1 / 2 ^ 64 ≠ c) → slot < 16 → strandAt s c slot = some t → t.record.launch.toNat = h.launch →
       let l := launchAt s h.launch
       let q := evqAt s (hKey h.evq)
       let record : BitVec 256 := BitVec.ofNat 256 (c * 2 ^ 16 + tget 0 l.lastDt c * 2 ^ 64 + tget 0 l.issued c * 2 ^ 128)
       let answers (u : State) (n : Word) : Prop := u.work.halts = []
         ∧ { tag := tag, act := .regs [(d.val, n)] v.ctx.pts } ∈ u.coh.replies
       ∃ u, exec (.haltAck 0) s = .next u
         ∧ (t.st = 0 ∨ 2 ≤ t.st ∧ t.st ≤ 4 ∨ t.atBarrier = true → strandAt u c slot = some { t with st := 6, wait := .none, got := [] })
         ∧ (t.st = 1 ∧ t.wait ≠ .sem ∧ t.atBarrier = false ∨ t.st = 5 → strandAt u c slot = some t)
         ∧ (liveHandle s h.evq = true → q.waiting = [] → (∀ b ∈ q.blocked, b.tag.core = c ∧ (∃ y, strandAt s c b.tag.slot = some y
               ∧ y.record.launch.toNat = h.launch ∧ 2 ≤ y.st ∧ y.st ≤ 4) ∧ b.tag.slot < 16 ∧ b.tag.park = false
               ∧ b.tag.gen = slotGenOf s c b.tag.slot) →
           (q.recs.length < q.cap → (evqAt u (hKey h.evq)).recs = q.recs ++ [{ bytes := record }]
             ∧ answers u (BitVec.ofNat 64 (h.landed + 1 + if h.dropped then 2 ^ 63 else 0)))
           ∧ (q.cap ≤ q.recs.length → (evqAt u (hKey h.evq)).recs = q.recs ∧ answers u (BitVec.ofNat 64 (h.landed + 2 ^ 63))))
         ∧ (liveHandle s h.evq = false → u.hold.dropped = s.hold.dropped + 1
             ∧ answers u (BitVec.ofNat 64 (h.landed + if h.dropped then 2 ^ 63 else 0))))
     ∧ (∀ (s : State) (core slot dl : Nat) (t : Strand), strandAt s core slot = some t → t.st = 4 → t.wait = .waitdt dl → t.steps ≠ 2 →
       (dl ≤ s.time.dt + tget 0 s.time.early core → exec (.waitdtWake core slot) s = .next
         (putStrand s core slot { t with ctx := { t.ctx with pc := nextPc t.ctx.pc }, st := 0, wait := .none }))
       ∧ (s.time.dt + tget 0 s.time.early core < dl → exec (.waitdtWake core slot) s = .next s)))

/-- R308: at a check, for the stage with the highest occupancy above its HI and the stage with the lowest below its LO that serves two clusters, the
latter's highest cluster moves to the former; with either missing nothing moves. A launch is checked once in 256 ticks.
R309, R310 and R388: at an evaluation, once in 16 ticks, a cluster's state follows its temperature and the thresholds of the die's record with
3 °C of hysteresis, or an alarm; AMBER and CRIMSON withhold the cluster and disable the highest enabled slot of each core, down to 4; NORMAL
enables one again and, within the power budget, ends the withholding. A CRIMSON cluster kills the power of one context, whose launches are
cancelled.
R21 and R22: a tick raises device time by exactly 1 once the time tree is ready, and nothing of the machine's registers or memory; a unit ahead
of it is overtaken.
The model's choices: how measured values enter (log entry 14), that a tick overtakes a unit that is ahead (log entry 5), and which slot NORMAL
enables again and that one evaluation withholds one cluster (log entry 51). -/
def Obligations.StagesTemperaturesAndTimeAreKept : Prop :=
  ((∀ (s : State), (s.time.dt / 256 ≤ s.work.governed → exec .governorCheck s = .next s)
     ∧ (s.work.governed < s.time.dt / 256 → ∃ u, exec .governorCheck s = .next u ∧ (∀ n, launchAt u n = govern (launchAt s n))
         ∧ u.work.governed = s.time.dt / 256 ∧ u.core.slots = s.core.slots))
   ∧ (∀ (l : Launch) (i j c : Nat) (a b : Stage), l.stages[i]? = some a → l.stages[j]? = some b → i ≠ j →
     a.hi < a.queue.length → b.queue.length < b.lo → 2 ≤ b.clusters.length →
     (∀ k g, l.stages[k]? = some g → g.hi < g.queue.length → k ≠ i →
       g.queue.length < a.queue.length ∨ g.queue.length = a.queue.length ∧ i < k) →
     (∀ k g, l.stages[k]? = some g → g.queue.length < g.lo → 2 ≤ g.clusters.length → k ≠ j →
       b.queue.length < g.queue.length ∨ g.queue.length = b.queue.length ∧ j < k) →
     c ∈ b.clusters → (∀ x ∈ b.clusters, x ≤ c) →
       let left : Stage := { b with clusters := b.clusters.filter (· != c) }
       govern l = { l with stages := (l.stages.set j left).set i { a with clusters := a.clusters ++ [c] } })
   ∧ (∀ (l : Launch), ((∀ g ∈ l.stages, g.queue.length ≤ g.hi) ∨ ∀ g ∈ l.stages, g.lo ≤ g.queue.length ∨ g.clusters.length < 2) → govern l = l))
  ∧ (∀ (s : State) (d : Nat), d < 4 →
       let go := Instr.thermalEvaluation d
       let th := (s.hub.therm.toList[d]?).getD {}
       let al := tget ({} : Alarm) s.hub.alarm d
       let tc (u : State) (c : Nat) : ThermCluster := tget {} u.work.therm (d * 64 + c)
       let hot : Prop := th.budget < (tget ({} : Sensor) s.hub.sensors (200 + d)).raw.toNat ∨ al.budget = true
       let temp (c : Nat) : Int := tempOf { s with work.thermTab := tset {} s.work.thermTab d th } d c
       let next (cur : Nat) (t : Int) : Nat :=
         if 16 * (th.crimson : Int) ≤ t ∨ al.raised = true then 2
         else if cur = 2 ∧ 16 * (th.crimson : Int) - 48 ≤ t then 2
         else if 16 * (th.amber : Int) ≤ t then 1
         else if (cur = 1 ∨ cur = 2) ∧ 16 * (th.amber : Int) - 48 ≤ t then 1
         else 0
       (s.time.dt / 16 ≤ tget 0 s.work.evaluated d → exec go s = .next s)
       ∧ (tget 0 s.work.evaluated d < s.time.dt / 16 → ∃ u, exec go s = .next u
         ∧ tget 0 u.work.evaluated d = s.time.dt / 16 ∧ tget {} u.work.thermTab d = th
         ∧ (∀ c, c < 48 → dieCluster s d c = true →
           (tc u c).st = next (tc s c).st (temp c)
           ∧ (next (tc s c).st (temp c) ≠ 0 → (tc u c).withheld = true)
           ∧ (next (tc s c).st (temp c) = 0 → ¬ hot → (tc u c).withheld = false)
           ∧ (next (tc s c).st (temp c) = 0 → hot → (tc s c).withheld = true → (tc u c).withheld = true))
         ∧ (∀ c, hot → c < 48 → dieCluster s d c = true → (tc s c).withheld = false → next (tc s c).st (temp c) = 0 →
           (∀ k, k < 48 → dieCluster s d k = true → (tc s k).withheld = false → next (tc s k).st (temp k) = 0 → k ≠ c → temp k < temp c) →
           (tc u c).withheld = true ∧ ∀ k, k < 48 → dieCluster s d k = true → (tc s k).withheld = false → next (tc s k).st (temp k) = 0 → k ≠ c →
             (tc u k).withheld = false)
         ∧ ((∀ c, c < 48 → dieCluster s d c = true → next (tc s c).st (temp c) ≠ 2) → u.work.launches = s.work.launches
             ∧ u.work.kills = s.work.kills)
         ∧ (∀ c h, c < 48 → dieCluster s d c = true → next (tc s c).st (temp c) = 2 → killTarget s d = some h →
           u.work.kills = s.work.kills ++ [h]
           ∧ ∀ n, (launchAt s n).st = 2 → (launchAt s n).ctxh = h → s.work.tokens.length + s.work.launches.length ≤ 256 →
             (launchAt u n).st = 3 ∧ (launchAt u n).killed = true))
       ∧ (tget 0 s.work.evaluated d < s.time.dt / 16 → ∃ u, exec go s = .next u ∧
         let off (v : State) (core i : Nat) : Bool := tget false v.core.slotOff (core * 16 + i)
         (∀ c j, c < 48 → dieCluster s d c = true → j < 4 →
           let core := d * 256 + c * 4 + j
           let on := (List.range 16).filter fun i => !off s core i
           corePresent s core = true →
             (next (tc s c).st (temp c) ≠ 0 → ∀ i, i < 16 → (off u core i = true ↔
               off s core i = true ∨ 4 < on.length ∧ i ∈ on ∧ ∀ k ∈ on, k ≤ i))
             ∧ (next (tc s c).st (temp c) = 0 → ∀ i, i < 16 → (off u core i = true ↔ off s core i = true ∧ ∃ k, k < i ∧ off s core k = true)))
         ∧ ∀ k, k / 4096 ≠ d → tget false u.core.slotOff k = tget false s.core.slotOff k)
       ∧ (∀ core, let on := (List.range 16).filter fun i => !tget false s.core.slotOff (core * 16 + i)
         (4 < on.length → ∃ i ∈ on, (∀ k ∈ on, k ≤ i) ∧ ∀ k, tget false (disableSlot s core).core.slotOff k =
           if k = core * 16 + i then true else tget false s.core.slotOff k)
         ∧ (on.length ≤ 4 → disableSlot s core = s))
       ∧ (∀ c, let x := tempSensor s d c
         (x.flags % 2 = 0 → tempOf s d c = x.raw)
         ∧ (x.flags % 2 = 1 → (∀ k ∈ List.range 48, (tempSensor s d k).flags % 2 = 1) → (∀ k ∈ neighbours c, k < 48) →
             tempOf s d c = 16 * (thermOf s d).crimson)))
  ∧ (∀ (s : State),
       (readyCode s (kTree 0) ≠ 2 → exec .dtTick s = .next s)
       ∧ (readyCode s (kTree 0) = 2 → ∃ u, exec .dtTick s = .next u ∧ u.time.dt = s.time.dt + 1 ∧ u.mem = s.mem ∧ u.sregs = s.sregs ∧ u.hub = s.hub
         ∧ (∀ e ∈ u.time.early, ∃ n, (e.1, n) ∈ s.time.early ∧ e.2 = n - 1 ∧ n ≠ 1)
         ∧ ∀ c i t, i < 16 → strandAt s c i = some t → ∃ v, strandAt u c i = some v ∧ v.ctx = t.ctx
           ∧ (∀ dl, t.st = 3 → t.wait = .park (some dl) → dl ≤ u.time.dt + tget 0 u.time.early c → v.st = 0 ∧ v.wait = .woken)
           ∧ (t.st ≠ 3 → v = t)))

/-! ### Directories and censuses -/

/-- R322, R325, R338, R340, R341 and R342, answered at once: DREG issues the lowest DARK entry of its core with what its block says, or gives 0;
SOLICIT of a block that keeps R325 takes the lowest free slot of its core, gives the census number, and sends the wave to every present core, and
with no slot or no room at the root traps CENSUS_LIMIT; RESPOND takes the first answer of its responder with the PTS, for LSEV the words of its
payload, and a later one has no effect; CNSQ tells whether a census of the issuer's context is open, CNSQ.N how many are.
R323, R326 to R328, R331 to R333: a core that takes a wave puts it on its seen list and has a responder for each entry that matches, in
ascending index, but for one that has already answered the census. A responder takes the lowest free frame, written at or after the wave's PTS, and its record goes on its core's ring; with no
launch of its owner it ends unanswered. When its responders have ended the core reports; when all have, the root posts the record. A close takes the
number off the lists, and the last frees the slot.
R329 and R331: the merges of the combiners, taken from the identity: sums modulo 2^32, the larger and the smaller as signed numbers, counts of
answers, the union of bits, the first present value.
That the entry, the slot and the frame taken are the lowest is the model's choice (log entry 7), as are which check of a block decides, and what
its refusal names (log entry 34), and that a responder whose core has failed answers nothing (log entry 40). -/
def Obligations.SolicitAndItsCensus : Prop :=
  (∀ (s : State) (g : Guard) (c i : Nat) (t : Strand) (d a : GReg) (y : Src), StrandIssues g s c i t → s.far = false → t.steps ≠ 2 →
     (∀ off, ownPtr s (rG s a) 32 = .ok off →
       let ld := spLoad s c off 32 t.ctx.pts
       let ts := ld.2.2
       let b := memRead s.mem (scratchAt c off) 32
       let f (o n : Nat) : Nat := b / 256 ^ o % 256 ^ n
       let back (ins : Instr) (u : State) (v : Word) : Prop := exec ins s = .next u ∧ rG u d = v ∧ (∀ r, r ≠ d → rG u r = rG s r)
         ∧ (∀ x, memByte u.mem x = memByte s.mem x) ∧ (curCtx u).pc = nextPc t.ctx.pc
       let l := launchAt s (f 0x16 2)
       let good : Prop := codeOk (f 0x10 4) = true ∧ f 0x14 1 < 16 ∧ 1 ≤ f 0x15 1 ∧ f 0x15 1 ≤ 8 ∧ f 0x18 4 % 64 = 0
         ∧ f 0x18 4 + 320 * f 0x15 1 ≤ 0x80000 ∧ f 0x1C 4 = 0
       let term := (srcZ s y).toNat
       (2 ^ 32 ≤ term → Traps (.dreg g d a y) s (bad (srcZ s y)))
       ∧ (¬ good → term < 2 ^ 32 → Traps (.dreg g d a y) s (bad (rG s a)))
       ∧ (good → term < 2 ^ 32 → (l.st = 0 ∨ l.ctxh = t.ctxh ∧ admits s l c = false) → Traps (.dreg g d a y) s (badNat (f 0x16 2)))
       ∧ (good → term < 2 ^ 32 → l.st ≠ 0 → l.ctxh ≠ t.ctxh →
           Traps (.dreg g d a y) s { cause := .protection, info0 := BitVec.ofNat 64 (f 0x16 2) })
       ∧ (good → term < 2 ^ 32 → l.st ≠ 0 → l.ctxh = t.ctxh → admits s l c = true →
         (∀ n, freeEntry s 6 c = some (entryKey 6 c n) → n < 128 → ∃ u,
           back (.dreg g d a y) u (mkHandle (entryKey 6 c n) (nextGen (lifeOf s (entryKey 6 c n)).gen)) ∧ rPts u = ts
           ∧ lifeOf u (entryKey 6 c n) = { st := 1, expiry := s.time.dt + tget 0 s.time.early c + term,
                                           gen := nextGen (lifeOf s (entryKey 6 c n)).gen, owner := t.ctxh }
           ∧ direntAt u c n = { key := BitVec.ofNat 64 (f 0 8), tile := BitVec.ofNat 64 (f 8 8), code := BitVec.ofNat 32 (f 0x10 4),
                                prio := f 0x14 1, frn := f 0x15 1, frb := f 0x18 4, launch := f 0x16 2, answered := [] })
         ∧ (freeEntry s 6 c = none → ∃ u, back (.dreg g d a y) u 0 ∧ u.hold.lives = s.hold.lives ∧ u.census = s.census))
       ∧ (∀ (key : GReg) (cb : Comb), f 0x14 4 = 0 → checkHandle s [7] (BitVec.ofNat 64 (f 0 8)) = .ok () → f 0x10 2 = 0 → f 8 8 = 0 →
         f 0x12 2 = 0 → f 0x18 8 = 0 → cb ≠ .lsev →
         let cc := coreCensus s c
         let open_ := (s.census.open_.filter Census.isOpen).length
         let limit : Exc := { cause := .censusLimit, info0 := openWord s c }
         ((∀ k, k < 8 → k ∈ cc.slots) ∨ 512 ≤ open_ → Traps (.solicit g cb d key a) s limit)
         ∧ (∀ k, k < 8 → k ∉ cc.slots → (∀ m, m < k → m ∈ cc.slots) → open_ < 512 →
           let n := (tget 0 cc.seqs k + 1) % 2 ^ 19
           let num := c * 2 ^ 22 + k * 2 ^ 19 + if n = 0 then 1 else n
           let w : Wave := { num := num, key := rG s key, comb := cb, d := 0, arg := [], evq := BitVec.ofNat 64 (f 0 8), resp := 0,
                             ctxh := t.ctxh, pts := ts }
           ∃ u, back (.solicit g cb d key a) u (BitVec.ofNat 64 num) ∧ rPts u = ts ∧ (coreCensus u c).slots = cc.slots ++ [k]
             ∧ u.census.open_ = s.census.open_ ++ [{ wave := w, toTake := presentCores s, left := presentCores s }]))
       ∧ (∀ (key : GReg) (cb : Comb), f 0x14 4 ≠ 0 → Traps (.solicit g cb d key a) s (bad (rG s a))))
     ∧ (∀ (core id : Nat) (r : Responder), t.resp = some (core, id) → t.record.frame = rG s a → r ∈ (coreCensus s core).resp → r.id = id →
       (∀ x ∈ (coreCensus s core).resp, x.id = id → x = r) →
       let v := srcZ s y
       let does (pts : Nat) (P : State → Prop) : Prop :=
         ∃ u, exec (.respond g a y) s = .next u ∧ (∀ x, rG u x = rG s x) ∧ rPts u = pts ∧ (curCtx u).pc = nextPc t.ctx.pc
           ∧ (∀ x, memByte u.mem x = memByte s.mem x) ∧ P u
       (r.answer ≠ none → does t.ctx.pts fun u => u.census = s.census)
       ∧ (r.answer = none → r.wave.comb ≠ .lsev → does t.ctx.pts fun u =>
           { r with answer := some (combValue r.wave.comb v), ts := t.ctx.pts } ∈ (coreCensus u core).resp)
       ∧ (r.answer = none → r.wave.comb = .lsev → (ownPtr s v 8 = .error (bad v)
             ∨ ∃ off, ownPtr s v 8 = .ok off ∧ off / 2 ^ 15 ≠ (off + 7 + 4 * r.wave.d) / 2 ^ 15) → Traps (.respond g a y) s (bad v))
       ∧ (∀ off, r.answer = none → r.wave.comb = .lsev → ownPtr s v 8 = .ok off → off / 2 ^ 15 = (off + 7 + 4 * r.wave.d) / 2 ^ 15 →
           ∃ pts, t.ctx.pts ≤ pts ∧ does pts fun u =>
             { r with answer := some ((List.range (2 + r.wave.d)).map fun k => memRead s.mem (scratchAt c (off + 4 * k)) 4), ts := pts }
               ∈ (coreCensus u core).resp))
     ∧ (∀ core id, t.resp = some (core, id) → t.record.frame = rG s a → (∀ r ∈ (coreCensus s core).resp, r.id ≠ id) →
       ∃ u, exec (.respond g a y) s = .next u ∧ (∀ x, rG u x = rG s x) ∧ rPts u = t.ctx.pts ∧ (curCtx u).pc = nextPc t.ctx.pc
         ∧ (∀ x, memByte u.mem x = memByte s.mem x) ∧ u.census = s.census)
     ∧ ((t.resp = none ∨ t.record.frame ≠ rG s a) → Traps (.respond g a y) s (bad (rG s a)))
     ∧ ((srcZ s y).toNat < 2 ^ 32 → ∃ u, exec (.cnsq g d y) s = .next u ∧ (curCtx u).pc = nextPc t.ctx.pc
         ∧ (∀ r, r ≠ d → rG u r = rG s r) ∧ rPts u = t.ctx.pts ∧ (∀ x, memByte u.mem x = memByte s.mem x)
         ∧ ((∃ x ∈ s.census.open_, x.closing = none ∧ x.wave.num = (srcZ s y).toNat ∧ x.wave.ctxh = t.ctxh) → rG u d = 0x8000000000000000#64)
         ∧ (¬ (∃ x ∈ s.census.open_, x.closing = none ∧ x.wave.num = (srcZ s y).toNat ∧ x.wave.ctxh = t.ctxh) → rG u d = 0))
     ∧ (2 ^ 32 ≤ (srcZ s y).toNat → Traps (.cnsq g d y) s (bad (srcZ s y)))
     ∧ (∃ u, exec (.cnsqN g d) s = .next u ∧ (curCtx u).pc = nextPc t.ctx.pc ∧ (∀ r, r ≠ d → rG u r = rG s r) ∧ rPts u = t.ctx.pts
         ∧ (let o := s.census.open_.filter fun x => x.closing == none
            rG u d = BitVec.ofNat 64 ((o.filter fun x => x.wave.num / 2 ^ 22 == c).length % 256 + o.length % 1024 * 2 ^ 32))))
  ∧ ((∀ (s : State) (core n : Nat) (x : Census), s.census.open_[n]? = some x → core ∈ x.toTake →
       let w := x.wave
       let hits := (List.range 128).filter fun i => isLive s (entryKey 6 core i) && (direntAt s core i).key == w.key
         && (lifeOf s (entryKey 6 core i)).owner == w.ctxh && !(direntAt s core i).answered.contains w.num
       ∃ u, exec (.wave core n) s = .next u ∧ u.census.open_ = s.census.open_.set n { x with toTake := x.toTake.filter (· != core) }
         ∧ (coreCensus u core).seen = (coreCensus s core).seen ++ [w]
         ∧ (coreCensus u core).resp = (coreCensus s core).resp ++ (hits.zipIdx.map fun e =>
             ({ id := s.census.next + e.2, wave := w, index := e.1, gen := (lifeOf s (entryKey 6 core e.1)).gen, ent := direntAt s core e.1
                owner := w.ctxh, late := false } : Responder))
         ∧ (∀ i ∈ hits, (direntAt u core i).answered = (direntAt s core i).answered ++ [w.num])
         ∧ ∀ i, i < 128 → i ∉ hits → direntAt u core i = direntAt s core i)
     ∧ (∀ (s : State) (core n : Nat) (r : Responder), (coreCensus s core).resp[n]? = some r → r.spawned = false →
       (∀ x ∈ (coreCensus s core).resp.take n, x.spawned = true) →
       let cc := coreCensus s core
       let l := launchAt s r.ent.launch
       let set (u : State) (x : Responder) : Prop := (coreCensus u core).resp = cc.resp.set n x
       (l.st = 0 ∨ l.ctxh ≠ r.owner → ∃ u, exec (.responderSpawn core n) s = .next u ∧ set u { r with spawned := true, ended := true }
         ∧ u.core.rings = s.core.rings ∧ u.mem = s.mem)
       ∧ (∀ f, l.st ≠ 0 → l.ctxh = r.owner → f < r.ent.frn →
         (∀ x ∈ cc.resp, x.index = r.index → x.gen = r.gen → x.frame = some f → x.ended = true) →
         (∀ k, k < f → ∃ x ∈ cc.resp, x.index = r.index ∧ x.gen = r.gen ∧ x.frame = some k ∧ x.ended = false) →
         Room s none core (r.ent.prio % 256 % 16) → r.ent.frb % 64 = 0 →
         let off := r.ent.frb + 320 * f
         ∃ u w, exec (.responderSpawn core n) s = .next u ∧ set u { r with spawned := true, frame := some f }
           ∧ memRead u.mem (scratchAt core off) 320 = frameBits core r off % 2 ^ 2560
           ∧ (∀ a, (a < scratchAt core off ∨ scratchAt core off + 320 ≤ a) → memByte u.mem a = memByte s.mem a)
           ∧ (∀ k, k < 5 → r.wave.pts ≤ (stampAt u core (off + 64 * k)).wts ∧ (stampAt u core (off + 64 * k)).wts ≤ w)
           ∧ (stampAt u core (off + 256)).wts = w
           ∧ ringAt u core (r.ent.prio % 256 % 16) = ringAt s core (r.ent.prio % 256 % 16) ++
               [.record { code := r.ent.code, prio := BitVec.ofNat 8 r.ent.prio, launch := BitVec.ofNat 16 r.ent.launch
                          frame := BitVec.ofNat 64 (2 ^ 60 + off), graph := BitVec.ofNat 32 l.graph, phase := BitVec.ofNat 32 l.phase }
                 (s.time.dt + tget 0 s.time.early core) (max (ringTsOf s core (r.ent.prio % 256 % 16)) w) (some (core, r.id)) none]))
     ∧ (∀ (s : State) (core n : Nat) (x : Census), s.census.open_[n]? = some x → core ∈ x.left → core ∉ x.toTake →
       (∀ m ∈ s.census.moves, m.src = core → m.phase < 3) →
       let w := x.wave
       let mine := (coreCensus s core).resp.filter fun r => r.wave.num == w.num
       ((∃ r ∈ mine, r.ended = false) → exec (.censusReport core n) s = .next s)
       ∧ ((∀ r ∈ mine, r.ended = true ∧ r.late = false ∧ r.index < 128) → mine.Pairwise (fun a b => a.index < b.index) →
         ∃ u, exec (.censusReport core n) s = .next u
           ∧ (coreCensus u core).resp = (coreCensus s core).resp.filter (fun r => r.wave.num != w.num)
           ∧ u.census.open_ = s.census.open_.set n { x with
               left := x.left.filter (· != core)
               reports := x.reports ++ [(core,
                 mine.foldl (fun v r => combMerge w.comb v (r.answer.getD (combId w.comb w.d))) (combId w.comb w.d), mine.length,
                 (mine.filter (·.answer.isSome)).length, (mine.filter (·.answer.isSome)).foldl (fun m r => max m r.ts) w.pts)] }))
     ∧ (∀ (s : State) (n : Nat) (x : Census), s.census.open_[n]? = some x → x.closing = none → x.left = [] → x.wave.comb ≠ .lsev →
       let w := x.wave
       let matched := (x.reports.map fun r => r.2.2.1).sum
       let answers := (x.reports.map fun r => r.2.2.2.1).sum
       let ts := x.reports.foldl (fun m r => max m r.2.2.2.2) w.pts
       let record : BitVec 256 := BitVec.ofNat 256 ((if answers = matched then 0 else 2) + 0xC9 * 2 ^ 8 + Machine.combCode w.comb * 2 ^ 16 + w.num * 2 ^ 32
         + (combResult w.comb w.d (rootValue x)).toNat * 2 ^ 64 + matched % 2 ^ 32 * 2 ^ 128 + answers % 2 ^ 32 * 2 ^ 160 + ts % 2 ^ 64 * 2 ^ 192)
       exec (.censusComplete n) s = .next { s with
         hold.arriving := s.hold.arriving ++ [{ q := w.evq, ctxh := w.ctxh, msg := { bytes := record, ts := ts } }]
         census.open_ := s.census.open_.set n { x with closing := some (presentCores s) } })
     ∧ (∀ (s : State) (core n : Nat) (x : Census) (l : List Nat), s.census.open_[n]? = some x → x.closing = some l → core ∈ l →
       ∃ u, exec (.censusClose core n) s = .next u
         ∧ (coreCensus u core).seen = (coreCensus s core).seen.filter (fun w => w.num != x.wave.num)
         ∧ (∀ i, i < 128 → x.wave.num ∉ (direntAt u core i).answered)
         ∧ (∀ m ∈ u.census.moves, m.src = core → m.phase ≤ 3 → x.wave.num ∉ m.ent.answered)
         ∧ ((∃ k ∈ l, k ≠ core) → u.census.open_ = s.census.open_.set n { x with closing := some (l.filter (· != core)) })
         ∧ ((∀ k ∈ l, k = core) → u.census.open_ = s.census.open_.eraseIdx n
             ∧ x.wave.num / 2 ^ 19 % 8 ∉ (coreCensus u (x.wave.num / 2 ^ 22)).slots)))
  ∧ (∀ (x y : Nat) (vs : List Word), x < 2 ^ 32 → y < 2 ^ 32 →
       let fold (c : Comb) : List Nat := combFold c 0 (vs.map (combValue c))
       combMerge .sum32 [x] [y] = [(x + y) % 2 ^ 32]
       ∧ combMerge .max32 [x] [y] = [(if (BitVec.ofNat 32 x).slt (BitVec.ofNat 32 y) then y else x)]
       ∧ combMerge .min32 [x] [y] = [(if (BitVec.ofNat 32 y).slt (BitVec.ofNat 32 x) then y else x)]
       ∧ fold .sum32 = [(vs.map fun v => v.toNat % 2 ^ 32).sum % 2 ^ 32]
       ∧ fold .count = [(vs.filter (· != 0)).length % 2 ^ 64]
       ∧ fold .or64 = [(vs.foldl (· ||| ·) 0).toNat]
       ∧ fold .first = (vs.head?.map BitVec.toNat).toList
       ∧ combResult .max32 0 [x] = (BitVec.ofNat 32 x).signExtend 64
       ∧ combResult .sum32 0 [x] = BitVec.ofNat 64 x
       ∧ combResult .first 0 [] = 0
       ∧ ∀ d p, combMerge .lsev (combId .lsev d) p = p)

/-- R334, R335 and R339: DREG.MOVE of a live entry of the issuer's core to another present core waits in STATE 1 while the move goes on: the target
reserves its lowest DARK entry or refuses; the source detaches the entry, which is then DUSK, or abandons the move when it has lapsed; the entry is
sent once its responders have ended, and arrives with its expiry and owner under a new generation, late responders answering the open censuses it
has not; with the last ended, the new handle is returned.
That the entry reserved is the lowest is the model's choice (log entry 7). -/
def Obligations.EntriesMoveWithoutLoss : Prop :=
  (∀ (s : State) (g : Guard) (c i : Nat) (t : Strand) (d a : GReg) (y : Src), StrandIssues g s c i t →
    let h := rG s a
    let core := (srcZ s y).toNat
    (checkHandle s [6] h = .ok () → hHome h = c → corePresent s core = true → core ≠ c → checkHome s t.ctxh h = .ok () →
      exec (.dregMove g d a y) s = .next (putStrand { s with census.moves := s.census.moves ++
          [{ src := c, dst := core, index := hIndex h, gen := hGen h, tile := rG s d, tag := curTag s, d := d, ent := direntAt s c (hIndex h) }] }
        c i { t with st := 1, wait := .reply }))
    ∧ (checkHandle s [6] h = .ok () → hHome h = c → (corePresent s core = false ∨ core = c) → Traps (.dregMove g d a y) s (bad (srcZ s y)))
    ∧ (checkHandle s [6] h = .ok () → hHome h ≠ c → Traps (.dregMove g d a y) s { cause := .badOperand, info0 := h, detail := 8 }))
  ∧ (∀ (s : State) (n : Nat) (m : Move) (v : Strand), s.census.moves[n]? = some m → tagged s m.tag = some v →
    let l := launchAt s m.ent.launch
    let key := entryKey 6 m.src m.index
    let x := lifeOf s key
    let put (u : State) (y : Move) : Prop := u.census.moves = s.census.moves.set n y
    let ends (u : State) (v' : Word) : Prop := u.census.moves = s.census.moves.eraseIdx n
      ∧ u.coh.replies = s.coh.replies ++ [{ tag := m.tag, act := .regs [(m.d.val, v')] v.ctx.pts }]
    (m.phase = 0 → (∀ k, freeEntry s 6 m.dst = some (entryKey 6 m.dst k) → k < 128 → l.st ≠ 0 → admits s l m.dst = true →
        ∃ u, exec (.moveReserve n) s = .next u ∧ put u { m with phase := 1, dindex := k } ∧ (lifeOf u (entryKey 6 m.dst k)).st = 3)
      ∧ (freeEntry s 6 m.dst = none ∨ l.st = 0 ∨ admits s l m.dst = false →
        ∃ u, exec (.moveReserve n) s = .next u ∧ put u { m with phase := 2 } ∧ u.hold = s.hold))
    ∧ (m.phase = 2 → ∃ u, exec (.moveReserveReply n) s = .next u ∧ ends u 0 ∧ u.hold = s.hold)
    ∧ (m.phase = 1 → m.src ≠ m.dst → m.index < 128 → m.dindex < 128 →
      (x.gen = m.gen → isLive s key = true → ∃ u, exec (.moveReserveReply n) s = .next u ∧ (lifeOf u key).st = 2
        ∧ (lifeOf u key).darkAt = s.time.dt + tget 0 s.time.early m.src + 256
        ∧ put u { m with phase := 3, expiry := x.expiry, owner := x.owner, ent := direntAt s m.src m.index })
      ∧ (isLive s key = false → ∃ u, exec (.moveReserveReply n) s = .next u ∧ ends u 0 ∧ (lifeOf u (entryKey 6 m.dst m.dindex)).st = 0
        ∧ lifeOf u key = x))
    ∧ (m.phase = 3 → ((∀ r ∈ (coreCensus s m.src).resp, r.index = m.index → r.gen = m.gen → r.ended = true) →
        ∃ u, exec (.entrySend n) s = .next u ∧ put u { m with phase := 4 })
      ∧ ((∃ r ∈ (coreCensus s m.src).resp, r.index = m.index ∧ r.gen = m.gen ∧ r.ended = false) → exec (.entrySend n) s = .next s))
    ∧ (m.phase = 4 → s.time.dt + tget 0 s.time.early m.dst ≤ m.expiry →
      (coreCensus s m.dst).seen.Pairwise (fun a b => a.num < b.num) →
      let tkey := entryKey 6 m.dst m.dindex
      let late := (coreCensus s m.dst).seen.filter fun w => w.key == m.ent.key && w.ctxh == m.owner && !m.ent.answered.contains w.num
      ∃ u, exec (.entryArrival n) s = .next u
        ∧ lifeOf u tkey = { st := 1, expiry := m.expiry, gen := nextGen (lifeOf s tkey).gen, owner := m.owner }
        ∧ direntAt u m.dst m.dindex = { m.ent with
            tile := m.tile
            answered := (m.ent.answered.filter fun k => s.census.open_.any fun x =>
              x.wave.num == k && (x.closing.getD [m.dst]).contains m.dst) ++ late.map Wave.num }
        ∧ (coreCensus u m.dst).resp.map (fun r => (r.wave, r.late, r.index, r.ended)) =
            (coreCensus s m.dst).resp.map (fun r => (r.wave, r.late, r.index, r.ended)) ++ (late.map fun w => (w, true, m.dindex, false))
        ∧ put u { m with phase := 5, lates := (List.range late.length).map (s.census.next + ·)
                         newh := mkHandle tkey (nextGen (lifeOf s tkey).gen) })
    ∧ (m.phase = 4 → m.expiry < s.time.dt + tget 0 s.time.early m.dst →
        ∃ u, exec (.entryArrival n) s = .next u ∧ (lifeOf u (entryKey 6 m.dst m.dindex)).st = 2)
    ∧ (m.phase = 5 → m.src ≠ m.dst → ∀ r, (coreCensus s m.dst).resp.filter (fun r => m.lates.contains r.id) = [r] →
      (r.ended = false → exec (.moveAck n) s = .next s)
      ∧ (r.ended = true → (∃ x ∈ s.census.open_, x.wave.num = r.wave.num ∧ m.src ∈ x.left) → ∃ u, exec (.moveAck n) s = .next u ∧ ends u m.newh
        ∧ (coreCensus u m.src).resp = (coreCensus s m.src).resp ++ [{ r with index := m.index, late := false, frame := none }]
        ∧ (coreCensus u m.dst).resp = (coreCensus s m.dst).resp.filter fun r => !m.lates.contains r.id))
    ∧ (m.phase = 5 → m.lates = [] → ∃ u, exec (.moveAck n) s = .next u ∧ ends u m.newh))

/-! ### Translations and pages -/

/-- R37, R38, R353: a cached translation is used up to its stamp and life and within its TL (log entry 23), and dropped past it; a walk stamps it
with the time at its entry's home; a purge drops it at its holder, with a core's L1 copies of the page, owned sectors being written back, and is
acknowledged, which counts for that unmap alone; an unmap is complete with its last acknowledgment or at W + TL + 2, no translation of the page
or, where its frame is freed or moved, no copy of a sector being left, and the page's last one clears PURGE; an owned sector delays it until
recalled, as does a request on its way to the frame (log entry 48).
R349, R352, R357, R358: a store to word 0 of an entry has the effect of its row, waits while the entry is REQ, MOVING or under a purge, else is
refused; one that waited is applied once it may be. A page asked for takes the lowest free frame (log entry 7), filled
with zeros, and is PRESENT, or EXH when there is none, and the asking store is answered.
R351, R352: the span of a fault on 64 KiB pages doubles while the enclosing block lies inside the range and is resident to PFT/256, up to 2^PFB;
an engine-backed range asks for every ABSENT page of the span in ascending order. On a pager-backed range it posts one entry per page, with which
later ones merge; the record goes to the fault queue with what has merged by then (log entry 44), or is dropped and counted if the queue fails
R25.
R354 to R356: a slice marks the one page it examines MOVING, under an unmap write, when it has been requested 32 times, its target die is another
with a free frame, and it has not moved in 4,096 ticks; with no frame free it halves the counts. A page whose move's unmap is complete has its
bytes and its sectors' timestamps at the new frame, and is PRESENT with counts of 0, no sector of either owned or on its way; the old frame's
bytes stay (log entry 38).
The log entries named, and 19 for what ABSENT over PRESENT leaves in other fields, are the model's choices. -/
def Obligations.TranslationsAndPages : Prop :=
  ((∀ (s : State) (holder tl va : Nat) (ctxh : Word) (e : Tlb), tlbFind s holder ctxh tl va = some e →
     localDt s (holderUnit holder) ≤ e.stamp + e.tl ∧ localDt s (holderUnit holder) ≤ e.stamp + tl)
   ∧ (∀ (s : State) (n k : Nat) (e : Tlb), s.page.tlb[n]? = some (k, e) →
     (e.stamp + e.tl < localDt s (holderUnit (k / 2 ^ 96)) →
       exec (.translationExpiry n) s = .next { s with page.tlb := s.page.tlb.filter fun x => x.1 != k })
     ∧ (localDt s (holderUnit (k / 2 ^ 96)) ≤ e.stamp + e.tl → exec (.translationExpiry n) s = .next s))
   ∧ (∀ (s : State) (holder ctx vpn key : Nat) (r : Range), rangeFor s (curHandle s ctx) (vpn * 65536) = some (key, r) →
     corePresent s (holderUnit holder) = true →
     let ctxh := curHandle s ctx
     let v := vpnIn r (vpn * 65536)
     let p := pteAt s ctxh v
     (p.st = 1 → ∃ u, exec (.translationWalk holder ctx vpn) s = .next u
       ∧ (tfind u.page.tlb (tlbKey holder ctxh v)).map (fun e => (e.pte, e.large, e.stamp, e.range)) =
           some (p, r.lp, localDt s (keyHome key), curHandle s key)
       ∧ (∀ k, k ≠ tlbKey holder ctxh v → tfind u.page.tlb k = tfind s.page.tlb k)
       ∧ u.page.pte = s.page.pte ∧ u.mem = s.mem ∧ u.coh = s.coh)
     ∧ (p.st ≠ 0 → p.st ≠ 1 → exec (.translationWalk holder ctx vpn) s = .next s))
   ∧ (∀ (s : State) (n holder pte num : Nat), s.page.purges[n]? = some (holder, pte, num) →
     ∃ u, exec (.purge n) s = .next u
       ∧ u.page.purges = s.page.purges.eraseIdx n ∧ u.page.acks = s.page.acks ++ [(holder, pte, num)]
       ∧ tfind u.page.tlb (holder * 2 ^ 96 + pte) = none
       ∧ (∀ k, k ≠ holder * 2 ^ 96 + pte → tfind u.page.tlb k = tfind s.page.tlb k)
       ∧ u.page.pte = s.page.pte ∧ u.mem = s.mem ∧ (1024 ≤ holder → u.coh = s.coh)
       ∧ ((∀ m ∈ s.page.unmaps, m.num ≠ num) → u.coh = s.coh)
       ∧ ∀ m sec, s.page.unmaps.find? (fun m => m.num == num) = some m → holder < 1024 → sec < 2 ^ 128 →
         m.old * 1024 ≤ sec → sec < m.old * 1024 + (if m.large then 2 ^ 15 else 2 ^ 10) →
         let x := l1At s holder sec
         l1At u holder sec = {}
           ∧ (x.kind = 2 → ∃ q, (q, Coh.writeBack holder sec (if x.dirty then some x.data else none) x.wts x.e) ∈ u.coh.coh))
   ∧ (∀ (s : State) (n holder pte num : Nat), s.page.acks[n]? = some (holder, pte, num) →
     exec (.purgeAck n) s = .next { s with
       page.acks := s.page.acks.eraseIdx n
       page.unmaps := s.page.unmaps.map fun u => if u.num = num then { u with holders := u.holders.filter (· != holder) } else u })
   ∧ (∀ (s : State) (n : Nat) (m : Unmap), s.page.unmaps[n]? = some m →
     let k := if m.large then 32 else 1
     let frame := m.old
     let inFrame (sec : Nat) : Prop := frame * 1024 ≤ sec ∧ sec < (frame + k) * 1024
     let clean : Prop := m.freed.isSome = true ∨ m.move.isSome = true ∨ m.ncChange = true
     (m.holders ≠ [] → localDt s m.home < m.at_ + m.tl + 2 → exec (.unmapComplete n) s = .next s)
     ∧ ((m.holders = [] ∨ m.at_ + m.tl + 2 ≤ localDt s m.home) →
       (frameAsked s frame k = true → ∃ u, exec (.unmapComplete n) s = .next u ∧ u.page = s.page ∧ u.mem = s.mem)
       ∧ (clean → (∃ e ∈ s.coh.dir, inFrame e.1 ∧ e.2.st ≠ .h) →
         ∃ u, exec (.unmapComplete n) s = .next u ∧ u.page = s.page ∧ u.mem = s.mem)
       ∧ (frameAsked s frame k = false → (clean → ∀ e ∈ s.coh.dir, inFrame e.1 → e.2.st = .h) →
         ∃ u, exec (.unmapComplete n) s = .next u ∧ u.page.unmaps = s.page.unmaps.eraseIdx n
           ∧ ((∃ v ∈ s.page.unmaps.eraseIdx n, v.pte = m.pte) → tget {} u.page.pte m.pte = tget {} s.page.pte m.pte)
           ∧ ((∀ v ∈ s.page.unmaps.eraseIdx n, v.pte ≠ m.pte) →
             let p := tget {} s.page.pte m.pte
             ((∀ e ∈ s.page.asked, e.1 ≠ m.pte) → tget {} u.page.pte m.pte = { p with purge := false })
             ∧ (∀ key, s.page.asked = [(m.pte, key)] → pteKey (curHandle s (m.pte / 2 ^ 40)) (m.pte % 2 ^ 40) = m.pte → p.st = 0 →
                 (lifeOf s key).st ≠ 0 → (lifeOf s key).owner = curHandle s (m.pte / 2 ^ 40) →
                 let range := rangeAt s key
                 tget {} u.page.pte m.pte = { p with
                   purge := false, st := 2, rd := true, wr := true, nc := range.nc, far := false, large := range.lp, route := 0 }
                 ∧ u.page.backing = s.page.backing ++ [{ pte := m.pte, range := key, far := false, large := range.lp }] ∧ u.page.asked = []))
           ∧ (∀ a, a ≠ m.pte → tget {} u.page.pte a = tget {} s.page.pte a)
           ∧ (∀ e ∈ u.page.tlb, e.1 % 2 ^ 96 ≠ m.pte) ∧ u.mem = s.mem
           ∧ (clean → ∀ e ∈ u.coh.l1, ¬ inFrame (e.1 % 2 ^ 128))))))
  ∧ ((∀ (s : State) (ctxh : Word) (key page v : Nat) (r : Range), v < 2 ^ 64 →
       let pk := pteKey ctxh (vpnIn r page)
       let p := pteAt s ctxh (vpnIn r page)
       let bit (i : Nat) : Bool := v / 2 ^ i % 2 == 1
       let q : Pte := { p with st := v / 2 ^ 60, rd := bit 59, wr := bit 58, nc := bit 57, far := bit 56, pn := v % 2 ^ 40 }
       let x := storeWord0 s ctxh key r page v
       let unmap (q : Pte) (freed : Option Nat) (nc : Bool) : State := unmapWrite s pk (keyHome key) q p.pn freed none r.lp nc
       (p.st = 2 ∨ p.st = 5 ∨ p.purge = true → x = .wait)
       ∧ (p.st ≠ 2 → p.st ≠ 5 → p.purge = false →
         (v = pteWord p → x = .stored s)
         ∧ (v ≠ pteWord p → v / 2 ^ 40 % 2 ^ 16 ≠ 0 → x = .no)
         ∧ (v ≠ pteWord p → v / 2 ^ 40 % 2 ^ 16 = 0 →
           ((p.st = 0 ∨ p.st = 3) → q.st = 2 → q.pn = 0 → x = .backing (leaveAbsent { s with page.pte := tset {} s.page.pte pk { q with large := r.lp, route := 0 } } ctxh key (vpnIn r page)))
           ∧ (p.st = 0 → q.st = 4 → routeOk s ctxh p.route = true →
               x = .stored (leaveAbsent { s with page.pte := tset {} s.page.pte pk q } ctxh key (vpnIn r page)))
           ∧ (p.st = 0 → q.st = 4 → routeOk s ctxh p.route = false → x = .no)
           ∧ (p.st = 1 → q.st = 0 → x = .stored (unmap { q with pn := 0 } (some p.pn) false))
           ∧ (p.st = 1 → q.st = 1 → q.pn = p.pn → q.far = p.far →
               ((q.rd = true → p.rd = true) ∧ (q.wr = true → p.wr = true) ∧ (q.rd ≠ p.rd ∨ q.wr ≠ p.wr) ∨ q.nc ≠ p.nc) → x = .stored (unmap q none (q.nc != p.nc)))
           ∧ (p.st = 1 → q.st = 1 → (q.pn ≠ p.pn ∨ q.far ≠ p.far
               ∨ q.nc = p.nc ∧ (q.rd = true ∧ p.rd = false ∨ q.wr = true ∧ p.wr = false)) → x = .no)
           ∧ (p.st = 4 → q.st = 0 →
               x = .stored (unmapWrite s pk (keyHome key) { q with pn := 0, route := 0 } (2 ^ 40) none none r.lp false))
           ∧ (q.st ≠ 0 → q.st ≠ 1 → q.st ≠ 2 → q.st ≠ 4 → x = .no))))
     ∧ (∀ (s : State) (n v : Nat) (m : MemReq), s.page.stores[n]? = some m → m.kind = .write v →
       let x := storeSystem s (sysCtx s m.pa) (sysVa m.pa) m.n v (m.n == 8 && m.plain)
       (x = .wait → exec (.pteStore n) s = .next s)
       ∧ (x = .no → 2 ^ 120 ≤ m.pa → (dirAt s (m.pa / 64)).st = .h → Roomy s → m.hub = none → m.engine = none → exec (.pteStore n) s = .next { s with
           page.stores := s.page.stores.eraseIdx n
           coh.replies := s.coh.replies ++ [{ tag := m.tag, act := .exc { cause := .protection, info0 := m.ptr, detail := m.detail }
                                              home := some (homeOf s m.pa) }] }))
     ∧ (∀ (s : State) (key n : Nat) (ctxh va : Word) (page v : Nat) (m : MemReq) (r : Range), s.page.stores[n]? = some m →
       m.kind = .write v → m.n = 8 → m.plain = true → m.hub = none → m.engine = none → m.post = .store → v < 2 ^ 64 →
       Roomy s → m.pa / 64 = sysPa (keyHome key) ctxh (0x800000000000 + 16 * vpnIn r page) / 64 → sysCtx s m.pa = ctxh → sysVa m.pa = va.toNat →
       recordAt s ctxh va.toNat = none → va.toNat % 16 = 0 → entryAt s ctxh va.toNat = some (key, r, page) →
       let p := pteAt s ctxh (vpnIn r page)
       let w := max m.pts ((filled s (m.pa / 64)).rts + 1)
       p.st = 1 → p.purge = false → v = 0 → (dirAt s (m.pa / 64)).st = .h →
         ∃ u, exec (.pteStore n) s = .next u
           ∧ pteAt u ctxh (vpnIn r page) = { p with st := 0, rd := false, wr := false, nc := false, far := false, pn := 0, purge := true }
           ∧ (dirAt u (m.pa / 64)).wts = w + 1 ∧ (dirAt u (m.pa / 64)).rts = w + 1
           ∧ u.coh.replies = s.coh.replies ++ [{ tag := m.tag, act := .regs [] w, home := some (homeOf s m.pa) }]
           ∧ u.page.stores = s.page.stores.eraseIdx n
           ∧ u.page.purges = s.page.purges ++ (holdersOf s (pteKey ctxh (vpnIn r page)) p.pn r.lp).map fun h =>
               (h, pteKey ctxh (vpnIn r page), s.page.unmapNo))
     ∧ (∀ (s : State) (ctxh : Word) (va key page v n : Nat) (r : Range) (plain : Bool), recordAt s ctxh va = none → va % 16 = 8 →
       entryAt s ctxh (va / 16 * 16) = some (key, r, page) →
       let p := pteAt s ctxh (vpnIn r page)
       (plain = false → storeSystem s ctxh va n v plain = .no)
       ∧ (p.st ≠ 0 → storeSystem s ctxh va n v plain = .no)
       ∧ (p.st = 0 → p.purge = true → storeSystem s ctxh va n v true = .wait)
       ∧ (p.st = 0 → p.purge = false → storeSystem s ctxh va n v true =
           .stored { s with page.pte := tset {} s.page.pte (pteKey ctxh (vpnIn r page)) { p with route := BitVec.ofNat 64 v } }))
     ∧ (∀ (s : State) (home f : Nat) (far large : Bool), allocFrame s home far large = some f →
       let k := if large then 32 else 1
       (∀ u ∈ usedFrames s ++ s.hub.reserved, u.1 + u.2 ≤ f ∨ f + k ≤ u.1) ∧ (far = true → paOk s (f * 65536) = true ∧ 2 ^ 28 ≤ f)
       ∧ (far = false → paOk s (f * 65536) = true ∧ f < 2 ^ 24) ∧ (large = true → f % 32 = 0))
     ∧ (∀ (s : State) (n : Nat) (b : Backing), s.page.backing[n]? = some b →
       let p := tget {} s.page.pte b.pte
       let k := if b.large then 32 else 1
       let answered (u : State) : Prop := (b.waiter = none → u.coh.replies = s.coh.replies)
         ∧ (∀ m w data, b.waiter = some (m, w, data) → m.hub = none → m.engine = none → m.post = .store →
             u.coh.replies = s.coh.replies ++ [{ tag := m.tag, act := .regs [] w, home := some (homeOf s m.pa) }])
         ∧ u.page.backing = s.page.backing.eraseIdx n ∧ ∀ a, a ≠ b.pte → tget {} u.page.pte a = tget {} s.page.pte a
       (p.st ≠ 2 → ∃ u, exec (.pageBacked n) s = .next u ∧ answered u ∧ tget {} u.page.pte b.pte = p ∧ u.mem = s.mem)
       ∧ (∀ f, p.st = 2 → allocFrame s (keyHome b.range) b.far b.large = some f →
         ∃ u, exec (.pageBacked n) s = .next u ∧ answered u ∧ tget {} u.page.pte b.pte = { p with st := 1, pn := f }
           ∧ (∀ a, f * 65536 ≤ a → a < (f + k) * 65536 → memByte u.mem a = 0)
           ∧ (∀ a, (a < f * 65536 ∨ (f + k) * 65536 ≤ a) → memByte u.mem a = memByte s.mem a)
           ∧ ∀ sec, f * 1024 ≤ sec → sec < (f + k) * 1024 → (dirAt u sec).present = false)
       ∧ (p.st = 2 → allocFrame s (keyHome b.range) b.far b.large = none →
         ∃ u, exec (.pageBacked n) s = .next u ∧ answered u ∧ tget {} u.page.pte b.pte = { p with st := 3 } ∧ u.mem = s.mem)))
  ∧ ((∀ (s : State) (ctxh : Word) (r : Range) (va : Nat), r.lp = false → 16 ≤ r.pfb → r.pfb ≤ 21 →
       let lg := spanOf s ctxh r va
       let block (k : Nat) : Nat := va / 2 ^ k * 2 ^ k
       let grows (k : Nat) : Prop := k < r.pfb ∧ r.base ≤ block (k + 1) ∧ block (k + 1) + 2 ^ (k + 1) ≤ r.base + r.size
         ∧ r.pft * (2 ^ (k + 1) / 65536) ≤ 256 * ((List.range (2 ^ (k + 1) / 65536)).filter fun i =>
             (pteAt s ctxh (block (k + 1) / 65536 + i)).st == 1).length
       16 ≤ lg ∧ lg ≤ r.pfb ∧ (∀ k, 16 ≤ k → k < lg → grows k) ∧ ¬ grows lg)
     ∧ (∀ (s : State) (holder ctx vpn key : Nat) (r : Range), rangeFor s (curHandle s ctx) (vpn * 65536) = some (key, r) →
       corePresent s (holderUnit holder) = true → r.pager = false →
       let ctxh := curHandle s ctx
       let p := pteAt s ctxh (vpnIn r (vpn * 65536))
       let lg := spanOf s ctxh r (vpn * 65536)
       let first := vpn * 65536 / 2 ^ lg * 2 ^ lg / 65536
       let pages := (if r.lp then [first] else (List.range (2 ^ (lg - 16))).map (first + ·)).filter fun v =>
         (pteAt s ctxh v).st == 0 && !(pteAt s ctxh v).purge
       let later := (if r.lp then [first] else (List.range (2 ^ (lg - 16))).map (first + ·)).filter fun v =>
         (pteAt s ctxh v).st == 0 && (pteAt s ctxh v).purge
       let sector (v : Nat) : Nat := sysPa (keyHome key) ctxh (0x800000000000 + 16 * v) / 64
       p.st = 0 → p.purge = false → ∃ u, exec (.translationWalk holder ctx vpn) s = .next u
         ∧ u.page.backing = s.page.backing ++
             pages.map (fun v => ({ pte := pteKey ctxh v, range := key, far := false, large := r.lp } : Backing))
         ∧ (∀ v ∈ pages, pteAt u ctxh v = { pteAt s ctxh v with st := 2, rd := true, wr := true, nc := r.nc, far := false, large := r.lp
                                                                route := 0 })
         ∧ (∀ a, (∀ v ∈ pages, a ≠ pteKey ctxh v) → tget {} u.page.pte a = tget {} s.page.pte a) ∧ u.mem = s.mem ∧ u.page.tlb = s.page.tlb
         ∧ (Roomy s → ∀ v ∈ pages, (filled s (sector v)).rts < (dirAt u (sector v)).wts)
         ∧ ((∀ a ∈ s.page.asked, a.2 ≠ key) → u.page.asked = s.page.asked ++ later.map fun v => (pteKey ctxh v, key)))
     ∧ (∀ (s : State) (range : Word) (va : Nat) (write : Bool) (tag : Option Tag),
       let r := rangeAt s (hKey range)
       let owner := (lifeOf s (hKey range)).owner
       let page := if r.lp then va / 2 ^ 21 * 2 ^ 21 else va / 65536 * 65536
       let u := postFault s range va write tag
       (∀ f, s.page.faults = [f] → f.range = range → f.va = page → u = { s with page.faults := [{ f with
           write := f.write || write, engine := f.engine || tag.isNone, count := min 65535 (f.count + 1), linked := f.linked ++ tag.toList }] })
       ∧ ((∀ f ∈ s.page.faults, f.range ≠ range ∨ f.va ≠ page) →
         (hKind r.fq = 7 → slicePresent s (hHome r.fq) = true → liveHandle s r.fq = true → (lifeOf s (hKey r.fq)).owner = owner →
           rangeAt u (hKey range) = { r with faults := r.faults + 1 } ∧ u.hold.arriving = s.hold.arriving
             ∧ u.page.faults = s.page.faults ++
                 [{ range := range, va := page, write := write, engine := tag.isNone, count := 1, tag := tag.getD {}, linked := []
                    span := spanOf s owner r va, at_ := localDt s (keyHome (hKey range)), sent := false }])
         ∧ (liveHandle s r.fq = false → rangeAt u (hKey range) = { r with drops := r.drops + 1 } ∧ u.hold.arriving = s.hold.arriving)))
     ∧ (∀ (s : State) (f : FaultEntry), s.page.faults = [f] → f.sent = false →
       let r := rangeAt s (hKey f.range)
       let u := sendFault s 0
       u.page.faults = [{ f with sent := true }] ∧ u.hold.arriving = s.hold.arriving ++ [{
         q := r.fq, ctxh := (lifeOf s (hKey f.range)).owner, msg := { bytes := BitVec.ofNat 256 (1
           + ((if f.write then 1 else 0) + (if f.engine then 2 else 0)) * 2 ^ 8 + f.count % 65536 * 2 ^ 16
           + (if f.engine = true ∧ f.tag = {} then 0 else tagBits f.tag) * 2 ^ 32 + f.va * 2 ^ 64 + f.range.toNat * 2 ^ 128
           + f.span % 256 * 2 ^ 192 + f.at_ % 2 ^ 32 * 2 ^ 224) } }]))
  ∧ ((∀ (s : State) (slice frame pte : Nat) (h : Hot) (p : Pte), tget 0 s.page.examined slice < localDt s slice / 256 →
       (s.page.hot.filter fun e => hotSlice s (e.1 * 65536) == slice) = [(frame, h)] → pageOf s frame = some (pte, p) → p.pn = frame →
       tget {} s.page.pte pte = p →
       let die := homeDie (frame * 65536)
       let n := h.c0 + h.c1 + h.c2 + h.c3
       let column := if n < 2 * (h.c1 + h.c3) then 1 else if 2 * (h.c1 + h.c3) < n then 0 else die % 2
       let row := if n < 2 * (h.c2 + h.c3) then 1 else if 2 * (h.c2 + h.c3) < n then 0 else die / 2
       let target := column + 2 * row
       let moves : Prop := 32 ≤ n ∧ target ≠ die ∧ (h.moved = 0 ∨ h.moved + 4096 ≤ localDt s slice + 1) ∧ p.purge = false
       let looked (u : State) : Prop := exec (.hotnessExamination slice) s = .next u ∧ u.mem = s.mem ∧ u.coh.l1 = s.coh.l1
         ∧ tget 0 u.page.examined slice = localDt s slice / 256
       (∀ f, moves → hbmFrame s target p.large = some f →
         ∃ u, looked u ∧ tget {} u.page.pte pte = { p with st := 5, purge := true } ∧ u.page.moving = s.page.moving ++ [(pte, f)]
           ∧ u.page.purges = s.page.purges ++ (holdersOf s pte frame p.large).map fun x => (x, pte, s.page.unmapNo))
       ∧ (moves → hbmFrame s target p.large = none → ∃ u, looked u ∧ u.coh = s.coh ∧ u.page.pte = s.page.pte
           ∧ tget {} u.page.hot frame = { h with c0 := h.c0 / 2, c1 := h.c1 / 2, c2 := h.c2 / 2, c3 := h.c3 / 2 })
       ∧ (¬ moves → ∃ u, looked u ∧ u.coh = s.coh ∧ u.page.pte = s.page.pte ∧ u.page.hot = s.page.hot))
     ∧ (∀ (s : State) (slice : Nat), localDt s slice / 256 ≤ tget 0 s.page.examined slice → exec (.hotnessExamination slice) s = .next s)
     ∧ (∀ (s : State) (n pte new : Nat), s.page.moving[n]? = some (pte, new) →
       let p := tget {} s.page.pte pte
       let k := if p.large then 32 else 1
       let unsettled : Prop := ∃ e ∈ s.coh.dir, e.2.st ≠ .h
         ∧ (p.pn * 1024 ≤ e.1 ∧ e.1 < (p.pn + k) * 1024 ∨ new * 1024 ≤ e.1 ∧ e.1 < (new + k) * 1024)
       ((∃ m ∈ s.page.unmaps, m.pte = pte) → exec (.pageMove n) s = .next s)
       ∧ ((∀ m ∈ s.page.unmaps, m.pte ≠ pte) → p.st = 5 → unsettled → ∃ u, exec (.pageMove n) s = .next u ∧ u.page = s.page ∧ u.mem = s.mem)
       ∧ ((∀ m ∈ s.page.unmaps, m.pte ≠ pte) → p.st = 5 → ¬ unsettled → (p.pn + k ≤ new ∨ new + k ≤ p.pn) → new < 2 ^ 100 → Roomy s →
         ∃ u, exec (.pageMove n) s = .next u ∧ tget {} u.page.pte pte = { p with st := 1, pn := new, purge := false }
           ∧ (∀ a, a ≠ pte → tget {} u.page.pte a = tget {} s.page.pte a)
           ∧ (∀ i, i < k * 65536 → memByte u.mem (new * 65536 + i) = memByte s.mem (p.pn * 65536 + i))
           ∧ (∀ a, (a < new * 65536 ∨ (new + k) * 65536 ≤ a) → memByte u.mem a = memByte s.mem a)
           ∧ (∀ j, j < k * 1024 → dirAt u (new * 1024 + j) = dirAt s (p.pn * 1024 + j))
           ∧ u.page.moving = s.page.moving.eraseIdx n
           ∧ (let c := tget {} u.page.hot new
              c.c0 = 0 ∧ c.c1 = 0 ∧ c.c2 = 0 ∧ c.c3 = 0))))

/-! ### Sectors at their homes -/

/-- R36, R47, R54, R55, R57, R59 and R64: a home takes a core's requests in the order they were sent and refuses one whose range it has noted as
lapsed, and, with SOFT_ERROR and the address, one that meets a failed word (R106). In H a read or renewal leases the sector, a store is written at its timestamp, an atomic swaps at one timestamp, and ownership is granted,
or waits with a recall of the oldest owner when the directory is full. In O(c) a request queues and the owner is recalled, and in T it queues. On a
page without coherence data alone is moved.
R54 to R58: a core answers a recall with the sector's data and timestamps, keeping it leased, or with NOT_HELD. The home takes them, frees the
owner entry and makes the grant that waits at the head of its slice's queue, then serves the sector's queue; a write-back in O(c) does the same, and one that crosses a recall leaves the sector in T.
R50: a line with its sectors in H is written back with MTS raised, and once that is acknowledged it is absent and its queue is served with WTS = RTS
= MTS. -/
def Obligations.SectorsAreServedRecalledAndReturned : Prop :=
  (∀ (s : State) (n : Nat) (r : MemReq), s.coh.net[n]? = some r → r.hub = none → r.engine = none →
     let sec := r.pa / 64
     let home := homeOf s r.pa
     let d := filled s sec
     let c := reqCore s r
     let data := homeData s sec
     let value := sectorPart data r.pa r.n
     let i : Instr := match r.kind with
       | .read | .ncRead => .leaseRead n
       | .renew _ => .leaseRenewal n
       | .write _ | .ncWrite _ => .homeWrite n
       | .own => .ownershipRequest n
       | .amo _ _ _ _ => .farAtomic n
     let taken (u : State) : Prop := exec i s = .next u ∧ u.coh.net = s.coh.net.eraseIdx n ∧ u.hold = s.hold
     let sent (u : State) (a : ReplyAct) : Prop := u.coh.replies = s.coh.replies ++ [{ tag := r.tag, act := a, home := some home }]
     let quiet (u : State) : Prop := u.coh.replies = s.coh.replies ∧ u.mem = s.mem
     (earlierSent s r.tag.core home r.seq = true ∨ homeUp s r.pa = false → exec i s = .next s)
     ∧ (∀ w, earlierSent s r.tag.core home r.seq = false → homeUp s r.pa = true → Roomy s → hasNoticed s home r.range = false →
         softWord s r.pa r.n = some w → r.pa < 2 ^ 52 → r.pa % 8 + r.n ≤ 8 → ∃ u, taken u ∧ u.mem = s.mem ∧ u.coh.dir = s.coh.dir
           ∧ sent u (.exc { cause := .softError, step := 7, info0 := BitVec.ofNat 64 (r.pa / 8 * 8), detail := r.detail }))
     ∧ (earlierSent s r.tag.core home r.seq = false → homeUp s r.pa = true → Roomy s → s.coh.failed = [] →
       (hasNoticed s home r.range = true → ∃ u, taken u ∧ sent u (.exc { cause := .lapsed, info0 := r.ptr, detail := r.detail })
         ∧ u.mem = s.mem ∧ u.coh.dir = s.coh.dir)
       ∧ (hasNoticed s home r.range = false → r.nc = false →
         ((dirAt s sec).st = .h →
           ((r.kind = .read ∨ ∃ cw, r.kind = .renew cw) → r.post ≠ .again →
             let ts := max r.pts d.wts
             ∃ u, taken u ∧ sent u (.regs (postRegs value r.post) ts) ∧ u.mem = s.mem
               ∧ dirAt u sec = { d with rts := max d.rts (ts + r.ll) }
               ∧ l1At u c sec = { kind := 1, data := data, wts := d.wts, e := ts + r.ll, range := r.range })
           ∧ (∀ v, r.kind = .write v → r.post = .store → r.pa < 2 ^ 120 →
             let w := max r.pts (d.rts + 1)
             let x := l1At s c sec
             ∃ u, taken u ∧ sent u (.regs [] w) ∧ u.mem = memWrite s.mem r.pa r.n v ∧ dirAt u sec = { d with wts := w, rts := w }
               ∧ l1At u c sec = if x.kind = 1 then { x with data := homeData u sec, wts := w, e := w } else x)
           ∧ (∀ op opnd cmp un, r.kind = .amo op opnd cmp un → r.post ≠ .again → r.pa < 2 ^ 120 →
             let w := max r.pts (d.rts + 1)
             ∃ u, taken u ∧ sent u (.regs (postRegs value r.post) w) ∧ dirAt u sec = { d with wts := w, rts := w }
               ∧ u.mem = memWrite s.mem r.pa r.n (amoValue op un r.n value opnd cmp) ∧ u.coh.l1 = s.coh.l1)
           ∧ (r.kind = .own → r.post = .again →
             ((ownersOf s home).length < 65536 → ∃ u, taken u ∧ sent u .again ∧ u.mem = s.mem ∧ dirAt u sec = { d with st := .o c }
               ∧ l1At u c sec = { kind := 2, data := data, wts := d.wts, e := d.rts, range := r.range }
               ∧ ownersOf u home = ownersOf s home ++ [sec])
             ∧ (65536 ≤ (ownersOf s home).length → ∃ u, taken u ∧ quiet u
               ∧ tget [] u.coh.grantq home = tget [] s.coh.grantq home ++ [r] ∧ dirAt u sec = dirAt s sec
               ∧ ∀ v k, oldestOwned s home = some (v, k) → dirAt u v = { dirAt s v with st := .t k true }
                   ∧ u.coh.coh = s.coh.coh ++ [(s.coh.sent, .ask k v)])))
         ∧ (r.kind ≠ .ncRead → (∀ v, r.kind ≠ .ncWrite v) →
           (∀ k, (dirAt s sec).st = .o k → ∃ u, taken u ∧ quiet u
             ∧ dirAt u sec = { dirAt s sec with st := .t k true, queue := (dirAt s sec).queue ++ [r] }
             ∧ u.coh.coh = s.coh.coh ++ [(s.coh.sent, .ask k sec)])
           ∧ (∀ k a, (dirAt s sec).st = .t k a → ∃ u, taken u ∧ quiet u
             ∧ dirAt u sec = { dirAt s sec with queue := (dirAt s sec).queue ++ [r] } ∧ u.coh.coh = s.coh.coh)))
       ∧ (hasNoticed s home r.range = false → r.nc = true → r.post ≠ .again →
         let old := memRead s.mem r.pa r.n
         (r.kind = .ncRead → ∃ u, taken u ∧ sent u (.regs (postRegs old r.post) r.pts) ∧ u.mem = s.mem ∧ u.coh.dir = s.coh.dir)
         ∧ (∀ v, r.kind = .ncWrite v → r.post = .store → ∃ u, taken u ∧ sent u (.regs [] r.pts)
             ∧ u.mem = memWrite s.mem r.pa r.n v ∧ u.coh.dir = s.coh.dir)
         ∧ (∀ op opnd cmp un, r.kind = .amo op opnd cmp un → ∃ u, taken u ∧ sent u (.regs (postRegs old r.post) r.pts)
             ∧ u.mem = memWrite s.mem r.pa r.n (amoValue op un r.n old opnd cmp) ∧ u.coh.dir = s.coh.dir))))
  ∧ ((∀ (s : State) (n q c sec : Nat), s.coh.coh[n]? = some (q, .ask c sec) →
       (∀ m ∈ s.coh.coh, m.1 < q → ∀ x, m.2 = .ask c x → homeOf s (x * 64) ≠ homeOf s (sec * 64)) →
       let x := l1At s c sec
       (x.kind = 2 → ∃ u, exec (.recall n) s = .next u ∧ l1At u c sec = { x with kind := 1, dirty := false } ∧ u.mem = s.mem
         ∧ u.coh.coh = s.coh.coh.eraseIdx n ++ [(s.coh.sent, .data c sec x.data x.wts x.e)])
       ∧ (x.kind ≠ 2 → ∃ u, exec (.recall n) s = .next u ∧ u.coh.l1 = s.coh.l1 ∧ u.mem = s.mem
         ∧ u.coh.coh = s.coh.coh.eraseIdx n ++ [(s.coh.sent, .notHeld c sec)]))
     ∧ (∀ (s : State) (n q c sec v wts rts : Nat), s.coh.coh[n]? = some (q, .data c sec v wts rts) →
       earlierSent s c (homeOf s (sec * 64)) q = false → Roomy s →
       let home := homeOf s (sec * 64)
       let freed := (ownersOf s home).filter (· != sec)
       let back := memWrite s.mem (sec * 64) 64 v
       let taken (u : State) : Prop := exec (.recallReplyData n) s = .next u ∧ u.coh.coh = s.coh.coh.eraseIdx n
       ((dirAt s sec).queue = [] → tget [] s.coh.grantq home = [] → ∃ u, taken u ∧ ownersOf u home = freed ∧ u.mem = back
         ∧ dirAt u sec = { present := true, st := .h, wts := wts, rts := rts })
       ∧ (∀ (m : MemReq) (x : Nat), (dirAt s sec).queue = [m] → tget [] s.coh.grantq home = [] → m.kind = .write x → m.hub = none → m.engine = none →
         m.post = .store → m.pa / 64 = sec → m.pa < 2 ^ 120 →
         let w := max m.pts (rts + 1)
         ∃ u, taken u ∧ ownersOf u home = freed ∧ u.mem = memWrite back m.pa m.n x
           ∧ dirAt u sec = { present := true, st := .h, wts := w, rts := w }
           ∧ u.coh.replies = s.coh.replies ++ [{ tag := m.tag, act := .regs [] w, home := some (homeOf s m.pa) }])
       ∧ (∀ m : MemReq, (dirAt s sec).queue = [] → tget [] s.coh.grantq home = [m] → freed.length < 65536 → m.kind = .own → m.hub = none →
         m.engine = none → m.post = .again → homeOf s m.pa = home → m.pa / 64 ≠ sec → (dirAt s (m.pa / 64)).st = .h →
         ∃ u, taken u ∧ ownersOf u home = freed ++ [m.pa / 64] ∧ tget [] u.coh.grantq home = [] ∧ (dirAt u (m.pa / 64)).st = .o (reqCore s m)
           ∧ u.coh.replies = s.coh.replies ++ [{ tag := m.tag, act := .again, home := some home }])
       ∧ (∀ m y : MemReq, (dirAt s sec).queue = [y] → tget [] s.coh.grantq home = [m] → freed.length = 65535 → m.kind = .own → y.kind = .own →
         m.hub = none → y.hub = none → m.engine = none → y.engine = none → homeOf s m.pa = home → y.pa / 64 = sec → homeOf s y.pa = home →
         m.pa / 64 ≠ sec → (dirAt s (m.pa / 64)).st = .h →
         ∃ u, exec (.recallReplyData n) s = .next u ∧ m.pa / 64 ∈ ownersOf u home ∧ sec ∉ ownersOf u home ∧ tget [] u.coh.grantq home = [y]))
     ∧ (∀ (s : State) (n q c sec : Nat), s.coh.coh[n]? = some (q, .notHeld c sec) → earlierSent s c (homeOf s (sec * 64)) q = false →
       (dirAt s sec).queue = [] → tget [] s.coh.grantq (homeOf s (sec * 64)) = [] →
       ∃ u, exec (.notHeld n) s = .next u ∧ u.coh.coh = s.coh.coh.eraseIdx n ∧ dirAt u sec = { dirAt s sec with st := .h } ∧ u.mem = s.mem
         ∧ ownersOf u (homeOf s (sec * 64)) = (ownersOf s (homeOf s (sec * 64))).filter (· != sec))
     ∧ (∀ (s : State) (n q c sec wts rts : Nat) (v : Option Nat), s.coh.coh[n]? = some (q, .writeBack c sec v wts rts) →
       earlierSent s c (homeOf s (sec * 64)) q = false →
       let home := homeOf s (sec * 64)
       let taken (u : State) : Prop := exec (.writeBack n) s = .next u ∧ u.coh.coh = s.coh.coh.eraseIdx n
         ∧ u.mem = (v.map fun v => memWrite s.mem (sec * 64) 64 v).getD s.mem
       (∀ k, (dirAt s sec).st = .o k → (dirAt s sec).queue = [] → tget [] s.coh.grantq home = [] →
         ∃ u, taken u ∧ dirAt u sec = { present := true, st := .h, wts := wts, rts := rts }
           ∧ ownersOf u home = (ownersOf s home).filter (· != sec))
       ∧ (∀ k a, (dirAt s sec).st = .t k a →
         ∃ u, taken u ∧ dirAt u sec = { dirAt s sec with present := true, wts := wts, rts := rts } ∧ u.coh.owners = s.coh.owners))
     ∧ (∀ (s : State) (line : Nat),
       let home := homeOf s (line * 256)
       ((∀ x ∈ sectorsOf line, (dirAt s x).st = .h) → (∃ x ∈ sectorsOf line, (dirAt s x).present = true) →
         ∃ u, exec (.l2VictimWriteBack line) s = .next u ∧ u.mem = s.mem ∧ u.coh.writebacks = s.coh.writebacks ++ [line]
           ∧ (∀ x ∈ sectorsOf line, (dirAt u x).st = .t 0 false)
           ∧ mtsOf u home = (sectorsOf line).foldl (fun m x => max m (max (dirAt s x).wts (dirAt s x).rts)) (mtsOf s home))
       ∧ ((∃ x ∈ sectorsOf line, (dirAt s x).st ≠ .h) → exec (.l2VictimWriteBack line) s = .next s))
     ∧ (∀ (s : State) (line : Nat), line ∈ s.coh.writebacks →
       ((∀ x ∈ sectorsOf line, (dirAt s x).queue = []) → ∃ u, exec (.memoryWriteBackAck line) s = .next u ∧ u.mem = s.mem
         ∧ u.coh.writebacks = s.coh.writebacks.erase line ∧ ∀ x ∈ sectorsOf line, dirAt u x = {})
       ∧ (∀ m : MemReq, (dirAt s (line * 4)).queue = [m] → (∀ x ∈ sectorsOf line, x ≠ line * 4 → (dirAt s x).queue = []) → m.kind = .read →
         m.hub = none → m.engine = none → m.post ≠ .again → Roomy s → m.pa / 64 = line * 4 →
         let ts := max m.pts (mtsOf s (homeOf s (line * 256)))
         ∃ u, exec (.memoryWriteBackAck line) s = .next u ∧ u.mem = s.mem
           ∧ u.coh.replies = s.coh.replies ++
               [{ tag := m.tag, act := .regs (postRegs (sectorPart (homeData s (line * 4)) m.pa m.n) m.post) ts, home := some (homeOf s m.pa) }]
           ∧ (dirAt u (line * 4)).rts = ts + m.ll ∧ (dirAt u (line * 4)).wts = mtsOf s (homeOf s (line * 256)))))

/-! ### K-link and PCIe -/

/-- R361 to R366: packets are numbered as they are sent, carrying the last SEQ accepted and a CRC-32C over bytes 0x00 to 0x3B of the header and the
payload, at most 2,047 unacknowledged; a packet is accepted when it has come intact with its CRC, keeps its form and is one past the last, its ACK shortens the replay buffer, and the first that is discarded is answered by a NAK; a NAK, or 4 ticks without
progress, replays the buffer of a port that is UP, and after 8 replays without progress the port retrains instead.
R361, R362, R365 to R367 and R169: training takes the first admitted width and learns the peer's identity; retraining keeps the replay buffer,
less what the peer has accepted, and replays the rest at the new width; without a width, or after 160 ticks, the port goes DOWN, in retraining with
its routes GONE and the access of a strand that awaits a reply over it ended by PEER_GONE, a fault of an access whose checks have passed (R392). A PCIe link that goes down sets the aperture routes
through it GONE, and one that comes up leaves routes as they are.
The parameters of CRC-32C are presumed (log entry 8); that lanes may fail to deliver a packet's bits is log entry 9. -/
def Obligations.LinksCarryPacketsInSequence : Prop :=
  ((∀ (dt : Nat) (x : Port) (p : Packet) (r : List Packet), x.st = 2 → x.tx = p :: r → x.buffer.length < 2047 →
     let q : Packet := withCrc { p with seq := x.nextSeq, ack := x.lastAcc, nak := false }
     let y := x.pump dt 1
     y.wire = x.wire ++ [q] ∧ y.buffer = x.buffer ++ [q] ∧ y.tx = r ∧ y.nextSeq = (x.nextSeq + 1) % 4096)
   ∧ (∀ (dt n : Nat) (x : Port), (x.pump dt n).buffer.length ≤ max 2047 x.buffer.length ∧ (x.st ≠ 2 → x.pump dt n = x))
   ∧ (∀ (p : Packet),
     let header : List Byte := toBytes 1 p.type ++ toBytes 1 p.len ++ toBytes 2 p.seq
       ++ toBytes 2 (p.ack % 2 ^ 15 + if p.nak = true then 2 ^ 15 else 0) ++ toBytes 1 p.aop ++ toBytes 1 p.status ++ toBytes 8 p.addr.toNat
       ++ toBytes 8 p.opnd.toNat ++ toBytes 8 p.cmp.toNat ++ toBytes 4 p.xid ++ toBytes 24 p.rsv
     let shift (c : BitVec 32) (b : Bool) : BitVec 32 := if (c.getLsbD 0 ^^ b) = true then (c >>> 1) ^^^ 0x82F63B78#32 else c >>> 1
     let bits : List Bool := (header ++ p.payload).flatMap fun b => (List.range 8).map b.getLsbD
     withCrc p = { p with crc := (~~~(bits.foldl shift 0xFFFFFFFF#32)).toNat } ∧ header.length = 60)
   ∧ (∀ (s : State) (port : Nat) (p : Packet) (intact : Bool),
     let x := portAt s port
     let fits : Prop := 1 ≤ p.type ∧ p.type ≤ 9 ∧ p.len ≤ 32 ∧ p.payload.length = 64 * p.len ∧ p.seq < 4096 ∧ p.ack < 4096
       ∧ (p.type = 5 → p.aop < 32) ∧ (p.type ≠ 5 → p.aop = 0) ∧ (p.status = 0 ∨ p.type = 2 ∨ p.type = 4 ∨ p.type = 6 ∨ p.type = 8)
       ∧ (p.cmp = 0 ∨ p.type = 5 ∧ p.aop % 8 = 7) ∧ p.rsv = 0
     let good : Prop := intact = true ∧ p.crc = (withCrc p).crc
     let next : Prop := p.seq = (x.lastAcc + 1) % 4096
     let becomes (y : Port) : Prop := ∃ u, exec (.packetReceive port p intact) s = .next u ∧ portAt u port = y
       ∧ (∀ k, k ≠ port → portAt u k = portAt s k) ∧ u.mem = s.mem
     let link (nak : Bool) : Packet := withCrc { type := 9, seq := 0, ack := x.lastAcc, nak := nak, aop := 0, status := 0, addr := 0, opnd := 0
                                                 cmp := 0, xid := 0, payload := [] }
     let got : Port := { x with lastAcc := p.seq, nakSent := false, owed := true, rx := x.rx ++ [p] }
     (x.st ≠ 2 → exec (.packetReceive port p intact) s = .next s)
     ∧ (x.st = 2 → x.tx = [] →
       (good → fits → p.type ≠ 9 → next → p.nak = false →
         ((∀ q ∈ x.buffer, q.seq ≠ p.ack) → becomes got)
         ∧ (∀ a q b, x.buffer = a ++ q :: b → q.seq = p.ack → (∀ y ∈ a, y.seq ≠ p.ack) →
             becomes { got with buffer := b, replays := 0, ackTick := s.time.dt }))
       ∧ (good → fits → p.type = 9 → becomes { x with rx := x.rx ++ [p] })
       ∧ (¬ good ∨ ¬ fits ∨ (p.type ≠ 9 ∧ ¬ next) →
         (x.nakSent = true → exec (.packetReceive port p intact) s = .next s)
         ∧ (x.nakSent = false → becomes { x with nakSent := true, owed := false, wire := x.wire ++ [link true] }))))
   ∧ (∀ (s : State) (port : Nat) (p : Packet) (rest : List Packet),
     let x := portAt s port
     x.rx = p :: rest → p.type = 9 → x.tx = [] →
     let becomes (y : Port) : Prop := ∃ u, exec (.link port) s = .next u ∧ portAt u port = { y with rx := rest } ∧ u.mem = s.mem
     ((∀ q ∈ x.buffer, q.seq ≠ p.ack) → (p.nak = false ∨ x.buffer = [] ∨ x.st ≠ 2) → becomes x)
     ∧ ((∀ q ∈ x.buffer, q.seq ≠ p.ack) → p.nak = true → x.buffer ≠ [] → x.st = 2 →
         (x.replays < 8 → becomes { x with wire := x.wire ++ x.buffer, replays := x.replays + 1, ackTick := s.time.dt })
         ∧ (8 ≤ x.replays → becomes { x with st := 3, since := s.time.dt }))
     ∧ (∀ a q b, x.buffer = a ++ q :: b → q.seq = p.ack → (∀ y ∈ a, y.seq ≠ p.ack) →
         ((p.nak = false ∨ b = [] ∨ x.st ≠ 2) → becomes { x with buffer := b, replays := 0, ackTick := s.time.dt })
         ∧ (p.nak = true → b ≠ [] → x.st = 2 → becomes { x with buffer := b, wire := x.wire ++ b, replays := 1, ackTick := s.time.dt })))
   ∧ (∀ (s : State) (port : Nat),
     let x := portAt s port
     let becomes (i : Instr) (y : Port) : Prop := ∃ u, exec i s = .next u ∧ portAt u port = y ∧ u.mem = s.mem
       ∧ ∀ k, k ≠ port → portAt u k = portAt s k
     let ack : Packet := withCrc { type := 9, seq := 0, ack := x.lastAcc, nak := false, aop := 0, status := 0, addr := 0, opnd := 0, cmp := 0
                                   xid := 0, payload := [] }
     (x.st = 2 → x.owed = true → x.tx = [] → becomes (.ackIdleTimeout port) { x with owed := false, wire := x.wire ++ [ack] })
     ∧ ((x.st ≠ 2 ∨ x.owed = false) → exec (.ackIdleTimeout port) s = .next s)
     ∧ (x.st = 2 → x.buffer ≠ [] → x.tx = [] → x.ackTick + 4 ≤ s.time.dt →
         (x.replays < 8 → becomes (.linkReplayTimeout port)
           { x with wire := x.wire ++ x.buffer, replays := x.replays + 1, ackTick := s.time.dt })
         ∧ (8 ≤ x.replays → becomes (.linkReplayTimeout port) { x with st := 3, since := s.time.dt }))
     ∧ ((x.st ≠ 2 ∨ x.buffer = [] ∨ s.time.dt < x.ackTick + 4) → exec (.linkReplayTimeout port) s = .next s)
     ∧ (∀ lane, x.st ≠ 0 → lane < 16 → lane ∉ x.lanes → x.tx = [] →
         let y : Port := { x with lanes := x.lanes ++ [lane] }
         becomes (.laneFail port lane) (if x.st = 2 then { y with st := 3, since := s.time.dt } else y))
     ∧ (∀ lane, (x.st = 0 ∨ 16 ≤ lane ∨ lane ∈ x.lanes) → exec (.laneFail port lane) s = .next s)))
  ∧ ((∀ (s : State) (port peerFailed peerAck : Nat) (peerId : Word),
       let x := portAt s port
       let i : Instr := .widthAgreed port peerFailed peerAck peerId
       let sets : List (Nat × Nat) := [(16, 0), (8, 0), (8, 8), (4, 0), (4, 4), (4, 8), (4, 12)]
       let clean (w : Nat × Nat) : Prop := ∀ l, w.2 ≤ l → l < w.2 + w.1 → l ∉ x.lanes ∧ peerFailed.testBit l = false
       let becomes (y : Port) : Prop := ∃ u, exec i s = .next u ∧ portAt u port = y ∧ u.mem = s.mem
       ((x.st ≠ 1 ∧ x.st ≠ 3 ∨ x.since + 160 < s.time.dt) → exec i s = .next s)
       ∧ (s.time.dt ≤ x.since + 160 → ∀ a w b, sets = a ++ w :: b → clean w → (∀ y ∈ a, ¬ clean y) →
         (x.st = 1 → becomes { x with st := 2, width := w.1, base := w.2, peerId := peerId, nextSeq := 0, lastAcc := 0xFFF, nakSent := false,
                                      buffer := [], tx := [], rx := [], wire := [], owed := false, replays := 0, ackTick := s.time.dt, pos := 0, got := [] })
         ∧ (x.st = 3 → x.tx = [] →
           let up : Port := { x with st := 2, width := w.1, base := w.2, replays := 0, ackTick := s.time.dt }
           ((∀ q ∈ x.buffer, q.seq ≠ peerAck) → becomes { up with wire := x.wire ++ x.buffer })
           ∧ (∀ c q d, x.buffer = c ++ q :: d → q.seq = peerAck → (∀ y ∈ c, y.seq ≠ peerAck) →
               becomes { up with buffer := d, wire := x.wire ++ d })))
       ∧ (s.time.dt ≤ x.since + 160 → (∀ y ∈ sets, ¬ clean y) → x.st = 1 → becomes { x with st := 0 })
       ∧ (s.time.dt ≤ x.since + 160 → (∀ y ∈ sets, ¬ clean y) → x.st = 3 → ∃ u, exec i s = .next u ∧ (portAt u port).st = 0))
     ∧ (∀ (s : State) (port : Nat),
       let x := portAt s port
       let i : Instr := .trainingTimeout port
       (s.time.dt < x.since + 160 → exec i s = .next s)
       ∧ (x.since + 160 ≤ s.time.dt → x.st = 1 → ∃ u, exec i s = .next u ∧ portAt u port = { x with st := 0 } ∧ u.hold = s.hold)
       ∧ (x.since + 160 ≤ s.time.dt → x.st = 3 → (∀ e ∈ s.hold.routes, e.2.peer = port + 1 → e.2.waiting = []) →
           (∀ k, k < 256 → remoteRun s k port = none) →
         ∃ u, exec i s = .next u ∧ (portAt u port).st = 0 ∧ (portAt u port).buffer = [] ∧ (portAt u port).tx = [] ∧ u.mem = s.mem
           ∧ (∀ key, (tget {} u.hold.routes key).gone =
               ((tget {} s.hold.routes key).gone || (tget {} s.hold.routes key).peer == port + 1))
           ∧ (∀ t ∈ u.link.trans, t.port ≠ port)
           ∧ ((∀ t ∈ s.link.trans, t.port ≠ port) → u.coh.replies = s.coh.replies)
           ∧ ∀ t v, s.link.trans.filter (fun t => t.port == port) = [t] → t.cluster = none → tagged s t.tag = some v →
               u.coh.replies = s.coh.replies ++
                 [{ tag := t.tag, act := .exc { cause := .peerGone, step := 7, info0 := t.route, detail := postDetail t.post } }]))
     ∧ (∀ (s : State) (p : Nat),
       (∃ u, exec (.pcieLinkDown p) s = .next u ∧ tget false u.link.pcie p = false ∧ u.mem = s.mem
         ∧ (∀ k, k ≠ p → tget false u.link.pcie k = tget false s.link.pcie k)
         ∧ ∀ key, tget {} u.hold.routes key = (let r := tget {} s.hold.routes key
             if r.dtype = 2 ∧ r.peer = 9 + p then { r with gone := true } else r))
       ∧ (p ≤ 6 → ∃ u, exec (.pcieLinkUp p) s = .next u ∧ tget false u.link.pcie p = true ∧ u.hold = s.hold ∧ u.mem = s.mem
         ∧ ∀ k, k ≠ p → tget false u.link.pcie k = tget false s.link.pcie k)
       ∧ (6 < p → exec (.pcieLinkUp p) s = .next s)))

/-- R61, R363, R367, R368, R391 and R159: the next request of a port is performed under its import context, as a cluster engine's access at the
port's ETS, which moves with it: a WRITE is answered by WDONE, a READ by RDATA with its bytes, an AMO by AMODATA with the old value, and an MSG is
delivered, or answered by DROP when its ADDR has neither form. With no import context, or one that has lapsed, the reply carries the cause, as it
does for a READ of no admitted size.
R363, R368, R65, R169 and R172: a reply ends the transaction of its XID, giving the strand its bytes or the trap of its STATUS, and leaves its PTS;
a reply to none is dropped; a DROP sets GONE at the route of its message, returns the credit and answers the SENDs that wait; a PCIe completion gives
its data, or PROTECTION.
The answer to a request that no rule names is inferred (log entry 32), as are a WRITE's byte count in OPND and what fills a last flit (log entry 49). -/
def Obligations.PeersAreServedAndAnswered : Prop :=
  (∀ (s : State) (port : Nat) (p : Packet) (rest : List Packet),
     let x := portAt s port
     let id := (importWho s port).id
     x.rx = p :: rest → x.st = 2 → x.tx = [] → x.buffer.length < 2047 → x.pos = 0 → x.got = [] →
     (∀ e ∈ s.coh.served, e.engine ≠ id) → engineQueued s id = false →
     let h := x.import_
     let i : Instr := if p.type = 1 then .write port else if p.type = 3 then .read port else if p.type = 5 then .amoPacket port else .msg port
     let replies (u : State) (type status : Nat) (bytes : List Byte) : Prop := exec i s = .next u ∧ (portAt u port).rx = rest
       ∧ (portAt u port).wire = x.wire ++ [withCrc {
           type := type, seq := x.nextSeq, ack := x.lastAcc, nak := false, aop := 0, status := status, addr := 0
           opnd := 0, cmp := 0, xid := p.xid, len := (bytes.length + 63) / 64
           payload := bytes ++ List.replicate ((64 - bytes.length % 64) % 64) 0 }]
     let plain (u : State) : Prop := u.mem = s.mem ∧ (∀ k, dirAt u k = dirAt s k) ∧ u.coh.replies = s.coh.replies ∧ u.hold = s.hold
     ((p.type = 1 ∨ p.type = 3 ∨ p.type = 5 ∨ p.type = 7) →
       let answer := p.type + 1
       (h = 0 → ∃ u, replies u answer 6 [] ∧ plain u) ∧ (h ≠ 0 → liveHandle s h = false → ∃ u, replies u answer 7 [] ∧ plain u))
     ∧ (h ≠ 0 → liveHandle s h = true →
       (p.type = 3 → (p.opnd.toNat = 0 ∨ 2048 < p.opnd.toNat) → ∃ u, replies u 4 3 [] ∧ plain u)
       ∧ ((p.type = 1 ∨ p.type = 3 ∨ p.type = 5) →
         let bytes := if p.opnd = 0 ∨ p.payload.length < p.opnd.toNat then p.payload else p.payload.take p.opnd.toNat
         let n := if p.type = 1 then bytes.length else if p.type = 3 then p.opnd.toNat else if p.aop / 16 % 2 = 1 then 8 else 4
         ∀ e : Tlb, n ∈ [1, 2, 4, 8, 16, 32, 64] → p.addr.toNat % n = 0 → p.addr.toNat < 0x00FF000000000000 →
           tlbFind s (portHolder port) h 4096 p.addr.toNat = some e → e.pte.nc = false →
           (p.type ≠ 1 → e.pte.rd = true) → (p.type ≠ 3 → e.pte.wr = true) →
           let pa := e.pte.pn * 65536 + p.addr.toNat % (if e.large then 2 ^ 21 else 65536)
           let sec := pa / 64
           let d := filled s sec
           let old := sectorPart (homeData s sec) pa n
           paOk s pa = true → homeUp s pa = true → Roomy s → s.coh.failed = [] → hasNoticed s (homeOf s pa) e.range = false →
           (dirAt s sec).st = .h →
           let w := max x.ets (d.rts + 1)
           (p.type = 1 → ∃ u, replies u 2 0 [] ∧ u.mem = memWrite s.mem pa n (ofBytes bytes) ∧ (portAt u port).ets = w
             ∧ dirAt u sec = { d with wts := w, rts := w })
           ∧ (p.type = 3 → ∃ u, replies u 4 0 (toBytes n old) ∧ u.mem = s.mem ∧ (portAt u port).ets = max x.ets d.wts
             ∧ dirAt u sec = { d with rts := max d.rts (max x.ets d.wts + 8) })
           ∧ (∀ op, p.type = 5 → [AmoOp.add, .and, .or, .xor, .min, .max, .swap, .cas][p.aop % 8]? = some op →
             ∃ u, replies u 6 0 (toBytes n old)
               ∧ u.mem = memWrite s.mem pa n (amoValue op (p.aop / 8 % 2 == 1) n old (p.opnd.toNat % 256 ^ n) (p.cmp.toNat % 256 ^ n))
               ∧ (portAt u port).ets = w ∧ dirAt u sec = { d with wts := w, rts := w }))
       ∧ (p.type = 7 →
         let m : Msg := { bytes := BitVec.ofNat 256 (ofBytes p.payload), ts := 0, route := importRoute port p.xid }
         let tag := tagOf (p.addr.toNat % 2 ^ 32)
         let q := evqAt s (hKey p.addr)
         let took (u : State) : Prop := exec (.msg port) s = .next u ∧ (portAt u port).rx = rest ∧ u.mem = s.mem
         (hKind p.addr = 7 → liveHandle s p.addr = true → q.waiting = [] → q.blocked = [] → q.parked = [] → q.recs.length < q.cap →
           ∃ u, took u ∧ evqAt u (hKey p.addr) = { q with recs := q.recs ++ [m] })
         ∧ (hKind p.addr = 7 → liveHandle s p.addr = false → ∃ u, took u ∧ u.hold.drops = s.hold.drops ++ [m.route] ∧ u.hold.evqs = s.hold.evqs)
         ∧ (∀ v, hKind p.addr = 15 → p.addr.toNat / 2 ^ 32 % 2 ^ 28 = 0 → tagged s tag = some v → (tget [] s.core.chan tag.core).length < 64 →
           tget [] s.core.chanWait tag.core = [] → ∃ u, took u
             ∧ tget [] u.core.chan tag.core = tget [] s.core.chan tag.core ++ [{ m with dtag := p.addr.toNat % 2 ^ 32 }])
         ∧ (hKind p.addr ≠ 7 → (hKind p.addr ≠ 15 ∨ p.addr.toNat / 2 ^ 32 % 2 ^ 28 ≠ 0) → ∃ u, replies u 8 0 [] ∧ plain u))))
  ∧ ((∀ (s : State) (port type : Nat) (i : Instr) (p : Packet) (rest : List Packet), (i, type) ∈ [(Instr.wdone port, 2), (.rdata port, 4), (.amodata port, 6)] →
       (portAt s port).rx = p :: rest → p.type = type →
       let took (u : State) : Prop := exec i s = .next u ∧ (portAt u port).rx = rest ∧ u.mem = s.mem
       (∀ t v, transOf s port p.xid = some t → t.cluster = none → tagged s t.tag = some v →
         ∃ u, took u ∧ (∀ y ∈ u.link.trans, ¬ (y.port = t.port ∧ y.xid = t.xid))
           ∧ (p.status = 0 → u.coh.replies = s.coh.replies ++ [{ tag := t.tag, act := .regs (postRegs (ofBytes (p.payload.take t.n)) t.post) v.ctx.pts }])
           ∧ (∀ c, p.status ≠ 0 → causeOf? p.status = some c →
               u.coh.replies = s.coh.replies ++ [{ tag := t.tag, act := .exc {
                 cause := c, step := if c = .softError then 7 else 8, info0 := t.ptr, detail := postDetail t.post } }]))
       ∧ (transOf s port p.xid = none → (∀ k, k < 256 → remoteRun s k port = none) → ∃ u, took u ∧ u.coh = s.coh ∧ u.link.trans = s.link.trans))
     ∧ (∀ (s : State) (port : Nat) (p : Packet) (rest : List Packet) (h : Word), (portAt s port).rx = p :: rest → p.type = 8 →
       s.link.sent.find? (fun e => e.1 == port && e.2.1 == p.xid) = some (port, p.xid, h) → (lifeOf s (hKey h)).gen = hGen h →
       let r := routeAt s h
       ∃ u, exec (.drop port) s = .next u ∧ (portAt u port).rx = rest ∧ u.mem = s.mem
         ∧ routeAt u h = { r with gone := true, credits := min 8 (r.credits + 1), waiting := [] }
         ∧ u.coh.replies = s.coh.replies ++ r.waiting.map fun w =>
             ({ tag := w.tag, act := .exc { cause := .peerGone, info0 := h, detail := 8 } } : Reply))
     ∧ (∀ (s : State) (n status : Nat) (data : Word) (b : Bus) (t : Trans) (v : Strand), s.link.bus[n]? = some b →
       s.link.trans.find? (fun t => decide (16 ≤ t.port) && t.xid == b.xid) = some t → t.cluster = none → tagged s t.tag = some v →
       let value := match b.op with
         | .read k => data.toNat % 256 ^ k
         | .write _ _ => 0
         | .atomic _ k _ _ => data.toNat % 256 ^ k
       ∃ u, exec (.apertureCompletion n status data) s = .next u ∧ u.link.bus = s.link.bus.eraseIdx n ∧ u.mem = s.mem
         ∧ (status = 0 → u.coh.replies = s.coh.replies ++ [{ tag := t.tag, act := .regs (postRegs value t.post) v.ctx.pts }])
         ∧ (status ≠ 0 → u.coh.replies = s.coh.replies ++
             [{ tag := t.tag, act := .exc { cause := .protection, step := 7, info0 := t.ptr, detail := postDetail t.post } }])))

/-! ### The command window, readings and records -/

/-- R370 to R372 and R381: the host writes CQTAIL, APPRUN's low 16 bits, and CQBASE and CQSIZE while no entry waits. Firmware takes the entry at
CQHEAD: another command's entry is left; FLAGS it does not assign give BADCMD and a phase that does not take it NOTREADY, with nothing done but the
entry's STATUS, RES and RESLEN written and CQHEAD advanced. The host reads each register of the window, WVER as 0x00010000, and 0 elsewhere.
R373, R383, R384 and R386: STATUS returns the page asked for: the device's state with its readiness codes, a cluster's service counters, a die's
prefetcher in test mode, the cores' codes. SUMMARY with FLAGS[0] takes a snapshot that lists every holding, instance, context, port, sensor, held
fatal record and strand parked on a lapsed trap queue, numbers it, and
serves entries from ARG1 on; without it, it serves the last for 2^20 ticks, after which it expires.
R387 to R389: SENSORS returns 197 records of 16 bytes, THERMTAB the four records or, written within their limits, their new values, and ATTEST a
report over the nonce, signed.
The order of a command's checks and what its pages leave open are the model's choice (log entry 39); counters of cycles read as free values (log entry 15). -/
def Obligations.CommandsReportTheDevice : Prop :=
  ((∀ (s : State) (v : Word) (off : Nat),
     exec (.cqtailDoorbell v) s = .next { s with hub.cqtail := v.toNat }
     ∧ exec (.apprun v) s = .next { s with hub.apprun := v.extractLsb' 0 16 }
     ∧ (s.hub.cqhead ≠ s.hub.cqtail → exec (.registerWrite off v) s = .next s)
     ∧ (s.hub.cqhead = s.hub.cqtail →
       exec (.registerWrite 0x0008 v) s = .next { s with hub.cqbase := v }
       ∧ exec (.registerWrite 0x0010 v) s = .next { s with hub.cqsize := v.toNat }
       ∧ (off ≠ 0x0008 → off ≠ 0x0010 → exec (.registerWrite off v) s = .next s)))
   ∧ (∀ (s : State) (off : Nat) (rest : List Act), due s = none → s.agenda = .readBar0 off :: rest →
     let v : Nat := if off = 0x0000 then 0x00010000 else if off = 0x0008 then s.hub.cqbase.toNat else if off = 0x0010 then s.hub.cqsize
       else if off = 0x0018 then s.hub.cqtail else if off = 0x0020 then s.hub.cqhead else if off = 0x0028 then s.hub.fw
       else if off = 0x0030 then s.hub.apprun.toNat else 0
     step s = .next { s with agenda := rest, hub.barOut := s.hub.barOut ++ [(off, v)] })
   ∧ (∀ (s : State) (i : Instr) (opc : Nat) (assigned : Nat → Prop), (i, opc, assigned) ∈ ([(.status, 0x01, (· = 0)), (.summary, 0x02, (· < 2)),
       (.grantctx, 0x03, (· = 0)), (.renewctx, 0x04, (· = 0)), (.loadovl, 0x05, (· = 0)), (.hostLaunch, 0x06, (· = 0)),
       (.hostCancel, 0x07, (· = 0)), (.checkpoint, 0x08, (· < 2)), (.restore, 0x09, (· = 0)), (.attest, 0x0A, (· = 0)),
       (.sensors, 0x0B, (· = 0)), (.reset, 0x0E, (· = 0))] : List (Instr × Nat × (Nat → Prop))) →
     let fw := s.hub.fw
     let taken : Prop := fw = 4 ∨ fw = 5 ∨ (fw ≠ 0 ∧ (opc = 0x01 ∨ opc = 0x0E)) ∨ ((fw = 2 ∨ fw = 3 ∨ (6 ≤ fw ∧ s.hub.identified = true)) ∧ opc = 0x0A)
     ((s.hub.cqhead = s.hub.cqtail ∨ cmdField s 0 1 ≠ opc) → exec i s = .next s)
     ∧ (s.hub.cqhead ≠ s.hub.cqtail → cmdField s 0 1 = opc → cmdBufLen s = 0 →
       (¬ assigned (cmdFlags s) → CommandEnds i s 1 0 [] (OnlyEntry s)) ∧ (assigned (cmdFlags s) → ¬ taken → CommandEnds i s 7 0 [] (OnlyEntry s)))))
  ∧ ((∀ (s : State) (opc : Nat), opc = 0x01 → Command s opc 0 →
       let page := (cmdArg s 0).toNat
       let i := (cmdArg s 1).toNat
       (page = 0 → 256 ≤ cmdBufLen s → ∃ bs : List Byte, bs.length = 256 ∧ CommandEnds .status s 0 0 bs (fun u => u.core = s.core ∧ u.hold = s.hold)
         ∧ (let f (off n : Nat) : Nat := ofBytes ((bs.drop off).take n)
            f 0x00 8 = s.time.dt % 2 ^ 64 ∧ f 0x08 4 = Config.firmwareVersion.toNat ∧ f 0x0C 1 = s.hub.fw % 256
            ∧ f 0x0D 1 = (if s.hub.testMode then 1 else 0) ∧ f 0x10 8 = (identity s).toNat ∧ f 0x18 8 = serial
            ∧ f 0x20 4 = codes s ((List.range 12).map (3000 + ·)) % 2 ^ 32 ∧ f 0x24 4 = codes s ((List.range 4).map kTree) % 2 ^ 32
            ∧ f 0x28 16 = codes s sliceIds % 2 ^ 128
            ∧ (∀ p, p < 8 → f (0x70 + p) 1 = portByte s p % 256 ∧ f (0x78 + 2 * p) 2 = laneMask s p % 2 ^ 16)))
       ∧ (page = 1 → i < 192 → 256 ≤ cmdBufLen s → ∃ bs : List Byte, bs.length = 256 ∧ CommandEnds .status s 0 0 bs (fun u => u.core = s.core ∧ u.eng = s.eng)
         ∧ ∀ j, 20 ≤ j → j < 24 →
             ofBytes ((bs.drop (8 * j)).take 8) = tget 0 s.eng.svc (clusterNo (i / 48) (i % 48) * 32 + j) % 2 ^ 64)
       ∧ (page = 2 → s.hub.testMode = true → i < 4 → 40 ≤ cmdBufLen s → ∃ bs : List Byte, bs.length = 40 ∧ CommandEnds .status s 0 0 bs (OnlyEntry s)
         ∧ ∀ j, j < 5 → ofBytes ((bs.drop (8 * j)).take 8) = tget 0 s.page.pref (i * 8 + j) % 2 ^ 64)
       ∧ (page = 3 → 192 ≤ cmdBufLen s → ∃ bs : List Byte, bs.length = 192 ∧ CommandEnds .status s 0 0 bs (OnlyEntry s)
         ∧ ofBytes bs = codes s coreIds % 2 ^ 1536)
       ∧ ((page = 1 ∧ 192 ≤ i ∨ page = 2 ∧ (s.hub.testMode = false ∨ 4 ≤ i) ∨ 4 ≤ page) → CommandEnds .status s 2 0 [] (OnlyEntry s)))
     ∧ (∀ (s : State), Command s 0x02 1 →
       ∃ (bs : List Byte) (res : Word), CommandEnds .summary s 0 res bs fun u =>
         u.hub.snapNum = s.hub.snapNum + 1 ∧ u.hub.snapAt = some s.time.dt ∧ u.hold.lives = s.hold.lives
           ∧ res.toNat = ((s.hub.snapNum + 1) % 2 ^ 32 * 2 ^ 32 + u.hub.snap.length) % 2 ^ 64
           ∧ bs = ((u.hub.snap.drop (cmdArg s 1).toNat).flatMap fun e => toBytes 64 e.toNat).take (cmdBufLen s / 64 * 64)
           ∧ (∀ k x, (k, x) ∈ s.hold.lives → k / 2 ^ 44 ≠ 3 → (x.st = 1 ∨ x.st = 2) → ∃ e ∈ u.hub.snap, e.extractLsb' 0 8 = 1
               ∧ e.extractLsb' 8 8 = BitVec.ofNat 8 x.st ∧ e.extractLsb' 64 64 = curHandle s k ∧ e.extractLsb' 128 64 = BitVec.ofNat 64 x.expiry
               ∧ e.extractLsb' 192 64 = x.owner)
           ∧ (∀ k x, (k, x) ∈ s.hold.lives → k / 2 ^ 44 = 3 → (x.st = 1 ∨ x.st = 2) → ∃ e ∈ u.hub.snap, e.extractLsb' 0 8 = 3
               ∧ e.extractLsb' 64 64 = curHandle s k)
           ∧ (∀ n l, (n, l) ∈ s.work.launches → l.st ≠ 0 → ∃ e ∈ u.hub.snap, e.extractLsb' 0 8 = 2 ∧ e.extractLsb' 64 64 = instanceName 0 n
               ∧ e.extractLsb' 128 64 = BitVec.ofNat 64 l.out ∧ e.extractLsb' 192 64 = l.ctxh)
           ∧ (∀ n x, (n, x) ∈ s.work.counters → x.st ≠ 0 → ∃ e ∈ u.hub.snap, e.extractLsb' 0 8 = 2 ∧ e.extractLsb' 8 8 = BitVec.ofNat 8 x.st
               ∧ e.extractLsb' 64 64 = instanceName x.level (n * 16384 + x.gen) ∧ e.extractLsb' 128 64 = BitVec.ofNat 64 x.out
               ∧ e.extractLsb' 192 64 = x.ctxh ∧ e.extractLsb' 256 256 = if x.killed then 1 else 0)
           ∧ (∀ p, p < 8 → ∃ e ∈ u.hub.snap, e.extractLsb' 0 8 = 4 ∧ e.extractLsb' 8 8 = BitVec.ofNat 8 (portByte s p)
               ∧ e.extractLsb' 64 64 = (portAt s p).peerId ∧ e.extractLsb' 128 64 = BitVec.ofNat 64 (laneMask s p))
           ∧ (∀ i, i < 197 → ∃ e ∈ u.hub.snap, e.extractLsb' 0 8 = 5 ∧ e.extractLsb' 64 64 = BitVec.ofNat 64 i
               ∧ e.extractLsb' 128 64 = BitVec.ofInt 64 (usedValue s i))
           ∧ (∀ c rs r, (c, rs) ∈ s.core.held → r ∈ rs → r.fatal = true → ∃ e ∈ u.hub.snap, e.extractLsb' 0 8 = 6
               ∧ e.extractLsb' 64 64 = BitVec.ofNat 64 c ∧ e.extractLsb' 128 64 = r.ctxh ∧ e.extractLsb' 256 256 = r.bytes)
           ∧ (∀ k t, (k, t) ∈ s.core.slots → t.st = 5 → liveHandle s (launchAt s t.record.launch.toNat).tq = false → ∃ e ∈ u.hub.snap,
               e.extractLsb' 0 8 = 7 ∧ e.extractLsb' 128 64 = t.ctxh ∧ e.extractLsb' 192 64 = BitVec.ofNat 64 t.lastCause
               ∧ e.extractLsb' 64 64 = BitVec.ofNat 64 (tagBits { core := k / 16, slot := k % 16, gen := slotGenOf s (k / 16) (k % 16) })))
     ∧ (∀ (s : State), Command s 0x02 0 →
       ((∃ t, s.hub.snapAt = some t ∧ s.time.dt < t + 2 ^ 20) → ∃ (bs : List Byte) (res : Word), CommandEnds .summary s 0 res bs (OnlyEntry s)
         ∧ bs = ((s.hub.snap.drop (cmdArg s 1).toNat).flatMap fun e => toBytes 64 e.toNat).take (cmdBufLen s / 64 * 64))
       ∧ ((s.hub.snapAt = none ∨ ∃ t, s.hub.snapAt = some t ∧ t + 2 ^ 20 ≤ s.time.dt) → CommandEnds .summary s 2 0 [] (OnlyEntry s)))
     ∧ (∀ (s : State) (t : Nat), s.hub.snapAt = some t →
       (t + 2 ^ 20 ≤ s.time.dt → exec .snapshotExpiry s = .next { s with hub.snap := [], hub.snapAt := none })
       ∧ (s.time.dt < t + 2 ^ 20 → exec .snapshotExpiry s = .next s)))
  ∧ ((∀ (s : State), Command s 0x0B 0 → 3152 ≤ cmdBufLen s → ∃ bs : List Byte, bs.length = 3152 ∧ CommandEnds .sensors s 0 197 bs (OnlyEntry s)
       ∧ ∀ id, id < 197 →
         let f (off n : Nat) : Nat := ofBytes ((bs.drop (16 * id + off)).take n)
         let x : Sensor := tget {} s.hub.sensors id
         f 0 2 = id ∧ f 2 1 = (if id < 192 then 0 else 1) ∧ f 3 1 = x.flags % 256 ∧ f 4 4 = (BitVec.ofInt 32 x.raw).toNat
           ∧ f 8 4 = (BitVec.ofInt 32 (usedValue s id)).toNat ∧ f 12 4 = 0)
     ∧ (∀ (s : State), Command s 0x0C 0 → 64 ≤ cmdBufLen s → ∃ bs : List Byte, bs.length = 64 ∧ CommandEnds .thermtabRead s 0 0 bs (OnlyEntry s)
       ∧ ∀ d : Fin 4,
         let f (off n : Nat) : Nat := ofBytes ((bs.drop (16 * d.val + off)).take n)
         let t := s.hub.therm[d.val]
         f 0 1 = t.amber % 256 ∧ f 1 1 = t.crimson % 256 ∧ f 4 2 = t.budget % 65536 ∧ f 6 2 = t.ocl % 65536)
     ∧ (∀ (s : State), Command s 0x0C 1 →
       let f (d off n : Nat) : Nat := memRead s.mem (cmdBuf s + 16 * d + off) n
       let good (d : Nat) : Prop := 60 ≤ f d 0 1 ∧ f d 0 1 + 6 ≤ f d 1 1 ∧ f d 1 1 ≤ 110 ∧ 200 ≤ f d 4 2 ∧ f d 4 2 ≤ 1000 ∧ 100 ≤ f d 6 2
         ∧ f d 6 2 ≤ 2000 ∧ f d 2 2 = 0 ∧ f d 8 8 = 0
       let admitted : Prop := 64 ≤ cmdBufLen s ∧ (∀ d, d < 4 → good d) ∧ f 0 4 2 + f 1 4 2 + f 2 4 2 + f 3 4 2 ≤ 3000
       (admitted → CommandEnds .thermtabWrite s 0 0 [] fun u => ∀ d : Fin 4,
         u.hub.therm[d.val] = { amber := f d.val 0 1, crimson := f d.val 1 1, budget := f d.val 4 2, ocl := f d.val 6 2 })
       ∧ (¬ admitted → CommandEnds .thermtabWrite s 2 0 [] (OnlyEntry s)))
     ∧ (∀ (s : State), Command s 0x0A 0 →
       (cmdBufLen s < 1280 → CommandEnds .attest s 2 0 [] (OnlyEntry s))
       ∧ (1280 ≤ cmdBufLen s → ∃ bs : List Byte, bs.length = 1280 ∧ CommandEnds .attest s 0 0 bs (OnlyEntry s)
         ∧ bs.take 4 = toBytes 4 0x54414B5A ∧ (bs.drop 8).take 8 = toBytes 8 (identity s).toNat
         ∧ (bs.drop 16).take 8 = toBytes 8 s.time.dt
         ∧ (bs.drop 32).take 64 = toBytes 64 Config.romDigest.toNat ∧ (bs.drop 96).take 64 = toBytes 64 (recordField 0x98 64)
         ∧ (bs.drop 160).take 64 = memBytes s.mem (cmdBuf s) 64
         ∧ (bs.drop 256).take 512 = toBytes 512 Config.modulus.toNat
         ∧ bs.drop 768 = toBytes 512 (Config.sign (digest (bs.take 768))).toNat)))

/-! ### Contexts, bundles and ports -/

/-- R31, R372, R374, R375 and R391: GRANTCTX issues an entry of the slice named, or of the lowest READY one that has one, which owns itself, and is
NOTREADY while no slice is; RENEWCTX renews a LIVE
context; LOADOVL takes a bundle that verifies, keeps its code and numbers it; LINKCFG binds the import context and takes the port down, or trains it,
from UP or RETRAIN at full width with the failed-lane marks cleared, and ends when it has left TRAINING or RETRAIN.
That the entry and the bundle's number are the lowest free ones is the model's choice (log entries 7 and 39), as are where a bundle's images are kept
(log entry 22) and the order of a command's checks (log entry 39). -/
def Obligations.ContextsBundlesAndPortsAreSet : Prop :=
  (∀ (s : State), Command s 0x03 0 →
    let term := (cmdArg s 0).toNat
    let home := (cmdArg s 1).toNat
    let issues (key : Nat) : Prop :=
      let h := mkHandle key (nextGen (lifeOf s key).gen)
      CommandEnds .grantctx s 0 h [] fun u =>
        lifeOf u key = { st := 1, expiry := s.time.dt + tget 0 s.time.early (keyHome key) + term, gen := nextGen (lifeOf s key).gen, owner := h }
          ∧ ∀ k, k ≠ key → lifeOf u k = lifeOf s k
    (term < 2 ^ 32 → home ≠ 0 → slicePresent s home = true → ∀ key, freeEntry s 3 home = some key → issues key)
    ∧ (term < 2 ^ 32 → home ≠ 0 → slicePresent s home = true → freeEntry s 3 home = none → CommandEnds .grantctx s 3 0 [] (OnlyEntry s))
    ∧ (term < 2 ^ 32 → home = 0 → ∀ a h b key, sliceIds = a ++ h :: b → slicePresent s h = true → freeEntry s 3 h = some key →
        (∀ x ∈ a, slicePresent s x = false ∨ freeEntry s 3 x = none) → issues key)
    ∧ (term < 2 ^ 32 → home = 0 → (∀ x ∈ sliceIds, slicePresent s x = false) → CommandEnds .grantctx s 7 0 [] (OnlyEntry s))
    ∧ (term < 2 ^ 32 → home = 0 → (∃ x ∈ sliceIds, slicePresent s x = true) → (∀ x ∈ sliceIds, slicePresent s x = true → freeEntry s 3 x = none) →
        CommandEnds .grantctx s 3 0 [] (OnlyEntry s))
    ∧ ((2 ^ 32 ≤ term ∨ home ≠ 0 ∧ slicePresent s home = false) → CommandEnds .grantctx s 2 0 [] (OnlyEntry s)))
  ∧ (∀ (s : State), Command s 0x04 0 →
    let h := cmdArg s 0
    let term := (cmdArg s 1).toNat
    let x := s.time.dt + tget 0 s.time.early (hHome h) + term
    let named : Prop := hKind h = 3 ∧ slicePresent s (hHome h) = true ∧ hGen h ≠ 0 ∧ hIndex h < 256
    (named → term < 2 ^ 32 → liveHandle s h = true → CommandEnds .renewctx s 0 (BitVec.ofNat 64 x) [] fun u =>
      lifeOf u (hKey h) = { lifeOf s (hKey h) with expiry := x } ∧ ∀ k, k ≠ hKey h → lifeOf u k = lifeOf s k)
    ∧ (named → term < 2 ^ 32 → liveHandle s h = false → CommandEnds .renewctx s 4 0 [] (OnlyEntry s))
    ∧ ((¬ named ∨ 2 ^ 32 ≤ term) → CommandEnds .renewctx s 2 0 [] (OnlyEntry s)))
  ∧ (∀ (s : State), Command s 0x05 0 →
    let ctxh := cmdArg s 0
    let b := cmdBuf s
    let n := cmdBufLen s
    let f (off k : Nat) : Nat := memRead s.mem (b + off) k
    let sum := BitVec.ofNat 512 (f (n - 576) 64)
    let verified : Prop := sum = digest (memBytes s.mem b (n - 576)) ∧ Config.verify sum (BitVec.ofNat 4096 (f (n - 512) 512)) = true
    let one : OvlEntry := { id := f 64 2, codeLen := f 68 4, codeOff := f 72 8, dataLen := f 80 4, dataOff := f 88 8,
                            zeros := f 66 2 == 0 && f 84 4 == 0 }
    let base := bundleBase s
    let table := hostAt (cmdArg s 2).toNat
    (ctxStatus s ctxh = 0 → (cmdArg s 1).toNat < 2 ^ 32 → (n < 640 ∨ f 8 8 ≠ n) → CommandEnds .loadovl s 2 0 [] (OnlyEntry s))
    ∧ (ctxStatus s ctxh = 0 → (cmdArg s 1).toNat < 2 ^ 32 → 640 ≤ n → f 8 8 = n → ¬ verified → CommandEnds .loadovl s 5 0 [] (OnlyEntry s))
    ∧ (ctxStatus s ctxh ≠ 0 → CommandEnds .loadovl s (ctxStatus s ctxh) 0 [] (OnlyEntry s))
    ∧ (ctxStatus s ctxh = 0 → (cmdArg s 1).toNat < 2 ^ 32 → 640 ≤ n → f 8 8 = n → verified → f 0 4 = 0x424D4C46 → f 4 2 = 1 → f 6 2 = 1 →
        f 16 48 = 0 → one.ok 1 n = true → one.dataLen = 0 → s.work.bundles.length < 2 ^ 20 →
        (table + 16 ≤ cmdAddr s ∨ cmdAddr s + 64 ≤ table) →
        ∀ k, 1 ≤ k → k < 65536 → (∀ x ∈ s.work.bundles, x.ctxh = ctxh → x.number ≠ k) →
          (∀ j, 1 ≤ j → j < k → ∃ x ∈ s.work.bundles, x.ctxh = ctxh ∧ x.number = j) →
        ∃ u, exec .loadovl s = .next u ∧ memRead u.mem (cmdAddr s + 2) 2 = 0 ∧ memRead u.mem (cmdAddr s + 0x38) 8 = k
          ∧ u.work.bundles = s.work.bundles ++ [{ ctxh := ctxh, number := k, base := base, ovls := [(one.id, base + one.codeOff, one.codeLen)] }]
          ∧ memBytes u.mem (base + one.codeOff) one.codeLen = memBytes s.mem (b + one.codeOff) one.codeLen
          ∧ memRead u.mem table 16 = 0 ∧ u.hold = s.hold))
  ∧ (∀ (s : State), s.hub.cqhead ≠ s.hub.cqtail → cmdField s 0 1 = 0x0D → cmdFlags s = 0 → accepts s 0x0D = true → cmdBufLen s = 0 →
    let p := (cmdArg s 0).toNat
    let h := cmdArg s 2
    let x := portAt s p
    let ready : Prop := p < 8 ∧ readyCode s (kLink p) = 2 ∧ (h = 0 ∨ ctxStatus s h = 0)
    (ready → cmdArg s 1 = 0 → ∃ u, exec .linkcfgDown s = .next u ∧ (portAt u p).st = 0 ∧ (portAt u p).import_ = h
      ∧ memRead u.mem (cmdAddr s + 2) 2 = 0 ∧ memRead u.mem (cmdAddr s + 0x38) 8 = 0 ∧ u.hub.cqhead = (s.hub.cqhead + 1) % s.hub.cqsize)
    ∧ (1 < (cmdArg s 1).toNat → CommandEnds .linkcfgDown s 2 0 [] (OnlyEntry s))
    ∧ (ready → cmdArg s 1 = 1 → s.hub.linkWait ≠ some p → x.tx = [] →
      ∃ u, exec .linkcfgTrain s = .next u ∧ u.hub.linkWait = some p ∧ u.hub.cqhead = s.hub.cqhead ∧ u.mem = s.mem
        ∧ (x.st = 0 → portAt u p = { x with st := 1, since := s.time.dt, import_ := h })
        ∧ (x.st = 1 → portAt u p = { x with import_ := h })
        ∧ (2 ≤ x.st → portAt u p = { x with st := 3, lanes := [], since := s.time.dt, import_ := h }))
    ∧ (cmdArg s 1 = 1 → s.hub.linkWait = some p → (x.st = 1 ∨ x.st = 3) → exec .linkcfgTrain s = .next s)
    ∧ (cmdArg s 1 = 1 → s.hub.linkWait = some p → x.st ≠ 1 → x.st ≠ 3 →
        CommandEnds .linkcfgTrain s 0 (BitVec.ofNat 64 (portByte s p)) [] fun u => u.hub.linkWait = none ∧ portAt u p = x)
    ∧ (8 ≤ p → cmdArg s 1 = 1 → s.hub.linkWait ≠ some p → CommandEnds .linkcfgTrain s 2 0 [] (OnlyEntry s)))

/-! ### Launches, cancellation, checkpoints -/

/-- R376 to R378, R302, R305 and R317: the host's LAUNCH with a full descriptor adds a child to its graph, creates a SEALED launch entry with OUT =
UNITS, pushes its start records, and returns its name and the descriptor; BUSY, BADARG, LAPSED and NOSPACE do nothing. CANCEL returns the code of R317, once every unit has acknowledged the tokens. CHECKPOINT stops the
context's launches and runs on, as does RESTORE, with STATUS RUNNING; a CHECKPOINT ends when they have stopped, with a LIVE image range or NOSPACE,
and RESTORE grants each saved range anew with its pages.
The order of the checks and the timestamp of the host's records are the model's choice (log entry 39), as are the form of an image (log entry
21), the entry and the frames that RESTORE takes, the lowest free ones (log entry 7), and what tables take of the reserve (log entry 47). -/
def Obligations.HostLaunchesCancelsAndCheckpoints : Prop :=
  (∀ (s : State), Command s 0x06 0 →
    let ctxh := cmdArg s 0
    let bundle := (cmdArg s 1).toNat
    let home := (cmdArg s 2).toNat
    let b := memRead s.mem (cmdBuf s) 128
    let d (off : Nat) : Nat := descField b off 8
    let h (off : Nat) : Word := BitVec.ofNat 64 (d off)
    let gr := descField b 0x14 4
    let graph := counterAt s gr
    let opened : Prop := counterLive s gr = true ∧ graph.ctxh = ctxh ∧ graph.level = 1 ∧ graph.st = 1
    let live (kind off : Nat) : Prop := checkHandle s [kind] (h off) = .ok () ∧ checkIndex (h off) = .ok () ∧ liveHandle s (h off) = true
    let handles : Prop := (d 0x18 ≠ 0 → live 7 0x18) ∧ live 7 0x20
      ∧ (live 0 0x38 ∧ descField b 0x28 4 * descField b 0x48 4 ≤ (rangeAt s (hKey (h 0x38))).size)
      ∧ (live 0 0x40 ∧ 256 * descField b 0x48 4 ≤ (rangeAt s (hKey (h 0x40))).size)
    let units := descField b 6 2
    let prio := descField b 4 1
    let cores := (List.range 1024).filter fun c => corePresent s c && (descField b 0x50 24).testBit (48 * dieOf c + unitOf c)
    let base (o : Nat) : Nat := (rangeAt s (hKey (h o))).base
    let here : Prop := (∃ x ∈ s.work.bundles, x.number = bundle ∧ x.ctxh = ctxh) ∧ (cmdArg s 3).toNat < 2 ^ 32 ∧ 128 ≤ cmdBufLen s
      ∧ (home = 0 → ∃ h ∈ sliceIds, slicePresent s h = true) ∧ (home ≠ 0 → slicePresent s home = true)
    (ctxStatus s ctxh ≠ 0 → CommandEnds .hostLaunch s (ctxStatus s ctxh) 0 [] (OnlyEntry s))
    ∧ (ctxStatus s ctxh = 0 → (∃ l, s.hub.long = some l ∧ l.ctxh = ctxh) → CommandEnds .hostLaunch s 6 0 [] (OnlyEntry s))
    ∧ (ctxStatus s ctxh = 0 → (∀ l, s.hub.long = some l → l.ctxh ≠ ctxh) →
      ((∀ x ∈ s.work.bundles, x.number ≠ bundle ∨ x.ctxh ≠ ctxh) → CommandEnds .hostLaunch s 2 0 [] (OnlyEntry s))
      ∧ (here → ¬ LaunchFields s b → CommandEnds .hostLaunch s 2 0 [] (OnlyEntry s))
      ∧ (here → LaunchFields s b → gr ≠ 0 → ¬ opened → CommandEnds .hostLaunch s 2 0 [] (OnlyEntry s))
      ∧ (here → LaunchFields s b → gr ≠ 0 → opened → d 0x18 = 0 → (∃ e, checkHandle s [7] (h 0x20) = .error e) → d 0x20 ≠ 0 →
          CommandEnds .hostLaunch s 2 0 [] (OnlyEntry s))
      ∧ (here → LaunchFields s b → gr ≠ 0 → opened → d 0x18 = 0 → checkHandle s [7] (h 0x20) = .ok () → checkIndex (h 0x20) = .ok () →
          liveHandle s (h 0x20) = false → CommandEnds .hostLaunch s 4 0 [] (OnlyEntry s))
      ∧ (here → LaunchFields s b → handles → gr ≠ 0 → opened → freeLaunch s (counterHome gr) = none →
          CommandEnds .hostLaunch s 3 0 [] (OnlyEntry s))
      ∧ (here → LaunchFields s b → handles → gr ≠ 0 → opened → (∀ core ∈ cores, (ringAt s core prio).length + units ≤ 4096) →
        s.core.outside = [] → ∀ n, freeLaunch s (counterHome gr) = some n →
          CommandEnds .hostLaunch s 0 (BitVec.ofNat 64 n) (memBytes s.mem (cmdBuf s) 128) fun u =>
            counterAt u gr = { graph with out := graph.out + 1 }
            ∧ launchAt u n = { st := 2, out := units, ctxh := ctxh, evq := h 0x18, tq := h 0x20, privsz := descField b 0x28 4
                               tl := descField b 0x2C 4, ll := descField b 0x30 1, fused := decide (descField b 5 1 = 1), privb := base 0x38
                               imgb := base 0x40, rgn := descField b 0x48 4, cmask := descField b 0x50 24, graph := gr, phase := graph.parent
                               bundle := bundle }
            ∧ ∀ core, ringAt u core prio = ringAt s core prio ++
                (((List.range units).filter fun i => cores[i % cores.length]? == some core).map fun i =>
                  .record { code := BitVec.ofNat 32 (descField b 0 4), prio := BitVec.ofNat 8 prio, flags := BitVec.ofNat 8 (descField b 5 1)
                            launch := BitVec.ofNat 16 n, frame := BitVec.ofNat 64 (descField b 8 8 + i * descField b 0x10 4), join := 0
                            graph := BitVec.ofNat 32 gr, phase := BitVec.ofNat 32 graph.parent }
                    (localDt s core) (max (ringTsOf s core prio) (tget 0 s.coh.hubPts 16)) none none))))
  ∧ (∀ (s : State), Command s 0x07 0 →
    let ends (code : Word) (P : State → Prop) : Prop := CommandEnds .hostCancel s 0 code [] P
    (s.hub.cancelWait = none →
      ((∃ e, parseName (cmdArg s 0) = .error e) → CommandEnds .hostCancel s 2 0 [] (OnlyEntry s))
      ∧ (∀ level id, parseName (cmdArg s 0) = .ok (level, id) →
        let x := (instanceAt s level id).1
        (x = 0 → ends 3 (OnlyEntry s)) ∧ (x = 3 → ends 2 (OnlyEntry s))
        ∧ (x ≠ 0 → x ≠ 3 →
          (cancelInstance s level id none false = none → ends 0 (OnlyEntry s))
          ∧ (∀ t, cancelInstance s level id none false = some t → cancelTokens s level id false ≠ [] → cancelUnits s ≠ [] →
            exec .hostCancel s = .next { t with hub := { s.hub with cancelWait := some (cancelTokens s level id false) }
                                                time := s.time, sregs := s.sregs, coh.hit := s.coh.hit }))))
    ∧ (∀ ts, s.hub.cancelWait = some ts →
      ((∃ c ∈ s.work.casts, c.token ∈ ts) → exec .hostCancel s = .next s)
      ∧ ((∀ c ∈ s.work.casts, c.token ∉ ts) → ends 1 fun u => u.hub.cancelWait = none ∧ u.work = s.work)))
  ∧ (∀ (s : State) (flags : Nat), flags < 2 → Command s 0x08 flags →
    let ctxh := cmdArg s 0
    let runs : List Nat := (s.work.launches.filter fun e => e.2.ctxh == ctxh && e.2.st != 0 && !e.2.halted).map (·.1)
    (ctxStatus s ctxh ≠ 0 → CommandEnds .checkpoint s (ctxStatus s ctxh) 0 [] (OnlyEntry s))
    ∧ (ctxStatus s ctxh = 0 → (cmdArg s 1).toNat < 2 ^ 32 → s.hub.long ≠ none → CommandEnds .checkpoint s 6 0 [] (OnlyEntry s))
    ∧ (ctxStatus s ctxh = 0 → (cmdArg s 1).toNat < 2 ^ 32 → s.hub.long = none →
      ∃ u, exec .checkpoint s = .next u ∧ memRead u.mem (cmdAddr s + 2) 2 = 0xFFFE ∧ u.hub.cqhead = (s.hub.cqhead + 1) % s.hub.cqsize
        ∧ u.hub.long = some { entry := cmdAddr s, restore := false, ctxh := ctxh, hold := flags == 1, image := 0, term := (cmdArg s 1).toNat,
                              buf := cmdBuf s, buflen := cmdBufLen s, launches := runs }
        ∧ (∀ n ∈ runs, (launchAt u n).halted = true)
        ∧ (∀ n ∈ runs, partition s n ≠ [] → ∃ h ∈ u.work.halts, h.launch = n ∧ h.evq = 0 ∧ h.left = partition s n)))
  ∧ (∀ (s : State), Command s 0x09 0 →
    let ctxh := cmdArg s 0
    let here : Prop := (cmdArg s 2).toNat < 2 ^ 32 ∧ ∃ i, imageOf s (cmdArg s 1) = some i ∧ imageFits s ctxh i = true
    (ctxStatus s ctxh = 0 → ¬ here → CommandEnds .restore s 2 0 [] (OnlyEntry s))
    ∧ (ctxStatus s ctxh = 0 → here → s.hub.long ≠ none → CommandEnds .restore s 6 0 [] (OnlyEntry s))
    ∧ (ctxStatus s ctxh = 0 → here → s.hub.long = none →
      ∃ u, exec .restore s = .next u ∧ memRead u.mem (cmdAddr s + 2) 2 = 0xFFFE ∧ u.hub.cqhead = (s.hub.cqhead + 1) % s.hub.cqsize
        ∧ u.hub.long = some { entry := cmdAddr s, restore := true, ctxh := ctxh, hold := false, image := cmdArg s 1, term := (cmdArg s 2).toNat,
                              buf := cmdBuf s, buflen := cmdBufLen s, launches := [] } ∧ u.work = s.work ∧ u.hold = s.hold))
  ∧ (∀ (s : State) (l : Long), s.hub.long = some l → 2 ^ 66 ≤ l.entry → 2 ^ 66 ≤ l.buf → (l.buf + l.buflen ≤ l.entry ∨ l.entry + 64 ≤ l.buf) →
    let ends (u : State) (status : Nat) (res : Word) (bs : List Byte) : Prop := exec .longCommandEnd s = .next u ∧ u.hub.long = none
      ∧ memRead u.mem (l.entry + 2) 2 = status ∧ memRead u.mem (l.entry + 0x34) 4 = bs.length ∧ memRead u.mem (l.entry + 0x38) 8 = res.toNat
      ∧ memBytes u.mem l.buf bs.length = bs
    (l.restore = false → (∃ h ∈ s.work.halts, h.evq = 0 ∧ h.launch ∈ l.launches) → exec .longCommandEnd s = .next s)
    ∧ (∀ key r, l.restore = false → l.launches = [] → (∀ h ∈ s.work.halts, h.launch ∉ l.launches) → liveRanges s l.ctxh = [(key, r)] →
        rangePtes s l.ctxh r = [] → 8 ≤ l.buflen → l.buflen < 2 ^ 32 →
      (grantRange s l.ctxh (dieOf (hHome l.ctxh)) 65536 l.term false false = none → ∃ u, ends u 3 0 [] ∧ u.hold.images = s.hold.images)
      ∧ (∀ t h base t', grantRange s l.ctxh (dieOf (hHome l.ctxh)) 65536 l.term false false = some (t, h, base) →
          fillFar l.ctxh (hKey h) 1 0 t = some t' →
        ∃ u, ends u 0 h (toBytes 8 (curHandle s key).toNat)
          ∧ u.hold.images = (s.hold.images.filter fun i => i.range != h) ++ [{ range := h, ranges := [{ handle := curHandle s key, rec_ := r, pages := [] }] }]))
    ∧ (∀ i, l.restore = true → (imageOf s l.image = none ∨ imageOf s l.image = some i ∧ imageFits s l.ctxh i = false) →
        ∃ u, ends u 2 0 [] ∧ u.hold = s.hold)
    ∧ (∀ i v x p home key f, l.restore = true → imageOf s l.image = some i → imageFits s l.ctxh i = true → 16 ≤ l.buflen → l.buflen < 2 ^ 32 →
        i.ranges = [{ handle := v, rec_ := x, pages := [p] }] → x.lp = false → p.pte.st = 1 →
        rangeHome s (dieOf (hHome l.ctxh)) = some home → freeEntry s 0 home = some key → allocFrame s (keyHome key) p.pte.far false = some f →
        let h := mkHandle key (nextGen (lifeOf s key).gen)
        ∃ u, ends u 0 1 (toBytes 8 v.toNat ++ toBytes 8 h.toNat)
          ∧ lifeOf u key = { st := 1, expiry := s.time.dt + tget 0 s.time.early (keyHome key) + l.term, gen := nextGen (lifeOf s key).gen
                             owner := l.ctxh }
          ∧ rangeAt u key = { x with fq := 0, faults := 0, drops := 0 }
          ∧ pteAt u l.ctxh (x.base / 65536 + p.page) = { p.pte with st := 1, pn := f, large := false, purge := false }
          ∧ memRead u.mem (f * 65536) 65536 = p.bytes % 256 ^ 65536 ∧ (∀ e ∈ u.hold.noticed, h ∉ e.2)))

/-! ### Bring-up and units -/

/-- R5, R21, R379 to R382, R385 and R390: RESET in mode 0 or 1 and BRING_UP start bring-up anew, with bytes of memory kept; a phase is left when its
condition holds, the configuration record's bits naming what is never started; a function that is STARTING reports; a die's current above OCL in two
samples raises its alarm, and 16 at or below clear it; a core whose arrays report 16 uncorrectable soft errors within 2^20 ticks is FAILED: its strands
end, their units with cause SOFT_ERROR, its records and resume entries go on in ring order to the next READY core of its cluster, accumulator slots
tagged to its strands are parked, and its directory entries go DUSK.
That memory keeps its bytes (log entry 22) and that BRING_UP restarts in service mode (log entry 4) are the model's choices, and what else a core out of service loses is inferred (log entry 40). -/
def Obligations.BringUpRestartsAndUnitsFail : Prop :=
  (∀ (s : State),
    let mode := (cmdArg s 0).toNat
    let anew (u : State) (test : Bool) : Prop := u.time = {} ∧ u.hold = {} ∧ u.core = {} ∧ u.coh = {} ∧ u.page = {} ∧ u.work = {} ∧ u.eng = {}
      ∧ u.census = {} ∧ u.sregs = {} ∧ u.stat = {} ∧ u.hub.fw = 0 ∧ u.hub.testMode = test ∧ u.hub.cqhead = 0 ∧ u.hub.cqtail = 0 ∧ u.hub.cqbase = 0
      ∧ u.hub.cqsize = 0 ∧ u.hub.apprun = 0 ∧ u.hub.ready = [] ∧ u.work.bundles = [] ∧ u.link.ports = []
    (Command s 0x0E 0 → 2 ≤ mode → CommandEnds .reset s 2 0 [] (OnlyEntry s))
    ∧ (Command s 0x0E 0 → mode < 2 → ∃ u, exec .reset s = .next u ∧ anew u (mode == 1) ∧ memRead u.mem (cmdAddr s + 2) 2 = 0
        ∧ ∀ a, ¬ (cmdAddr s ≤ a ∧ a < cmdAddr s + 64) → memByte u.mem a = memByte s.mem a)
    ∧ (∃ u, exec .bringUp s = .next u ∧ anew u false ∧ u.mem = s.mem))
  ∧ (∀ (s : State),
    let go (n : Nat) : Prop := exec .bringupPhase s = .next { s with hub.fw := n }
    (s.hub.fw = 0 → (Config.romMatches = true → go 1) ∧ (Config.romMatches = false → go 15))
    ∧ (s.hub.fw = 1 → (recordVerifies = true → go 2) ∧ (recordVerifies = false → go 15))
    ∧ (s.hub.fw = 2 → ∃ u, exec .bringupPhase s = .next u ∧ u.hub.fw = 3 ∧ u.hub.identified = true ∧ readyCode u (kTree 0) = 1)
    ∧ (s.hub.fw = 3 → readyCode s (kTree 0) ≠ 2 → exec .bringupPhase s = .next s)
    ∧ (s.hub.fw = 3 → readyCode s (kTree 0) = 2 → ∃ u, exec .bringupPhase s = .next u ∧ u.hub.fw = 4
        ∧ (∀ k ∈ allFunctions, readyCode u k =
            if excluded k = true ∨ k < 1024 ∧ unitOf k < 48 ∧ excluded (kCluster (clusterOf k)) = true then readyCode s k else 1)
        ∧ (∀ p, p < 4 → tget 0 u.hub.cxl p = (Config.cxlCapacity p).toNat / 65536) ∧ u.hub.tables = (Config.tableReserve 1).toNat
        ∧ framesOf (Config.spillRegion 0).toNat (Config.spillRegion 1).toNat ∈ u.hub.reserved
        ∧ framesOf (Config.tableReserve 0).toNat (Config.tableReserve 1).toNat ∈ u.hub.reserved)
    ∧ (∀ c, c < 1024 → unitOf c < 48 → excluded c = (recordField 0x38 96).testBit (192 * dieOf c + c % 256))
    ∧ (s.hub.fw = 4 → (∀ k ∈ allFunctions, readyCode s k ≠ 1) → go 5)
    ∧ (s.hub.fw = 4 → (∃ k ∈ allFunctions, readyCode s k = 1) → exec .bringupPhase s = .next s)
    ∧ ((s.hub.fw = 5 ∨ s.hub.fw = 15) → exec .bringupPhase s = .next s)
    ∧ ∀ unit code,
      (readyCode s unit = 1 → (code = 0 ∨ code = 2 ∨ code = 3) → ∃ u, exec (.unitReady unit code) s = .next u ∧ readyCode u unit = code
        ∧ (∀ k, k ≠ unit → readyCode u k = readyCode s k) ∧ u.mem = s.mem ∧ u.core = s.core)
      ∧ (readyCode s unit ≠ 1 → exec (.unitReady unit code) s = .next s))
  ∧ (∀ (s : State) (die : Nat) (amps : Int), die < 4 → (alarmAt s die).seen ≠ some s.time.dt → 0 ≤ amps → amps ≤ 64000 →
    let a := alarmAt s die
    let high : Prop := 16 * ((thermOf s die).ocl : Int) < amps
    ∃ u, exec (.currentSample die amps) s = .next u ∧ (tget ({} : Sensor) u.hub.sensors (192 + die)).raw = amps
      ∧ (high → 1 ≤ a.above → (alarmAt u die).raised = true) ∧ (high → a.above = 0 → (alarmAt u die).raised = a.raised)
      ∧ (high → (alarmAt u die).above = min 2 (a.above + 1) ∧ (alarmAt u die).below = 0)
      ∧ (¬ high → 15 ≤ a.below → (alarmAt u die).raised = false) ∧ (¬ high → a.below < 15 → (alarmAt u die).raised = a.raised)
      ∧ (¬ high → (alarmAt u die).above = 0 ∧ (alarmAt u die).below = min 16 (a.below + 1))
      ∧ (∀ k, k ≠ die → alarmAt u k = alarmAt s k))
  ∧ (∀ (s : State) (amps : Int), (alarmAt s 4).seen ≠ some s.time.dt → 1200 < amps → 1 ≤ (alarmAt s 4).above →
    ∃ u, exec (.currentSample 4 amps) s = .next u ∧ ∀ d, d < 4 → (alarmAt u d).raised = true)
  ∧ (∀ (s : State) (core heir : Nat), corePresent s core = true →
    let reports := (tget [] s.core.soft core).filter fun t => decide (s.time.dt < t + 2 ^ 20)
    (reports.length < 16 → exec (.softErrorOutOfService core) s = .next s)
    ∧ (16 ≤ reports.length → corePresent s heir = true → heir ≠ core → heir / 4 = core / 4 →
      (∀ k, k < (heir + 3 - core % 4) % 4 → corePresent s (core / 4 * 4 + (core + 1 + k) % 4) = false) →
      s.census.open_ = [] → s.census.moves = [] → s.core.migr = [] → s.work.casts = [] → s.work.halts = [] → s.work.retires = [] →
      s.core.outside = [] → (∀ i, i < 32 → (tget {} s.core.park (core * 32 + i)).used = false) →
      (∀ p, p < 16 → (ringAt s heir p).length + (ringAt s core p).length ≤ 4096) →
      let tag (i : Nat) : Tag := { core := core, slot := i, gen := slotGenOf s core i }
      let bare : RingEntry → RingEntry := fun e => match e with
        | .record r _ _ resp restart => .record r 0 0 resp restart
        | .resume t _ => .resume t 0
      ∃ u, exec (.softErrorOutOfService core) s = .next u ∧ readyCode u core = 3 ∧ u.mem = s.mem ∧ (∀ i, i < 16 → strandAt u core i = none)
        ∧ u.work.ends = s.work.ends ++ ((List.range 16).filterMap fun i => (strandAt s core i).bind fun t =>
            if t.resp.isNone then some ({ launch := t.record.launch.toNat, ts := t.ctx.pts, cause := 0x16 } : UnitEnd) else none)
        ∧ (∀ p, p < 16 → (ringAt u heir p).map bare = (ringAt s heir p ++ ringAt s core p).map bare ∧ ringAt u core p = [])
        ∧ (∀ k m i, (k, m) ∈ s.eng.mslots → i < 16 → (strandAt s core i).isSome = true → m.tag = tag i →
            (k, { m with parked := true }) ∈ u.eng.mslots)
        ∧ (∀ i, i < 128 → (lifeOf s (direntKey core i)).st = 1 → (lifeOf u (direntKey core i)).st = 2)
        ∧ ∀ c i, c ≠ core → strandAt u c i = strandAt s c i))

/-! ### The machine as a whole -/

/-- R66 to R72: for every instruction in the form of R70's steps 4 and 5, with every operand at every value it admits, the word it encodes to decodes
to it; every word that decodes is the word of the instruction it decodes to, which has that form; and the instructions of the opcode table, not its
events, have a word. -/
def Obligations.EncodingAndDecodingAgree : Prop :=
  (∀ (i : Instr) (w : IWord), i.wellFormed = true → encode i = some w → decode w = .ok i)
  ∧ (∀ (w : IWord) (i : Instr), decode w = .ok i → i.wellFormed = true ∧ encode i = some w)
  ∧ ∀ i : Instr, (encode i).isSome = i.hasWord

/-- The encoding tables of R66 to R69 and of each family: words written out field by field decode to the instructions they stand for, and a word with
an unassigned OP, a reserved guard, a reserved bit set or an operand of a kind the form does not take is refused at its step of R70. -/
def Obligations.WordsDecodeAsTabled : Prop :=
  decode 0x230020405000000000000000#96 = .ok (.ffma 0 2 (.reg 4) (.reg 5) { t := false, rm := .rne, p := .s })
  ∧ decode 0x350030000000000000000007#96 = .ok (.loop 0 3 0 7)
  ∧ decode 0x360000000000000000000000#96 = .ok (.nop 0)
  ∧ decode 0xE70020300000000200000000#96 = .ok (.replay 0 2 3 .step)
  ∧ decode 0x730030205000000000000000#96 = .ok (.vsub 0 3 2 5 false)
  ∧ decode 0x870060200010000000000000#96 = .ok (.vred 0 .max 6 2)
  ∧ decode 0xD00020383000000000000000#96 = .ok (.spawn 0 2 3 (.imm 3))
  ∧ decode 0xD10000881000000000000000#96 = .ok (.decp 0 8 (.imm 1))
  ∧ decode 0xD50050600000000000000000#96 = .ok (.bar 0 5 6)
  ∧ decode 0xA50000000000000200000000#96 = .ok (.qfence 0 0 2)
  ∧ decode 0xC80050203000000000000000#96 = .ok (.dreg 0 5 2 (.reg 3))
  ∧ decode 0xC90060203030000000000000#96 = .ok (.solicit 0 .count 6 2 3)
  ∧ decode 0xCA0000081000000000000000#96 = .ok (.respond 0 0 (.imm 1))
  ∧ decode 0xFF0000000000000000000000#96 = .error .illegal
  ∧ decode 0x368000000000000000000000#96 = .error .reserved
  ∧ decode 0x360000000000000000000001#96 = .error .reserved
  ∧ decode 0x360010000000000000000000#96 = .error .reserved
  ∧ decode 0x730100205000000000000000#96 = .error .badOperand

/-- R70, R73, R94, R111 and R248: with no lapse due and a strand's turn next, a strand in rotation whose core maps its overlay performs the instruction
that the 12 bytes at its PC decode to, and then, if it is single-stepped and that instruction is complete, traps STEP with the instruction's own PC;
the issue takes the strand out of no other state and leaves
memory and the other registers as they were. A word that fails step 3, 4, 5 or 6 traps with its cause, and an overlay that is not mapped traps
OVERLAY_MISS. A stream performs the instruction at its own PC likewise, counts it when it neither waits nor is in progress (R62), and waits for an
overlay of its bundle. An event whose turn it is happens. R69: an instruction whose guard is false moves the PC on and does nothing else; a fault of step 6
comes before the guard.
Which act comes next is data of the state (log entry 1), and that a blocked instruction traps STEP only once it has completed is inferred (log entry
17). -/
def Obligations.AStepRunsTheDecodedInstruction : Prop :=
  (∀ (s : State) (c j f : Nat) (t : Strand) (far : Bool) (rest : List Act), due s = none → s.agenda = .turn (.strand c j) far :: rest →
    strandAt s c j = some t → t.st = 0 → tget false s.core.slotOff (c * 16 + j) = false → (launchAt s t.record.launch.toNat).halted = false →
    liveHandle s t.ctxh = true → filtered s c t.record = false → pcIdx t.ctx.pc ≤ 5460 →
    let s' : State := { s with agenda := rest, cur := .strand c j, far := far }
    let bytes : Nat := memRead s.mem (frameAt c f (12 * pcIdx t.ctx.pc)) 12
    let w : IWord := BitVec.ofNat 96 bytes
    let x := issued s' c j t f w
    let raised (e : Exc) : Prop := step s = afterStep c j (.next (confine x (raise { e with info0 := w.extractLsb' 0 64 } x)))
    (frameOf s c (pcOvl t.ctx.pc) = some f →
      (∀ i, decode w = .ok i → step s = afterStep c j (exec i x))
      ∧ (decode w = .error .illegal → raised { cause := .illegalOpcode, step := 3 })
      ∧ (decode w = .error .reserved → raised { cause := .reservedBits, step := 4 })
      ∧ (decode w = .error .badOperand → raised { cause := .badOperand, step := 5 })
      ∧ (decode w = .error .badClass → raised { cause := .reservedBits, step := 6 })
      ∧ x.cur = .strand c j ∧ x.far = far ∧ x.mem = s.mem ∧ x.hold = s.hold
      ∧ strandAt x c j = some { t with ctx := { t.ctx with iw := w }, wait := .none, lastIssue := s.issues + 1,
                                       steps := if t.steps = 0 then 0 else 2, stepPc := t.ctx.pc })
    ∧ (frameOf s c (pcOvl t.ctx.pc) = none →
      let y := withFreeWord s'
      step s = exec .overlayMiss y
        ∧ step s = .next (confine y (raise { cause := .overlayMiss, step := 2, info0 := BitVec.ofNat 64 (pcOvl t.ctx.pc) } y))))
  ∧ (∀ (s : State) (k f : Nat) (cp far : Bool) (rest : List Act), due s = none → s.agenda = .turn (.stream k cp) far :: rest →
    let p := pairAt s k
    let x := p.stream cp
    (p.st = 1 ∨ p.st = 2) → x.st = 1 → x.busy = false → x.wait = false → x.stop = false → (launchAt s p.record.launch.toNat).halted = false →
    filtered s (1024 + k) p.record = false → pcIdx x.ctx.pc ≤ 5460 →
    let s' : State := { s with agenda := rest, cur := .stream k cp, far := far }
    let w : IWord := BitVec.ofNat 96 (memRead s.mem (frameAt p.owner.core f (12 * pcIdx x.ctx.pc)) 12)
    let x' : Stream := { x with wait := false, fetched := true, head := [], vals := [], pos := 0, fence := none, into := none, sent := false
                                rest := false, doomed := false, refused := none, ctx := { x.ctx with iw := w } }
    (frameOf s p.owner.core (pcOvl x.ctx.pc) = some f → ∀ i, decode w = .ok i →
      ∃ y, step s = countStream k cp (exec i y) ∧ y.cur = .stream k cp ∧ (pairAt y k).stream cp = x' ∧ (pairAt y k).st = p.st
        ∧ (pairAt y k).stream (!cp) = p.stream (!cp) ∧ y.mem = s'.mem ∧ y.core = s'.core ∧ y.hold = s'.hold))
  ∧ (∀ (u : State) (c j : Nat),
      (strandAt u c j = none → afterStep c j (.next u) = .next u)
      ∧ ∀ t, strandAt u c j = some t →
        ((t.steps ≠ 2 ∨ t.st ≠ 0 ∨ t.wait ≠ .none) → afterStep c j (.next u) = .next u)
        ∧ (t.steps = 2 → t.st = 0 → t.wait = .none → afterStep c j (.next u) =
            .next (confine u (trapStrand u c j { cause := .step, info0 := t.stepPc.zeroExtend 64, info1 := some 0 }))))
  ∧ (∀ (u : State) (k : Nat) (cp : Bool),
      let p := pairAt u k
      let x := p.stream cp
      ((x.busy = true ∨ x.wait = true ∧ x.fetched = true) → countStream k cp (.next u) = .next u)
      ∧ (x.busy = false → (x.wait = false ∨ x.fetched = false) → countStream k cp (.next u) =
          .next (putPair u k (if cp then { p with kdone := p.kdone + 1, kets := max p.kets x.ctx.pts }
            else { p with sdone := p.sdone + 1, sets := max p.sets x.ctx.pts }))))
  ∧ (∀ (s : State) (i : Instr) (g : Guard), i.guard? = some g → guardHolds s g = false → Acting s → s.coh.hit = none →
      let moves (i : Instr) : Prop := Jumps i s [] (nextPc (curCtx s).pc)
      let target (o x : BitVec 16) : Prop := o ≠ 0xFFFF ∧ x.toNat ≤ 5460
      (moves i ∨ Traps i s (wordExc s .badOperand 6) ∨ Traps i s (wordExc s .reservedBits 6))
      ∧ (∀ c j, s.cur = .strand c j →
          (∀ d o x, (i = .br g o x ∨ i = .loop g d o x ∨ i = .call g d o x ∨ i = .callo g d o x) → target o x) →
          (∀ q w, i = .qfence g q w → q.val < 2 ∧ w ≠ 0 ∧ w.getLsbD q.val = false) →
          (∀ d m w cls mig sx, (i = .ld g d m w cls mig sx ∨ i = .ldx g d m w cls mig sx ∨ i = .ldg g d m w cls sx) → cls ≠ .w) →
          (∀ d y m w cls mig, (i = .st g y m w cls mig ∨ i = .stx g d m w cls mig ∨ i = .stg g y m w cls) → cls ≠ .s) →
          (∀ d a b x y n m K M sat, i ∉ [Instr.mlda g x b, .mldaG g n a b K M, .mldb g x b, .mldbG g m a b K, .mscl g a y, .mlut g a y, .mcfg g x,
            .mma g d x b, .mmaX g d x y, .mmv g d a b n, .mzro g d, .mwb g d a sat]) → moves i)
      ∧ (∀ k cp d a b p x y n m K M sat t o, s.cur = .stream k cp →
          (i ∈ [Instr.add g d x y, .setp g t p x y, .sel g d sat p x y, .nop g, .done g, .semp g x, .semw g x] → moves i)
          ∧ (target o K → i ∈ [Instr.br g o K, .loop g d o K] → moves i)
          ∧ (cp = false → i ∈ [Instr.mlda g x b, .mldaG g n a b K M, .mldb g x b, .mldbG g m a b K, .mscl g a y, .mlut g a y] → moves i)
          ∧ (cp = true → i ∈ [Instr.mcfg g x, .mma g d x b, .mmaX g d x y, .mmv g d a b n, .mzro g d, .mwb g d a sat, .mrds g d a x] → moves i)))
  ∧ (∀ (s : State) (i : Instr) (rest : List Act), due s = none → s.agenda = .event i :: rest → isEvent i = true →
      step s = exec i { s with agenda := rest })
  ∧ (∀ (s : State) (i : Instr), due s = some i → step s = exec i s)
  ∧ (∀ s : State, Traps .illegalOpcode s { cause := .illegalOpcode, step := 3, info0 := (curWord s).extractLsb' 0 64 })
  ∧ (∀ (s : State) (c j : Nat), s.cur = .strand c j →
      Traps .overlayMiss s { cause := .overlayMiss, step := 2, info0 := BitVec.ofNat 64 (pcOvl (curCtx s).pc) })
  ∧ ∀ (s : State) (k : Nat) (cp : Bool), s.cur = .stream k cp →
      let e : Exc := { cause := .overlayMiss, step := 2, info0 := BitVec.ofNat 64 (pcOvl (curCtx s).pc) }
      let p := pairAt s k
      let entry := bundleEntry s p.ctxh p.env.bundle (pcOvl (curCtx s).pc)
      (entry = none → Traps .overlayMiss s e)
      ∧ (entry ≠ none → ∃ u, exec .overlayMiss s = .next u ∧ ((pairAt u k).stream cp).wait = true
          ∧ u.mem = s.mem ∧ u.core = s.core)

/-- R5, R21, R24, R101, R279, R370, R381 and R382: after reset device time is 0, the command window and its registers hold 0, the phase is ROMCHK, no
function reports, every holding's entry is DARK, no launch or counter is held, every special register holds its reset value, and the invariant
holds.
Where the spec gives no value at reset, the value is the model's choice (log entries 4 and 24). -/
def Obligations.ResetLeavesTheValuesOfTheSpec : Prop :=
  let s := State.reset
  Inv s ∧ Memory.wf s.mem = true ∧ s.time.dt = 0 ∧ s.hub.fw = 0 ∧ s.hub.cqbase = 0 ∧ s.hub.cqsize = 0 ∧ s.hub.cqtail = 0 ∧ s.hub.cqhead = 0
    ∧ s.hub.apprun = 0 ∧ (∀ k, readyCode s k = 0) ∧ (∀ k, (lifeOf s k).st = 0) ∧ (∀ n, (launchAt s n).st = 0) ∧ (∀ n, (counterAt s n).st = 0)
    ∧ (∀ c i, strandAt s c i = none) ∧ (∀ c f, tget 0 s.core.ovt (c * 4 + f) = 0)
    ∧ (∀ c, tget 0 s.core.icnt c = 0 ∧ tget 0 s.core.stale c = 0 ∧ tget 0 s.core.bconf c = 0)
    ∧ (∀ c n, winOf s c n = 0) ∧ (∀ c n, bfmtOf s c n = 0) ∧ (∀ c, exprOf s c = 0) ∧ (∀ k, fctlOf s k = 0x35800000)
    ∧ (∀ c, mstatOf s c = 0 ∧ vstatOf s c = 0) ∧ (∀ d : Fin 4, s.hub.therm[d.val] = { amber := 95, crimson := 105, budget := 750, ocl := 1250 })

/-- R22, R99, R102, R205, R233 and R279: in every step a WIN, BFMT, EXPR or FCTL register keeps a value that its rule admits, with its reserved bits
0, and no unit runs more than two ticks ahead of device time. -/
def Obligations.EveryStepKeepsTheInvariant : Prop :=
  ∀ s s' : State, Inv s → step s = .next s' → Inv s'

/-- R21, R101, R102, R370 and R379: what no instruction but SRW does is to write WIN, BFMT, EXPR or FCTL, and what nothing but a tick, a RESET or a
power-on does is to move device time; no instruction writes a register of the hub. -/
def Obligations.OnlySrwWritesControlsAndOnlyTicksMoveTime : Prop :=
  ∀ (s t : State) (i : Instr), exec i s = .next t →
    ((∀ g r a, i ≠ .srw g r a) → i ≠ .reset → i ≠ .bringUp → t.sregs = s.sregs)
    ∧ (i ≠ .dtTick → i ≠ .reset → i ≠ .bringUp → t.time = s.time)
    ∧ (i.hasWord = true → t.hub = s.hub ∧ t.time = s.time)
    ∧ (i = .dtTick → t.time.dt = s.time.dt ∨ t.time.dt = s.time.dt + 1)

/-- R1 and R39: bytes written read back, lowest address first, and every other byte is as it was; the list of cells keeps its canonical form, in which
two memories that read the same everywhere are equal. -/
def Obligations.MemoryReadsWhatWasWritten : Prop :=
  (∀ (m : List Host.Cell) (a n v : Nat),
    memRead (memWrite m a n v) a n = v % 256 ^ n
    ∧ (∀ b k, (b + k ≤ a ∨ a + n ≤ b) → memRead (memWrite m a n v) b k = memRead m b k)
    ∧ (Memory.wf m = true → Memory.wf (memWrite m a n v) = true ∧ memWrite m a n (memRead m a n) = m))
  ∧ (∀ m m' : List Host.Cell, Memory.wf m = true → Memory.wf m' = true → (∀ a, memByte m a = memByte m' a) → m = m')
  ∧ ∀ (m : List Host.Cell) (a n : Nat), memRead m a n < 256 ^ n ∧ ofBytes (memBytes m a n) = memRead m a n
end

