-- ==== Sys2Proof/Tests/Slice0.lean ====
section
/-! SUPPORT. The model's own tests: ill-formed terms that the form check refuses, words of the spec's examples and what they decode to,
a few single steps, and for each statement a concrete state and operands that meet its hypotheses. -/

namespace Sys2Proof.Tests
set_option Elab.async false
open Sys2Proof Sys2Proof.Machine

/-! ### WellFormed refuses (R68, R69, R102, R145, R152, R159, R282, R51) -/

theorem test_reserved_guard : (Instr.add 8 0 (.imm 0) (.imm 0)).wellFormed = false := by decide
theorem test_two_wides : (Instr.add 0 0 (.wide 0) (.wide 0)).wellFormed = false := by decide
theorem test_odd_pair : (Instr.ldx 0 3 ⟨0, none, 0, 0⟩ .w64 .s false false).wellFormed = false := by decide
theorem test_odd_range_pair : (Instr.grantRange 0 5 1 (.imm 1) false false).wellFormed = false := by decide
theorem test_p0_destination : (Instr.pand 0 0 1 2).wellFormed = false := by decide
theorem test_sx_with_64 : (Instr.ld 0 1 ⟨0, none, 0, 0⟩ .w64 .s false true).wellFormed = false := by decide
theorem test_wide_store_value : (Instr.st 0 (.wide 1) ⟨0, none, 0, 0⟩ .w64 .w false).wellFormed = false := by decide
theorem test_pair_of_bytes : (Instr.stx 0 2 ⟨0, none, 0, 0⟩ .w8 .w false).wellFormed = false := by decide
theorem test_fcvt_same_type : (Instr.fcvt 0 .f32 .f32 1 (.reg 1) .rne false).wellFormed = false := by decide
theorem test_amo_unsigned_add : (Instr.amo 0 .add 1 2 0 (.imm 1) .w64 true false).wellFormed = false := by decide
theorem test_srw_of_read_only : (Instr.srw 0 .dtime (.imm 0)).wellFormed = false := by decide
theorem test_queue_in_g0 : (Instr.fupd 0 2 3 (some 0)).wellFormed = false := by decide
theorem test_pref_w : (Instr.pref 0 ⟨0, none, 0, 0⟩ .w).wellFormed = false := by decide

/-! ### Words of the spec's examples -/

/-- Encoding two instructions, after R85. -/
theorem test_word_ld : decode 0x40B02040600D300000000010#96
    = .ok (.ld 0b1011 2 ⟨4, some 6, 3, 16⟩ .w64 .o false false) := by decide
/-- The same example. -/
theorem test_word_add_wide : decode 0x0100301C0000000012345678#96 = .ok (.add 0 3 (.reg 1) (.wide 0x12345678)) := by decide
/-- The same example. -/
theorem test_word_add_imm : decode 0x010030185000000000000000#96 = .ok (.add 0 3 (.reg 1) (.imm 5)) := by decide
/-- The same example: SHIFT = 4 is RESERVED_BITS. -/
theorem test_word_bad_shift : decode 0x40B02040600D400000000010#96 = .error .reserved := by decide
/-- The same example: 0xC0 in B of a class-M word is RESERVED_BITS. -/
theorem test_word_wide_in_class_m : decode 0x4000204C000D000000000010#96 = .error .reserved := by decide
/-- Idioms, R90. -/
theorem test_word_guarded_mov : decode 0x142050300000000000000000#96 = .ok (.mov 2 5 (.reg 3))
    ∧ decode 0x14A050400000000000000000#96 = .ok (.mov 10 5 (.reg 4)) := by decide
/-- The lock example's AMO, and the R177 chapter's. -/
theorem test_word_amo : decode 0x4B003080407C000000000000#96 = .ok (.amo 0 .cas 3 8 0 (.reg 4) .w64 false false) := by decide
/-- The lock program's words, after R180. -/
theorem test_word_holdings : decode 0x600048009010000000000000#96 = .ok (.grantLock 0 4 (.imm 0) (.reg 9))
    ∧ decode 0x630050408000000000000000#96 = .ok (.lock 0 5 4 (.reg 8))
    ∧ decode 0x610060409000000000000000#96 = .ok (.renew 0 6 4 (.reg 9)) := by decide
/-- The copy chapter's words. -/
theorem test_word_copy : decode 0xA00020309000000000000000#96 = .ok (.copy 0 2 3 (some 9)) := by decide
/-- The matrix chapter's words. -/
theorem test_word_matrix : decode 0xBC0008100000000000000000#96 = .ok (.semp 0 (.imm 1))
    ∧ decode 0xB50060407000000000000000#96 = .ok (.mma 0 6 (.reg 4) 7)
    ∧ decode 0xBA0000203000000000000000#96 = .ok (.fork 0 (.reg 2) (.reg 3))
    ∧ decode 0xB10000405010000100000040#96 = .ok (.mldbG 0 1 4 5 64)
    ∧ decode 0xB80060800000000800000000#96 = .ok (.mwb 0 6 8 true)
    ∧ decode 0xB50068080010000000000000#96 = .ok (.mmaX 0 6 (.imm 0) (.imm 0)) := by decide
/-- The quantized product's SRW and MSCL. -/
theorem test_word_srw : decode 0xE30438A00000000000000000#96 = .ok (.srw 0 (.bfmt 3) (.imm 10))
    ∧ decode 0xB20000507000000000000000#96 = .ok (.mscl 0 5 (.reg 7)) := by decide
/-- The factor chapter's words. -/
theorem test_word_factor : decode 0xC000284C0000000041800000#96 = .ok (.finit 0 2 (.imm 4) (.wide 0x41800000))
    ∧ decode 0xC10020600000000000000000#96 = .ok (.fupd 0 2 6 none)
    ∧ decode 0xC20020709000000100000000#96 = .ok (.fdwn 0 2 7 (some 9))
    ∧ decode 0xC70050200000000000000000#96 = .ok (.fdia 0 5 2)
    ∧ decode 0x60002840A050000000000000#96 = .ok (.grantFslot 0 2 (.imm 4) (.reg 10)) := by decide
/-- The decode program's words, before R343. -/
theorem test_word_field_and_store : decode 0x0F00D02C0000000000000830#96 = .ok (.bfx 0 13 2 (.wide 0x830))
    ∧ decode 0x41002080400E300000000100#96 = .ok (.st 0 (.reg 2) ⟨8, some 4, 3, 0x100⟩ .w64 .w false)
    ∧ decode 0x4B00A090107C000000000000#96 = .ok (.amo 0 .cas 10 9 0 (.reg 1) .w64 false false) := by decide
/-- An all-zero word traps ILLEGAL_OPCODE (R71). -/
theorem test_word_zero : decode 0 = .error .illegal := by decide
/-- A vector word, after R197, and a reduction, after R204. -/
theorem test_word_vector : decode 0x730030205000000000000000#96 = .ok (.vsub 0 3 2 5 false) ∧ decode 0x870060200010000000000000#96 = .ok (.vred 0 .max 6 2) := by
  decide
/-- Scheduler words: SPAWN, DECP and BAR. -/
theorem test_word_scheduler : decode 0xD00020383000000000000000#96 = .ok (.spawn 0 2 3 (.imm 3)) ∧ decode 0xD10000881000000000000000#96 = .ok (.decp 0 8 (.imm 1))
    ∧ decode 0xD50050600000000000000000#96 = .ok (.bar 0 5 6) := by decide
/-- The census program's words, and REPLAY.STEP's after R109. -/
theorem test_word_census : decode 0xC90060203030000000000000#96 = .ok (.solicit 0 .count 6 2 3) ∧ decode 0xCA0000081000000000000000#96 = .ok (.respond 0 0 (.imm 1))
    ∧ decode 0xE70020300000000200000000#96 = .ok (.replay 0 2 3 .step) := by decide


/-! ### A small machine: core 0 READY with one strand in slot 0 under a LIVE context of slice 0xC0 -/

/-- Registers given by a list. -/
def regs (l : List (GReg × Nat)) : Vector Word 16 := l.foldl (fun v e => v.set e.1.val (BitVec.ofNat 64 e.2)) (Vector.replicate 16 0)
/-- The context's handle. -/
def ctxA : Word := mkHandle placedKey 1
/-- A strand at instruction 0 of overlay 1. -/
def strand (g : List (GReg × Nat)) : Strand := { ctx := { pc := mkPc 1 0, g := regs g }, ctxh := ctxA }
/-- A LIVE entry of the context. -/
def live : Life := { st := 1, expiry := 2 ^ 20, gen := 1, owner := ctxA }
/-- The machine with that strand acting. -/
def base (t : Strand) : State :=
  { hub := { ready := [(0, 2), (0xC0, 2), (2000, 2)] }, hold := { lives := [(placedKey, live)] },
    core := { slots := [(0, t)], slotGen := [(0, 1)], ovt := [(0, 1)] }, cur := .strand 0 0 }
/-- The machine with registers. -/
def mach (g : List (GReg × Nat)) : State := base (strand g)
/-- The next state, or reset's. -/
def out : Host.Outcome State Fault Refusal → State
  | .next t => t
  | _ => .reset
/-- What an instruction leaves. -/
def after (i : Instr) (s : State) : State := out (exec i s)

/-! ### Single steps -/

/-- A step after `withFetchWord` runs the word: ADD g3, g1, 5 of the encoding example, on zero registers. -/
theorem test_step_runs_word : rG (out (step (State.reset.withFetchWord 96 0x010030185000000000000000))) 3 = 5 := by decide
/-- The PC advances by one instruction (R74). -/
theorem test_step_advances : (curCtx (out (step (State.reset.withFetchWord 96 0x360000000000000000000000)))).pc = 0x10001 := by decide
/-- A zero word traps, and the strand is gone: ILLEGAL_OPCODE is Fatal (R104). -/
theorem test_step_zero_word : strandAt (out (step (State.reset.withFetchWord 96 0))) 0 0 = none := by decide
/-- A false guard leaves the register and advances (R69). -/
theorem test_false_guard : rG (after (.mov 1 3 (.imm 7)) (mach [(3, 9)])) 3 = 9
    ∧ (curCtx (after (.mov 1 3 (.imm 7)) (mach [(3, 9)]))).pc = 0x10001 := by decide


/-! ### Witnesses: states and operands that meet the hypotheses of the statements, in their order -/

theorem issues_any (t : Strand) : Issues .any 0 (base t) := ⟨rfl, rfl, rfl, rfl⟩
theorem issues_strand (t : Strand) : Issues .strand 0 (base t) := ⟨rfl, rfl, rfl, rfl⟩
theorem strand_issues (t : Strand) : StrandIssues 0 (base t) 0 0 t := ⟨rfl, by decide, rfl, rfl, rfl, rfl⟩

/-- O1: a divisor that is not 0, and one that is. -/
theorem witness_integer_arithmetic : Issues .any 0 (mach []) ∧ srcS (mach []) (.imm 3) ≠ 0 ∧ srcZ (mach []) (.wide 0xFFFFFFFF) ≠ 0
    ∧ srcS (mach []) (.imm 0) = 0 ∧ srcZ (mach []) (.reg 2) = 0 := ⟨issues_any _, by decide, by decide, by decide, by decide⟩
/-- O2: the widest field and the narrowest, a field that runs past bit 63, a width of 64 and of 65. -/
theorem witness_fields : Issues .any 0 (mach [(1, 65)]) ∧ srcZ (mach []) (.wide 0x4000) = BitVec.ofNat 64 (0 + 256 * 64)
    ∧ srcZ (mach []) (.wide 0x13F) = BitVec.ofNat 64 (63 + 256 * 1) ∧ srcZ (mach []) (.imm 1) = BitVec.ofNat 64 1
    ∧ 64 < (srcZ (mach [(1, 65)]) (.reg 1)).toNat := ⟨issues_any _, by decide, by decide, by decide, by decide⟩
/-- O2: no place and width of an admitted field make the spec 0. -/
theorem witness_no_field : ∀ pos w : Nat, srcZ (mach []) (.imm 0) = BitVec.ofNat 64 (pos + 256 * w) →
    ¬ (pos < 64 ∧ 1 ≤ w ∧ pos + w ≤ 64) := by
  intro pos w h ⟨h1, h2, h3⟩
  have := congrArg BitVec.toNat h
  have e : (srcZ (mach []) (.imm 0)).toNat = 0 := by decide
  rw [e, BitVec.toNat_ofNat] at this
  omega
/-- O3. -/
theorem witness_predicates : Issues .any 0 (mach []) ∧ (1 : PReg) ≠ 0 := ⟨issues_any _, by decide⟩
/-- O4 and O7: FP_TRAP under .T on 1 / 0, and a sum that raises nothing. -/
theorem witness_float : Issues .strand 0 (mach [(1, 0x3F800000)])
    ∧ 4 ≤ ((precFmt .s).finish .rne (fDiv (fSrc (mach [(1, 0x3F800000)]) .s (.reg 1)) (fSrc (mach [(1, 0x3F800000)]) .s (.reg 2)))).2
    ∧ ((precFmt .s).finish .rne (fAdd .rne (fSrc (mach [(1, 0x3F800000)]) .s (.reg 1)) (fSrc (mach [(1, 0x3F800000)]) .s (.reg 1)))).2 < 4
    ∧ 4 ≤ (fCond .lt (fSrc (mach [(1, 0x7F800001)]) .s (.reg 1)) (fSrc (mach [(1, 0x7F800001)]) .s (.reg 2))).2 :=
  ⟨issues_strand _, by decide, by decide, by decide⟩
/-- O5: a value that is no NaN, a magnitude that is not 0. O6 has no hypothesis but its modes. -/
theorem witness_special_cases : (FVal.inf false).isNan = false ∧ (1 : Nat) ≠ 0 := by decide
/-- O8: targets at the ends of their range, a register that counts down to 0 and one that does not, code pointers, and those that name no
instruction. -/
theorem witness_targets : Issues .any 0 (mach [(1, 1), (2, 2), (3, 0x10001554), (4, 0xFFFF0000), (5, 0x11555), (6, 2 ^ 32)])
    ∧ Issues .strand 0 (mach [(1, 1), (2, 2), (3, 0x10001554), (4, 0xFFFF0000), (5, 0x11555), (6, 2 ^ 32)])
    ∧ (5460#16).toNat ≤ 5460 ∧ 5460 < (5461#16).toNat ∧ rG (mach [(1, 1)]) 1 = 1 ∧ rG (mach [(2, 2)]) 2 ≠ 1
    ∧ (rG (mach [(3, 0x10001554)]) 3).toNat / 65536 = 0x1000 ∧ (rG (mach [(4, 0xFFFF0000)]) 4).toNat / 65536 = 0xFFFF
    ∧ 5460 < (rG (mach [(5, 0x11555)]) 5).toNat % 65536 ∧ 2 ^ 32 ≤ (rG (mach [(6, 2 ^ 32)]) 6).toNat :=
  ⟨issues_any _, issues_strand _, by decide, by decide, by decide, by decide, by decide, by decide, by decide, by decide⟩
/-- A machine whose launch 0 runs under bundle 1, which holds overlay 2 and not 3. -/
def bundled : State := { mach [(1, 0x10000), (2, 0x20000), (3, 0x30000)] with
  work.bundles := [{ ctxh := ctxA, number := 1, ovls := [(2, 0, 12)] }], work.launches := [(0, { st := 2, ctxh := ctxA, bundle := 1 })] }
/-- O8: targets whose overlay is mapped, in the bundle, and in neither. -/
theorem witness_overlays : StrandIssues 0 bundled 0 0 (strand [(1, 0x10000), (2, 0x20000), (3, 0x30000)])
    ∧ tget 0 bundled.core.ovt (0 * 4 + 0) = (rG bundled 1).toNat / 65536
    ∧ (∀ f, f < 4 → tget 0 bundled.core.ovt (0 * 4 + f) ≠ (rG bundled 2).toNat / 65536)
    ∧ inBundle bundled (launchAt bundled 0) ((rG bundled 2).toNat / 65536) = true
    ∧ (∀ f, f < 4 → tget 0 bundled.core.ovt (0 * 4 + f) ≠ (rG bundled 3).toNat / 65536)
    ∧ inBundle bundled (launchAt bundled 0) ((rG bundled 3).toNat / 65536) = false :=
  ⟨⟨rfl, by decide, rfl, rfl, rfl, rfl⟩, by decide, by decide, by decide, by decide, by decide⟩
/-- A machine whose sequencer pair runs, its compute stream acting. -/
def streaming (p : Pair) : State := { mach [] with eng.pairs := [(0, p)], cur := .stream 0 true }
/-- O1 and O9: a stream issues. -/
theorem witness_stream_issues : Issues .any 0 (streaming { st := 1 }) ∧ (pairAt (streaming { st := 1 }) 0).ended = false :=
  ⟨⟨rfl, rfl, by show (pairAt _ 0).st ≠ 0; decide, rfl⟩, rfl⟩
/-- O9: a strand that is no responder. -/
theorem witness_done : StrandIssues 0 (mach []) 0 0 (strand []) ∧ (strand []).resp = none := ⟨strand_issues _, rfl⟩
/-- O10: free park entries, and none. -/
theorem witness_park_entries : (mach []).cur = .strand 0 0 ∧ strandAt (mach []) 0 0 = some (strand []) ∧ freePark (mach []) 0 = some 0
    ∧ freePark { mach [] with core.park := (List.range 32).map fun k => (k, { used := true, gen := 1 }) } 0 = none
    ∧ inBundle bundled (launchAt bundled 0) 2 = true ∧ inBundle bundled (launchAt bundled 0) 3 = false :=
  ⟨rfl, rfl, by decide, by decide, by decide, by decide⟩
/-- The handle of event queue 0 of slice 0xC0, generation 1. -/
def evqA : Word := mkHandle (entryKey 7 0xC0 0) 1
/-- The machine with that queue LIVE. -/
def queued (s : State) (q : Evq) : State := { s with
  hold := { s.hold with lives := tput s.hold.lives (entryKey 7 0xC0 0) live, evqs := [(entryKey 7 0xC0 0, q)] } }
/-- A trap record for it. -/
def trapTo (fatal : Bool) : TrapRec := { bytes := 1, fatal := fatal, launch := 0, tq := evqA, ctxh := ctxA }
/-- O11: a queue with 2 entries free, one with 1, one that is not LIVE, and a record that is not the first. -/
theorem witness_trap_records : liveHandle (queued (mach []) { cap := 4, recs := [{}, {}] }) (trapTo false).tq = true
    ∧ (evqAt (queued (mach []) { cap := 4, recs := [{}, {}] }) (hKey (trapTo false).tq)).recs.length + 2 ≤ 4
    ∧ ¬ (evqAt (queued (mach []) { cap := 4, recs := [{}, {}, {}] }) (hKey (trapTo false).tq)).recs.length + 2 ≤ 4
    ∧ (evqAt (queued (mach []) { cap := 4, recs := [{}, {}, {}] }) (hKey (trapTo true).tq)).recs.length + 1 ≤ 4
    ∧ liveHandle (mach []) (trapTo true).tq = false ∧ tget [] (mach []).core.held 0 = []
    ∧ ¬ tget [] { mach [] with core.held := [(0, [trapTo false])] }.core.held 0 = [] := by decide
/-- O12: a trap-parked strand of the issuer's context in slot 1 of core 0, a stale tag, a used park entry and a free one. -/
def parked : State := { mach [(2, 0x10001), (3, 0x20001), (4, 0x10020), (5, 0x10021)] with
  core.slots := [(0, strand [(2, 0x10001), (3, 0x20001), (4, 0x10020), (5, 0x10021)]), (1, { strand [] with st := 5 })],
  core.slotGen := [(0, 1), (1, 1)], core.park := [(0, { used := true, gen := 1, ctxh := ctxA })] }
theorem witness_replay : StrandIssues 0 parked 0 0 (strand [(2, 0x10001), (3, 0x20001), (4, 0x10020), (5, 0x10021)])
    ∧ tagOf (rG parked 2).toNat = { core := 0, slot := 1, gen := 1 } ∧ corePresent parked 0 = true
    ∧ tagged parked (tagOf (rG parked 2).toNat) = some { strand [] with st := 5 }
    ∧ (∀ x, tagCtxh parked (tagOf (rG parked 2).toNat) = some x → x = ctxA)
    ∧ tagged parked (tagOf (rG parked 3).toNat) = none
    ∧ (tagOf (rG parked 4).toNat).park = true ∧ (tget {} parked.core.park 0).gen = (tagOf (rG parked 4).toNat).gen
    ∧ (∀ x, tagCtxh parked (tagOf (rG parked 4).toNat) = some x → x = ctxA)
    ∧ (tget {} parked.core.park (tagOf (rG parked 5).toNat).slot).used = false ∧ parked.page.faults = [] := by
  refine ⟨⟨rfl, by decide, rfl, rfl, rfl, rfl⟩, by decide, by decide, by decide, ?_, by decide, by decide, by decide, ?_, by decide, rfl⟩
  · intro x h; exact (Option.some.inj h).symm
  · intro x h; exact (Option.some.inj h).symm


/-- O13: a WIN value with every field at its limit, one with BASE not a multiple of 64, and the values at the limits of BFMT, EXPR and
FCTL. -/
theorem witness_special_registers : StrandIssues 0 (mach []) 0 0 (strand []) ∧ ¬ ((0 : Nat) % 64 ≠ 0 ∨ 0x80000 % 64 ≠ 0 ∨ 0x80000 < 0x80000)
    ∧ (0x8000000000000001#64).getLsbD 63 = true ∧ (0x8000000000000001#64).toNat % 2 ^ 20 % 64 ≠ 0
    ∧ (srcZ (mach []) (.imm 14)).toNat % 16 ≠ 15 ∧ (srcZ (mach []) (.imm 15)).toNat % 16 = 15
    ∧ (srcZ (mach []) (.imm 16)).toNat % 32 ≤ 16 ∧ 16 < (srcZ (mach []) (.imm 17)).toNat % 32
    ∧ (srcZ (mach []) (.wide 0x3F7FFFFF)).toNat % 2 ^ 32 < 0x3F800000 ∧ 0x3F800000 ≤ (srcZ (mach []) (.wide 0x3F800000)).toNat % 2 ^ 32 :=
  ⟨strand_issues _, by decide, by decide, by decide, by decide, by decide, by decide, by decide, by decide, by decide⟩
/-- The machine with a queue that g1 names, and g2 for an operand. -/
def holding (q : Evq) (n : Nat) : State := queued (mach [(1, evqA.toNat), (2, n)]) q
/-- O14: a queue with a record and one without, a deadline that has passed and one that has not, a handle that is refused; WAITDT at its
tick and one before; the ends of WAITDT.R's range. -/
theorem witness_waits : StrandIssues 0 (holding { cap := 4, recs := [{}] } 0) 0 0 (strand [(1, evqA.toNat), (2, 0)])
    ∧ checkAll (holding { cap := 4, recs := [{}] } 0) [7] (rG (holding { cap := 4, recs := [{}] } 0) 1) = .ok ()
    ∧ (evqAt (holding { cap := 4, recs := [{}] } 0) (hKey evqA)).recs ≠ [] ∧ (evqAt (holding { cap := 4 } 0) (hKey evqA)).recs = []
    ∧ (rG (holding { cap := 4 } 0) 2).toNat ≤ 0 ∧ 0 < (rG (holding { cap := 4 } 1) 2).toNat
    ∧ checkAll (mach []) [7] (rG (mach []) 1) = .error (hExc .badOperand 0)
    ∧ (srcZ (mach []) (.imm 0)).toNat = 0 ∧ (srcZ (mach []) (.wide 0xFFFFFFFF)).toNat < 2 ^ 32
    ∧ 2 ^ 32 ≤ (srcZ (mach [(1, 2 ^ 32)]) (.reg 1)).toNat :=
  ⟨⟨rfl, by decide, rfl, rfl, rfl, rfl⟩, by decide, by decide, by decide, by decide, by decide, by decide, by decide, by decide, by decide⟩
/-- Launch 1, with a strand in slot 1 of core 0 where `n` is its number. -/
def launched (l : Launch) (n : Nat := 1) : State := { holding { cap := 4 } 1 with
  work.launches := [(1, l)], core.slots := tput (holding { cap := 4 } 1).core.slots 1 { strand [] with record := { launch := BitVec.ofNat 16 n } } }
/-- O14: a launch that runs, one that is stopped, one with no core, one of another context, and no launch. -/
theorem witness_gang_stop : (launchAt (launched { st := 2, ctxh := ctxA, cmask := 1 }) 1).st ≠ 0 ∧ (1 : Nat) ≠ (strand []).record.launch.toNat
    ∧ (launchAt (launched { st := 2, ctxh := ctxA, cmask := 1 }) 1).halted = false
    ∧ partition (launched { st := 2, ctxh := ctxA, cmask := 1 }) 1 ≠ []
    ∧ partition (launched { st := 2, ctxh := ctxA } 2) 1 = []
    ∧ checkAll (launched { st := 2, ctxh := ctxA, cmask := 1 }) [7] evqA = .ok ()
    ∧ (launchAt (launched { st := 2, ctxh := 0 }) 1).ctxh ≠ (strand []).ctxh ∧ (launchAt (mach []) 1).st = 0 := by decide +kernel
/-- O15: a scratchpad pointer at the last address of each width and a pair, its register pair, and LDL's. -/
theorem witness_scratchpad : StrandIssues 0 (mach [(1, 2 ^ 60 + 0x7FFF0), (2, 0x7FFF8)]) 0 0 (strand [(1, 2 ^ 60 + 0x7FFF0), (2, 0x7FFF8)])
    ∧ pSpace (memPtr (mach [(1, 2 ^ 60 + 0x7FFF0)]) ⟨1, none, 0, 8⟩) = 1
    ∧ (memPtr (mach [(1, 2 ^ 60 + 0x7FFF0)]) ⟨1, none, 0, 8⟩).toNat % 2 ^ 60 < 2 ^ 19
    ∧ (memPtr (mach [(1, 2 ^ 60 + 0x7FFF0)]) ⟨1, none, 0, 0⟩).toNat % (2 * widBytes .w64) = 0
    ∧ (memPtr (mach [(2, 0x7FFF8)]) ⟨2, none, 0, 7⟩).toNat < 0x80000 ∧ (4 : GReg).val % 2 = 0 ∧ (5 : GReg).val = (4 : GReg).val + 1
    ∧ pSpace (rG (mach [(1, 2 ^ 60)]) 1 + (0#32).signExtend 64) = 1 :=
  ⟨strand_issues _, by decide, by decide, by decide, by decide, by decide, by decide, by decide⟩
/-- O16: a space that does not exist, a pointer off its width, a global pointer, another core's scratchpad with and without a window. -/
theorem witness_access_checks : StrandIssues 0 (mach [(1, 5 * 2 ^ 60)]) 0 0 (strand [(1, 5 * 2 ^ 60)])
    ∧ ¬ pSpace (memPtr (mach [(1, 5 * 2 ^ 60)]) ⟨1, none, 0, 0⟩) ≤ 4
    ∧ pZeroOk (memPtr (mach [(1, 2 ^ 60 + 1)]) ⟨1, none, 0, 0⟩) = true ∧ (memPtr (mach [(1, 2 ^ 60 + 1)]) ⟨1, none, 0, 0⟩).toNat % 2 ≠ 0
    ∧ pSpace (memPtr (mach []) ⟨1, none, 0, 0⟩) = 0
    ∧ winOk (mach []) (pCore 0 0x2001000000000000) 0 0 8 true false = false
    ∧ pSpace 0x2001000000000000 = 2 ∧ 2 ^ 56 ≤ (memPtr (mach [(1, 2 ^ 56)]) ⟨1, none, 0, 0⟩).toNat
    ∧ 0x80000 ≤ (memPtr (mach [(1, 0x80000)]) ⟨1, none, 0, 0⟩).toNat :=
  ⟨strand_issues _, by decide, by decide, by decide, by decide, by decide, by decide, by decide, by decide⟩
/-- A machine with a range of the context, whose page 1 core 0 has translated to frame 1, and launch 0's TL. -/
def ranged (l1 : Sparse L1) : State := { mach [(1, 0x10000)] with
  hub.ready := [(0, 2), (0xC0, 2), (2000, 2), (3000, 2)], hold.lives := [(entryKey 0 0xC0 0, live), (placedKey, live)], hold.ranges := [(entryKey 0 0xC0 0, { base := 0x10000, size := 0x10000 })],
  page.pte := [(pteKey ctxA 1, { st := 1, rd := true, wr := true, pn := 1 })],
  page.tlb := [(tlbKey 0 ctxA 1, { pte := { st := 1, rd := true, wr := true, pn := 1 }, tl := 4096, range := mkHandle (entryKey 0 0xC0 0) 1 })],
  coh.l1 := l1, far := true }
/-- O17: a load of a leased copy, of a sector the L1 does not hold, and a store to an owned sector; the state after the translation. -/
theorem witness_global_load (l : Sparse L1) (hl : l = [] ∨ l = [(0x400, { kind := 1, e := 8 })]) :
    let s := ranged l
    let s' := (Machine.translate s 0 ctxA 4096 0x10000 true false none 0x10000 1).1
    StrandIssues 0 s 0 0 (strand [(1, 0x10000)]) ∧ StrandIssues 0 s' 0 0 (strand [(1, 0x10000)]) ∧ s'.time = s.time ∧ s'.hub = s.hub
      ∧ s'.sregs = s.sregs ∧ s'.far = true ∧ (memPtr s ⟨1, none, 0, 0⟩).toNat = 0x10000
      ∧ (Machine.translate s 0 ctxA 4096 0x10000 true false none 0x10000 1).2 = .mem 0x10000 false (mkHandle (entryKey 0 0xC0 0) 1)
      ∧ (l1At s' (l1Core false 0 0x10000) (0x10000 / 64)).kind = l.length ∧ hasNoticed s' 0 (mkHandle (entryKey 0 0xC0 0) 1) = false := by
  rcases hl with rfl | rfl <;>
    exact ⟨⟨rfl, by decide, rfl, rfl, rfl, rfl⟩, ⟨rfl, by decide, by decide, rfl, rfl, rfl⟩, by decide, by decide, by decide, by decide, by decide, by decide, by decide, by decide⟩
theorem witness_global_store :
    let s := ranged [(0x400, { kind := 2, e := 8 })]
    let s' := (Machine.translate s 0 ctxA 4096 0x10000 false true none 0x10000 2).1
    StrandIssues 0 s' 0 0 (strand [(1, 0x10000)]) ∧ s'.time = s.time ∧ s'.far = true
      ∧ (Machine.translate s 0 ctxA 4096 0x10000 false true none 0x10000 2).2 = .mem 0x10000 false (mkHandle (entryKey 0 0xC0 0) 1)
      ∧ (l1At s' 0 0x400).kind = 2 := ⟨⟨rfl, by decide, by decide, rfl, rfl, rfl⟩, by decide, by decide, by decide, by decide⟩
/-- O18: a scratchpad pointer; a page whose line is in H and not in the L1; another core that the launch admits and one that it does not. -/
theorem witness_cache :
    let s := ranged []
    StrandIssues 0 s 0 0 (strand [(1, 0x10000)]) ∧ pSpace (memPtr (mach [(1, 2 ^ 60)]) ⟨1, none, 0, 0⟩) = 1
      ∧ inSystem 0x10000 = false ∧ (tlbFind s 0 ctxA 4096 0x10000).isSome = true
      ∧ (∀ e ∈ tlbFind s 0 ctxA 4096 0x10000, e.pte.st = 1 ∧ hasNoticed s 0 e.range = false ∧ hasNoticed s (homeOf s 0x10000) e.range = false
          ∧ present s e.pte e.large 0x10000 e.range true false { cause := .protection, info0 := 0x10000, detail := 1 } = .mem 0x10000 false e.range)
      ∧ (∀ j, j < 4 → (filled s (0x10000 / 256 * 4 + j)).st = .h ∧ (l1At s 0 (0x10000 / 256 * 4 + j)).kind = 0)
      ∧ (rangeFor s ctxA 0x10000).isSome = true ∧ (∀ r ∈ rangeFor s ctxA 0x10000, r.2.lp = false) ∧ s.coh.coh = [] :=
  ⟨⟨rfl, by decide, rfl, rfl, rfl, rfl⟩, by decide, by decide, by decide, by decide, by decide, by decide, by decide, rfl⟩
/-- Cores 0 and 1 READY, launch 0 admitting their cluster or none. -/
def twoCores (mask : Nat) : State := { mach [(1, 1)] with
  hub.ready := [(0, 2), (1, 2), (0xC0, 2), (2000, 2)], work.launches := [(0, { st := 2, ctxh := ctxA, cmask := mask })] }
theorem witness_migration : (srcZ (twoCores 1) (.imm 0)).toNat = 0 ∧ (srcZ (twoCores 1) (.reg 1)).toNat = 1
    ∧ admits (twoCores 1) (launchAt (twoCores 1) 0) 1 = true ∧ corePresent (twoCores 0) 1 = true
    ∧ admits (twoCores 0) (launchAt (twoCores 0) 0) 1 = false := by decide
/-- O19: an entry to issue of each kind and none, sizes at their limits and beyond them. -/
def noSlots (kind home : Nat) : State := { mach [] with hold.lives := (List.range 9).map fun j => (entryKey kind home j, live) }
theorem witness_grants : StrandIssues 0 (mach [(1, 0x10000), (2, 2 ^ 43), (3, 2 ^ 43 + 0x10000)]) 0 0
      (strand [(1, 0x10000), (2, 2 ^ 43), (3, 2 ^ 43 + 0x10000)])
    ∧ rG (mach [(1, 0x10000)]) 1 ≠ 0 ∧ (rG (mach [(2, 2 ^ 43)]) 2).toNat ≤ 2 ^ 43 ∧ 2 ^ 43 < (rG (mach [(3, 2 ^ 43 + 0x10000)]) 3).toNat
    ∧ (∀ k ∈ [1, 7], freeEntry (mach []) k 0xC0 = some (entryKey k 0xC0 0)) ∧ defaultSlice (mach []) 0 = 0xC0
    ∧ slicePresent (mach []) 0xC0 = true ∧ slicePresent (mach []) 0xC1 = false
    ∧ slotEntry (mach []) 4 0 8 = some (entryKey 4 0 0) ∧ slotEntry (mach []) 5 0 4 = some (entryKey 5 0 0)
    ∧ slotEntry (noSlots 4 0) 4 0 8 = none ∧ slotEntry (noSlots 5 0) 5 0 4 = none ∧ storeUsed (mach []) 0xC0 + 4096 ≤ 65536 :=
  ⟨strand_issues _, by decide, by decide, by decide, by decide, by decide, by decide, by decide, by decide, by decide, by decide, by decide,
    by decide⟩
/-- A page pool on stack 0 of die 0, for a range. -/
def pooled : State := { mach [(1, 0x10000)] with hub.ready := [(0, 2), (0xC0, 2), (2000, 2), (3000, 2)] }
theorem witness_grant_range : rangeHome pooled 0 = some 0xC0 ∧ freeEntry pooled 0 0xC0 = some (entryKey 0 0xC0 0)
    ∧ (rangeBase pooled ctxA 0x10000).isSome = true ∧ rangeHome { mach [] with hub := {} } 0 = none := by decide
/-- Lock 0 of slice 0xC0 with an entry, and g1 naming it. -/
def locked (x : Life) (q : List LockWait) (gen : Nat) : State := { mach [(1, (mkHandle (entryKey 1 0xC0 0) gen).toNat)] with
  hold.lives := [(entryKey 1 0xC0 0, x), (placedKey, live)], hold.locks := [(entryKey 1 0xC0 0, { queue := q })] }
/-- O20: a live lock, a lapsed one, a free one, one that is held and one with a waiter. -/
theorem witness_holdings :
    (∀ x ∈ [live, { live with st := 0 }], let s := locked x [] 1
      checkHandle s [0, 1, 2, 4, 5, 6, 7] (rG s 1) = .ok () ∧ checkIndex (rG s 1) = .ok () ∧ (lifeOf s (hKey (rG s 1))).owner = ctxA
        ∧ (lifeOf s (hKey (rG s 1))).gen ≠ 0)
    ∧ checkHome (locked live [] 1) ctxA (rG (locked live [] 1) 1) = .ok ()
    ∧ (lifeOf (locked live [] 2) (entryKey 1 0xC0 0)).gen ≠ hGen (rG (locked live [] 2) 1)
    ∧ lockWaiters (locked live [] 1) 0xC0 < 16384 ∧ (locked live [] 1).coh.replies = [] := by decide
/-- A route descriptor at 0x40 of own scratchpad: a strand of this device. -/
def routing : State := { mach [(1, 2 ^ 60 + 0x40)] with mem := memWrite [] (scratchAt 0 0x44) 4 (tagBits { core := 0, slot := 0, gen := 1 }) }
theorem witness_route : ownPtr routing (rG routing 1) 32 = .ok 0x40
    ∧ (routeOf routing (memRead routing.mem (scratchAt 0 0x40) 32)).isOk = true ∧ freeEntry routing 2 (defaultSlice routing 0) = some (entryKey 2 0xC0 0) := by
  decide
/-- O21: a renewal in transit, of a live entry and of one that has lapsed; a reply whose tag is the strand's and one that is stale. -/
def travelling (x : Life) : State := { locked x [] 1 with
  far := true, hold := { (locked x [] 1).hold with reqs := [{ tag := { core := 0, slot := 0, gen := 1 }, ctxh := ctxA, pts := 0, op := .renew 2 (mkHandle (entryKey 1 0xC0 0) 1) 100 }] } }
theorem witness_requests : StrandIssues 0 (travelling live) 0 0 (strand [(1, (mkHandle (entryKey 1 0xC0 0) 1).toNat)])
    ∧ checkHandle (travelling live) [0, 1, 2, 4, 5, 6, 7] (rG (travelling live) 1) = .ok ()
    ∧ hKind (mkHandle (entryKey 1 0xC0 0) 1) ≠ 4 ∧ checkHome (travelling live) ctxA (mkHandle (entryKey 1 0xC0 0) 1) = .ok ()
    ∧ (checkHome (travelling { live with st := 0 }) ctxA (mkHandle (entryKey 1 0xC0 0) 1)).isOk = false :=
  ⟨⟨rfl, by decide, rfl, rfl, rfl, rfl⟩, by decide, by decide, by decide, by decide⟩
def answered (gen : Nat) : State := { base { strand [] with st := 1, wait := .reply } with
  coh.replies := [{ tag := { core := 0, slot := 0, gen := gen }, act := .regs [(2, 7)] 5 }] }
theorem witness_replies : slotGenOf (answered 1) 0 0 = 1 ∧ strandAt (answered 1) 0 0 = some { strand [] with st := 1, wait := .reply }
    ∧ slotGenOf (answered 2) 0 0 ≠ 2 := by decide
/-- O22: a lock past its expiry, one at it, one with a waiter, and entries at and before the end of DUSK. -/
def past (kind st darkAt : Nat) (q : List LockWait) : State := { mach [] with
  time.dt := 2 ^ 20 + 1, hold.lives := [(entryKey kind 0xC0 0, { live with st := st, darkAt := darkAt })], hold.locks := [(entryKey kind 0xC0 0, { queue := q })] }
theorem witness_lapse :
    (lifeOf (past 1 1 0 []) (entryKey 1 0xC0 0)).expiry < localDt (past 1 1 0 []) 0xC0 ∧ (lockAt (past 1 1 0 []) (entryKey 1 0xC0 0)).queue = []
    ∧ (lockAt (past 1 1 0 [⟨{ core := 0 }, 9, 1, 0⟩]) (entryKey 1 0xC0 0)).queue = [⟨{ core := 0 }, 9, 1, 0⟩]
    ∧ localDt (mach []) 0xC0 ≤ (lifeOf (locked live [] 1) (entryKey 1 0xC0 0)).expiry
    ∧ (∀ k ∈ [0, 4, 5, 6], (lifeOf (past k 1 0 []) (entryKey k 0xC0 0)).st = 1)
    ∧ (∀ k ∈ [1, 2, 6], (lifeOf (past k 2 (2 ^ 20 + 1) []) (entryKey k 0xC0 0)).darkAt ≤ localDt (past k 2 (2 ^ 20 + 1) []) 0xC0)
    ∧ localDt (past 1 2 (2 ^ 20 + 2) []) 0xC0 < (lifeOf (past 1 2 (2 ^ 20 + 2) []) (entryKey 1 0xC0 0)).darkAt := by decide
theorem witness_notices : ({ mach [] with hold.withdrawals := [(3, { core := 0 })] } : State).hold.withdrawals[0]? = some (3, { core := 0 })
    ∧ ({ mach [] with hold.notices := [(0, 33, evqA)] } : State).hold.notices[0]? = some (0, 33, evqA) := ⟨rfl, rfl⟩


/-- O23: a route of this device with a credit and one with none; a queue with a record and one without; the strand's buffer. -/
def sending (credits : Nat) : State := { mach [(1, (mkHandle (entryKey 2 0xC0 0) 1).toNat), (2, 2 ^ 60 + 0x40)] with
  hold.lives := [(entryKey 2 0xC0 0, live), (placedKey, live)], hold.routes := [(entryKey 2 0xC0 0, { credits := credits })] }
theorem witness_send : ownPtr (sending 8) (rG (sending 8) 2) 32 = .ok 0x40 ∧ checkHandle (sending 8) [2] (rG (sending 8) 1) = .ok ()
    ∧ checkHome (sending 8) ctxA (rG (sending 8) 1) = .ok () ∧ (routeAt (sending 8) (rG (sending 8) 1)).credits ≠ 0
    ∧ (routeAt (sending 0) (rG (sending 0) 1)).credits = 0 ∧ (routeAt (sending 8) (rG (sending 8) 1)).dtype ≠ 2
    ∧ (strand []).steps ≠ 2 ∧ (sending 8).far = false := by decide
theorem witness_recv : checkHandle (holding { cap := 4, recs := [{}] } (2 ^ 60 + 0x40)) [2, 7] evqA = .ok () ∧ hKind evqA = 7
    ∧ checkHome (holding { cap := 4, recs := [{}] } (2 ^ 60 + 0x40)) ctxA evqA = .ok ()
    ∧ ownPtr (holding { cap := 4, recs := [{}] } (2 ^ 60 + 0x40)) (2 ^ 60 + 0x40) 32 = .ok 0x40 ∧ (strand []).got = [] := by decide +kernel
/-- O24: 128 descriptors of 0 at offset 0, a header and its values at the ends of their room, and a field of either order. -/
theorem witness_headers : StrandIssues 0 (mach [(1, 2 ^ 60), (2, 2 ^ 60 + 0x7FF00), (3, 2 ^ 60 + 0x7FF80)]) 0 0
      (strand [(1, 2 ^ 60), (2, 2 ^ 60 + 0x7FF00), (3, 2 ^ 60 + 0x7FF80)])
    ∧ ownPtr (mach [(1, 2 ^ 60)]) (rG (mach [(1, 2 ^ 60)]) 1) 64 = .ok 0 ∧ fldOk 0 = true
    ∧ ownPtr (mach [(2, 2 ^ 60 + 0x7FF00)]) (rG (mach [(2, 2 ^ 60 + 0x7FF00)]) 2) 8 = .ok 0x7FF00 ∧ 0x7FF00 + 256 ≤ 2 ^ 19
    ∧ ownPtr (mach [(3, 2 ^ 60 + 0x7FF80)]) (rG (mach [(3, 2 ^ 60 + 0x7FF80)]) 3) 8 = .ok 0x7FF80 ∧ 0x7FF80 + 128 ≤ 2 ^ 19
    ∧ fldOk 0x803F07C0 = true ∧ fldOk 0xC0070008 = true :=
  ⟨strand_issues _, by decide, by decide, by decide, by decide, by decide, by decide, by decide, by decide⟩
/-- O25: arrivals at a live queue with room and one that is full, and at one that has lapsed; a message for a strand; wake flits; records
given back; held records, a drop notice and a credit. -/
def arriving (q : Evq) : State := { holding q 0 with hold := { (holding q 0).hold with arriving := [{ q := evqA, ctxh := ctxA, msg := {} }] } }
theorem witness_arrivals : (arriving { cap := 4 }).hold.arriving[0]? = some { q := evqA, ctxh := ctxA, msg := {} }
    ∧ liveHandle (arriving { cap := 4 }) evqA = true ∧ (lifeOf (arriving { cap := 4 }) (hKey evqA)).owner = ctxA
    ∧ (evqAt (arriving { cap := 1, recs := [{}] }) (hKey evqA)).cap ≤ 1 ∧ liveHandle (mach []) evqA = false := by decide
def flying : State := { sending 8 with hold := { (sending 8).hold with
  flights := [{ route := mkHandle (entryKey 2 0xC0 0) 1, msg := {} }], drops := [mkHandle (entryKey 2 0xC0 0) 1], credits := [mkHandle (entryKey 2 0xC0 0) 1],
  routes := [(entryKey 2 0xC0 0, { credits := 7, dtag := BitVec.ofNat 32 (tagBits { core := 0, slot := 0, gen := 1 }) |>.toNat })],
  wakes := [{ tag := { core := 0, slot := 0, gen := 1 } }, { tag := { core := 0, slot := 0, gen := 2 } }], returns := [{ tag := {core := 0}, q := evqA }] } }
theorem witness_messages : (∀ f ∈ flying.hold.flights, (routeAt flying f.route).dtype = 0 ∧ (tagged flying (tagOf (routeAt flying f.route).dtag)).isSome = true
      ∧ (strand []).gotQ ≠ f.route)
    ∧ tget [] flying.core.chanWait 0 = [] ∧ flying.hold.drops = [mkHandle (entryKey 2 0xC0 0) 1] ∧ flying.hold.credits = flying.hold.drops
    ∧ hKind (mkHandle (entryKey 2 0xC0 0) 1) = 2 ∧ (lifeOf flying (entryKey 2 0xC0 0)).gen = hGen (mkHandle (entryKey 2 0xC0 0) 1)
    ∧ (routeAt flying (mkHandle (entryKey 2 0xC0 0) 1)).waiting = [] ∧ (evqAt flying (hKey evqA)).blocked = [] := by decide +kernel
theorem witness_wakes : (tagged (base { strand [] with st := 2, wait := .recv }) { core := 0, slot := 0, gen := 1 }).isSome = true
    ∧ tagged flying { core := 0, slot := 0, gen := 2 } = none ∧ filtered flying 0 {} = false ∧ liveHandle flying ctxA = true := by decide
theorem witness_held : tget [] { holding { cap := 2 } 0 with core.held := [(0, [trapTo true, trapTo false])] }.core.held 0 = [trapTo true, trapTo false]
    ∧ (evqAt (holding { cap := 2 } 0) (hKey evqA)).recs.length + 1 ≤ 2 ∧ 2 < (evqAt (holding { cap := 2, recs := [{}, {}] } 0) (hKey evqA)).recs.length + 1 := by
  decide
/-- A record of `n` elements in one row from `off`. -/
def row (off n : Nat) : Nat := off + 2 ^ 64 * (n + 2 ^ 16 + 2 ^ 32 + 2 ^ 48)
/-- Records at 0x100, 0x120 and 0x140 that g1, g2 and g3 name, in banks 1, 2 and 3 with formats `fd`, `fa` and `fa`. -/
def shapes (fd fa n : Nat) : State := { mach [(1, 2 ^ 60 + 0x100), (2, 2 ^ 60 + 0x120), (3, 2 ^ 60 + 0x140), (4, 65)] with
  mem := memWrite (memWrite (memWrite [] (scratchAt 0 0x100) 32 (row 0x8000 n)) (scratchAt 0 0x120) 32 (row 0x10000 n))
    (scratchAt 0 0x140) 32 (row 0x18000 n),
  sregs.bfmt := [(1, BitVec.ofNat 4 fd), (2, BitVec.ofNat 4 fa), (3, BitVec.ofNat 4 fa)] }
theorem witness_shapes (f : Nat) (hf : f = 1 ∨ f = 8) : Shapes (shapes f f 2) 0 2 (some 1) [2, 3] := by
  have key : ∀ m n L : Nat, n < 2 → 2 ≤ L → ¬ m / L < n / L := fun m n L hn hL h => by
    rw [Nat.div_eq_of_lt (by omega : n < L)] at h
    exact absurd h (Nat.not_lt_zero _)
  rcases hf with rfl | rfl <;>
  · refine ⟨⟨rfl, by decide +kernel, by decide +kernel, by decide +kernel, by decide +kernel, by decide +kernel, ?_, ?_⟩, rfl, by decide +kernel⟩
    · intro d hd m n hm hn h
      obtain rfl : 1 = d := by simpa using hd
      have : m = 0 ∧ n = 1 ∨ m = 1 ∧ n = 0 := by omega
      rcases this with ⟨rfl, rfl⟩ | ⟨rfl, rfl⟩ <;> (unfold Apart; decide +kernel)
    · intro d hd r _ m n hm hn h
      obtain rfl : 1 = d := by simpa using hd
      dsimp only at h
      refine absurd h (key _ _ _ hn ?_)
      decide +kernel

/-- O26: fields at and beyond their limits, a pointer that names no record, a record with reserved bits set, a RAW destination. -/
theorem witness_vshp : recPtr (shapes 1 1 2) (rG (shapes 1 1 2) 1) = .ok 0x100 ∧ (shapeAt (shapes 1 1 2) 0 1).ch = false
    ∧ (srcZ (shapes 1 1 2) (.wide 65535)).toNat ≤ 65535 ∧ ¬ (srcZ (shapes 1 1 2) (.wide 65536)).toNat ≤ 65535
    ∧ (srcS (shapes 1 1 2) (.wide 0x7FFFFF)).toInt < 2 ^ 23 ∧ (srcS (shapes 1 1 2) (.wide 0xFF800000)).toInt = -(2 ^ 23)
    ∧ recPtr (shapes 1 1 2) (rG (shapes 1 1 2) 4) = .error (bad (rG (shapes 1 1 2) 4))
    ∧ floatFmt (shapeAt (shapes 0 1 2) 0 1).fmt = false ∧ intFmt (shapeAt (shapes 0 1 2) 0 1).fmt = false
    ∧ (shapeAt { shapes 1 1 2 with mem := memPut (shapes 1 1 2).mem (scratchAt 0 0x119) 1 } 0 1).zeroOk = false := by decide +kernel
/-- O27 to O29: formats that combine; RAW and INT8 of one size; counts that differ; no element. -/
theorem witness_formats : (∀ r ∈ [(1 : GReg), 2, 3], floatFmt (shapeAt (shapes 1 1 2) 0 r).fmt = true ∧ intFmt (shapeAt (shapes 8 8 2) 0 r).fmt = true)
    ∧ (shapeAt (shapes 0 8 2) 0 1).size = (shapeAt (shapes 0 8 2) 0 2).size ∧ (shapeAt (shapes 1 1 2) 0 2).count = 2
    ∧ (shapeAt (shapes 1 1 0) 0 2).count = 0 ∧ (shapeAt (shapes 1 1 2) 0 1).e0 = 2 ∧ (shapeAt (shapes 1 1 2) 0 1).e1 = 1
    ∧ exprOf (shapes 1 1 2) 0 = 0 := by decide +kernel
theorem witness_reduction (n : Nat) (hn : n = 0 ∨ n = 2) : Shapes (shapes 1 1 n) 0 n none [2] := by
  rcases hn with rfl | rfl <;>
  exact ⟨⟨rfl, by decide +kernel, by decide +kernel, fun d hd => by simp at hd, by decide +kernel, by decide +kernel, fun d hd => by simp at hd,
    fun d hd => by simp at hd⟩, rfl, by decide +kernel⟩
/-- O29: a scale at its limit and beyond it, bounds in order and out of it. -/
theorem witness_scalars : -300 ≤ (srcS (shapes 1 1 2) (.wide 300)).toInt ∧ (srcS (shapes 1 1 2) (.wide 300)).toInt ≤ 300
    ∧ ¬ (srcS (shapes 1 1 2) (.wide 301)).toInt ≤ 300
    ∧ fCmp (f32.unpack 0) (f32.unpack 0x3F800000) ≤ 0 ∧ ¬ fCmp (f32.unpack 0x3F800000) (f32.unpack 0) ≤ 0
    ∧ (f32.unpack 0).isNan = false ∧ (f32.unpack 0x7FC00000).isNan = true := by decide +kernel
/-- A copy descriptor of `n` elements from a scratchpad offset, stride 1. -/
def copyDesc (off n : Nat) : Nat := 2 ^ 60 + off + 2 ^ 64 * n + 2 ^ 96
/-- g1 and g2 name copy descriptors, g3 an event queue, g5 a factor slot and g6 a shape. -/
def engines : State := { queued (mach [(1, 2 ^ 60 + 0x100), (2, 2 ^ 60 + 0x120), (3, evqA.toNat), (5, (mkHandle (entryKey 5 0 0) 1).toNat),
    (6, 2 ^ 60 + 0x140), (7, (mkHandle (entryKey 5 4 0) 1).toNat)]) { cap := 4 } with
  mem := memWrite (memWrite (memWrite [] (scratchAt 0 0x100) 32 (copyDesc 0x8000 4)) (scratchAt 0 0x120) 32 (copyDesc 0x10000 4))
    (scratchAt 0 0x140) 32 (row 0x18000 4 + 2 ^ 80 * 3), hub.ready := [(0, 2), (4, 2), (0xC0, 2), (2000, 2), (2001, 2)] }
theorem witness_copy_operands (b : Nat) (hb : b = copyDesc 0x8000 4) : DescOk engines b true false ∧ DescOk engines b false false := by
  subst hb
  exact ⟨⟨by decide +kernel, by decide +kernel, by decide +kernel, by decide +kernel, by decide +kernel, by decide +kernel, by decide +kernel, by decide +kernel⟩,
    ⟨by decide +kernel, by decide +kernel, by decide +kernel, by decide +kernel, by decide +kernel, by decide +kernel, by decide +kernel, by decide +kernel⟩⟩
/-- O30: descriptors that fit, ids at their limits, an event queue; FINIT's operands at their limits; a slot of another cluster. -/
theorem witness_commands : memRead engines.mem (scratchAt 0 (pOff (rG engines 1))) 32 = copyDesc 0x8000 4
    ∧ ownPtr engines (rG engines 2) 32 = .ok 0x120 ∧ checkHandle engines [7] (rG engines 3) = .ok ()
    ∧ (srcZ engines (.imm 1)).toNat = 1 ∧ (srcZ engines (.wide 0xFFFE)).toNat ≤ 0xFFFE ∧ 0xFFFE < (srcZ engines (.wide 0xFFFF)).toNat
    ∧ checkHandle engines [5] (rG engines 5) = .ok () ∧ hHome (rG engines 5) = 0 ∧ mshapePtr engines 0 (rG engines 6) = true
    ∧ mshapePtr engines 0 (rG engines 5) = false ∧ checkHandle engines [5] (rG engines 7) = .ok () ∧ hHome (rG engines 7) ≠ 0
    ∧ winOk engines 0 0 0x140 32 true false = true ∧ (queueAt engines 0 false).cmds.length < 64 ∧ (2 : BitVec 4).getLsbD 0 = false := by
  decide +kernel
/-- A command of the strand. -/
def cmdOf (op : CmdOp) : Cmd :=
  { op := op, tag := { core := 0, slot := 0, gen := 1 }, core := 0, ctxh := ctxA, record := {}, privb := 0, pts := 3, evq := evqA, env := { bundle := 1 } }
/-- A copy queue with it at its head. -/
def queueing (factor : Bool) (q : Queue) : State := putQueue { engines with
  work.bundles := [{ ctxh := ctxA, number := 1, ovls := [(2, 2 ^ 62, 12)] }] } 0 factor q
/-- A queue of another's waiting command, and a full one. -/
theorem witness_queue_entry : (queueAt (queueing false { waits := [⟨1, cmdOf (.ovld 2 none)⟩] }) 0 false).waits[0]? = some ⟨1, cmdOf (.ovld 2 none)⟩
    ∧ 64 ≤ (queueAt (queueing false { cmds := List.replicate 64 (cmdOf (.ovld 2 none)) }) 0 false).cmds.length := by decide +kernel
/-- O30: a QFENCE of the compute stream that is met, and one that waits for a copy. -/
theorem witness_stream_fence : fenceMet (streaming { st := 1 }) 0 [] = true ∧ (pairAt (streaming { st := 1 }) 0).st ≠ 0
    ∧ fenceMet (queueing false { cmds := [cmdOf (.ovld 2 none)] }) 0 [(0, 1)] = false := by decide +kernel
/-- O31: a copy that has not started, one that a token has reached, one that is held, and the beats of a copy, a fill and a gather. -/
def copying (op : CmdOp) (r : Run) : State := queueing false { cmds := [cmdOf op], run := r }
def copyOp : CmdOp := .copy { ptr := 0x1000000000008000, count := 4, stride := 1 } { ptr := 0x1000000000010000, count := 4, stride := 1 }
def gathOp : CmdOp := .gath { ptr := 0x1000000000008000, count := 4, stride := 1 }
  { ptr := 0x1000000000010000, count := 4, stride := 1, aux := 0x1000000000020000 }
def fillOp : CmdOp := .fill { ptr := 0x1000000000008000, count := 4, stride := 1, fmt := 1 } 7
theorem witness_copies : (∀ op ∈ [copyOp, gathOp, fillOp], let s := copying op { started := true, ets := 3 }
      (queueAt s 0 false).cmds = [cmdOf op] ∧ (sidesOf op).isSome = true ∧ cmdHeld s (cmdOf op) = false ∧ stopStatus s 0 (cmdOf op) = 0)
    ∧ (∀ x ∈ sidesOf copyOp, x.d.rt = false ∧ 0 < min x.d.count 64 ∧ x.index = 0 ∧ x.s.isSome = true) ∧ (∀ x ∈ sidesOf fillOp, x.s.isNone = true)
    ∧ cmdHeld { copying copyOp {} with work.launches := [(0, { st := 2, halted := true })] } (cmdOf copyOp) = true
    ∧ stopStatus { copying copyOp {} with core.filter := [(1024, [{ level := 0, id := 0 }])] } 0 (cmdOf copyOp) = 3
    ∧ pSpace 0x3001000000000000 = 3 ∧ winOk engines 4 0 0 4 false true = false := by decide +kernel
/-- The elements of a beat lie in own scratchpad, aligned and apart. -/
theorem witness_copy_elements : ∀ e ∈ List.range 4,
    pSpace (0x1000000000008000 + BitVec.ofInt 64 ((e : Int) * 1 * 1)) = 1
      ∧ (0x1000000000008000 + BitVec.ofInt 64 ((e : Int) * 1 * 1) : Word).toNat % 2 ^ 60 = 0x8000 + e := by decide +kernel
/-- O32: an overlay of the bundle, one that is mapped and one in neither; the first and the last beat; a waiter and a load that has ended. -/
theorem witness_overlay_loads : bundleEntry (copying (.ovld 2 none) {}) ctxA 1 2 = some (2 ^ 62, 12)
    ∧ bundleEntry (copying (.ovld 3 none) {}) ctxA 1 3 = none ∧ tget 0 (copying (.ovld 1 none) {}).core.ovt 0 = 1
    ∧ (queueAt (copying (.ovld 2 (some 3)) { started := true, beat := 1023, frame := 3 }) 0 false).run.beat = 1023 := by decide +kernel
def waiting : State := { base { strand [] with st := 1, wait := .overlay 0x20000 } with core.loadEnds := [(0, 2, true), (0, 2, false)] }
theorem witness_overlay_waiters : (overlayWants waiting)[0]? = some (0, 2, ctxA, ({} : Rec), 0) ∧ overlayComing { waiting with core.loadEnds := [] } 0 2 = false
    ∧ overlayComing (queueing false { cmds := [cmdOf (.ovld 2 none)] }) 0 2 = true ∧ waiting.core.loadEnds[1]? = some (0, 2, false)
    ∧ (∀ t ∈ strandAt waiting 0 0, t.steps = 0) := by decide +kernel
/-- A remote copy through port 0 with packet 5 of 64 bytes out, and a WDONE on port 0. -/
def remoteOp : CmdOp :=
  .copy { ptr := 0, count := 64, stride := 1, rt := true, aux := mkHandle (entryKey 2 0xC0 0) 1 } { ptr := 0x1000000000010000, count := 64, stride := 1 }
def remote (acked : List Nat) (xid status : Nat) : State :=
  { copying remoteOp { started := true, beat := 1, out := [(5, 64, 0)], acked := acked, peer := 1 } with
    hold.routes := [(entryKey 2 0xC0 0, { dtype := 0, peer := 1 })],
    link.ports := [(0, { st := 2, rx := [{ packetOf 2 xid [] with status := status }] })] }
theorem witness_remote_copies : ∀ x ∈ [([], 5, 0), ([], 5, 7), ([5], 5, 0), ([], 6, 0)], let s := remote x.1 x.2.1 x.2.2
    (remoteRun s 0 0).isSome = true ∧ wdoneOwner s 0 x.2.1 = some 0 ∧ transOf s 0 x.2.1 = none
      ∧ (firstRx s 0 2 fun p => p.xid == x.2.1).isSome = true ∧ (∀ m, m < 8 → m ≠ 0 → (portAt s m).rx = []) := by decide +kernel

/-- A factor queue with a command that has begun, slot 0 of its cluster LIVE with order `n`. -/
def slotF : Word := mkHandle (entryKey 5 0 0) 1
def factoring (op : CmdOp) (r : Run) (n : Nat) (lives : Sparse Life := [(placedKey, live), (entryKey 5 0 0, live)]) : State :=
  { queueing true { cmds := [cmdOf op], run := r } with
    hold.lives := lives, sregs.bfmt := [(3, 1)], eng.order := tset 0 [] 0 n,
    eng.fac := (List.range n).map fun j => (65 * j, 0x3F800000) }
/-- A record of a 4 by 4 matrix at 0x18000, in bank 3, which is FP32. -/
def matrix4 : Nat := 0x18000 + 2 ^ 64 * (4 + 2 ^ 16 * 4 + 2 ^ 32 + 2 ^ 48) + 2 ^ 128 * 4
def atF : Word := 0x1000000000000140
/-- O33: each operation at its event over a LIVE slot, at the limits of its order; a FWR whose triangle is the identity and one with a NaN on the
diagonal; a slot that has lapsed; a sweep of one vector. -/
theorem witness_factor_events : (∀ op ∈ [CmdOp.finit slotF 64 0x3F800000, .fdia slotF 2, .fwr slotF atF matrix4, .fupd slotF atF matrix4],
      let s := factoring op { started := true } 4
      (queueAt s 0 true).cmds = [cmdOf op] ∧ (factorArgs op).1 = slotF ∧ slotKey (hKey slotF) 4 = 0
        ∧ checkHome s ctxA slotF = .ok () ∧ stopStatus s 0 (cmdOf op) = 0 ∧ tget 0 s.eng.order 0 = 4)
    ∧ (factorUnits (factoring (.fwr slotF atF matrix4) { started := true } 4) (cmdOf (.fwr slotF atF matrix4))).e0 = 4
    ∧ (factorUnits (factoring (.fwr slotF atF matrix4) { started := true } 4) (cmdOf (.fwr slotF atF matrix4))).e1 = 4
    ∧ tget 0 (factoring (.fdia slotF 2) { started := true } 0).eng.order 0 = 0
    ∧ (checkHome (factoring (.fdia slotF 2) { started := true } 4 [(placedKey, live)]) ctxA slotF).isOk = false := by decide +kernel
theorem witness_sweep : (∀ b ∈ [true, false], (sweepAll b 0 0 [[0x40000000]] [[0x3F800000]]).isOk = true)
    ∧ (sweepAll true 0 0 [[0x3F800000]] [[0x3F800000]]).isOk = false := by decide +kernel
/-- O33: a shape in FP32 within its bank and reach, one whose bank is not FP32; a solve between its two passes. -/
theorem witness_factor_accesses : ∀ op ∈ [CmdOp.fupd slotF atF matrix4, .ftrs slotF atF matrix4, .ftrb slotF atF matrix4, .frd slotF atF matrix4],
    let s := factoring op { started := true, phase := 1, pos := 3 } 4
    let x := factorShape s (cmdOf op)
    x.fmt = 1 ∧ x.inBank 4 4 = true ∧ x.e0 = 4 ∧ x.e1 = 4 ∧ pScratch atF = true ∧ pZeroOk atF = true ∧ pSpace atF ≠ 3
      ∧ (∀ i ∈ List.range 16, winOk s (pCore 0 atF) 0 (x.addr 4 i) 4 true true = true) ∧ cmdHeld s (cmdOf op) = false
      ∧ (factorShape { s with sregs := {} } (cmdOf op)).fmt ≠ 1 := by decide +kernel
/-- O33: the end of a plain form, of a .Q form and of a stream's operation. -/
theorem witness_factor_ends : (queueAt (factoring (.fdia slotF 2) { started := true, fin := some (0, 0, 0), vals := [7] } 4) 0 true).run.fin = some (0, 0, 0)
    ∧ tagged (factoring (.fdia slotF 2) { started := true } 4) (cmdOf (.fdia slotF 2)).tag ≠ none
    ∧ ((pairAt (streaming { st := 1, staging := { busy := true, load := some (0, { filled := true }) } }) 0).stream false).busy = true := by
  decide +kernel
/-- O34: rows of a factor and a vector of one length, with an element of 0 and one that is not. -/
theorem witness_sweep_step : [2, 3].length = [4, 5].length ∧ (0x80000000 : Nat) % 0x80000000 = 0 ∧ (1 : Nat) % 0x80000000 ≠ 0
    ∧ ([[0x3F800000, 0], [0x3F800000]] : List (List Nat)).length = [1, 2].length := by decide
/-- The machine whose staging or compute stream acts at the beginning of an instruction, g1 a shape at 0x140 in bank 3, g2 a slot. -/
def slotM : Word := mkHandle (entryKey 4 0 0) 1
def shaped (e0 e1 : Nat) : Nat := 0x18000 + 2 ^ 64 * (e0 + 2 ^ 16 * e1 + 2 ^ 32 + 2 ^ 48) + 2 ^ 128 * e0
def streams (cp : Bool) (fmt e0 e1 : Nat) (p : Pair) : State :=
  let ctx : Ctx := { pc := mkPc 1 0, g := regs [(1, 2 ^ 60 + 0x140), (2, slotM.toNat), (3, 2 ^ 60 + 0x200), (4, 64), (5, 0x10000)] }
  { mach [] with
    mem := memWrite [] (scratchAt 0 0x140) 32 (shaped e0 e1), sregs.bfmt := [(3, BitVec.ofNat 4 fmt)],
    hub.ready := [(0, 2), (0xC0, 2), (2000, 2), (3000, 2)], hold.lives := [(entryKey 0 0xC0 0, live), (placedKey, live), (entryKey 4 0 0, live)],
    hold.ranges := [(entryKey 0 0xC0 0, { base := 0x10000, size := 0x10000 })], page.pte := [(pteKey ctxA 1, { st := 1, rd := true, wr := true, pn := 1 })],
    eng.pairs := [(0, { p with st := 1, ctxh := ctxA, owner := { core := 0, slot := 0, gen := 1 }, staging := { ctx := ctx, st := 1 }, compute := { ctx := ctx, st := 1 } })],
    cur := .stream 0 cp }
theorem stream_issues (cp : Bool) (fmt e0 e1 : Nat) (p : Pair) : StreamIssues 0 (streams cp fmt e0 e1 p) 0 cp ((pairAt (streams cp fmt e0 e1 p) 0).stream cp) := by
  cases cp <;> exact ⟨rfl, rfl, by show (1 : Nat) ≠ 0; decide, rfl, rfl, rfl, ⟨rfl, rfl, rfl, rfl, rfl⟩, ⟨fun _ h => (List.not_mem_nil h).elim, rfl⟩⟩
/-- A matrix shape of `e0` by `e1` units is read at its place. -/
theorem witness_matrix_shape (x : Nat × Nat × Nat) (hx : x ∈ [(2, 32, 1), (4, 32, 128), (2, 64, 32), (12, 64, 8)]) (wr : Bool) :
    MShape (streams wr x.1 x.2.1 x.2.2 {}) 0 0x1000000000000140
      (shapeOf (streams wr x.1 x.2.1 x.2.2 {}) 0 0x1000000000000140 (memRead (streams wr x.1 x.2.1 x.2.2 {}).mem (scratchAt 0 0x140) 32)) wr := by
  have h : ∀ x ∈ [(2, 32, 1), (4, 32, 128), (2, 64, 32), (12, 64, 8)], ∀ wr : Bool,
      (let s := streams wr x.1 x.2.1 x.2.2 {}
       let sh := shapeOf s 0 0x1000000000000140 (memRead s.mem (scratchAt 0 0x140) 32)
       mshapePtr s 0 0x1000000000000140 = true ∧ winOk s 0 0 0x140 32 true false = true ∧ (sh.ch = false ∧ sh.zeroOk = true ∧ sh.e2 = 1 ∧ sh.e3 = 1)
         ∧ mshapePlaced sh = .ok ()
         ∧ ∀ i, i < sh.count * (unitAccess sh.fmt).2 → winOk s 0 0 (pOff (mshapeAt sh i)) (unitAccess sh.fmt).1 (!wr) wr = true) := by
    intro x hx wr
    refine ⟨?_, ?_, ?_, ?_, fun i _ => by simp [winOk]⟩ <;> revert x wr <;> decide +kernel
  obtain ⟨a, b, c, d, e⟩ := h x hx wr
  exact ⟨⟨a, b, rfl, c, d⟩, e⟩
/-- O35: shapes of A and B at their limits; buffers' numbers; a FIFO with room and a full one; the ends of MLUT's, MSCL's and MCFG's ranges. -/
theorem witness_buffers : aFmt 2 = true ∧ kOk 32 = true ∧ kOk 256 = true ∧ bFmt 14 = true ∧ scaledFmt 2 = false ∧ scaledFmt 12 = true
    ∧ (srcZ (streams false 2 32 1 {}) (.imm 1)).toNat < 2 ∧ 4 ≤ (srcZ (streams false 2 32 1 {}) (.imm 4)).toNat
    ∧ mshapePtr (streams false 2 32 1 {}) 0 0x10 = false
    ∧ pSpace (rG (streams false 2 32 1 {}) 3) = 1 ∧ (srcZ (streams false 2 32 1 {}) (.wide 1024)).toNat ≤ 1024
    ∧ ((pairAt (streams false 2 32 1 { fifo := [List.replicate 1024 0] }) 0).fifo.map List.length).sum + 1024 ≤ 2048
    ∧ ¬ (pairAt (streams false 2 32 1 { fifo := List.replicate 8 [0] }) 0).fifo.length < 8
    ∧ (srcZ (streams false 2 32 1 {}) (.imm 63)).toNat < 64 ∧ (srcZ (streams true 2 32 1 {}) (.wide 0xF4E)).toNat < 2 ^ 12
    ∧ kOk 33 = false := by decide +kernel
/-- The tile's accesses are made: of A 32 of BF16, of B 2,048. -/
def madeAll (o : Flow (List Nat)) (n : Nat) : Bool :=
  match o with
  | .ok _ vs => vs.length == n
  | _ => false
theorem witness_tile_reads : pSpace (rG (streams false 2 32 1 {}) 5) = 0 ∧ checkPtr (streams false 2 32 1 {}) (rG (streams false 2 32 1 {}) 5) 32 1 = .ok ()
    ∧ (rG (streams false 2 32 1 {}) 4).toNat % 32 = 0 ∧ 32 * fmtSize 2 ≤ (rG (streams false 2 32 1 {}) 4).toNat
    ∧ madeAll (readAll 2 32 (fun i => 0x10000 + BitVec.ofNat 64 (i / 32 * 64) + BitVec.ofNat 64 (2 * (i % 32))) 32769
        (mapStream (streams false 2 32 1 { mcfg := 0x22 }) fun x => { x with head := [2] })) 32 = true := by decide +kernel

/-- O36: groups of one product: a sum of 0, one that is not, a NaN, an infinity by 0, and infinities of both signs. -/
theorem witness_groups : (([1] : List Int).zip [0]).map (fun e => e.1 * e.2) = [0] ∧ (([2] : List Int).zip [3]).map (fun e => e.1 * e.2) = [6]
    ∧ (BVal.nan, BVal.fin 1) ∈ [BVal.nan].zip [BVal.fin 1] ∧ (BVal.inf true, BVal.fin 0) ∈ [BVal.inf true].zip [BVal.fin 0]
    ∧ (BVal.inf true, BVal.inf true) ∈ [BVal.inf true, .inf true].zip [BVal.inf true, .inf false] ∧ (0 : Nat) / 2 ^ 23 % 256 ≠ 255 := by decide
/-- O37: a slot that is LIVE; WB0 and XB0 filled in BF16; WB1 filled in INT2 with its segment at the head of the FIFO. -/
def filling : Pair := { mcfg := 0x22, fifo := [[0]], bufs := [(0, { filled := true, fmt := 2, k := 32, elems := List.replicate 2048 0 }),
  (1, { filled := true, fmt := 12, k := 32, elems := List.replicate 2048 0 }), (4, { filled := true, fmt := 2, k := 32, m := 1, elems := List.replicate 32 0 })] }
theorem witness_accumulations : slotEvent (streams true 2 32 1 filling) slotM = .ok 0 ∧ rG (streams true 2 32 1 filling) 2 = slotM
    ∧ (pairAt (streams true 2 32 1 filling) 0).staging.load = none
    ∧ (∀ n ∈ [0, 1], (bufAt (streams true 2 32 1 filling) 0 n).filled = true ∧ (bufAt (streams true 2 32 1 filling) 0 n).elems.length = 64 * 32)
    ∧ (bufAt (streams true 2 32 1 filling) 0 4).m = 1 ∧ (bufAt (streams true 2 32 1 filling) 0 4).elems.length = 1 * 32
    ∧ scaledFmt 2 = false ∧ scaledFmt 12 = true ∧ (decodeScales 1 0 (List.replicate 64 127) (nibbles (List.replicate 32 0))).isOk = true
    ∧ tileCheck (streams true 2 32 1 filling) 0x10000 128 (64 * unitBytes 2) = .ok () := by decide +kernel
/-- O37: a slot that is parked, one that has lapsed, and the ends of MRDS's range. -/
theorem witness_slots : checkHandle (streams true 2 32 1 {}) [4] slotM = .ok () ∧ hHome slotM = 4 * 0 ∧ checkHome (streams true 2 32 1 {}) ctxA slotM = .ok ()
    ∧ (tget ({} : Mslot) { streams true 2 32 1 {} with eng.mslots := [(0, { parked := true })] }.eng.mslots (slotKey (hKey slotM) 8)).parked = true
    ∧ (slotEvent { streams true 2 32 1 {} with hold.lives := [(placedKey, live)] } slotM).isOk = false
    ∧ (srcZ (streams true 2 32 1 {}) (.wide 8191)).toNat < 8192 ∧ 8192 ≤ (srcZ (streams true 2 32 1 {}) (.wide 8192)).toNat := by decide +kernel
/-- O37: MMV's reads of a B tile of INT2 with K 32. -/
theorem witness_mmv_reads : bTile 12 32 = (4, 128, 1) ∧ tileCheck (streams true 2 32 1 filling) 0x10000 512 (64 * unitBytes 12) = .ok ()
    ∧ madeAll (readAll 4 128 (tileAt 0x10000 512 4 128) 16385 (mapStream (freshen (streams true 2 32 1 { filling with mcfg := 0x2C })) fun x =>
      { x with head := [12, 0, 2, 32, 1] ++ List.replicate 32 0 })) 128 = true := by decide +kernel
/-- O37: the elements of a tile that MWB writes lie apart. -/
theorem witness_store_tile : ∀ m ∈ List.range 4, ∀ n ∈ List.range 4, m ≠ n →
    let sh := shapeOf (streams true 1 2 2 {}) 0 0x1000000000000140 (memRead (streams true 1 2 2 {}).mem (scratchAt 0 0x140) 32)
    sh.count = 4 ∧ (sh.addr sh.size m + sh.size ≤ sh.addr sh.size n ∨ sh.addr sh.size n + sh.size ≤ sh.addr sh.size m) := by decide +kernel

/-- O38: an idle pair and one that the strand owns in each of its states; pointers that start a stream, and one that does not; semaphores at 0,
between and at their limit. -/
def pairing (p : Pair) : State := { mach [(1, 0x10001), (2, 2 ^ 32), (3, slotM.toNat)] with
  eng.pairs := [(0, p)], hold.lives := [(placedKey, live), (entryKey 4 0 0, live)], far := true }
def owned (st : Nat) : Pair := {
  st := st, ctxh := ctxA, owner := { core := 0, slot := 0, gen := 1 }, fault := some ⟨.streamDesync, 0, 0⟩,
  staging := { st := 2 }, compute := { st := 2 } }
theorem witness_forks : StrandIssues 0 (pairing {}) 0 0 (strand [(1, 0x10001), (2, 2 ^ 32), (3, slotM.toNat)])
    ∧ codeOk (srcZ (pairing {}) (.reg 1)).toNat = true ∧ codeOk (srcZ (pairing {}) (.reg 2)).toNat = false ∧ (pairAt (pairing {}) 0).st = 0
    ∧ (∀ n ∈ [1, 2, 3, 4], (pairAt (pairing (owned n)) 0).st = n ∧ (pairAt (pairing (owned n)) 0).owner = curTag (pairing (owned n)))
    ∧ (pairAt (pairing (owned 4)) 0).fault.isSome = true ∧ slotEvent (pairing {}) (rG (pairing {}) 3) = .ok 0 := by
  refine ⟨⟨rfl, by decide, rfl, rfl, rfl, rfl⟩, by decide +kernel, by decide +kernel, by decide +kernel, by decide +kernel, by decide +kernel, by decide +kernel⟩
theorem witness_semaphores : (semAt (pairing { sems := [(7, { count := 65534 })] }) 7).count < 65535
    ∧ 65535 ≤ (semAt (pairing { sems := [(7, { count := 65535 })] }) 7).count ∧ (semAt (pairing {}) 7).count = 0
    ∧ (semAt (pairing { sems := [(7, { count := 1 })] }) 7).queue = [] ∧ partnerEnded (pairing {}) = false
    ∧ partnerEnded (streaming { st := 2, staging := { st := 2 }, compute := { st := 1 } }) = true ∧ 8 ≤ (srcZ (pairing {}) (.imm 8)).toNat := by
  decide +kernel
/-- O38: a stream that waits in SEMW and whose partner has ended. -/
theorem witness_desync : let s := streaming { st := 2, staging := { st := 2 }, sems := [(0, { queue := [.stream 0 true] })], compute := { st := 1, wait := true, fetched := true, ctx := { iw := 0xBD0000000000000000000000 } } }
    let x := (pairAt s 0).stream true
    x.ctx.iw.extractLsb' 88 8 = 0xBD#8 ∧ x.wait = true ∧ x.fetched = true ∧ ((pairAt s 0).stream false).st ≠ 1
      ∧ ((0, { queue := [.stream 0 true] }) : Nat × Sem) ∈ (pairAt s 0).sems := by decide +kernel
/-- A record of launch 1 at 0x100, and a cell at 0x140 of the core's own scratchpad: armed with `count` where `st` is 1. -/
def recordR : Rec := { code := 0x10000, launch := 1, prio := 15 }
def celled (code : BitVec 32) (count st : Nat) (ctx : Word := ctxA) (mask : Nat := 1) : State := { mach [(1, 2 ^ 60 + 0x100), (2, 2 ^ 60 + 0x140), (3, 2)] with
  mem := memWrite (memWrite [] (scratchAt 0 0x100) 32 (recBits { recordR with code := code }).toNat) (scratchAt 0 0x140) 32 (count + 2 ^ 32 * st),
  work.launches := [(1, { st := 2, out := 1, ctxh := ctx, cmask := mask })] }
/-- O39: a record that runs, ones that R297, R298 and R313 refuse, cells armed and not armed, amounts and counts where they meet, a ring with room. -/
theorem witness_spawn : ownPtr (celled 0x10000 2 1) (rG (celled 0x10000 2 1) 1) 32 = .ok 0x100
    ∧ cellPtr (celled 0x10000 2 1) (rG (celled 0x10000 2 1) 2) = .ok (0, 0x140)
    ∧ recOk (recOf (BitVec.ofNat 256 (memRead (celled 0x10000 2 1).mem (scratchAt 0 0x100) 32))) = true
    ∧ codeOk (recOf (BitVec.ofNat 256 (memRead (celled 0 2 1).mem (scratchAt 0 0x100) 32))).code.toNat = false
    ∧ (launchAt (celled 0x10000 2 1) 1).ctxh = ctxA ∧ (launchAt (celled 0x10000 2 1 0) 1).ctxh ≠ ctxA ∧ (launchAt (mach []) 1).st = 0
    ∧ admits (celled 0x10000 2 1) (launchAt (celled 0x10000 2 1) 1) 0 = true ∧ winOk (celled 0x10000 2 1) 0 0 0x140 64 true true = true
    ∧ memRead (celled 0x10000 2 1).mem (scratchAt 0 0x144) 1 = 1 ∧ memRead (celled 0x10000 2 0).mem (scratchAt 0 0x144) 1 ≠ 1
    ∧ memRead (celled 0x10000 2 1).mem (scratchAt 0 0x140) 4 = 2 ∧ (srcZ (celled 0x10000 2 1) (.reg 3)).toNat = 2
    ∧ (ringAt (celled 0x10000 2 1) 0 15).length < 4096 ∧ (srcZ (celled 0x10000 2 1) (.wide 0xFFFFFFFF)).toNat < 2 ^ 32 := by decide +kernel
/-- A barrier cell of N arrivals at 0x140, g1 the sense. -/
def barred (n arr pend phase : Nat) : State := { mach [(1, 1), (2, 2 ^ 60 + 0x140), (3, 2)] with
  mem := memWrite [] (scratchAt 0 0x140) 32 (n + 2 ^ 32 * arr + 2 ^ 96 * pend + 2 ^ 128 * phase),
  work.bars := [{ core := 0, off := 0x140, tag := { core := 0, slot := 0, gen := 1 }, d := 1, released := some 0 }, { core := 0, off := 0x140, tag := { core := 0, slot := 1, gen := 9 }, d := 1, released := none }] }
theorem witness_barriers : cellPtr (barred 2 1 0 1) (rG (barred 2 1 0 1) 2) = .ok (0, 0x140) ∧ (rG (barred 2 1 0 1) 1).toNat < 2
    ∧ 2 ≤ (rG (barred 2 1 0 1) 3).toNat
    ∧ (let f (s : State) (k : Nat) : Nat := memRead s.mem (scratchAt 0 0x140 + 4 * k) 4
       f (barred 2 1 0 1) 1 + 1 = f (barred 2 1 0 1) 0 ∧ f (barred 2 0 0 1) 1 + 1 < f (barred 2 0 0 1) 0 ∧ f (barred 2 1 0 1) 4 % 2 = 1
         ∧ f (barred 2 1 1 1) 3 ≠ 0 ∧ f (barred 2 1 0 0) 4 % 2 = 0 ∧ f (barred 0 0 0 1) 0 = 0)
    ∧ (∀ t ∈ tagged (barred 2 1 0 1) { core := 0, slot := 0, gen := 1 }, 0 ≤ t.lastIssue) ∧ tagged (barred 2 1 0 1) { core := 0, slot := 1, gen := 9 } = none := by
  decide +kernel
/-- O40: a descriptor at 0x100 that keeps R315 under an OPEN graph, an OPEN phase and a free launch entry. -/
def descL : Nat := 0x10000 + 2 ^ 48 * 4 + 2 ^ 160 * 1 + 2 ^ 256 * evqA.toNat + 2 ^ 320 * 65536 + 2 ^ 352 * 4096 + 2 ^ 384 * 8
  + 2 ^ 448 * (mkHandle (entryKey 0 0xC0 0) 1).toNat + 2 ^ 512 * (mkHandle (entryKey 0 0xC0 0) 1).toNat + 2 ^ 576 * 1 + 2 ^ 640 * 1
def launching (graph : Counter) : State := { queued (mach [(1, 2 ^ 60 + 0x100)]) { cap := 4 } with
  mem := memWrite [] (scratchAt 0 0x100) 128 descL, hold.lives := [(entryKey 0 0xC0 0, live), (placedKey, live), (entryKey 7 0xC0 0, live)],
  hold.ranges := [(entryKey 0 0xC0 0, { base := 0x10000, size := 0x10000 })], work.counters := [(0, graph)] }
def graphC (st : Nat) (ctx : Word) : Counter := { st := st, level := 1, ctxh := ctx, gen := 1 }
theorem witness_launch : LaunchOk (launching (graphC 1 ctxA)) ctxA descL :=
  ⟨⟨by decide +kernel, by decide +kernel, by decide +kernel, by decide +kernel, by decide +kernel, by decide +kernel, by decide +kernel, by decide +kernel,
    ⟨0, by decide +kernel⟩, by decide +kernel⟩, by decide +kernel, by decide +kernel⟩
theorem witness_launch_states : memRead (launching (graphC 1 ctxA)).mem (scratchAt 0 0x100) 128 = descL
    ∧ ownPtr (launching (graphC 1 ctxA)) (rG (launching (graphC 1 ctxA)) 1) 64 = .ok 0x100 ∧ 0x100 + 128 ≤ 2 ^ 19
    ∧ counterLive (launching (graphC 1 ctxA)) 1 = true ∧ counterLive (launching {}) 1 = false
    ∧ (counterAt (launching (graphC 2 ctxA)) 1).st ≠ 1 ∧ (counterAt (launching (graphC 1 0)) 1).ctxh ≠ ctxA
    ∧ freeLaunch (launching (graphC 1 ctxA)) (counterHome 1) = some 1 ∧ (checkFields (launching (graphC 1 ctxA)) (checkHandle (launching (graphC 1 ctxA))) (checkStgt (launching (graphC 1 ctxA))) 0).isOk = false := by decide +kernel
theorem witness_stage_entries : (stageEntries [2 + 65536 + 2 ^ 32 * 2]).isOk = true ∧ (stageEntries [4097]).isOk = false := by decide +kernel
/-- O41: an OPEN job and phase with a child, a free entry of the instance's, another context's counter, names at and beyond their levels. -/
def counting (c : Counter) (a b : Nat) : State := { mach [(1, a), (2, b)] with work.counters := [(0, c)], work.launches := [(5, { st := 2, out := 1, ctxh := ctxA, graph := 1 })] }
theorem witness_counters : freeCounter (mach []) (defaultSlice (mach []) 0) = some 1 ∧ slicePresent (mach []) (defaultSlice (mach []) 0) = true
    ∧ counterLive (counting { st := 1, level := 3, out := 1, ctxh := ctxA, gen := 1 } (3 * 2 ^ 32 + 1) 0) 1 = true
    ∧ rG (counting { st := 1, level := 3, ctxh := ctxA, gen := 1 } (3 * 2 ^ 32 + 1) 0) 1 = BitVec.ofNat 64 (3 * 2 ^ 32 + 1)
    ∧ freeCounter (counting { st := 1, level := 3, ctxh := ctxA, gen := 1 } 0 0) (counterHome 1) = some (16384 + 1)
    ∧ 4 ≤ (rG (counting {} (4 * 2 ^ 32) 0) 1).toNat / 2 ^ 32 ∧ (counterAt (counting { gen := 1, cts := 9 } (2 ^ 32 + 1) 0) 1).st = 0 := by decide +kernel
/-- O41: a unit's end at a launch with a child left, at its last, and at a free entry; a cancellation with and without room for its token; a token that
a core takes, an acknowledgment and a retirement. -/
def ending (l : Launch) (x : Counter) : State := { counting x 5 0 with work.ends := [{ launch := 5, ts := 7, cause := 0 }], work.launches := [(5, l)] }
theorem witness_ends : (launchAt (ending { st := 2, out := 2 } {}) 5).out = 2 ∧ (launchAt (ending {} {}) 5).st = 0
    ∧ counterLive (ending { st := 2, out := 1, graph := 1 } (graphC 2 ctxA)) (launchAt (ending { st := 2, out := 1, graph := 1 } (graphC 2 ctxA)) 5).graph = true
    ∧ counterLive (ending { st := 2, out := 1, graph := 1 } { graphC 2 ctxA with out := 1 }) (counterAt (ending { st := 2, out := 1, graph := 1 } { graphC 2 ctxA with out := 1 }) 1).parent = false := by
  decide +kernel
theorem witness_cancel : rG (ending { st := 2, out := 1, ctxh := ctxA } {}) 1 = BitVec.ofNat 64 5 ∧ cancelUnits (mach []) ≠ []
    ∧ 256 ≤ { mach [] with work.tokens := List.replicate 256 { level := 0, id := 9 } }.work.tokens.length
    ∧ (∀ n ∈ [0, 2, 3], (launchAt (ending { st := n, ctxh := ctxA } {}) 5).st = n) ∧ filtered (mach []) 0 (strand []).record = false
    ∧ matchesToken (strand []).record { level := 0, id := 0 } = true ∧ matchesToken (strand []).record { level := 0, id := 1 } = false := by decide +kernel
def casting : State := { mach [] with
  work.casts := [{ token := { level := 0, id := 1 }, toTake := [], left := [0], waiter := some { core := 0, slot := 0, gen := 1 } }],
  work.retires := [({ level := 0, id := 2 }, [0, 1])] }
theorem witness_casts : (tagged casting { core := 0, slot := 0, gen := 1 }).isSome = true ∧ (∀ b ∈ casting.work.casts, b.toTake = [] ∧ b.left = [0])
    ∧ (0 : Nat) ∉ [1] ∧ (0 : Nat) ∈ ({ casting.work.casts.headD { token := { level := 0, id := 1 }, toTake := [], left := [], waiter := none } with toTake := [0] }).toTake := by
  decide +kernel

/-- O42: a core with slot 1 free, a ring's record of launch 1, a resident image or a resume entry, and a launch with a free region or none. -/
def binding (e : RingEntry) (l : Launch) : State := { mach [] with core.rings := [(3, [e])], work.launches := [(1, l)] }
def ready1 : Launch := { st := 2, ctxh := ctxA, rgn := 2, used := [0] }
def entry1 : RingEntry := .record { code := 0x10000, prio := 3, launch := 1 } 0 5 none none
theorem witness_bind : corePresent (binding entry1 ready1) 0 = true ∧ slotFree (binding entry1 ready1) 0 1 = true ∧ (0 : Nat) ∉ (binding entry1 ready1).core.idle
    ∧ ringAt (binding entry1 ready1) 0 3 = [entry1] ∧ (∀ q ∈ List.range 16, q ≠ 3 → ringAt (binding entry1 ready1) 0 q = [])
    ∧ imagesHeld (binding entry1 ready1) 0 < 32 ∧ filtered (binding entry1 ready1) 0 { launch := 1 } = false ∧ liveHandle (binding entry1 ready1) ready1.ctxh = true
    ∧ (1 : Nat) < ready1.rgn ∧ (1 : Nat) ∉ ready1.used ∧ (0 : Nat) ∈ ready1.used ∧ withheld (binding entry1 ready1) 0 = false
    ∧ withheld { binding entry1 ready1 with work.therm := [(0, { withheld := true })] } 0 = true
    ∧ (RingEntry.resume (strand []) 0).isResident = true ∧ entry1.isResident = false
    ∧ liveHandle (binding entry1 { ready1 with ctxh := 0 }) (launchAt (binding entry1 { ready1 with ctxh := 0 }) 1).ctxh = false := by decide +kernel
theorem witness_promotion : (ringAt { binding entry1 ready1 with time.dt := 4096 } 0 3)[0]? = some entry1 ∧ 0 + 4096 ≤ { binding entry1 ready1 with time.dt := 4096 }.time.dt := by
  decide +kernel
/-- A strand of a disabled slot, blocked or in rotation, its launch's images in a page at frame 1, and a cooler cluster that its launch admits. -/
def displaced (st : Nat) : State := { ranged [] with
  core.slots := [(0, { strand [] with st := st, record := { launch := 1 } })], core.slotOff := [(0, true)],
  work.launches := [(1, { st := 2, ctxh := ctxA, imgb := 0x10000, cmask := 1 })] }
theorem witness_displace : (∀ n ∈ [0, 2, 4], tget false (displaced n).core.slotOff 0 = true ∧ (∀ t ∈ strandAt (displaced n) 0 0, t.st = n ∧ t.hold ≤ 0
      ∧ (match imagePlace (displaced n) 0 t with
        | .at_ pa => pa == 0x10000
        | _ => false) = true)) ∧ (displaceTarget (displaced 0) (launchAt (displaced 0) 1) 0).isSome = true := by decide +kernel
theorem witness_migrants : let s := { mach [] with core.migr := [(0, strand [])] }
    s.core.migr[0]? = some (0, strand []) ∧ imagesHeld s 0 < 32 ∧ slotFree s 0 1 = true ∧ slotFree s 0 0 = false := by decide +kernel
/-- A stop of launch 1 that awaits core 4, where a strand of it stands, its issuer on core 0; the queue with room, full and lapsed. -/
def stopping (q : Evq) : State := { holding q 0 with
  core.slots := [(0, { strand [] with st := 1, wait := .reply }), (64, { strand [] with record := { launch := 1 } })],
  work.halts := [{ launch := 1, evq := evqA, waiter := some ({ core := 0, slot := 0, gen := 1 }, 2), left := [4], landed := 0, dropped := false }] }
theorem witness_halt : (∀ h ∈ (stopping { cap := 4 }).work.halts, h.left = [4] ∧ h.evq ≠ 0) ∧ (tagged (stopping { cap := 4 }) { core := 0, slot := 0, gen := 1 }).isSome = true
    ∧ (strandAt (stopping { cap := 4 }) 4 0).isSome = true ∧ (stopping { cap := 4 }).core.routeCount = [] ∧ liveHandle (stopping { cap := 4 }) evqA = true
    ∧ (evqAt (stopping { cap := 4 }) (hKey evqA)).recs.length < 4 ∧ (evqAt (stopping {}) (hKey evqA)).cap ≤ 0 ∧ liveHandle (mach []) evqA = false := by decide +kernel
theorem witness_wake_time : ∀ dl ∈ [0, 1], (∀ t ∈ strandAt (base { strand [] with st := 4, wait := .waitdt dl }) 0 0, t.st = 4 ∧ t.wait = .waitdt dl ∧ t.steps ≠ 2)
    ∧ localDt (base (strand [])) 0 = 0 := by decide +kernel
/-- O43: a check that is due and one that is not; a stage above its HI and one below its LO with two clusters. -/
def staged : Launch := { st := 2, stages := [{ hi := 0, lo := 0, clusters := [0], queue := [entry1] }, { hi := 4, lo := 1, clusters := [1, 2], queue := [] }] }
theorem witness_governor : { mach [] with time.dt := 256 }.work.governed < { mach [] with time.dt := 256 }.time.dt / 256 ∧ (mach []).time.dt / 256 ≤ (mach []).work.governed
    ∧ (∀ a ∈ staged.stages[0]?, a.hi < a.queue.length) ∧ (∀ b ∈ staged.stages[1]?, b.queue.length < b.lo ∧ 2 ≤ b.clusters.length ∧ 2 ∈ b.clusters)
    ∧ (∀ g ∈ ({ st := 2 } : Launch).stages, g.queue.length ≤ g.hi) := by decide +kernel
/-- O43: an evaluation that is due, of a NORMAL cluster and of a CRIMSON one with a context to kill; the time tree ready and not. -/
def heated (raw : Int) : State := { mach [] with time.dt := 16, hub.sensors := [(0, { raw := raw })], work.launches := [(0, { st := 2, ctxh := ctxA })] }
theorem witness_thermal : tget 0 (heated 1520).work.evaluated 0 < (heated 1520).time.dt / 16 ∧ dieCluster (heated 1520) 0 0 = true
    ∧ (tempSensor (heated 1520) 0 0).flags % 2 = 0 ∧ 16 * (105 : Int) ≤ tempOf (heated 1680) 0 0 ∧ tempOf (heated 1519) 0 0 < 16 * 95
    ∧ killTarget (heated 1680) 0 = some ctxA ∧ (heated 1680).work.tokens.length + (heated 1680).work.launches.length ≤ 256
    ∧ (tget ({} : ThermCluster) { heated 0 with work.therm := [(0, { withheld := true })] }.work.therm 0).withheld = true
    ∧ (750 : Nat) < 751 := by decide +kernel
theorem witness_tick : readyCode (mach []) (kTree 0) ≠ 2 ∧ readyCode { mach [] with hub.ready := [(3150, 2)] } (kTree 0) = 2
    ∧ (∀ t ∈ strandAt (base { strand [] with st := 3, wait := .park (some 1) }) 0 0, t.wait = .park (some 1)) := by decide +kernel
/-- O44: a registration block at 0x100 and a solicit block at 0x140; launch 0 of the context and of another; a slot free and none. -/
def blockR : Nat := 7 + 2 ^ 128 * 0x10000 + 2 ^ 168 * 1
def soliciting (r : Nat) (l : Launch) (cc : CoreCensus) : State := { queued (mach [(1, 2 ^ 60 + 0x100), (2, 2 ^ 60 + 0x140)]) { cap := 4 } with
  mem := memWrite (memWrite [] (scratchAt 0 0x100) 32 r) (scratchAt 0 0x140) 32 evqA.toNat, work.launches := [(0, l)], census.cores := [(0, cc)] }
theorem witness_registration : let s := soliciting blockR { st := 2, ctxh := ctxA, cmask := 1 } {}
    ownPtr s (rG s 1) 32 = .ok 0x100 ∧ (regBlock (memRead s.mem (scratchAt 0 0x100) 32)).2 = true ∧ (regBlock 0).2 = false
      ∧ (launchAt s 0).st ≠ 0 ∧ (launchAt s 0).ctxh = ctxA ∧ admits s (launchAt s 0) 0 = true ∧ freeEntry s 6 0 = some (entryKey 6 0 0)
      ∧ (launchAt (mach []) 0).st = 0 ∧ (launchAt (soliciting blockR { st := 2 } {}) 0).ctxh ≠ ctxA
      ∧ freeEntry { s with hold.lives := (placedKey, live) :: (List.range 128).map fun i => (entryKey 6 0 i, live) } 6 0 = none := by decide +kernel
theorem witness_solicit : let s := soliciting blockR {} {}
    ownPtr s (rG s 2) 32 = .ok 0x140 ∧ checkHandle s [7] (BitVec.ofNat 64 (memRead s.mem (scratchAt 0 0x140) 8)) = .ok ()
      ∧ memRead s.mem (scratchAt 0 0x148) 24 = 0 ∧ (0 : Nat) ∉ (coreCensus s 0).slots ∧ (s.census.open_.filter Census.isOpen).length < 512
      ∧ (∀ k ∈ List.range 8, k ∈ (coreCensus (soliciting blockR {} { slots := List.range 8 }) 0).slots) := by decide +kernel
/-- A wave of census 1, a responder of it in frame 0 and the strand that is its body. -/
def waveW (c : Comb) : Wave := { num := 1, key := 7, comb := c, d := 0, arg := [], evq := evqA, resp := 0, ctxh := ctxA, pts := 3 }
def responderR : Responder := { id := 4, wave := waveW .sum32, index := 0, gen := 1, ent := { key := 7, code := 0x10000, frn := 1, launch := 0 }, owner := ctxA }
def responding (x : Census) (rs : List Responder) (l : Launch) : State := { queued (base { strand [(1, 9)] with resp := some (0, 4), record := { frame := 9 } }) { cap := 4 } with
  census := { cores := [(0, { seen := [waveW .sum32], resp := rs })], dirents := [(0, { key := 7, frn := 1 })], open_ := [x] },
  hold.lives := [(placedKey, live), (entryKey 6 0 0, { live with owner := ctxA })], work.launches := [(0, l)] }
theorem witness_responder : let s := responding { wave := waveW .sum32, toTake := [0], left := [0] } [responderR] { st := 2, ctxh := ctxA }
    (∀ t ∈ strandAt s 0 0, t.resp = some (0, 4) ∧ t.record.frame = rG s 1) ∧ responderR ∈ (coreCensus s 0).resp ∧ responderR.answer = none
      ∧ (strand [(1, 9)]).resp = none ∧ (∀ x ∈ s.census.open_, 0 ∈ x.toTake) ∧ isLive s (entryKey 6 0 0) = true ∧ (direntAt s 0 0).key = (waveW .sum32).key
      ∧ (coreCensus s 0).resp[0]? = some responderR ∧ responderR.spawned = false ∧ (launchAt s 0).ctxh = responderR.owner ∧ 0 < responderR.ent.frn
      ∧ (launchAt (mach []) 0).st = 0 := by decide +kernel
theorem witness_report : let s (e : Bool) := responding { wave := waveW .sum32, toTake := [], left := [0] } [{ responderR with spawned := true, ended := e }] {}
    (∀ x ∈ (s true).census.open_, 0 ∈ x.left ∧ 0 ∉ x.toTake) ∧ (s true).census.moves = [] ∧ (∀ r ∈ (coreCensus (s true) 0).resp, r.ended = true ∧ r.late = false)
      ∧ (∃ r ∈ (coreCensus (s false) 0).resp, r.ended = false)
      ∧ (∀ x ∈ (responding { wave := waveW .sum32, toTake := [], left := [] } [] {}).census.open_, x.left = [] ∧ x.closing = none)
      ∧ (∀ x ∈ (responding { wave := waveW .sum32, toTake := [], left := [], closing := some [0] } [] {}).census.open_, x.closing = some [0]) := by decide +kernel
/-- O45: an entry of core 0 and a move of it to core 1 in each of its phases. -/
def entryE : Word := mkHandle (entryKey 6 0 0) 1
def moveM (phase : Nat) (r : List Responder) : Move :=
  { src := 0, dst := 1, index := 0, gen := 1, tile := 0, tag := { core := 0, slot := 0, gen := 1 }, d := 2, phase := phase, expiry := 100, lates := r.map (·.id) }
def moving (phase : Nat) (st : Nat) (r : List Responder) (dt : Nat) : State := { mach [(1, entryE.toNat), (2, 1)] with
  time.dt := dt, hub.ready := [(0, 2), (1, 2), (0xC0, 2), (2000, 2)], work.launches := [(0, { st := 2, ctxh := ctxA, cmask := 1 })],
  hold.lives := [(placedKey, live), (entryKey 6 0 0, { live with st := st })],
  census := { moves := [moveM phase r], cores := [(1, { resp := r })], open_ := [{ wave := waveW .sum32, toTake := [], left := [0] }] } }
theorem witness_move_start : let s := moving 0 1 [] 0
    checkHandle s [6] (rG s 1) = .ok () ∧ hHome (rG s 1) = 0 ∧ corePresent s (srcZ s (.reg 2)).toNat = true ∧ checkHome s ctxA (rG s 1) = .ok ()
      ∧ corePresent s (srcZ s (.imm 2)).toNat = false ∧ hHome (mkHandle (entryKey 6 1 0) 1) ≠ 0 ∧ checkHandle s [6] (mkHandle (entryKey 6 1 0) 1) = .ok () := by decide +kernel
theorem witness_moves : (∀ p ∈ [0, 1, 2, 3, 4, 5], (∀ m ∈ (moving p 1 [] 0).census.moves, m.phase = p ∧ m.src ≠ m.dst ∧ (tagged (moving p 1 [] 0) m.tag).isSome = true))
    ∧ freeEntry (moving 0 1 [] 0) 6 1 = some (entryKey 6 1 0) ∧ admits (moving 0 1 [] 0) (launchAt (moving 0 1 [] 0) 0) 1 = true
    ∧ isLive (moving 1 1 [] 0) (entryKey 6 0 0) = true ∧ isLive (moving 1 2 [] 0) (entryKey 6 0 0) = false
    ∧ (∀ m ∈ (moving 4 1 [] 100).census.moves, localDt (moving 4 1 [] 100) 1 ≤ m.expiry) ∧ (∀ m ∈ (moving 4 1 [] 101).census.moves, m.expiry < localDt (moving 4 1 [] 101) 1)
    ∧ (∀ m ∈ (moving 5 1 [{ responderR with ended := true }] 0).census.moves,
        (coreCensus (moving 5 1 [{ responderR with ended := true }] 0) 1).resp.filter (fun r => m.lates.contains r.id) = [{ responderR with ended := true }]) := by
  decide +kernel

/-- O46: translations in time and past it; pages ABSENT, PRESENT and EXH; a purge, its acknowledgment and its unmap in time and past it. -/
def paged (p : Pte) (r : Range := { base := 0x10000, size := 0x10000 }) : State := { ranged [] with
  page.pte := [(pteKey ctxA 1, p)], hold.ranges := [(entryKey 0 0xC0 0, r)], page.tlb := [], time.dt := 4097 }
theorem witness_translations : (tlbFind (ranged []) 0 ctxA 4096 0x10000).isSome = true ∧ (ranged []).page.tlb.length = 1
    ∧ (∀ e ∈ (ranged []).page.tlb, e.2.stamp + e.2.tl = 4096 ∧ localDt (ranged []) (holderUnit (e.1 / 2 ^ 96)) ≤ 4096)
    ∧ 4096 < localDt { ranged [] with time.dt := 4097 } 0
    ∧ (∀ n ∈ [0, 1, 3], (rangeFor (paged { st := n }) (curHandle (paged { st := n }) placedKey) (1 * 65536)).isSome = true
        ∧ (pteAt (paged { st := n }) ctxA 1).st = n) ∧ corePresent (paged {}) (holderUnit 0) = true := by decide +kernel
def unmapU (hs : List Nat) (freed : Option Nat) : Unmap := { num := 1, old := 1, pte := pteKey ctxA 1, home := 0xC0, at_ := 0, tl := 4095, holders := hs, freed := freed, move := none, large := false }
def unmapping (hs : List Nat) (freed : Option Nat) (d : Sparse Dir) (dt : Nat) : State := { paged { st := 0, purge := true } with
  page.unmaps := [unmapU hs freed], page.purges := [(0, pteKey ctxA 1, 1)], page.acks := [(0, pteKey ctxA 1, 1)], coh.dir := d, time.dt := dt }
theorem witness_unmaps : (∀ m ∈ (unmapping [0] none [] 4096).page.unmaps, m.holders ≠ [] ∧ localDt (unmapping [0] none [] 4096) m.home < m.at_ + m.tl + 2)
    ∧ (∀ m ∈ (unmapping [0] none [] 4097).page.unmaps, m.at_ + m.tl + 2 ≤ localDt (unmapping [0] none [] 4097) m.home)
    ∧ (∀ m ∈ (unmapping [] (some 1) [(0x400, { present := true, st := .o 0 })] 0).page.unmaps, m.holders = [] ∧ m.freed.isSome = true ∧ m.old = 1)
    ∧ (unmapping [0] none [] 0).page.purges[0]? = some (0, pteKey ctxA 1, 1) := by decide +kernel
/-- O46: what is stored to word 0 of an entry in each state, and the outcomes the rows give. -/
theorem witness_stores : (∀ n ∈ [0, 1, 3, 4], (pteAt (paged { st := n }) ctxA (vpnIn { base := 0x10000, size := 0x10000 } 0x10000)).st = n)
    ∧ 2 * 2 ^ 60 / 2 ^ 40 % 2 ^ 16 = 0 ∧ (2 : Nat) ^ 40 / 2 ^ 40 % 2 ^ 16 ≠ 0 ∧ 6 * 2 ^ 60 / 2 ^ 60 = 6
    ∧ pteWord { st := 1, pn := 1 } = 2 ^ 60 + 1 ∧ routeOk (paged {}) ctxA 0 = false := by decide +kernel
/-- A store to the entry of page 1 of the context that waits at the home, and a page that waits for its frame. -/
def storing (p : Pte) : State := { paged p with
  page.stores := [{ tag := { core := 0, slot := 0, gen := 1 }, pa := sysPa 0xC0 ctxA (0x800000000000 + 16), n := 8, kind := .write 0, pts := 3, plain := true, post := .store }],
  page.backing := [{ pte := pteKey ctxA 1, range := entryKey 0 0xC0 0, far := false, large := false }] }
theorem witness_pte_store : let s := storing { st := 1, pn := 1 }
    ∀ m ∈ s.page.stores, sysCtx s m.pa = ctxA ∧ (entryAt s ctxA (sysVa m.pa)).isSome = true ∧ recordAt s ctxA (sysVa m.pa) = none ∧ sysVa m.pa % 16 = 0
      ∧ (pteAt s ctxA 1).st = 1 ∧ m.n = 8 ∧ m.plain = true := by decide +kernel
theorem witness_backing : (∀ b ∈ (storing { st := 2 }).page.backing, (tget {} (storing { st := 2 }).page.pte b.pte).st = 2
      ∧ (allocFrame (storing { st := 2 }) (keyHome b.range) b.far b.large).isSome = true)
    ∧ allocFrame { storing { st := 2 } with hub.ready := [(0, 2), (0xC0, 2), (2000, 2)] } 0xC0 false false = none := by decide +kernel
/-- O46: a fault's span at its least and a fault that is merged; a fault queue that is live and one that is not. -/
theorem witness_faults : let s := queued (paged {} { base := 0x10000, size := 0x10000, fq := evqA }) { cap := 4 }
    16 ≤ ({ base := 0x10000, size := 0x10000 } : Range).pfb ∧ (rangeAt (paged {}) (entryKey 0 0xC0 0)).pager = false
      ∧ hKind (rangeAt s (entryKey 0 0xC0 0)).fq = 7 ∧ liveHandle s evqA = true ∧ (lifeOf s (hKey evqA)).owner = (lifeOf s (entryKey 0 0xC0 0)).owner
      ∧ s.page.faults = [] ∧ liveHandle (paged {}) (rangeAt (paged {}) (entryKey 0 0xC0 0)).fq = false := by decide +kernel
/-- O46: a page that is hot from another die, with and without a frame there, and one that stays; a move whose unmap is complete. -/
def hot (h : Hot) (ready : Sparse Nat) : State := { paged { st := 1, pn := 1 } with page.hot := [(1, h)], hub.ready := ready, page.moving := [(pteKey ctxA 1, 2)] }
def allReady : Sparse Nat := [(0, 2), (0xC0, 2), (0x1C0, 2), (2000, 2), (3000, 2), (3003, 2)]
theorem witness_hotness : let s := hot { c1 := 32 } allReady
    tget 0 s.page.examined (hotSlice s 0x10000) < localDt s (hotSlice s 0x10000) / 256 ∧ (pageOf s 1).isSome = true ∧ homeDie 0x10000 ≠ 1
      ∧ (hbmFrame s 1 false).isSome = true ∧ hbmFrame (hot { c1 := 32 } [(0, 2), (0xC0, 2), (2000, 2), (3000, 2)]) 1 false = none
      ∧ s.page.moving[0]? = some (pteKey ctxA 1, 2) ∧ s.page.unmaps = [] ∧ (tget {} (storing { st := 5, pn := 1 }).page.pte (pteKey ctxA 1)).st = 5 := by decide +kernel
/-- O47: a sector at 0x10000 in each directory state, with a request of each kind in transit from core 0. -/
def reqR (k : MemKind) (post : Post) : MemReq := { seq := 1, tag := { core := 0, slot := 0, gen := 1 }, pa := 0x10000, n := 8, kind := k, pts := 3, ctxh := ctxA, range := mkHandle (entryKey 0 0xC0 0) 1, post := post }
def homing (k : MemKind) (post : Post) (d : Dir) : State := { ranged [] with coh := { net := [reqR k post], dir := [(0x400, d)] } }
theorem witness_homes : (∀ k ∈ [MemKind.read, .write 1, .amo .add 1 0 false, .own], let s := homing k .store { present := true }
      s.coh.net[0]? = some (reqR k .store) ∧ earlierSent s 0 (homeOf s 0x10000) 1 = false ∧ hasNoticed s (homeOf s 0x10000) (reqR k .store).range = false
        ∧ (dirAt s 0x400).st = .h ∧ (ownersOf s (homeOf s 0x10000)).length < 65536)
    ∧ (dirAt (homing .read .store { present := true, st := .o 1 }) 0x400).st = .o 1
    ∧ (dirAt (homing .read .store { present := true, st := .t 1 true }) 0x400).st = .t 1 true
    ∧ hasNoticed { homing .read .store {} with hold.noticed := [(homeOf (homing .read .store {}) 0x10000, [mkHandle (entryKey 0 0xC0 0) 1])] }
        (homeOf (homing .read .store {}) 0x10000) (mkHandle (entryKey 0 0xC0 0) 1) = true := by decide +kernel
/-- O47: a recall of an owned sector and of one not held, and each message about it; a line with its sectors in H that is written back. -/
def recalled (m : Coh) (l : Sparse L1) (d : Dir) : State := { ranged l with coh := { l1 := l, coh := [(0, m)], dir := [(0x400, d)], owners := [(0xC0, [0x400])], writebacks := [0x100] } }
theorem witness_recalls : (l1At (recalled (.ask 0 0x400) [(0x400, { kind := 2 })] {}) 0 0x400).kind = 2 ∧ (l1At (recalled (.ask 0 0x400) [] {}) 0 0x400).kind ≠ 2
    ∧ (∀ m ∈ [Coh.data 0 0x400 5 6 7, .notHeld 0 0x400, .writeBack 0 0x400 (some 5) 6 7], let s := recalled m [] { present := true, st := .t 0 true }
      s.coh.coh[0]? = some (0, m) ∧ earlierSent s 0 (homeOf s (0x400 * 64)) 0 = false ∧ (dirAt s 0x400).queue = [] ∧ tget [] s.coh.grantq 0xC0 = [])
    ∧ (∀ x ∈ sectorsOf 0x100, (dirAt (recalled (.ask 0 0x400) [] { present := true }) x).st = .h) ∧ (0x400 : Nat) ∈ sectorsOf 0x100
    ∧ (0x100 : Nat) ∈ (recalled (.ask 0 0x400) [] {}).coh.writebacks ∧ (dirAt (recalled (.ask 0 0x400) [] { present := true, st := .o 0 }) 0x400).st ≠ .h := by decide +kernel
/-- O48: a port that is UP with a packet to send, one next in sequence and one that is not, its buffer, and its timers at their limits. -/
def packetP (type seq ack : Nat) (nak : Bool) : Packet := { packetOf type 5 [] with seq := seq, ack := ack, nak := nak }
def porting (x : Port) : State := { mach [] with link.ports := [(0, x)], time.dt := 160 }
theorem witness_links : (portAt (porting { st := 2, buffer := [packetP 1 7 0 false], tx := [] }) 0).buffer ≠ [] ∧ ((0xFFF + 1) % 4096 : Nat) = 0
    ∧ (portAt (porting { st := 2, tx := [packetP 1 0 0 false] }) 0).tx.length = 1 ∧ 1 ≤ (packetP 1 0 7 false).type ∧ (packetP 1 0 7 false).payload.length ≤ 2048
    ∧ (∀ q ∈ (portAt (porting { st := 2, buffer := [packetP 1 7 0 false] }) 0).buffer, q.seq = (packetP 1 0 7 false).ack) ∧ (packetP 9 0 7 true).type = 9
    ∧ (portAt (porting { st := 2, owed := true, replays := 7, ackTick := 156, buffer := [packetP 1 7 0 false] }) 0).ackTick + 4 ≤ (porting {}).time.dt
    ∧ (porting {}).time.dt < 157 + 4 ∧ (0 : Nat) ∉ (portAt (porting { st := 2 }) 0).lanes ∧ (0 : Nat) ∈ (portAt (porting { lanes := [0] }) 0).lanes := by decide +kernel
theorem witness_training : (∀ l, l < 16 → l ∉ (portAt (porting { st := 1 }) 0).lanes) ∧ (portAt (porting { st := 3 }) 0).since + 160 ≤ (porting {}).time.dt
    ∧ (∀ k ∈ List.range 256, (remoteRun (porting { st := 3 }) k 0).isNone = true) ∧ (porting {}).time.dt < (portAt (porting { st := 3, since := 1 }) 0).since + 160
    ∧ (∀ w ∈ [(16, 0), (8, 0), (8, 8), (4, 0), (4, 4), (4, 8), (4, 12)], ∃ l ∈ List.range 16, w.2 ≤ l ∧ l < w.2 + w.1 ∧ l ∈ [0, 4, 8, 12]) := by decide +kernel
/-- O49: a request of each type at port 0, with an import context, none, and one that has lapsed; a message of each form of ADDR. -/
def requestP (type opnd : Nat) (addr : Word) : Packet := 
  { packetOf type 5 (if type = 1 then [1] else []) with addr := addr, opnd := BitVec.ofNat 64 opnd }
def importing (p : Packet) (ctx : Word) : State := { ranged [] with
  link.ports := [(0, { st := 2, rx := [p], import_ := ctx })],
  page.tlb := [(tlbKey (portHolder 0) ctxA 1, { pte := { st := 1, rd := true, wr := true, pn := 1 }, tl := 4096, range := mkHandle (entryKey 0 0xC0 0) 1 })] }
theorem witness_imports : (∀ p ∈ [requestP 1 0 0x10000, requestP 3 8 0x10000, requestP 5 1 0x10000], let s := importing p ctxA
      (portAt s 0).rx = [p] ∧ liveHandle s (portAt s 0).import_ = true ∧ (tlbFind s (portHolder 0) ctxA 4096 p.addr.toNat).isSome = true
        ∧ paOk s 0x10000 = true ∧ hasNoticed s (homeOf s 0x10000) (mkHandle (entryKey 0 0xC0 0) 1) = false ∧ (dirAt s (0x10000 / 64)).st = .h)
    ∧ (portAt (importing (requestP 3 0 0x10000) 0) 0).import_ = 0 ∧ liveHandle (importing (requestP 3 2048 0x10000) 1) 1 = false ∧ (requestP 3 2049 0).opnd.toNat > 2048
    ∧ hKind (requestP 7 0 evqA).addr = 7 ∧ liveHandle (holding { cap := 4 } 0) evqA = true ∧ hKind 0xF000000000010000 = 15
    ∧ (tagged (mach []) (tagOf ((0xF000000000010000 : Word).toNat % 2 ^ 32))).isSome = true ∧ hKind 0 ≠ 7 ∧ hKind 0 ≠ 15 := by decide +kernel
/-- O49: a reply to a strand's transaction with STATUS 0 and with a cause, one to none; a DROP; a completion. -/
def transT : Trans := { port := 0, xid := 5, tag := { core := 0, slot := 0, gen := 1 }, route := mkHandle (entryKey 2 0xC0 0) 1, ptr := 0, post := .store, cluster := none }
def replying (type : Nat) (ts : List Trans) : State := { sending 7 with
  link := { ports := [(0, { st := 2, rx := [packetP type 0 0 false] })], trans := ts, sent := [(0, 5, mkHandle (entryKey 2 0xC0 0) 1)],
            bus := [{ xid := 5, addr := 0, op := .read 8 }] } }
theorem witness_peer_replies : (∀ k ∈ [2, 4, 6], transOf (replying k [transT]) 0 5 = some transT ∧ transOf (replying k []) 0 5 = none
      ∧ (portAt (replying k [transT]) 0).rx = [packetP k 0 0 false]) ∧ (tagged (replying 2 [transT]) transT.tag).isSome = true ∧ (causeOf? 6).isSome = true
    ∧ (replying 8 []).link.sent.find? (fun e => e.1 == 0 && e.2.1 == 5) = some (0, 5, mkHandle (entryKey 2 0xC0 0) 1)
    ∧ (lifeOf (replying 8 []) (entryKey 2 0xC0 0)).gen = 1 ∧ (replying 2 [{ transT with port := 16 }]).link.bus.length = 1
    ∧ (replying 2 [{ transT with port := 16 }]).link.trans.find? (fun t => decide (16 ≤ t.port) && t.xid == 5) = some { transT with port := 16 } := by decide +kernel

/-! ### Commands, bring-up and the machine as a whole -/

/-- O50 to O53: a machine in phase `fw` whose one waiting entry, at 0x100000 of the host's memory, holds a command; its buffer is at 0x1000. -/
def commanding (opc flags : Nat) (args : List Nat) (n : Nat) (fw : Nat) : State := { mach [] with
  hub := { ready := [(0, 2), (0xC0, 2), (2000, 2), (3000, 2), (3003, 2)], fw := fw, cqbase := 0x100000, cqsize := 4, cqtail := 1 }
  mem := memWrite [] (hostAt 0x100000) 64
    (opc + 256 * flags + 2 ^ 64 * (args.foldr (fun a x => a + 2 ^ 64 * x) 0) + 2 ^ 320 * 0x1000 + 2 ^ 384 * n) }
theorem command_of (opc flags : Nat) (args : List Nat) (n fw : Nat) (h : (cmdField (commanding opc flags args n fw) 0 1 == opc
    && cmdFlags (commanding opc flags args n fw) == flags && accepts (commanding opc flags args n fw) opc
    && decide (cmdBuf (commanding opc flags args n fw) + cmdBufLen (commanding opc flags args n fw) ≤ cmdAddr (commanding opc flags args n fw))) = true) :
    Command (commanding opc flags args n fw) opc flags := by
  simp only [Bool.and_eq_true, beq_iff_eq, decide_eq_true_eq] at h
  exact ⟨Nat.zero_ne_one, h.1.1.1, h.1.1.2, h.1.2, .inl h.2⟩
/-- O50: each command with no buffer, with FLAGS it does not assign, and in a phase that takes it and one that does not. -/
theorem witness_command_forms : (∀ opc ∈ [0x01, 0x02, 0x03, 0x04, 0x05, 0x06, 0x07, 0x08, 0x09, 0x0A, 0x0B, 0x0E], let s := commanding opc 2 [] 0 0
      s.hub.cqhead ≠ s.hub.cqtail ∧ cmdField s 0 1 = opc ∧ cmdBufLen s = 0 ∧ cmdFlags s = 2 ∧ cmdField s 0 1 ≠ 0x0F)
    ∧ cmdFlags (commanding 0x01 0 [] 0 0) = 0 ∧ (commanding 0x01 0 [] 0 0).hub.fw = 0 ∧ cmdFlags (commanding 0x02 1 [] 0 0) < 2
    ∧ (mach []).hub.cqhead = (mach []).hub.cqtail := by decide +kernel
/-- O50: STATUS of each page at the ends of what it takes, SUMMARY, SENSORS, THERMTAB both ways, ATTEST. -/
theorem witness_status : (∀ a ∈ [[0, 0], [1, 191], [1, 192], [2, 0], [3, 0], [4, 0]], Command (commanding 0x01 0 a 256 4) 0x01 0
      ∧ (cmdArg (commanding 0x01 0 a 256 4) 0).toNat = a.headD 9 ∧ some (cmdArg (commanding 0x01 0 a 256 4) 1).toNat = a[1]? ∧ cmdBufLen (commanding 0x01 0 a 256 4) = 256) := by
  intro a ha
  simp only [List.mem_cons, List.not_mem_nil, or_false] at ha
  rcases ha with rfl | rfl | rfl | rfl | rfl | rfl <;> exact ⟨command_of _ _ _ _ _ (by decide +kernel), by decide +kernel⟩
theorem witness_reports : Command (commanding 0x02 1 [] 64 5) 0x02 1 ∧ Command (commanding 0x02 0 [] 64 5) 0x02 0 ∧ Command (commanding 0x0B 0 [] 3152 5) 0x0B 0
    ∧ Command (commanding 0x0C 0 [] 64 5) 0x0C 0 ∧ Command (commanding 0x0C 1 [] 64 5) 0x0C 1 ∧ Command (commanding 0x0A 0 [] 1280 2) 0x0A 0 :=
  ⟨command_of _ _ _ _ _ (by decide +kernel), command_of _ _ _ _ _ (by decide +kernel), command_of _ _ _ _ _ (by decide +kernel),
    command_of _ _ _ _ _ (by decide +kernel), command_of _ _ _ _ _ (by decide +kernel), command_of _ _ _ _ _ (by decide +kernel)⟩
/-- O50: a snapshot of the last tick that serves and of the first that does not; THERMTAB records at the ends of their ranges, and one past them. -/
def thermRec (amber crimson budget ocl : Nat) : Nat := amber + 2 ^ 8 * crimson + 2 ^ 32 * budget + 2 ^ 48 * ocl
def thermCmd (r : Nat) : State := { commanding 0x0C 1 [] 64 5 with
  mem := memWrite (commanding 0x0C 1 [] 64 5).mem (hostAt 0x1000) 64 (r + 2 ^ 128 * r + 2 ^ 256 * r + 2 ^ 384 * thermRec 104 110 1000 2000) }
theorem witness_thermtab : (let f (r d off n : Nat) : Nat := memRead (thermCmd r).mem (cmdBuf (thermCmd r) + 16 * d + off) n
      let r := thermRec 60 66 200 100
      64 ≤ cmdBufLen (thermCmd r) ∧ (∀ d, d < 4 → 60 ≤ f r d 0 1 ∧ f r d 0 1 + 6 ≤ f r d 1 1 ∧ f r d 1 1 ≤ 110 ∧ 200 ≤ f r d 4 2 ∧ f r d 4 2 ≤ 1000 ∧ 100 ≤ f r d 6 2
        ∧ f r d 6 2 ≤ 2000 ∧ f r d 2 2 = 0 ∧ f r d 8 8 = 0) ∧ f r 0 4 2 + f r 1 4 2 + f r 2 4 2 + f r 3 4 2 ≤ 3000 ∧ ¬ 60 ≤ f (thermRec 59 66 200 100) 0 0 1)
    ∧ (∃ t, ({ mach [] with hub.snapAt := some 1, time.dt := 2 ^ 20 } : State).hub.snapAt = some t ∧ (2 : Nat) ^ 20 < t + 2 ^ 20) ∧ (mach []).hub.snapAt = none
    ∧ (1 : Nat) + 2 ^ 20 ≤ ({ mach [] with time.dt := 2 ^ 20 + 1 } : State).time.dt := by
  refine ⟨by decide +kernel, ⟨1, rfl, by decide⟩, rfl, by decide⟩
/-- Unless an entry of it satisfies `p`, there is no least one. -/
theorem leastFrom_none (p : Nat → Bool) (n : Nat) : ∀ k, (∀ i, k ≤ i → i < k + n → p i = false) → leastFrom p k n = none := by
  induction n with
  | zero => exact fun _ _ => rfl
  | succ n ih =>
    intro k h
    simp only [leastFrom, h k (Nat.le_refl k) (by omega), Bool.false_eq_true, if_false]
    exact ih (k + 1) fun i hi hj => h i (by omega) (by omega)
/-- O51: GRANTCTX on a slice with a free entry, on any, on one that is full, and with arguments that are refused. -/
theorem witness_grantctx : (∀ a ∈ [[0xFFFFFFFF, 0xC0], [0, 0], [0x100000000, 0], [0, 0xC1]], let s := commanding 0x03 0 a 0 5
      cmdField s 0 1 = 0x03 ∧ some (cmdArg s 0).toNat = a[0]? ∧ some (cmdArg s 1).toNat = a[1]?)
    ∧ slicePresent (commanding 0x03 0 [] 0 5) 0xC0 = true ∧ slicePresent (commanding 0x03 0 [] 0 5) 0xC1 = false
    ∧ freeEntry (commanding 0x03 0 [] 0 5) 3 0xC0 = some (entryKey 3 0xC0 1) ∧ sliceIds.head? = some 0xC0 := by decide +kernel
/-- A table that lists `n` keys from `b` on. -/
theorem tget_filled {α : Type} (d x : α) (b i : Nat) (n : Nat) (h : i < n) (r : Sparse α) :
    tget d ((List.range n).map (fun j => (b + j, x)) ++ r) (b + i) = x := by
  have key : ∀ l : List Nat, i ∈ l → tfind (l.map (fun j => (b + j, x)) ++ r) (b + i) = some x := by
    intro l
    induction l with
    | nil => simp
    | cons j l ih =>
      intro hi
      by_cases e : j = i
      · simp [tfind, e]
      · have : b + j ≠ b + i := by omega
        simp only [List.map_cons, List.cons_append, tfind, this, if_false]
        exact ih (by simpa [Ne.symm e] using hi)
  simp [tget, key _ (List.mem_range.2 h)]
/-- O19, O39, O45, O51: slice 0xC0 or core 0 with every entry of a kind in use (kinds 1, 3, 6 and 7), and every counter entry. -/
theorem witness_full (kind home : Nat) : ∃ s : State, freeEntry s kind home = none := by
  refine ⟨{ hold := { lives := (List.range (kindCap kind)).map (fun j => (entryKey kind home 0 + j, live)) ++ [] } }, ?_⟩
  simp only [freeEntry, Option.map_eq_none_iff]
  refine leastFrom_none _ _ 0 fun i _ hi => ?_
  have : entryKey kind home i = entryKey kind home 0 + i := by simp [entryKey]
  simp only [issuable, lifeOf, this, tget_filled {} live (entryKey kind home 0) i (kindCap kind) (by omega)]
  rfl
theorem witness_counters_full : ∃ s : State, freeCounter s 0xC0 = none := by
  refine ⟨{ work := { counters := (List.range 4096).map (fun j => (0 + j, { st := 1 })) ++ [] } }, ?_⟩
  simp only [freeCounter, Option.map_eq_none_iff]
  refine leastFrom_none _ _ 0 fun i _ hi => ?_
  have := tget_filled ({} : Counter) { st := 1 } 0 i 4096 (by omega) []
  simp only [show (dieOf 0xC0 * 16 + (0xC0 - 0xC0) % 16) * 4096 = 0 from rfl, this]
  rfl
/-- O51: contexts that RENEWCTX takes, finds lapsed and refuses; a port's command with each argument. -/
theorem witness_renewctx : hKind ctxA = 3 ∧ slicePresent (mach []) (hHome ctxA) = true ∧ hGen ctxA ≠ 0 ∧ hIndex ctxA < 256
    ∧ hKind (mkHandle placedKey 2) = 3 ∧ hHome (mkHandle placedKey 2) = hHome ctxA ∧ hGen (mkHandle placedKey 2) ≠ 0 ∧ hIndex (mkHandle placedKey 2) < 256
    ∧ hKind 0 ≠ 3 := by decide +kernel
theorem witness_renewctx_args : (cmdArg (commanding 0x04 0 [ctxA.toNat, 0xFFFFFFFF] 0 5) 0).toNat = ctxA.toNat
    ∧ some (cmdArg (commanding 0x04 0 [ctxA.toNat, 0xFFFFFFFF] 0 5) 1).toNat = some 0xFFFFFFFF
    ∧ (cmdArg (commanding 0x04 0 [(mkHandle placedKey 2).toNat, 0] 0 5) 0).toNat = (mkHandle placedKey 2).toNat := by decide +kernel
theorem witness_renewctx_states : liveHandle (mach []) ctxA = true ∧ liveHandle (mach []) (mkHandle placedKey 2) = false
    ∧ ctxStatus (mach []) ctxA = 0 ∧ ctxStatus (mach []) (mkHandle placedKey 2) = 4 ∧ ctxStatus (mach []) 0 = 2 := by decide +kernel
theorem witness_linkcfg : (∀ a ∈ [[0, 0, ctxA.toNat], [0, 1, 0], [0, 2, 0], [8, 1, 0]], let s := { commanding 0x0D 0 a 0 5 with hub.ready := [(0, 2), (0xC0, 2), (kLink 0, 2)] }
      accepts s 0x0D = true ∧ some (cmdArg s 0).toNat = a[0]? ∧ some (cmdArg s 1).toNat = a[1]? ∧ some (cmdArg s 2).toNat = a[2]?
        ∧ readyCode s (kLink 0) = 2 ∧ s.hub.linkWait = none ∧ (portAt s 0).st = 0 ∧ (portAt s 0).tx = [])
    ∧ (∀ n ∈ [1, 2, 3], (portAt { commanding 0x0D 0 [0, 1, 0] 0 5 with link.ports := [(0, { st := n })], hub.linkWait := some 0 } 0).st = n) := by decide +kernel
/-- O51: a bundle of one overlay whose code is 12 bytes at 0x80. Whether it verifies is the implementation's: everything else that the clauses ask holds. -/
def bundleB : Nat := 0x424D4C46 + 2 ^ 32 * 1 + 2 ^ 48 * 1 + 2 ^ 64 * 768 + 2 ^ 512 * (7 + 2 ^ 32 * 12 + 2 ^ 64 * 0x80) + 2 ^ 1024 * 0x36
def loadingB : State := { commanding 0x05 0 [ctxA.toNat, 4096, 0x800] 768 5 with
  mem := memWrite (commanding 0x05 0 [ctxA.toNat, 4096, 0x800] 768 5).mem (hostAt 0x1000) 160 bundleB }
theorem witness_loadovl : let s := loadingB
    let f (off k : Nat) : Nat := memRead s.mem (cmdBuf s + off) k
    let one : OvlEntry := { id := f 64 2, codeLen := f 68 4, codeOff := f 72 8, dataLen := f 80 4, dataOff := f 88 8, zeros := f 66 2 == 0 && f 84 4 == 0 }
    ctxStatus s (cmdArg s 0) = 0 ∧ (cmdArg s 1).toNat < 2 ^ 32 ∧ 640 ≤ cmdBufLen s ∧ f 8 8 = cmdBufLen s ∧ f 0 4 = 0x424D4C46 ∧ f 4 2 = 1 ∧ f 6 2 = 1
      ∧ f 16 48 = 0 ∧ one.ok 1 (cmdBufLen s) = true ∧ one.dataLen = 0 ∧ s.work.bundles.length < 2 ^ 20 ∧ hostAt (cmdArg s 2).toNat + 16 ≤ cmdAddr s
      ∧ cmdBufLen (commanding 0x05 0 [ctxA.toNat, 0, 0] 639 5) < 640 ∧ (∀ x ∈ s.work.bundles, x.ctxh = cmdArg s 0 → x.number ≠ 1) := by decide +kernel
theorem witness_loadovl_command : Command loadingB 0x05 0 := ⟨by decide, by decide +kernel, by decide +kernel, by decide +kernel, .inl (by decide +kernel)⟩
/-- O52: LAUNCH with O40's descriptor, under a context with no long command and one with; a bundle that does not exist; a descriptor that is refused. -/
def hostLaunching (d : Nat) (long : Option Long) : State := { commanding 0x06 0 [ctxA.toNat, 1, 0xC0, 4096] 128 5 with
  hub := { (commanding 0x06 0 [ctxA.toNat, 1, 0xC0, 4096] 128 5).hub with long := long }
  mem := memWrite (commanding 0x06 0 [ctxA.toNat, 1, 0xC0, 4096] 128 5).mem (hostAt 0x1000) 128 d
  hold := { lives := [(entryKey 0 0xC0 0, live), (placedKey, live), (entryKey 7 0xC0 0, live)], evqs := [(entryKey 7 0xC0 0, { cap := 4 })]
            ranges := [(entryKey 0 0xC0 0, { base := 0x10000, size := 0x10000 })] }
  work := { counters := [(0, graphC 1 ctxA)], bundles := [{ ctxh := ctxA, number := 1, ovls := [] }] } }
def longL : Long := { entry := 2 ^ 66 + 0x200000, restore := false, ctxh := ctxA, hold := false, image := 0, term := 4096, buf := 2 ^ 66 + 0x1000, buflen := 64, launches := [] }
theorem witness_host_launch : Command (hostLaunching descL none) 0x06 0 :=
  ⟨by decide, by decide +kernel, by decide +kernel, by decide +kernel, .inl (by decide +kernel)⟩
theorem witness_host_launch_states : let s := hostLaunching descL none
    ctxStatus s ctxA = 0 ∧ cmdArg s 0 = ctxA ∧ (∃ x ∈ s.work.bundles, x.number = (cmdArg s 1).toNat ∧ x.ctxh = ctxA) ∧ (cmdArg s 3).toNat < 2 ^ 32 ∧ 128 ≤ cmdBufLen s
      ∧ slicePresent s (cmdArg s 2).toNat = true ∧ memRead s.mem (cmdBuf s) 128 = descL
      ∧ descField descL 0x14 4 ≠ 0 ∧ descField descL 0x20 8 ≠ 0 ∧ descField descL 0x38 8 ≠ 0 ∧ descField descL 0x40 8 ≠ 0
      ∧ hostDescriptor s ctxA descL = .ok () ∧ (createLaunch s ctxA descL [] 1 0).isSome = true
      ∧ (∀ e ∈ (match hostDescriptor s ctxA (descL - 2 ^ 256 * evqA.toNat + 2 ^ 256 * (evqA.toNat + 1)) with | .error e => [e] | _ => []), e.cause = .lapsed)
      ∧ (∀ e ∈ (match hostDescriptor s ctxA 0 with | .error e => [e] | _ => []), e.cause ≠ .lapsed) := by decide +kernel
theorem witness_host_launch_refused : let s := hostLaunching descL none
    (match hostDescriptor s ctxA (descL - 2 ^ 256 * evqA.toNat + 2 ^ 256 * (evqA.toNat + 1)) with | .error _ => true | _ => false) = true
      ∧ (match hostDescriptor s ctxA 0 with | .error _ => true | _ => false) = true ∧ (∃ l, (hostLaunching descL (some longL)).hub.long = some l ∧ l.ctxh = ctxA)
      ∧ (commanding 0x06 0 [] 0 5).work.bundles = [] ∧ createLaunch (commanding 0x06 0 [] 0 5) ctxA descL [] 1 0 = none :=
  ⟨by decide +kernel, by decide +kernel, ⟨longL, rfl, rfl⟩, rfl, by decide +kernel⟩
/-- O52: CANCEL of an instance in each state, of a name that is none, and one that awaits acknowledgments; CHECKPOINT and RESTORE with their arguments. -/
def cancelling (st : Nat) (wait : Option (List Token)) : State := { commanding 0x07 0 [7] 0 5 with
  work.launches := [(7, { st := st, ctxh := ctxA })], hub.cancelWait := wait }
theorem witness_host_cancel : (∀ n ∈ [0, 2, 3], let s := cancelling n none
      cmdField s 0 1 = 0x07 ∧ (instanceAt s 0 7).1 = n ∧ (match parseName (cmdArg s 0) with | .ok (0, 7) => true | _ => false) = true)
    ∧ (match parseName 0x400000000 with | .error _ => true | _ => false) = true ∧ (cancelInstance (cancelling 2 none) 0 7 none false).isSome = true
    ∧ cancelTokens (cancelling 2 none) 0 7 false ≠ [] ∧ cancelUnits (cancelling 2 none) ≠ []
    ∧ (∀ c ∈ (cancelling 2 (some [])).work.casts, c.token ∉ ([] : List Token)) := by decide +kernel
theorem witness_checkpoint : Command (commanding 0x08 1 [ctxA.toNat, 0xFFFFFFFF] 64 5) 0x08 1 ∧ Command (commanding 0x09 0 [ctxA.toNat, 0, 4096] 64 5) 0x09 0
    ∧ ctxStatus (commanding 0x08 1 [ctxA.toNat, 0xFFFFFFFF] 64 5) (cmdArg (commanding 0x08 1 [ctxA.toNat, 0xFFFFFFFF] 64 5) 0) = 0
    ∧ (cmdArg (commanding 0x08 1 [ctxA.toNat, 0xFFFFFFFF] 64 5) 1).toNat < 2 ^ 32 :=
  ⟨command_of _ _ _ _ _ (by decide +kernel), command_of _ _ _ _ _ (by decide +kernel), by decide +kernel⟩
/-- O52: a long command of each kind at its end, with a range to save and with an image of one page that fits. -/
def savedR : SavedRange := { handle := mkHandle (entryKey 0 0xC0 5) 1, rec_ := { base := 0x10000000000, size := 0x10000 }, pages := [{ page := 0, pte := { st := 1, rd := true }, bytes := 9 }] }
def longing (restore : Bool) (r : Sparse Range) : State := { commanding 0 0 [] 0 5 with
  hub := { (commanding 0 0 [] 0 5).hub with tables := 2 ^ 20, cxl := [(0, 2 ^ 30)], long := some { longL with restore := restore, image := mkHandle (entryKey 0 0xC0 0) 1 } }
  hold := { images := [{ range := mkHandle (entryKey 0 0xC0 0) 1, ranges := [savedR] }], lives := [(entryKey 0 0xC0 0, live), (placedKey, live)], ranges := r } }
theorem witness_long_ends : let s := longing true []
    2 ^ 66 ≤ longL.entry ∧ 2 ^ 66 ≤ longL.buf ∧ longL.buf + longL.buflen ≤ longL.entry ∧ 16 ≤ longL.buflen
      ∧ (∀ i ∈ imageOf s (mkHandle (entryKey 0 0xC0 0) 1), i.ranges = [savedR] ∧ imageFits s ctxA i = true) ∧ (imageOf s (mkHandle (entryKey 0 0xC0 0) 1)).isSome = true
      ∧ imageOf s 0 = none ∧ rangeHome s (dieOf (hHome ctxA)) = some 0xC0 ∧ freeEntry s 0 0xC0 = some (entryKey 0 0xC0 1)
      ∧ (allocFrame s (keyHome (entryKey 0 0xC0 1)) false false).isSome = true := by decide +kernel
theorem witness_checkpoint_ends : let s := longing false [(entryKey 0 0xC0 0, { base := 0x10000000000, size := 0x10000 })]
    liveRanges s ctxA = [(entryKey 0 0xC0 0, { base := 0x10000000000, size := 0x10000 })] ∧ rangePtes s ctxA { base := 0x10000000000, size := 0x10000 } = []
      ∧ (∀ h ∈ s.work.halts, h.launch ∉ longL.launches) ∧ (match grantRange s ctxA (dieOf (hHome ctxA)) 65536 longL.term false false with
        | some (t, h, _) => (fillFar ctxA (hKey h) 1 0 { t with hub.ready := (kCxl 0, 2) :: t.hub.ready } ).isSome
        | none => false) = true := by decide +kernel
theorem witness_checkpoint_nospace : grantRange (commanding 0 0 [] 0 5) ctxA 0 (2 ^ 60) 4096 false false = none
    ∧ (∃ h ∈ (stopping { cap := 4 }).work.halts.map (fun h => { h with evq := 0 }), h.evq = 0 ∧ h.launch ∈ [1]) := by decide +kernel
/-- O53: RESET in its modes and one that is refused, the phases, units that start, currents at the alarm's limits, and a core with an heir. -/
theorem witness_reset_modes : (∀ m ∈ [0, 1, 2], Command (commanding 0x0E 0 [m] 0 1) 0x0E 0 ∧ (cmdArg (commanding 0x0E 0 [m] 0 1) 0).toNat = m) := by
  intro m hm
  simp only [List.mem_cons, List.not_mem_nil, or_false] at hm
  rcases hm with rfl | rfl | rfl <;> exact ⟨command_of _ _ _ _ _ (by decide +kernel), by decide +kernel⟩
theorem witness_phases : (∀ n ∈ [0, 1, 2, 3, 4, 5, 15], ({ mach [] with hub.fw := n } : State).hub.fw = n) ∧ readyCode (mach []) (kTree 0) ≠ 2
    ∧ readyCode { mach [] with hub.ready := [(kTree 0, 2)] } (kTree 0) = 2 ∧ (∀ k ∈ allFunctions, readyCode (mach []) k ≠ 1)
    ∧ (∃ k ∈ allFunctions, readyCode { mach [] with hub.ready := [(0, 1)] } k = 1) ∧ readyCode { mach [] with hub.ready := [(0, 1)] } 0 = 1 := by decide +kernel
theorem witness_alarm : (alarmAt (mach []) 0).seen ≠ some (mach []).time.dt ∧ (alarmAt (mach []) 4).seen ≠ some (mach []).time.dt
    ∧ 16 * ((thermOf (mach []) 0).ocl : Int) < 20001 ∧ ¬ 16 * ((thermOf (mach []) 0).ocl : Int) < 20000
    ∧ 1 ≤ (alarmAt { mach [] with hub.alarm := [(4, { above := 1 })] } 4).above ∧ 15 ≤ (alarmAt { mach [] with hub.alarm := [(0, { below := 15 })] } 0).below := by decide +kernel
theorem witness_out_of_service : let s := { mach [] with hub.ready := [(0, 2), (1, 2), (2000, 2)], core.slots := [], core.rings := [(3, [entry1])] }
    corePresent s 0 = true ∧ corePresent s 1 = true ∧ (1 : Nat) / 4 = 0 / 4 ∧ (1 + 3 - 0 % 4) % 4 = 0 ∧ s.census.open_ = [] ∧ s.work.casts = []
      ∧ (∀ i, i < 16 → strandAt s 0 i = none) ∧ (∀ i, i < 32 → (tget {} s.core.park (0 * 32 + i)).used = false) ∧ ringAt s 0 3 = [entry1] := by decide +kernel
/-- O54: a form with a word, and the word that decodes to it. -/
theorem witness_encoding : Instr.wellFormed (.add 0 3 (.reg 1) (.imm 5)) = true ∧ encode (.add 0 3 (.reg 1) (.imm 5)) = some 0x010030185000000000000000#96
    ∧ (match decode 0x010030185000000000000000#96 with | .ok i => i == .add 0 3 (.reg 1) (.imm 5) | _ => false) = true := by decide +kernel
/-- O56: a strand's turn at a word that decodes, at one of each kind that does not, and without its overlay. -/
def stepping (w : Nat) : State := State.reset.withFetchWord 96 w
theorem witness_strand_turn : let s := stepping 0x010030185000000000000000
    due s = none ∧ s.agenda = [.turn (.strand 0 0) false] ∧ (match strandAt s 0 0 with
        | some t => t.st == 0 && liveHandle s t.ctxh && !filtered s 0 t.record && !(launchAt s t.record.launch.toNat).halted && decide (pcIdx t.ctx.pc ≤ 5460)
            && frameOf s 0 (pcOvl t.ctx.pc) == some 0 && memRead s.mem (frameAt 0 0 (12 * pcIdx t.ctx.pc)) 12 == 0x010030185000000000000000
        | none => false) = true
      ∧ tget false s.core.slotOff (0 * 16 + 0) = false ∧ frameOf { s with core.ovt := [] } 0 1 = none := by decide +kernel
/-- O56: a stream's turn; an event; a tick that is due; an overlay of the stream's bundle and one of none. -/
def streamTurn : State := { streaming { st := 1, record := {}, owner := { core := 0, slot := 0, gen := 1 }, ctxh := ctxA, staging := { st := 1, ctx := { pc := 0x10000 } } } with
  core.ovt := [(0, 1)], hub.ready := [(0, 2), (0xC0, 2), (2000, 2)], cur := .none, agenda := [.turn (.stream 0 false) false] }
theorem witness_stream_turn : let s := streamTurn
    let p := pairAt s 0
    let x := p.stream false
    due s = none ∧ p.st = 1 ∧ x.st = 1 ∧ x.busy = false ∧ x.wait = false ∧ x.stop = false ∧ (launchAt s p.record.launch.toNat).halted = false
      ∧ filtered s (1024 + 0) p.record = false ∧ pcIdx x.ctx.pc ≤ 5460 ∧ frameOf s p.owner.core (pcOvl x.ctx.pc) = some 0 := by decide +kernel
theorem witness_events : isEvent .dtTick = true ∧ due { mach [] with agenda := [.event .dtTick] } = none
    ∧ (due { mach [] with hold.lives := [(placedKey, { live with expiry := 0 })], time.dt := 1 }).isSome = true
    ∧ inBundle { streamTurn with work.bundles := [{ ctxh := ctxA, number := 0, ovls := [(1, 0, 12)] }], work.launches := [(0, { ctxh := ctxA })] }
        { ctxh := ctxA, bundle := 0 } 1 = true
    ∧ inBundle streamTurn { ctxh := ctxA } 1 = false := by decide +kernel
/-- O58, O59: reset keeps the invariant and steps. -/
theorem witness_invariant : Inv State.reset ∧ (match step State.reset with | .next _ => true | _ => false) = true
    ∧ (match exec (.nop 0) State.reset with | .next _ => true | _ => false) = true :=
  ⟨⟨by decide, by decide, by decide, by decide, by decide, by decide⟩, by decide +kernel, by decide +kernel⟩
/-- O60: a memory in canonical form, and a list that is not in it. -/
theorem witness_memory : Memory.wf (memWrite [] 5 2 0x107) = true ∧ Memory.wf [(5, 0)] = false := by decide +kernel

/-- O11: a fatal record behind one of its queue that is not fatal. -/
theorem witness_fatal_overtakes : ∀ x ∈ tget [] { mach [] with core.held := [(0, [trapTo false])] }.core.held 0,
    x.tq = (trapTo true).tq → x.fatal = false ∧ (trapTo true).fatal = true := by decide
/-- O12: a stale tag of a slot; a park entry used under another generation; a ring with room and nothing outside it. -/
theorem witness_replay_stale : (tagOf (rG parked 3).toNat).slot < 16
    ∧ slotGenOf parked (tagOf (rG parked 3).toNat).core (tagOf (rG parked 3).toNat).slot ≠ (tagOf (rG parked 3).toNat).gen
    ∧ (tget ({} : Park) { parked with core.park := [(0, { used := true, gen := 2 })] }.core.park 0).gen ≠ (tagOf (rG parked 4).toNat).gen
    ∧ parked.core.outside = [] ∧ (ringAt parked 0 0).length < 4096 := by decide
/-- O16: a scratchpad access that meets a failed word. -/
def softly : State := { mach [(1, 2 ^ 60 + 0x40)] with coh.failed := [(scratchAt 0 0x40) / 8] }
theorem witness_soft_error : (let p := memPtr softly ⟨1, none, 0, 0⟩
    pSpace p = 1 ∧ p.toNat % 2 ^ 60 < 2 ^ 19 ∧ p.toNat % widBytes .w64 = 0
      ∧ softWord softly (scratchAt 0 (p.toNat % 2 ^ 19)) (widBytes .w64) = some (scratchAt 0 0x40 / 8))
    ∧ strandAt softly 0 0 = some (strand [(1, 2 ^ 60 + 0x40)]) ∧ softly.coh.hit = none := by decide +kernel
/-- O18: the home of the page is up and nothing of the core is on its way to it. -/
theorem witness_prefetch : let s := { ranged [] with far := false }
    quiet s 0 (homeOf s 0x10000) = true ∧ homeUp s 0x10000 = true ∧ Roomy s := ⟨by decide, by decide, ⟨by decide, by decide⟩⟩
/-- O19: a reserve that holds the page table and one that does not; a space with no base left for a range; a store with no room. -/
def crowded : State := { mach [] with hold.evqs := [(entryKey 7 0xC0 0, { cap := 65533 })], hold.lives := [(entryKey 7 0xC0 0, live), (placedKey, live)] }
def spaceless : State := { mach [] with hold.ranges := [(entryKey 0 0xC0 0, { base := 0, size := 2 ^ 56 })], hold.lives := [(entryKey 0 0xC0 0, live), (placedKey, live)] }
theorem witness_grant_limits : tableFits { mach [] with hub.tables := 16 } { base := 2 ^ 40, size := 0x10000 } = true
    ∧ tableFits { mach [] with hub.tables := 15 } { base := 2 ^ 40, size := 0x10000 } = false
    ∧ rangeBase spaceless ctxA 0x10000 = none ∧ 65536 < storeUsed crowded 0xC0 + 4 := by decide +kernel
/-- O20: a ROUTE with no entry free, and one whose descriptor is refused. -/
def routeless : State := { routing with hold.lives := (List.range 1024).map (fun j => (entryKey 2 0xC0 0 + j, live)) ++ [(placedKey, live)] }
theorem witness_route_refused : (match routeOf routing 3 with | .error _ => true | .ok _ => false) = true
    ∧ defaultSlice routeless 0 = 0xC0 := by decide +kernel
theorem witness_no_route : freeEntry routeless 2 0xC0 = none := by
  simp only [freeEntry, Option.map_eq_none_iff]
  refine leastFrom_none _ _ 0 fun i _ hi => ?_
  have : entryKey 2 0xC0 i = entryKey 2 0xC0 0 + i := by simp [entryKey]
  simp only [issuable, lifeOf, this, routeless, tget_filled ({} : Life) live (entryKey 2 0xC0 0) i 1024 (by simpa [kindCap] using hi)]
  rfl
/-- O21: a second reply of the home to another strand of the core, behind the first. -/
def behind : State := { answered 1 with coh.replies := [{ tag := { core := 0, slot := 0, gen := 1 }, act := .regs [(2, 7)] 5, home := some 0xC0 },
  { tag := { core := 0, slot := 1, gen := 1 }, act := .regs [(2, 7)] 5, home := some 0xC0 }] }
theorem witness_reply_order : ∀ r q rest, behind.coh.replies = r :: q :: rest → r.home.isSome = true ∧ q.home = r.home ∧ q.tag.core = 0 ∧ q.tag.slot ≠ 0 := by
  intro r q rest h
  simp only [behind, List.cons.injEq] at h
  obtain ⟨rfl, rfl, rfl⟩ := h
  decide
/-- O22: a withdrawal whose lock request is still on its way. -/
theorem witness_withdrawal : ∃ r ∈ ({ mach [] with hold.reqs := [{ tag := { core := 0 }, ctxh := ctxA, pts := 0, op := .lock 2 (mkHandle 3 1) 9 false }] } : State).hold.reqs,
    r.tag = { core := 0 } ∧ r.op = .lock 2 (mkHandle 3 1) 9 false ∧ hKey (mkHandle 3 1) = 3 := ⟨_, List.mem_singleton.2 rfl, rfl, rfl, by decide⟩
/-- O23: a route that has gone, one with a SEND that waits, one of another device; records that a wake flit has brought; messages in the
channel buffer; a route to the strand, live and lapsed, and one to another destination. -/
def routeA : Word := mkHandle (entryKey 2 0xC0 0) 1
def channel (r : Route) (chan : List Msg) (lives : Sparse Life := [(entryKey 2 0xC0 0, live), (placedKey, live)]) : State := { sending 8 with
  hold.lives := lives, hold.routes := [(entryKey 2 0xC0 0, r)], core.chan := [(0, chan)] }
def mineR : Route := { dtag := tagBits { core := 0, slot := 0, gen := 1 } }
def mineM : Msg := { route := routeA, dtag := tagBits { core := 0, slot := 0, gen := 1 } }
theorem witness_channels : (∀ r ∈ [{ mineR with gone := true }, { mineR with waiting := [{ tag := {core := 0}, msgs := [0], ts := 0 }] }, { mineR with peer := 1, credits := 1 }],
      let s := channel r []
      checkHandle s [2] (rG s 1) = .ok () ∧ checkHome s ctxA (rG s 1) = .ok () ∧ (routeAt s (rG s 1)).dtype ≠ 2)
    ∧ ownRoute 0 = false ∧ ownRoute routeA = true
    ∧ (let s := channel mineR [{}, mineM]
       checkHandle s [2, 7] routeA = .ok () ∧ hKind routeA = 2 ∧ checkIndex routeA = .ok () ∧ liveHandle s routeA = true
         ∧ (lifeOf s (hKey routeA)).owner = ctxA ∧ (routeAt s routeA).dtag = tagBits (curTag s) ∧ (tget [] s.core.chan 0)[1]? = some mineM
         ∧ tget [] s.core.chanWait 0 = [])
    ∧ (let s := channel mineR [{}] [(placedKey, live)]
       checkHandle s [2, 7] routeA = .ok () ∧ liveHandle s routeA = false ∧ ∀ m ∈ tget [] s.core.chan 0, m.route ≠ routeA)
    ∧ ({ strand [] with got := [{}] } : Strand).got = {} :: [] := by decide +kernel
/-- O24: a descriptor that R176 does not admit. -/
theorem witness_layout_refused : fldOk 0x00400000 = false ∧ fldOk 0x803F07FF = false := by decide
/-- O25: a record of another context; a strand that is woken, one that waits on; a full buffer and a waiting input; a strand in PARK. -/
def messaged (t : Strand) (n : Nat) (waits : List Msg) : State := { flying with
  core.slots := [(0, t)], core.chan := [(0, List.replicate n {})], core.chanWait := [(0, waits)] }
theorem witness_channel_input : (lifeOf (arriving { cap := 4 }) (hKey evqA)).owner ≠ ctxA + 1
    ∧ (tget [] (messaged (strand []) 63 []).core.chan 0 ++ [mineM]).length ≤ 64 ∧ 64 < (tget [] (messaged (strand []) 64 []).core.chan 0 ++ [mineM]).length
    ∧ tget [] (messaged (strand []) 0 [{}]).core.chanWait 0 ≠ []
    ∧ (let t : Strand := { strand [] with st := 2, gotQ := routeA, want := 1 }
       t.want ≤ ((tget [] (messaged t 0 []).core.chan 0 ++ [mineM]).countP fun m => m.route = routeA ∧ m.dtag = mineM.dtag)
         ∧ tagged (messaged t 0 []) { core := 0, slot := 0, gen := 1 } = some t)
    ∧ (evqAt (holding { cap := 4, parked := [{ core := 0 }] } 0) (hKey evqA)).parked ≠ [] := by decide +kernel

/-- O27: a VADD that has begun: its first access, the last element of B read, and no beat left. -/
def addVec : VProg := { xs := [1, 2, 3].map fun r => shapeAt (shapes 1 1 2) 0 r, msgs := 0, expr := 0 }
def vectoring (p : VProg) : State := { shapes 1 1 2 with
  far := true, core.slots := [(0, { strand [(1, 2 ^ 60 + 0x100), (2, 2 ^ 60 + 0x120), (3, 2 ^ 60 + 0x140), (4, 65)] with prog := some p })] }
theorem witness_beats : ∀ p ∈ [addVec, { addVec with vals := [0, 0, 0, 0] }, { addVec with beat := 1 }],
    (strandAt (vectoring p) 0 0).bind (·.prog) = some p
    ∧ (∀ x ∈ p.xs, x.ch = false ∧ x.count = 2 ∧ floatFmt x.fmt = true ∧ x.size = 4) ∧ p.xs.length = 3 ∧ p.stored < 2 ∧ (p.vals.length < 4 ∨ p.vals.length = 2 * 2)
    ∧ (2 + lanes 4 - 1) / lanes 4 ≤ 1 ∧ 2 ≤ lanes 4 := by decide +kernel
/-- O31: a copy in each phase of a beat, no word failed and nothing of the engine under way; a beat that is left and none. -/
theorem witness_copy_phases : (∀ n ∈ [0, 1], let s := copying copyOp { started := true, phase := n }
      (queueAt s 0 false).run.phase = n ∧ s.coh.failed = [] ∧ s.coh.served = [] ∧ engineQueued s (copyHolder 0 * 4) = false)
    ∧ (∀ x ∈ sidesOf copyOp, 0 * (64 / x.ud) < x.total ∧ x.total ≤ 1 * (64 / x.ud)) := by decide +kernel
theorem witness_fence_stops : let s := copying (.qfence 0 []) {}
    cmdHeld s (cmdOf (.qfence 0 [])) = false ∧ stopStatus s 0 (cmdOf (.qfence 0 [])) = 0 ∧ fenceMet s 0 [] = true
      ∧ stopStatus { s with core.filter := [(1024, [{ level := 0, id := 0 }])] } 0 (cmdOf (.qfence 0 [])) ≠ 0 := by decide +kernel
/-- O32: an image in device memory, and sectors of it; a refusal that ends a copy of which all is sent. -/
theorem witness_overlay_image : (copying (.ovld 2 none) {}).coh.dir.length + 2 ≤ 16384 ∧ (2 : Nat) ^ 62 + 64 * 0 < 2 ^ 56 * 64 + 64
    ∧ 2 ^ 56 * 64 < 2 ^ 62 + min 12 (64 * 0 + 64) ∧ ({ fin := some (0, 0, 0) } : Run).fin = some (0, 0, 0) := by decide
/-- O33: a sweep whose queue has taken a token at the boundary of its first vector. -/
theorem witness_sweep_stops : let s := { factoring (.fupd slotF atF matrix4) { started := true, pos := 16, vals := List.replicate 16 0x3F800000 } 4 with
      core.filter := [(1024, [{ level := 0, id := 0 }])] }
    stopStatus s 0 (cmdOf (.fupd slotF atF matrix4)) ≠ 0 ∧ (queueAt s 0 true).run.phase = 0 ∧ s.coh.failed = [] ∧ s.coh.served = []
      ∧ engineQueued s (copyHolder 0 * 4 + 3) = false ∧ (queueAt s 0 true).run.pos = 4 * 4 ∧ (factorUnits s (cmdOf (.fupd slotF atF matrix4))).e0 = 4
      ∧ (sweepAll false 0 0 [[0x40000000]] ([[0x3F800000], [0x3F800000]].take 1)).isOk = true := by decide +kernel
/-- O35: A's reads into XB0. -/
theorem witness_load_reads : madeAll (readAll 2 32 (fun i => 0x10000 + BitVec.ofNat 64 (i / 32 * 64) + BitVec.ofNat 64 (2 * (i % 32))) 32769
    (mapStream (loadInto (streams false 2 32 1 { mcfg := 0x22 }) 4) fun x => { x with head := [2] })) 32 = true := by decide +kernel
/-- O37: the staging stream reads into no buffer. -/
theorem witness_no_load : (pairAt (streams true 2 32 1 filling) 0).staging.into = none
    ∧ madeAll (readAll 4 128 (tileAt 0x10000 512 4 128) 16385 (mapStream (streams true 2 32 1 { filling with mcfg := 0x2C }) fun x =>
      { x with head := [12, 0, 2, 32, 1] ++ List.replicate 32 0 })) 128 = true := by decide +kernel
/-- O38: a stream that is bound to fault. -/
theorem witness_doomed : (curStream (streaming { st := 2, compute := { st := 1, doomed := true } })).doomed = true
    ∧ (curStream (pairing {})).doomed = false := by decide
/-- O39: a ring that is full and one with a push that waits outside it; a waiter that has left its barrier. -/
theorem witness_rooms : RoomFor (celled 0x10000 2 1) 0 recordR ∧ ¬ RoomFor { celled 0x10000 2 1 with
      core.outside := [{ stage := none, core := 0, prio := 15, entry := .resume (strand []) 0, ticket := 0 }] } 0 recordR := by
  constructor
  · exact ⟨by decide, by simp [celled, mach, base]⟩
  · rintro ⟨-, h⟩
    exact absurd (h _ (List.mem_singleton.2 rfl)) (by decide)
theorem witness_full_ring : ringFull { celled 0x10000 2 1 with core.rings := [(15, List.replicate 4096 (.resume (strand []) 0))] } none 0 15 = true := by decide +kernel
theorem witness_barrier_leaves : ∃ b ∈ ({ barred 2 1 0 1 with work.bars := [{ core := 0, off := 0x140, tag := {}, d := 1, released := none, left := true }] } : State).work.bars,
    b.left = true := ⟨_, List.mem_singleton.2 rfl, rfl⟩
/-- O40: a descriptor whose event queue has lapsed, no push outside a ring, and rings with room for its units. -/
theorem witness_launch_refused : (checkFields (launching (graphC 1 ctxA)) (checkHandle (launching (graphC 1 ctxA))) (checkStgt (launching (graphC 1 ctxA))) descL).isOk = true
    ∧ (checkHomes { launching (graphC 1 ctxA) with hold.lives := [(entryKey 0 0xC0 0, live), (placedKey, live)] } descL).isOk = false
    ∧ (launching (graphC 1 ctxA)).core.outside = [] ∧ (ringAt (launching (graphC 1 ctxA)) 0 0).length + 4 ≤ 4096 := by decide +kernel

/-- O40: a stage table whose entry is refused, in own scratchpad. -/
theorem witness_stage_refused : let b := descL + 2 ^ 832 * 0x1000000000000800
    descField b 0x68 8 = 0x1000000000000800 ∧ (checkFields (launching (graphC 1 ctxA)) (checkHandle (launching (graphC 1 ctxA))) (checkStgt (launching (graphC 1 ctxA))) b).isOk = true
      ∧ (stageEntries ((List.range (descField b 0x68 8 / 2 ^ 61 + 1)).map fun _ => 0)).isOk = false := by decide +kernel
/-- O41: no token of the instance is out. -/
theorem witness_fresh_token : ({ level := 0, id := 5, kill := false } : Token) ∉ (ending { st := 2, out := 1, ctxh := ctxA } {}).work.tokens
    ∧ ({ level := 1, id := 5, kill := false } : Token) ∉ List.replicate 255 ({ level := 0, id := 9 } : Token) := by decide
/-- O42: resume entries that are not single-stepped, or stepped at their instruction; a ring above with room; a strand at a barrier. -/
theorem witness_slots_more : ({ strand [] with steps := 2, stepPc := 0x10000 } : Strand).stepPc = (strand []).ctx.pc ∧ (strand []).steps ≠ 2
    ∧ (ringAt (binding entry1 ready1) 0 4).length < 4096 ∧ Room (displaced 2) none 0 (recPrio { launch := 1 })
    ∧ ({ strand [] with st := 1, wait := .barrier 0 0x140 } : Strand).atBarrier = true ∧ (strand []).atBarrier = false :=
  ⟨rfl, by decide, by decide, ⟨by decide, by simp [displaced, ranged, mach, base]⟩, rfl, rfl⟩
/-- O43: a die whose temperatures have not been evaluated this interval; a cluster of it. -/
theorem witness_slot_evaluation : let s := { mach [] with time.dt := 16 }
    tget 0 s.work.evaluated 0 < s.time.dt / 16 ∧ dieCluster s 0 0 = true ∧ corePresent s 0 = true
      ∧ 4 < ((List.range 16).filter fun i => !tget false s.core.slotOff (0 * 16 + i)).length := by decide +kernel
/-- O44: a term and a block that R322 does not admit; a launch that does not admit the core; a responder that has answered, one of LSEV with a payload in
reach and one without; one whose core has lost it; frames at a multiple of 64; entries of a move. -/
theorem witness_census_more : admits (soliciting blockR { st := 2, ctxh := ctxA } {}) (launchAt (soliciting blockR { st := 2, ctxh := ctxA } {}) 0) 0 = false
    ∧ 2 ^ 32 ≤ (srcZ (mach [(1, 2 ^ 32)]) (.reg 1)).toNat ∧ ({ responderR with answer := some [1] } : Responder).answer ≠ none ∧ (waveW .lsev).comb = .lsev
    ∧ ownPtr (mach [(1, 2 ^ 60 + 0x40)]) (srcZ (mach [(1, 2 ^ 60 + 0x40)]) (.reg 1)) 8 = .ok 0x40 ∧ 0x40 / 2 ^ 15 = (0x40 + 7 + 4 * (waveW .lsev).d) / 2 ^ 15
    ∧ ownPtr (mach [(1, 9)]) (srcZ (mach [(1, 9)]) (.reg 1)) 8 = .error (bad 9) ∧ 0x7FF8 / 2 ^ 15 ≠ (0x7FF8 + 7 + 4 * 6) / 2 ^ 15
    ∧ (∀ r ∈ (coreCensus (responding { wave := waveW .sum32, toTake := [], left := [] } [] {}) 0).resp, r.id ≠ 4) ∧ responderR.ent.frb % 64 = 0
    ∧ (∀ m ∈ (moving 3 1 [] 0).census.moves, m.src = 0 ∧ m.phase ≤ 3) := by decide +kernel
theorem witness_census_room : Room (responding { wave := waveW .sum32, toTake := [], left := [] } [responderR] {}) none 0 (responderR.ent.prio % 256 % 16) :=
  ⟨by decide, by simp [responding, queued, base]⟩
/-- O46: a frame for which a request is on its way, and one for which none is; a store of a core's; an entry's sector in its home's system region;
no frame that is reserved; a fault whose record has not gone. -/
theorem witness_frames_asked : frameAsked { unmapping [] (some 1) [] 0 with coh.net := [{ tag := {core := 0}, pa := 0x10000, n := 8, kind := .read, pts := 0, post := .store }] } 1 1 = true
    ∧ frameAsked (unmapping [] (some 1) [] 0) 1 1 = false
    ∧ (∀ m ∈ (storing { st := 1, pn := 1 }).page.stores, m.hub = none ∧ m.engine = none ∧ m.post = .store
        ∧ m.pa / 64 = sysPa (keyHome (entryKey 0 0xC0 0)) ctxA (0x800000000000 + 16 * vpnIn { base := 0x10000, size := 0x10000 } 0x10000) / 64)
    ∧ (∀ f ∈ ({ mach [] with page.faults := [{ range := 1, va := 0, write := false, engine := false, count := 1, tag := {}, linked := [], span := 16, at_ := 0, sent := false }] } : State).page.faults,
        f.sent = false) := by decide +kernel
theorem witness_roomy : Roomy (storing { st := 1, pn := 1 }) ∧ Roomy (homing .read .store {}) ∧ Roomy (recalled (.ask 0 0x400) [] {}) ∧ Roomy (hot {} allReady) :=
  ⟨⟨by decide, by decide⟩, ⟨by decide, by decide⟩, ⟨by decide, by decide⟩, ⟨by decide, by decide⟩⟩
/-- O47: a home that is READY and one that is not; a failed word within the sector; two that wait for the one owner entry that comes free. -/
def granting : State := { ranged [] with coh := { coh := [(0, .data 0 0x400 5 6 7)], owners := [(0xC0, 0x400 :: (List.range 65535).map (· + 0x100000))], dir := [(0x400, { present := true, st := .t 0 true, queue := [reqR .own .again] })], grantq := [(0xC0, [{ reqR .own .again with pa := 0x20000 }])] } }
theorem witness_homes_more : homeUp (homing .read .store {}) 0x10000 = true ∧ homeUp { homing .read .store {} with hub.ready := [(0, 2)] } 0x10000 = false
    ∧ softWord { homing .read .store {} with coh.failed := [0x2000] } 0x10000 8 = some 0x2000 ∧ 0x10000 % 8 + 8 ≤ 8 := by decide +kernel
theorem witness_grants_in_order : (dirAt granting 0x400).queue = [reqR .own .again] ∧ tget [] granting.coh.grantq 0xC0 = [{ reqR .own .again with pa := 0x20000 }]
    ∧ homeOf granting 0x20000 = 0xC0 ∧ homeOf granting 0x10000 = 0xC0 ∧ (0x20000 : Nat) / 64 ≠ 0x400 ∧ (dirAt granting (0x20000 / 64)).st = .h := by decide +kernel
theorem witness_owner_entry : ((ownersOf granting 0xC0).filter (· != 0x400)).length = 65535 := by
  show ((0x400 :: (List.range 65535).map (· + 0x100000)).filter (· != 0x400)).length = 65535
  rw [List.filter_cons_of_neg (by decide), List.filter_eq_self.2, List.length_map, List.length_range]
  intro x hx
  obtain ⟨y, -, rfl⟩ := List.mem_map.1 hx
  simp only [bne_iff_ne, ne_eq]
  omega

/-- O48: packets that fit: an AMO's, a reply's with a STATUS; a port after its eighth replay; a NAK taken in retraining. -/
theorem witness_packets_fit : (∀ p ∈ [packetP 1 0 7 false, { packetP 5 0 7 false with aop := 31, cmp := 5 }, { packetP 2 0 7 false with status := 7 }],
      1 ≤ p.type ∧ p.type ≤ 9 ∧ p.len ≤ 32 ∧ p.payload.length = 64 * p.len ∧ p.seq < 4096 ∧ p.ack < 4096 ∧ (p.type = 5 → p.aop < 32)
        ∧ (p.type ≠ 5 → p.aop = 0) ∧ (p.status = 0 ∨ p.type = 2) ∧ (p.cmp = 0 ∨ p.type = 5 ∧ p.aop % 8 = 7) ∧ p.rsv = 0)
    ∧ 8 ≤ (portAt (porting { st := 2, replays := 8 }) 0).replays ∧ (portAt (porting { st := 2, replays := 7 }) 0).replays < 8
    ∧ (portAt (porting { st := 3, rx := [packetP 9 0 7 true] }) 0).st ≠ 2 := by decide
/-- O49: requests as they stand when nothing of the port is under way, at a home that is READY; a WRITE with its byte count; large pages. -/
def writeP : Packet := { packetOf 1 5 (1 :: List.replicate 63 0) with addr := 0x10000, opnd := 1 }
theorem witness_imports_more : (∀ p ∈ [writeP, requestP 3 8 0x10000, requestP 5 1 0x10000, requestP 7 0 0], let s := importing p ctxA
      (portAt s 0).pos = 0 ∧ (portAt s 0).got = [] ∧ (portAt s 0).tx = [] ∧ s.coh.served = [] ∧ engineQueued s (importWho s 0).id = false
        ∧ homeUp s 0x10000 = true ∧ s.coh.failed = [])
    ∧ (writeP.payload.take writeP.opnd.toNat).length = 1 ∧ ¬ (writeP.opnd = 0 ∨ writeP.payload.length < writeP.opnd.toNat) := by decide +kernel
theorem witness_imports_roomy : Roomy (importing writeP ctxA) := ⟨by decide, by decide⟩
/-- O50: a read of the window that is next; a job's counter, a fatal record that is held, and a strand parked on a queue that has lapsed. -/
theorem witness_window : due { mach [] with agenda := [.readBar0 0x20] } = none ∧ ({ mach [] with agenda := [.readBar0 0x20] } : State).agenda = .readBar0 0x20 :: [] := by
  decide
def listing : State := { commanding 0x02 1 [] 64 5 with
  work.counters := [(0, graphC 1 ctxA)], core.held := [(0, [trapTo true])], core.slots := [(0, { strand [] with st := 5 })] }
theorem witness_listing : (∀ e ∈ listing.work.counters, e.2.st ≠ 0) ∧ (∀ e ∈ listing.core.held, ∀ r ∈ e.2, r.fatal = true)
    ∧ (∀ e ∈ listing.core.slots, e.2.st = 5 ∧ liveHandle listing (launchAt listing e.2.record.launch.toNat).tq = false) := by decide +kernel
/-- O51: no slice is READY; none that is has an entry; a bundle's digest is what the record says, and whether it verifies is the implementation's. -/
theorem witness_grantctx_none : (∀ x ∈ sliceIds, slicePresent { commanding 0x03 0 [0, 0] 0 5 with hub.ready := [] } x = false)
    ∧ (∃ x ∈ sliceIds, slicePresent (commanding 0x03 0 [0, 0] 0 5) x = true)
    ∧ (∀ x ∈ sliceIds, slicePresent (commanding 0x03 0 [0, 0] 0 5) x = true → x = 0xC0) := by decide +kernel
/-- O53: a core with 16 reports of a soft error, one with fewer; a strand bound to it, one that is a responder's body; its heir; a slot it holds. -/
def softCore (n : Nat) : State := { mach [] with
  hub.ready := [(0, 2), (1, 2), (2000, 2)], core.soft := [(0, List.replicate n 0)], core.rings := [(3, [entry1])],
  core.slots := [(0, strand []), (1, { strand [] with resp := some (0, 4) })], eng.mslots := [(0, { tag := { core := 0, slot := 0, gen := 1 } })],
  hold.lives := [(placedKey, live), (entryKey 6 0 0, live)] }
theorem witness_out_of_service_more : (∀ n ∈ [15, 16], ((tget [] (softCore n).core.soft 0).filter fun t => decide ((softCore n).time.dt < t + 2 ^ 20)).length = n)
    ∧ corePresent (softCore 16) 0 = true ∧ corePresent (softCore 16) 1 = true ∧ (1 + 3 - 0 % 4) % 4 = 0 ∧ (softCore 16).core.outside = []
    ∧ (∀ p, p < 16 → (ringAt (softCore 16) 1 p).length + (ringAt (softCore 16) 0 p).length ≤ 4096)
    ∧ (∀ e ∈ (softCore 16).eng.mslots, e.2.tag = { core := 0, slot := 0, gen := slotGenOf (softCore 16) 0 0 }) ∧ (strandAt (softCore 16) 0 0).isSome = true
    ∧ (lifeOf (softCore 16) (direntKey 0 0)).st = 1 := by decide +kernel
/-- O53: each phase of bring-up that the state alone decides, and the clusters a configuration record names. -/
theorem witness_bring_up : (0 : Nat) < 1024 ∧ unitOf 0 < 48 ∧ ({ mach [] with hub.fw := 3, hub.ready := [(kTree 0, 2)] } : State).hub.fw = 3 := by decide
/-- O56: strands after a stepped instruction: complete, blocked, and not stepped; streams that are busy, that wait, and whose instruction is done; an
overlay of the pair's bundle, and one of none. -/
theorem witness_after_step : (∀ t ∈ [{ strand [] with steps := 2, stepPc := 0x10000 }, { strand [] with steps := 2, st := 2, wait := .recv }, strand []],
      strandAt (base t) 0 0 = some t) ∧ strandAt (mach []) 0 1 = none
    ∧ (∀ x ∈ [({ st := 1, busy := true } : Stream), { st := 1, wait := true, fetched := true }, { st := 1, wait := true }, { st := 1 }],
        (pairAt (streaming { st := 1, compute := x }) 0).stream true = x)
    ∧ bundleEntry { streamTurn with work.bundles := [{ ctxh := ctxA, number := 0, ovls := [(1, 0, 12)] }] } ctxA 0 1 ≠ none
    ∧ bundleEntry streamTurn ctxA 0 1 = none ∧ (pairAt streamTurn 0).ctxh = ctxA ∧ (pairAt streamTurn 0).env.bundle = 0 := by decide +kernel
/-- R254 and R255: the wide form of SEMP and SEMW has no word of its own. -/
theorem test_wide_semp : (Instr.semp 0 (.wide 1)).wellFormed = false ∧ (Instr.semw 0 (.wide 1)).wellFormed = false
    ∧ decode 0xBC00080C0000000000000001#96 = .error .reserved := by decide

/-! ### The later clauses: checks of values and of the cases that they tell apart -/

/-- CRC-32C of the nine bytes "123456789", the check value that its parameters are known by (log entry 8). -/
theorem test_crc32c : crc32c ((List.range 9).map fun i => BitVec.ofNat 8 (0x31 + i)) = 0xE3069283 := by decide +kernel
/-- O6: the largest finite magnitude of FP32 and one past it, an inexact normal one and a subnormal one that is inexact. -/
theorem witness_finish : ((2 : ℚ) ^ (1 : Int) ≤ ratOf false 3 0 ∧ ratOf false 3 0 < (2 : ℚ) ^ ((1 : Int) + 1))
    ∧ (f32.finish .rne (.fin false 1 200, 0)).2 = 5 ∧ (f32.finish .rtz (.fin true 1 200, 0)).2 = 5
    ∧ (f32.finish .rne (.fin false (2 ^ 25 + 1) 0, 0)).2 = 1 ∧ (f32.finish .rne (.fin false 3 (-150), 0)).2 = 3
    ∧ (f32.finish .rne (.fin false (2 ^ 24 - 1) 104, 0)).2 = 0 := by
  refine ⟨⟨?_, ?_⟩, by decide +kernel, by decide +kernel, by decide +kernel, by decide +kernel, by decide +kernel⟩ <;> norm_num [ratOf]
/-- O7: a quiet and a signalling NaN, operands in order, zeros of both signs and equal ones; sources of FCVT and FRND that are a NaN, an infinity,
a zero and a number; what they round to. -/
def floats : State := mach [(1, 0x7FC00000), (2, 0x7F800001), (3, 0x3F800000), (4, 0x80000000), (5, 0x7F800000), (6, 0xFF800000), (7, 0x3FC00000)]
theorem witness_comparisons : Issues .strand 0 floats
    ∧ (fSrc floats .s (.reg 1)).isNan = true ∧ (fSrc floats .s (.reg 1)).isSig = false ∧ (fSrc floats .s (.reg 2)).isSig = true
    ∧ fSrc floats .s (.reg 3) = .fin false 0x800000 (-23) ∧ fSrc floats .s (.reg 7) = .fin false 0xC00000 (-23)
    ∧ fSrc floats .s (.reg 5) = .inf false ∧ fSrc floats .s (.reg 6) = .inf true ∧ (fSrc floats .s (.reg 4)).isZero = true
    ∧ (fSrc floats .s (.reg 0)).neg = false ∧ (fSrc floats .s (.reg 4)).neg = true ∧ (fSrc floats .s (.reg 0)).isZero = true :=
  ⟨issues_strand _, by decide +kernel, by decide +kernel, by decide +kernel, by decide +kernel, by decide +kernel, by decide +kernel, by decide +kernel, by decide +kernel, by decide +kernel, by decide +kernel, by decide +kernel⟩
theorem witness_orders : Before (.fin false 0x800000 (-23)) (.fin false 0xC00000 (-23)) ∧ Before (fSrc floats .s (.reg 4)) (fSrc floats .s (.reg 0))
    ∧ ¬ Before (.fin false 0x800000 (-23)) (.fin false 0x800000 (-23)) ∧ Below (.inf true) (.inf false)
    ∧ RoundsTo .rne (ratOf false 0xC00000 (-23)) 2 ∧ RoundsTo .rtz (ratOf true 0xC00000 (-23)) (-1)
    ∧ RoundsTo .rup (ratOf false 0xC00000 (-23)) 2 ∧ RoundsTo .rdn (ratOf false 0xC00000 (-23)) 1 ∧ (-1 : Int) < 0 ∧ (2 : Int) ≤ 2 ^ 31 - 1 := by
  refine ⟨.inl ?_, .inr (by decide +kernel), ?_, ⟨rfl, rfl⟩, ?_, ?_, ?_, ?_, by decide, by decide⟩
  · norm_num [Below, ratOf]
  · rintro (h | h)
    · exact absurd h (by norm_num [Below])
    · exact absurd h.1 (by decide +kernel)
  all_goals norm_num [RoundsTo, ratOf]
/-- O15: another core's scratchpad that it opens to all, by a pointer of space 3 and of space 2, near and to go to; a launch that does not admit it. -/
def opened (mask : Nat) : State := { mach [(1, 0x3004000000000040), (2, 0x2001000000000040), (3, 0x3000000000000040)] with
  hub.ready := [(0, 2), (4, 2), (0xC0, 2), (2000, 2), (2001, 2)], work.launches := [(0, { st := 2, ctxh := ctxA, cmask := mask })] }
theorem opened_core : Issues .any 0 (opened 1) ∧ StrandIssues 0 (opened 1) 0 0 (strand [(1, 0x3004000000000040), (2, 0x2001000000000040), (3, 0x3000000000000040)]) :=
  ⟨⟨rfl, rfl, rfl, rfl⟩, ⟨rfl, by decide, rfl, rfl, rfl, rfl⟩⟩
/-- The same with window 0 of core 4, or of core 1, over its first 64 KiB. -/
def windowed (mask : Nat) : State := { opened mask with sregs.win := [(4 * 8, 0xF000001000000000), (1 * 8, 0xF000001000000000)] }
theorem witness_other_cores : pSpace (memPtr (windowed 1) ⟨1, none, 0, 0⟩) = 3 ∧ corePresent (windowed 1) 4 = true
    ∧ pSpace (memPtr (windowed 1) ⟨2, none, 0, 0⟩) = 2 ∧ pZeroOk 0x3004000000000040 = true ∧ pZeroOk 0x2001000000000040 = true
    ∧ (0x3004000000000040 : Word).toNat % widBytes .w64 = 0 := by decide +kernel
theorem witness_windows : winOk (windowed 1) 4 0 0x40 8 true true = true ∧ winOk (windowed 1) 1 0 0x40 8 true true = true := by decide +kernel
theorem witness_admits : admits (windowed 3) (launchAt (windowed 3) 0) 4 = true ∧ admits (windowed 1) (launchAt (windowed 1) 0) 4 = false := by decide +kernel
/-- O17: the state after the translation of an AMO, its home far and near. -/
theorem witness_amo_far : let s := ranged []
    let s' := (Machine.translate s 0 ctxA 4096 0x10000 true true none 0x10000 4).1
    StrandIssues 0 s' 0 0 (strand [(1, 0x10000)]) ∧ s'.time = s.time ∧ s'.hub = s.hub ∧ s'.sregs = s.sregs ∧ s'.far = true
      ∧ (rG s 1 + (0#32).signExtend 64).toNat = 0x10000
      ∧ (Machine.translate s 0 ctxA 4096 0x10000 true true none 0x10000 4).2 = .mem 0x10000 false (mkHandle (entryKey 0 0xC0 0) 1) :=
  ⟨⟨rfl, by decide, by decide, rfl, rfl, rfl⟩, by decide, by decide, by decide, by decide, by decide, by decide⟩
theorem witness_amo_near : let s := { ranged [] with far := false }
    let s' := (Machine.translate s 0 ctxA 4096 0x10000 true true none 0x10000 4).1
    StrandIssues 0 s 0 0 (strand [(1, 0x10000)]) ∧ StrandIssues 0 s' 0 0 (strand [(1, 0x10000)]) ∧ s'.far = false ∧ s'.time = s.time ∧ s'.hub = s.hub
      ∧ s'.sregs = s.sregs ∧ Roomy s' ∧ s'.coh.replies = []
      ∧ quiet s' 0 (homeOf s' 0x10000) = true ∧ homeUp s' 0x10000 = true ∧ (dirAt s' 0x400).st = .h
      ∧ hasNoticed s' (homeOf s' 0x10000) (mkHandle (entryKey 0 0xC0 0) 1) = false
      ∧ (Machine.translate s 0 ctxA 4096 0x10000 true true none 0x10000 4).2 = .mem 0x10000 false (mkHandle (entryKey 0 0xC0 0) 1) :=
  ⟨⟨rfl, by decide, rfl, rfl, rfl, rfl⟩, ⟨rfl, by decide, by decide, rfl, rfl, rfl⟩, by decide, by decide, by decide, by decide, ⟨by decide, by decide⟩, by decide, by decide, by decide, by decide, by decide, by decide⟩
/-- O22: entries of the other kinds that lapse and that reach the end of DUSK: a route on which a strand is blocked and a SEND waits, a queue with
its waiters and its records, a context with a strand under it, a lock with a waiter and a range with a page. -/
def lapsing (kind st : Nat) : State := { past kind st 0 [⟨{ core := 0 }, 9, 1, 0⟩] with
  core := { slots := [(0, { strand [] with st := 2, gotQ := mkHandle (entryKey kind 0xC0 0) 1, ctxh := mkHandle (entryKey kind 0xC0 0) 1 })], slotGen := [(0, 1)] }
  page.pte := [(pteKey ctxA 1, { st := 1, pn := 1 })] }
def lapsingH (kind st : Nat) : State := { lapsing kind st with
  hold := { (lapsing kind st).hold with
    routes := [(entryKey 2 0xC0 0, { dtag := tagBits { core := 0, slot := 0, gen := 1 }, waiting := [{ tag := { core := 0 }, msgs := [0], ts := 0 }] })]
    evqs := [(entryKey 7 0xC0 0, { cap := 4, recs := [{ route := 5 }], blocked := [{ tag := { core := 0 }, want := 2 }], parked := [{ core := 0, slot := 1 }] })]
    ranges := [(entryKey 0 0xC0 0, { base := 0x10000, size := 0x10000 })] } }
theorem witness_lapses : (∀ k ∈ [0, 2, 3, 7], let s := lapsingH k 1
      (lifeOf s (entryKey k 0xC0 0)).st = 1 ∧ (lifeOf s (entryKey k 0xC0 0)).expiry < localDt s 0xC0 ∧ hKey (curHandle s (entryKey k 0xC0 0)) = entryKey k 0xC0 0)
    ∧ (let s := lapsingH 2 1
       ∀ t ∈ strandAt s 0 0, tagged s (tagOf (tget {} s.hold.routes (entryKey 2 0xC0 0)).dtag) = some t ∧ t.gotQ = curHandle s (entryKey 2 0xC0 0) ∧ t.st = 2)
    ∧ (let s := lapsingH 3 1
       ∀ t ∈ strandAt s 0 0, t.ctxh = curHandle s (entryKey 3 0xC0 0) ∧ t.st = 2 ∧ s.core.park = [] ∧ s.core.slots = [(0 * 16 + 0, t)]) := by decide +kernel
theorem witness_darkness : (∀ k ∈ [0, 1, 3, 4, 5, 7], let s := lapsingH k 2
      (lifeOf s (entryKey k 0xC0 0)).st = 2 ∧ (lifeOf s (entryKey k 0xC0 0)).darkAt ≤ localDt s 0xC0)
    ∧ (lockAt (lapsingH 1 2) (entryKey 1 0xC0 0)).queue = [⟨{ core := 0 }, 9, 1, 0⟩]
    ∧ (lifeOf (lapsingH 0 2) (entryKey 0 0xC0 0)).owner = ctxA ∧ (lapsingH 0 2).page.pte = [(pteKey ctxA 1, { st := 1, pn := 1 })]
    ∧ (∀ k ∈ [pteKey ctxA 1], pteKey ctxA (0x10000 / 65536) ≤ k ∧ k < pteKey ctxA ((0x10000 + 0x10000) / 65536)) := by decide +kernel
theorem witness_notice_units : readyCode { mach [] with hub.ready := [(0, 2), (2000, 1)] } 0 = 2
    ∧ readyCode { mach [] with hub.ready := [(0, 2), (2000, 1)] } (kCluster (clusterOf 0)) = 1 ∧ unitOf 0 ≤ 47 ∧ ¬ unitOf 0xC0 ≤ 47 ∧ unitOf 0xC0 ≤ 51 := by decide
/-- O23: records that a flit of another queue has brought. -/
theorem witness_other_flit : ({ strand [] with got := [{}], gotQ := routeA } : Strand).gotQ ≠ evqA ∧ ({ strand [] with got := [{}], gotQ := evqA } : Strand).gotQ = evqA := by decide
/-- O25: wake flits for the wait that is on, one that is over and one of no records; returns to a queue issued anew; a request that tells of a waiter
who has left; a fatal record behind one that is not. -/
def awake (q : Word) (issue : Nat) (msgs : List Msg) : State := { holding { cap := 4, recs := [{}], blocked := [{ tag := { core := 0 }, want := 1 }] } 0 with
  hold := { (holding { cap := 4, recs := [{}], blocked := [{ tag := { core := 0 }, want := 1 }] } 0).hold with
    wakes := [{ tag := { core := 0, slot := 0, gen := 1 }, q := q, msgs := msgs, issue := issue }]
    reqs := [{ tag := { core := 0 }, ctxh := ctxA, pts := 0, op := .served (entryKey 7 0xC0 0) }] }
  core.slots := [(0, { strand [] with st := 2, wait := .recv, gotQ := evqA, lastIssue := 4 })] }
theorem witness_wake_issue : (∀ w ∈ (awake evqA 4 [{}]).hold.wakes, ∀ t ∈ tagged (awake evqA 4 [{}]) w.tag, w.msgs ≠ [] ∧ t.gotQ = w.q ∧ t.lastIssue = w.issue)
    ∧ (∀ w ∈ (awake evqA 3 [{}]).hold.wakes, ∀ t ∈ tagged (awake evqA 3 [{}]) w.tag, t.lastIssue ≠ w.issue)
    ∧ (∀ w ∈ (awake routeA 4 [{}]).hold.wakes, ∀ t ∈ tagged (awake routeA 4 [{}]) w.tag, t.gotQ ≠ w.q)
    ∧ (tagged (awake evqA 4 []) { core := 0, slot := 0, gen := 1 }).isSome = true ∧ filtered (awake evqA 4 []) 0 {} = false ∧ liveHandle (awake evqA 4 []) ctxA = true := by decide +kernel
theorem witness_returned : (lifeOf (holding { cap := 4 } 0) (hKey evqA)).gen = hGen evqA ∧ (lifeOf (holding { cap := 4 } 0) (hKey evqA)).st ≠ 0
    ∧ (lifeOf (holding { cap := 4 } 0) (hKey (evqA + 1))).gen ≠ hGen (evqA + 1)
    ∧ (∀ r ∈ (awake evqA 4 []).hold.reqs, r.op = .served (entryKey 7 0xC0 0)) ∧ entryKey 7 0xC0 0 / 2 ^ 44 = 7
    ∧ (evqAt (awake evqA 4 []) (entryKey 7 0xC0 0)).waiting = [] ∧ (∀ b ∈ (evqAt (awake evqA 4 []) (entryKey 7 0xC0 0)).blocked,
      b.want ≤ (evqAt (awake evqA 4 []) (entryKey 7 0xC0 0)).recs.length) := by decide +kernel
theorem witness_fatal_first : let s := { holding { cap := 2 } 0 with core.held := [(0, [trapTo false, trapTo true, trapTo true])] }
    tget [] s.core.held 0 = [trapTo false] ++ trapTo true :: [trapTo true] ∧ (∀ x ∈ [trapTo false], x.fatal = false) ∧ (trapTo true).fatal = true
      ∧ liveHandle s (trapTo true).tq = true ∧ (evqAt s (hKey (trapTo true).tq)).recs.length + 1 ≤ 2 := by decide +kernel
/-- Shapes fit whether requests travel or not. -/
theorem shapesFit_far {s : State} {c N : Nat} {dst : Option GReg} {src : List GReg} (h : ShapesFit s c N dst src) :
    ShapesFit { s with far := true } c N dst src :=
  ⟨h.begins, h.named, h.plain, h.dstCount, h.srcCount, h.first, h.apart, h.later⟩
/-- O27: shapes that fit, in a turn that makes requests travel, and while slot 1 has beats pending. -/
theorem witness_far_vector : ShapesFit { shapes 1 1 2 with far := true } 0 2 (some 1) [2, 3] :=
  shapesFit_far (witness_shapes 1 (.inl rfl)).toShapesFit
/-- The machine with beats pending in slots 1 and 3, and with `p` in slot 0. -/
def beating (p : VProg) (next : Nat) : State := { shapes 1 1 2 with
  core.slots := [(0, { strand [(1, 2 ^ 60 + 0x100), (2, 2 ^ 60 + 0x120), (3, 2 ^ 60 + 0x140), (4, 65)] with prog := some p, st := 1, wait := .beats }),
    (1, { strand [] with prog := some addVec, st := 1, wait := .beats }), (3, { strand [] with prog := some addVec, st := 1, wait := .beats })],
  core.beatNext := [(0, next)] }
theorem witness_beats_pending : let s := { beating addVec 0 with core.slots := (0, strand [(1, 2 ^ 60 + 0x100)]) :: (beating addVec 0).core.slots.drop 1 }
    (List.range 16).any (beatPending s 0) = true ∧ curProg s = none ∧ s.far = false := by decide +kernel
/-- The last store of a beat is made: its two values read, its two elements stored. -/
theorem witness_beat_end : let p := { addVec with vals := [0, 0, 0, 0], stored := 2 }
    (strandAt (vectoring p) 0 0).bind (·.prog) = some p ∧ p.beat < (2 + lanes 4 - 1) / lanes 4 ∧ p.vals.length = 2 * min (lanes 4) (2 - 0) ∧ p.stored = min (lanes 4) (2 - 0) := by
  decide +kernel
/-- A slot whose turn it is, one that another comes before, and one whose beat has begun. -/
theorem witness_rounds : (∀ t ∈ strandAt (beating addVec 0) 0 0, t.st = 1 ∧ t.wait = .beats ∧ t.prog = some addVec ∧ addVec.beat < (vbeats addVec.xs).length)
    ∧ tget 0 (beating addVec 3).core.beatNext 0 = 3 ∧ (3 + 13) % 16 = 0 ∧ (3 + 0) % 16 = 3
    ∧ (∀ t ∈ strandAt (beating { addVec with vals := [0] } 3) 0 0, ∀ p ∈ t.prog, p.vals ≠ []) ∧ addVec.vals = [] ∧ addVec.stored = 0 := by decide +kernel
/-- O30: the greatest final timestamps of the streams, which a later fork leaves. -/
theorem witness_final_timestamps : (pairAt (streaming { st := 1, sets := 9, kets := 4 }) 0).sets = 9 ∧ fenceMet (streaming { st := 1, sets := 9, kets := 4 }) 0 [] = true := by decide +kernel
/-- O32: a beat of an image of which a sector is owned, and one whose sectors are in H; nothing of the engine on its way. -/
def imaging (d : Sparse Dir) : State := { putQueue { engines with
    work.bundles := [{ ctxh := ctxA, number := 1, ovls := [(2, 2 ^ 40, 12)] }], coh.dir := d, hub.ready := [(0, 2), (4, 2), (0xC0, 2), (2000, 2), (2001, 2), (3000, 2), (homeOf engines (2 ^ 40), 2)] } 0 false
  { cmds := [cmdOf (.ovld 2 (some 3))], run := { started := true, frame := 3, ets := 2 } } with agenda := [] }
theorem witness_image_beat : let s := imaging []
    let q := queueAt s 0 false
    q.run.started = true ∧ q.run.wait = false ∧ q.run.fin = none ∧ bundleEntry s ctxA 1 2 = some (2 ^ 40, 12) ∧ 2 ^ 40 + 12 ≤ 2 ^ 52 ∧ q.run.pos = 0
      ∧ s.coh.served = [] ∧ engineQueued s (copyHolder 0 * 4) = false ∧ homeUp s (2 ^ 40) = true ∧ hasNoticed s (homeOf s (2 ^ 40)) 0 = false
      ∧ s.coh.dir.length + 8 ≤ 16384 ∧ (dirAt s (2 ^ 40 / 64)).st = .h ∧ 64 * q.run.beat < 12 ∧ cmdHeld s (cmdOf (.ovld 2 (some 3))) = false := by decide +kernel
theorem witness_image_owned : (dirAt (imaging [(2 ^ 40 / 64, { present := true, st := .o 1 })]) (2 ^ 40 / 64)).st ≠ .h
    ∧ (∀ sec, 2 ^ 40 < sec * 64 + 64 → sec * 64 < 2 ^ 40 + min 12 64 → sec = 2 ^ 40 / 64) := by
  refine ⟨by decide +kernel, fun sec h1 h2 => ?_⟩
  omega
/-- O33: a plain command that has ended with a STATUS. -/
theorem witness_factor_status : let s := factoring (.fupd slotF atF matrix4) { started := true, fin := some (3, 0, 0) } 4
    (queueAt s 0 true).run.fin = some (3, 0, 0) ∧ (queueAt s 0 true).run.fault = none ∧ (tagged s (cmdOf (.fupd slotF atF matrix4)).tag).isSome = true := by decide +kernel
/-- O35: a shape in core 1's scratchpad whose window admits its record and the first 32 of its 64 elements. -/
def partialWord : Word := 0x2001000000000140
def partially : State := { streams false 2 32 1 { bufs := [(4, { filled := true, fmt := 2, k := 64, m := 1, elems := List.replicate 64 0 })] } with
  mem := memWrite [] (scratchAt 1 0x140) 32 (0x180 + 2 ^ 64 * (64 + 2 ^ 16 * 1 + 2 ^ 32 + 2 ^ 48) + 2 ^ 128 * 64),
  sregs := { bfmt := [(16, 2)], win := [(8, 0xE800000000000000 + 2 ^ 20 * 0x1C0)] },
  hub.ready := [(0, 2), (1, 2), (0xC0, 2), (2000, 2), (3000, 2)] }
theorem witness_partial_load : MShapeNamed partially 0 partialWord (shapeOf partially 1 partialWord (memRead partially.mem (scratchAt 1 0x140) 32)) :=
  ⟨by decide +kernel, by decide +kernel, rfl, by decide +kernel, by decide +kernel⟩
theorem witness_partial_reach : let sh := shapeOf partially 1 partialWord (memRead partially.mem (scratchAt 1 0x140) 32)
    aFmt sh.fmt = true ∧ kOk sh.e0 = true ∧ sh.e1 = 1 ∧ 32 < sh.count ∧ (bufAt partially 0 4).k = sh.e0 ∧ (pairAt partially 0).ended = false
      ∧ (∀ i ∈ List.range 32, winOk partially 1 0 (pOff (mshapeAt sh i)) 2 true false = true)
      ∧ winOk partially 1 0 (pOff (mshapeAt sh 32)) 2 true false = false := by decide +kernel
/-- O37: a zero map of the MMA before: group 0 predicted, of a product whose A is all zero and one whose A is not. -/
theorem witness_predictions : (pairAt (streams true 2 32 1 { filling with zmap := [true] }) 0).zmap[0]?.getD false = true
    ∧ (pairAt (streams true 2 32 1 filling) 0).zmap = [] ∧ (bval 0).isZero = true ∧ (bval 0x3F80).isZero = false ∧ (bval 0).finite = true ∧ (bval 0x7F80).finite = false := by
  decide +kernel
/-- O38: a strand takes the last count of a semaphore on which a stream waits whose partner has ended. -/
def starving : State := pairing {
  st := 2, staging := { st := 2 }, compute := { st := 1, wait := true, fetched := true }, ctxh := ctxA, sems := [(0, { count := 1, ets := 2, queue := [.strand 0 0, .stream 0 true] })] }
theorem witness_starved : starving.cur = .strand 0 0 ∧ curCluster starving = 0 ∧ ((pairAt starving 0).stream false).st = 2 ∧ ((pairAt starving 0).stream true).st = 1
    ∧ ((pairAt starving 0).stream true).wait = true ∧ ((pairAt starving 0).stream true).fetched = true ∧ (semAt starving 0).count = 1 ∧ Agent.stream 0 true ∈ (semAt starving 0).queue := by decide +kernel
/-- O39: a waiter that has left before the last arrival, a released one that has issued since and one that has not. -/
def leaving (left : Bool) (released : Option Nat) (issue : Nat) : State := { barred 2 1 0 1 with
  core.slots := [(0, { strand [(1, 1), (2, 2 ^ 60 + 0x140), (3, 2)] with lastIssue := issue })],
  work.bars := [{ core := 0, off := 0x140, tag := { core := 0, slot := 0, gen := 1 }, d := 1, released := released, left := left }] }
theorem witness_released : (∀ b ∈ (leaving true none 4).work.bars, b.left = true ∧ b.released = none)
    ∧ (∀ b ∈ (leaving false (some 4) 4).work.bars, b.released = some 4 ∧ ∀ t ∈ tagged (leaving false (some 4) 4) b.tag, t.lastIssue = 4
        ∧ (launchAt (leaving false (some 4) 4) t.record.launch.toNat).halted = false)
    ∧ (∀ t ∈ tagged (leaving false (some 4) 7) { core := 0, slot := 0, gen := 1 }, t.lastIssue ≠ 4) := by decide +kernel
/-- O46: purges and acknowledgments of an unmap that is pending, and of one that is over; two unmaps of one page; a page asked for under a purge;
NC changed with a right added; word 1 of an entry in its states. -/
def twice : State := { unmapping [] none [] 5000 with
  page.unmaps := [unmapU [] none, { unmapU [] none with num := 2 }], page.asked := [(pteKey ctxA 1, entryKey 0 0xC0 0)] }
theorem witness_unmap_numbers : (∀ m ∈ (unmapping [0] none [] 0).page.unmaps, m.num = 1) ∧ (unmapping [0] none [] 0).page.purges[0]? = some (0, pteKey ctxA 1, 1)
    ∧ (unmapping [0] none [] 0).page.acks[0]? = some (0, pteKey ctxA 1, 1) ∧ (∀ m ∈ (unmapping [0] none [] 0).page.unmaps, m.num ≠ 2)
    ∧ (∃ v ∈ twice.page.unmaps.eraseIdx 0, v.pte = pteKey ctxA 1) ∧ (unmapping [] none [] 5000).page.unmaps.eraseIdx 0 = [] := by decide +kernel
theorem witness_asked : twice.page.asked = [(pteKey ctxA 1, entryKey 0 0xC0 0)] ∧ pteKey (curHandle twice (pteKey ctxA 1 / 2 ^ 40)) (pteKey ctxA 1 % 2 ^ 40) = pteKey ctxA 1
    ∧ (tget {} twice.page.pte (pteKey ctxA 1)).st = 0 ∧ (lifeOf twice (entryKey 0 0xC0 0)).st ≠ 0
    ∧ (lifeOf twice (entryKey 0 0xC0 0)).owner = curHandle twice (pteKey ctxA 1 / 2 ^ 40) := by decide +kernel
theorem witness_later_pages : let s := paged { st := 0, purge := true }
    (pteAt s ctxA 1).st = 0 ∧ (pteAt s ctxA 1).purge = true ∧ (pteAt (paged {}) ctxA 1).purge = false ∧ s.page.asked = [] := by decide +kernel
theorem witness_word_1 : (∀ n ∈ [0, 1], ∀ b ∈ [true, false], let s := paged { st := n, purge := b }
      let va := 0x00FF800000000000 + 16 + 8
      recordAt s ctxA va = none ∧ va % 16 = 8 ∧ (entryAt s ctxA (va / 16 * 16)).isSome = true
        ∧ (pteAt s ctxA 1).st = n ∧ (pteAt s ctxA 1).purge = b) := by decide +kernel
theorem witness_store_sector : let s := storing { st := 1, pn := 1 }
    (∀ m ∈ s.page.stores, 2 ^ 120 ≤ m.pa ∧ (dirAt s (m.pa / 64)).st = .h) ∧ (pteAt s ctxA 1).purge = false := by decide +kernel
/-- O46: a move whose old frame has a sector that is owned, and one of which neither frame has any. -/
theorem witness_unsettled : let s (d : Sparse Dir) : State := { hot {} allReady with page.pte := [(pteKey ctxA 1, { st := 5, pn := 1 })], coh.dir := d }
    (∃ e ∈ (s [(0x400, { present := true, st := .o 0 })]).coh.dir, e.2.st ≠ .h ∧ 1 * 1024 ≤ e.1 ∧ e.1 < (1 + 1) * 1024) ∧ (s []).coh.dir = []
      ∧ (tget ({} : Pte) (s []).page.pte (pteKey ctxA 1)).st = 5 ∧ ∀ m ∈ (s []).page.unmaps, m.pte ≠ pteKey ctxA 1 := by decide +kernel
/-- O48: packets that carry their CRC, one that does not, and a read of a peer's that is half done when the port trains. -/
theorem witness_crc : (∀ p ∈ [packetP 1 0 7 false, { packetP 2 0 7 false with status := 7 }], (withCrc p).crc = (withCrc (withCrc p)).crc
      ∧ (packetP 1 0 7 false).crc ≠ (withCrc (packetP 1 0 7 false)).crc)
    ∧ (portAt (porting { st := 1, pos := 3, got := [5] }) 0).pos = 3 := by decide +kernel
/-- O49: a STATUS of SOFT_ERROR, one of another cause, and one that is none. -/
theorem witness_reply_causes : causeOf? 22 = some .softError ∧ causeOf? 6 = some .protection ∧ (22 : Nat) ≤ 23 ∧ causeOf? 24 = none := by decide
/-- O52: a LAUNCH whose descriptor has its fields and handles, a bad priority, a graph that is closed, an event queue that is no queue and one that
has lapsed. -/
theorem witness_launch_fields : LaunchFields (hostLaunching descL none) descL ∧ ¬ LaunchFields (hostLaunching descL none) (descL + 2 ^ 36) :=
  ⟨⟨by decide +kernel, by decide +kernel, by decide +kernel, by decide +kernel, by decide +kernel, by decide +kernel, by decide +kernel, by decide +kernel,
    ⟨0, by decide +kernel⟩, by decide +kernel⟩, fun h => absurd h.prio (by decide +kernel)⟩
theorem witness_launch_handles : let s := hostLaunching descL none
    let h (o : Nat) : Word := BitVec.ofNat 64 (descField descL o 8)
    let live (kind o : Nat) : Prop := checkHandle s [kind] (h o) = .ok () ∧ checkIndex (h o) = .ok () ∧ liveHandle s (h o) = true
    (descField descL 0x18 8 = 0 ∧ live 7 0x20 ∧ live 0 0x38 ∧ descField descL 0x28 4 * descField descL 0x48 4 ≤ (rangeAt s (hKey (h 0x38))).size)
      ∧ live 0 0x40 ∧ 256 * descField descL 0x48 4 ≤ (rangeAt s (hKey (h 0x40))).size := by decide +kernel
theorem witness_launch_open : let s := hostLaunching descL none
    descField descL 0x14 4 = 1 ∧ counterLive s 1 = true ∧ (counterAt s 1).ctxh = ctxA ∧ (counterAt s 1).level = 1 ∧ (counterAt s 1).st = 1
      ∧ freeLaunch s (counterHome 1) = some 1 ∧ s.core.outside = [] ∧ (ringAt s 0 (descField descL 4 1)).length + descField descL 6 2 ≤ 4096
      ∧ counterLive { s with work.counters := [] } 1 = false := by decide +kernel
theorem witness_launch_queues : let s := hostLaunching descL none
    (match checkHandle s [7] (BitVec.ofNat 64 (mkHandle (entryKey 0 0xC0 0) 1).toNat) with | .error _ => true | _ => false) = true
      ∧ checkHandle s [7] (evqA + 1) = .ok () ∧ checkIndex (evqA + 1) = .ok () ∧ liveHandle s (evqA + 1) = false := by decide +kernel
theorem witness_launches_full : ∃ s : State, freeLaunch s (counterHome 1) = none := by
  refine ⟨{ work := { launches := (List.range 1024).map (fun j => (0 + j, { st := 2 })) ++ [] } }, ?_⟩
  simp only [freeLaunch, Option.map_eq_none_iff]
  refine leastFrom_none _ _ 1 fun i _ hi => ?_
  have := tget_filled ({} : Launch) { st := 2 } 0 (i % 1024) 1024 (Nat.mod_lt _ (by omega)) []
  simp only [show (dieOf (counterHome 1) * 16 + (counterHome 1 - 0xC0) % 16) * 1024 = 0 from rfl, launchAt, this]
  rfl
/-- O56: an instruction whose guard is false, of a strand and of each stream. -/
theorem witness_guard_false : (Instr.add 1 3 (.reg 1) (.imm 5)).guard? = some 1 ∧ guardHolds (mach []) 1 = false ∧ Acting (mach []) ∧ (mach []).coh.hit = none
    ∧ (∀ cp ∈ [false, true], guardHolds (streams cp 2 32 1 {}) 1 = false ∧ (streams cp 2 32 1 {}).cur = .stream 0 cp ∧ (pairAt (streams cp 2 32 1 {}) 0).st ≠ 0) :=
  ⟨rfl, by decide, (by decide : (strandAt (mach []) 0 0).isSome = true), rfl, by decide +kernel⟩
/-- R69: it moves the PC on. -/
theorem test_guard_false_store : memByte (after (.st 1 (.imm 7) ⟨1, none, 0, 0⟩ .w8 .w false) (mach [(1, 2 ^ 60)])).mem (scratchAt 0 0) = 0
    ∧ (curCtx (after (.st 1 (.imm 7) ⟨1, none, 0, 0⟩ .w8 .w false) (mach [(1, 2 ^ 60)]))).pc = 0x10001 := by decide +kernel

/-! ### The spec's worked examples -/

/-- "Worked example: update, probe, solve and a refused downdate", after R295: 4I by columns, updated by the vector. -/
def exampleCols : List (List Nat) := [[0x40A00000, 0x40100000, 0, 0], [0x40A00000, 0, 0], [0x40800000, 0], [0x40800000]]
theorem test_factor_update : (match sweep false 0 0 [[0x40800000, 0, 0, 0], [0x40800000, 0, 0], [0x40800000, 0], [0x40800000]] [0x40400000, 0x40700000, 0, 0] with
    | .ok c => c == exampleCols
    | .error _ => false) = true := by decide +kernel
/-- The same example's FDIA, FTRS, FTRB and refused FDWN. -/
theorem test_factor_probe_and_solve : diagonalWord exampleCols = 0x0000040240800000
    ∧ solveForward exampleCols [0x42110000, 0x42254000, 0x41000000, 0x40800000] = [0x40E80000, 0x40A00000, 0x40000000, 0x3F800000]
    ∧ solveBackward exampleCols [0x40E80000, 0x40A00000, 0x40000000, 0x3F800000] = [0x3F800000, 0x3F800000, 0x3F000000, 0x3E800000] := by decide +kernel
theorem test_factor_refused_downdate : (match sweep true 0x35800000 0 exampleCols [0, 0, 0x40A00000, 0] with
    | .error k => k
    | .ok _ => 9) = 2 := by decide +kernel
/-- "Worked example: decoding a segment and one element", after R250: the scales of columns 0 and 1 in its two groups. -/
theorem test_scales : (match decodeScales 2 0 (List.replicate 64 127) (nibbles ([0x82, 0x7A] ++ List.replicate 31 0 ++ [0x7D] ++ List.replicate 31 0)) with
    | .ok r => r.map (·.take 2)
    | .error _ => []) = [[129, 122], [126, 129]] := by decide +kernel
/-- "A worked example: the path of one load", after R18: the home slice of 0xC0_0002_3A00. -/
theorem test_home : homeOf { hub.ready := [(0x3C9, 2)] } 0xC000023A00 = 0x3C9 := by decide +kernel
/-- The same example's element (0, 0) after each group. -/
theorem test_groups : addGroup 0 129 (List.replicate 4 (bval 0x3F80)) [bval 0x4040, bval 0xBF80, bval 0x40E0, bval 0xC100] = (0x40800000, 0)
    ∧ addGroup 0x40800000 126 [bval 0x3F00] [bval 0x40A0] = (0x40A80000, 0) := by decide +kernel
/-- "One trap", after R109: the tag of park entry 0 of core 0x041 with GEN 5. -/
theorem test_tag : tagBits { core := 0x041, slot := 0, gen := 5, park := true } = 0x00051060 := by decide

end Sys2Proof.Tests
end

section
/-! PROOFS. The state after reset (O57) and the memory (O60). -/

namespace Sys2Proof.Machine
open Sys2Proof

/-! ### The state after reset (R5, R101, R370) -/

/-- The invariant holds after reset: nothing is listed, and no access is remembered. -/
theorem reset_inv : Inv State.reset where
  win := by intro e he; cases he
  bfmt := by intro e he; cases he
  expr := by intro e he; cases he
  fctl := by intro e he; cases he
  skew := by intro e he; cases he
  hit := rfl

theorem reset_therm (d : Fin 4) : State.reset.hub.therm[d.val] = { amber := 95, crimson := 105, budget := 750, ocl := 1250 } :=
  Vector.getElem_replicate d.isLt

/-- Settles O57: a table that lists nothing holds its default for every key. -/
theorem resetLeavesTheValuesOfTheSpec : Obligations.ResetLeavesTheValuesOfTheSpec :=
  ⟨reset_inv, reset_mem_wf, rfl, rfl, rfl, rfl, rfl, rfl, rfl, fun _ => rfl, fun _ => rfl, fun _ => rfl, fun _ => rfl, fun _ _ => rfl, fun _ _ => rfl,
    fun _ => ⟨rfl, rfl, rfl⟩, fun _ _ => rfl, fun _ _ => rfl, fun _ => rfl, fun _ => rfl, fun _ => ⟨rfl, rfl⟩, reset_therm⟩

/-! ### Bytes of memory (R1, R39) -/

theorem memRead_lt (m : List Host.Cell) (a n : Nat) : memRead m a n < 256 ^ n := by
  induction n generalizing a with
  | zero => simp [memRead]
  | succ n ih =>
    have hb : (memByte m a).toNat < 256 := (memByte m a).isLt
    have hr := ih (a + 1)
    rw [memRead, pow_succ]
    omega

theorem ofBytes_memBytes (m : List Host.Cell) (a n : Nat) : ofBytes (memBytes m a n) = memRead m a n := by
  induction n generalizing a with
  | zero => rfl
  | succ n ih => rw [memBytes, ofBytes, memRead, ih]

/-- A read depends on the bytes it covers only. -/
theorem memRead_congr {m m' : List Host.Cell} {a n : Nat} (h : ∀ x, a ≤ x → x < a + n → memByte m x = memByte m' x) :
    memRead m a n = memRead m' a n := by
  induction n generalizing a with
  | zero => rfl
  | succ n ih =>
    rw [memRead, memRead, h a le_rfl (by omega), ih fun x hx hn => h x (by omega) (by omega)]

/-- What has been written reads back, cut to its bytes. -/
theorem memRead_memWrite (m : List Host.Cell) (a n v : Nat) : memRead (memWrite m a n v) a n = v % 256 ^ n := by
  induction n generalizing m a v with
  | zero => simp [memRead, Nat.mod_one]
  | succ n ih =>
    rw [memRead, memWrite, memByte_memWrite_out _ _ _ _ _ (.inl (Nat.lt_succ_self a)), memByte_memPut, ih, BitVec.toNat_ofNat, pow_succ' 256, Nat.mod_mul]

/-- A read of bytes outside those written is as it was. -/
theorem memRead_memWrite_out (m : List Host.Cell) {a n v b k : Nat} (h : b + k ≤ a ∨ a + n ≤ b) :
    memRead (memWrite m a n v) b k = memRead m b k :=
  memRead_congr fun x _ _ => memByte_memWrite_out _ _ _ _ _ (by omega)

/-- The bytes of a number as memory holds them. -/
theorem memByte_memWrite_in (m : List Host.Cell) {a n v x : Nat} (h : a ≤ x ∧ x < a + n) :
    memByte (memWrite m a n v) x = BitVec.ofNat 8 (v / 256 ^ (x - a)) := by
  induction n generalizing m a v with
  | zero => omega
  | succ n ih =>
    by_cases hx : x = a
    · rw [hx, memWrite, memByte_memWrite_out _ _ _ _ _ (.inl (Nat.lt_succ_self a)), memByte_memPut, Nat.sub_self, pow_zero, Nat.div_one]
    · rw [memWrite, ih _ (by omega), Nat.div_div_eq_div_mul, ← pow_succ', show x - (a + 1) + 1 = x - a by omega]

/-- Byte `j` of a vector of bits. -/
theorem ofNat_div_eq_extractLsb' {w : Nat} (b : BitVec w) (j : Nat) : BitVec.ofNat 8 (b.toNat / 256 ^ j) = b.extractLsb' (8 * j) 8 := by
  apply BitVec.eq_of_toNat_eq
  rw [BitVec.toNat_ofNat, BitVec.extractLsb'_toNat, Nat.shiftRight_eq_div_pow, pow_mul]
  rfl

/-- In the canonical form the entry of a key below every listed one is absent. -/
theorem memByte_of_lt {m : List Host.Cell} {a : Nat} (h : ∀ e ∈ m, a < e.1) : memByte m a = unlisted := by
  induction m with
  | nil => rfl
  | cons e r ih =>
    have he : e.1 ≠ a := by have := h e (by simp); omega
    simpa [memByte, tget, tfind, he] using ih fun x hx => h x (by simp [hx])

theorem memByte_cons_self (a : Nat) (b : Byte) (r : List Host.Cell) : memByte ((a, b) :: r) a = b := by
  simp [memByte, tget, tfind]

theorem memByte_cons_ne {a x : Nat} (b : Byte) (r : List Host.Cell) (h : x ≠ a) : memByte ((a, b) :: r) x = memByte r x := by
  simp [memByte, tget, tfind, Ne.symm h]

/-- Two memories in canonical form that read the same everywhere are equal: their first cells agree, since the lower of the two
would be a byte that the other memory does not list. -/
theorem memory_ext {m m' : List Host.Cell} (hm : Memory.wf m = true) (hm' : Memory.wf m' = true) (h : ∀ a, memByte m a = memByte m' a) : m = m' := by
  induction m generalizing m' with
  | nil =>
    cases m' with
    | nil => rfl
    | cons e r =>
      obtain ⟨he, -, -⟩ := (Memory.wf_cons e r).mp hm'
      exact absurd ((memByte_cons_self e.1 e.2 r).symm.trans (h e.1).symm) he
  | cons c l ih =>
    obtain ⟨a, b⟩ := c
    obtain ⟨hb, hl, hwl⟩ := (Memory.wf_cons _ _).mp hm
    cases m' with
    | nil => exact absurd ((memByte_cons_self a b l).symm.trans (h a)) hb
    | cons e r =>
      obtain ⟨a', b'⟩ := e
      obtain ⟨hb', hr, hwr⟩ := (Memory.wf_cons _ _).mp hm'
      have not_below : ∀ {x y : Nat} {v w : Byte} {p q : List Host.Cell}, v ≠ 0 → (∀ e ∈ q, y < e.1) →
          memByte ((x, v) :: p) x = memByte ((y, w) :: q) x → ¬ x < y := by
        intro x y v w p q hv hq heq hxy
        rw [memByte_cons_self, memByte_of_lt fun e he => ?_] at heq
        · exact hv heq
        · rcases List.mem_cons.mp he with rfl | he
          · exact hxy
          · exact hxy.trans (hq e he)
      have ha : a = a' := Nat.le_antisymm (not_lt.mp (not_below hb' hl (h a').symm)) (not_lt.mp (not_below hb hr (h a)))
      subst ha
      have hbb : b = b' := by simpa only [memByte_cons_self] using h a
      subst hbb
      congr 1
      refine ih hwl hwr fun x => ?_
      by_cases hx : x = a
      · rw [hx, memByte_of_lt hl, memByte_of_lt hr]
      · simpa only [memByte_cons_ne _ _ hx] using h x

/-- Writing a byte that is there already changes nothing. -/
theorem memPut_memByte {m : List Host.Cell} (h : Memory.wf m = true) (a : Nat) : memPut m a (memByte m a) = m := by
  refine memory_ext (memPut_wf m a _ h) h fun x => ?_
  by_cases hx : x = a
  · rw [hx, memByte_memPut]
  · exact memByte_memPut_ne _ _ _ _ hx

/-- Writing what is there already changes nothing. -/
theorem memWrite_memRead {m : List Host.Cell} (h : Memory.wf m = true) (a n : Nat) : memWrite m a n (memRead m a n) = m := by
  induction n generalizing a with
  | zero => rfl
  | succ n ih =>
    have hb : (memByte m a).toNat < 256 := (memByte m a).isLt
    have hlow : BitVec.ofNat 8 (memRead m a (n + 1)) = memByte m a := by
      apply BitVec.eq_of_toNat_eq
      rw [BitVec.toNat_ofNat, memRead]
      omega
    have hhigh : memRead m a (n + 1) / 256 = memRead m (a + 1) n := by rw [memRead]; omega
    rw [memWrite, hlow, hhigh, memPut_memByte h, ih]

/-- Settles O60: the bytes by induction on their number, the canonical form by induction on the two lists. -/
theorem memoryReadsWhatWasWritten : Obligations.MemoryReadsWhatWasWritten :=
  ⟨fun m a n v => ⟨memRead_memWrite m a n v, fun _ _ h => memRead_memWrite_out m h, fun h => ⟨memWrite_wf m a n v h, memWrite_memRead h a n⟩⟩,
    fun _ _ => memory_ext, fun m a n => ⟨memRead_lt m a n, ofBytes_memBytes m a n⟩⟩

end Sys2Proof.Machine
end

section
/-! PROOFS. Messages: SEND, RECV and POLL (O23), with what they share with other instructions of a strand: its registers, the accesses of its
scratchpad, its requests on holdings and the replies to them. -/

namespace Sys2Proof.Machine
open Sys2Proof

/-! ### The acting strand -/

theorem StrandIssues.curCtx_eq {g : Guard} {s : State} {c i : Nat} {t : Strand} (h : StrandIssues g s c i t) : curCtx s = t.ctx := by
  simp [curCtx, h.cur, h.bound]

theorem StrandIssues.rPts_eq {g : Guard} {s : State} {c i : Nat} {t : Strand} (h : StrandIssues g s c i t) : rPts s = t.ctx.pts := by
  rw [rPts, h.curCtx_eq]

theorem StrandIssues.curCore_eq {g : Guard} {s : State} {c i : Nat} {t : Strand} (h : StrandIssues g s c i t) : curCore s = c := by
  simp [curCore, h.cur]

theorem StrandIssues.curCtxh_eq {g : Guard} {s : State} {c i : Nat} {t : Strand} (h : StrandIssues g s c i t) : curCtxh s = t.ctxh := by
  simp [curCtxh, h.cur, h.bound]

theorem StrandIssues.curTag_eq {g : Guard} {s : State} {c i : Nat} {t : Strand} (h : StrandIssues g s c i t) :
    curTag s = { core := c, slot := i, gen := slotGenOf s c i } := by
  simp [curTag, h.cur]

theorem wPts_strand {s : State} {c i : Nat} {t : Strand} (hc : s.cur = .strand c i) (ht : strandAt s c i = some t) (n : Nat) :
    wPts s n = putStrand s c i (t.withPts n) := by
  simp [wPts, hc, mapStrand, ht]

/-- The strand after an instruction that has written a register, at a timestamp. -/
def Strand.gives (t : Strand) (d : GReg) (v : Word) (n : Nat) : Strand :=
  { t.withPts n with ctx := { t.ctx with pts := n, g := t.ctx.g.set d v, pc := nextPc t.ctx.pc } }

theorem advance_wG_wPts {s : State} {c i : Nat} {t : Strand} (hc : s.cur = .strand c i) (ht : strandAt s c i = some t) (n : Nat) (d : GReg) (v : Word) :
    advance (wG (wPts s n) d v) = putStrand s c i (t.gives d v n) := by
  rw [wPts_strand hc ht, wG, mapCtx_strand (putStrand s c i _) _ c i _ hc (strandAt_putStrand ..), putStrand_putStrand, advance,
    mapCtx_strand (putStrand s c i _) _ c i _ hc (strandAt_putStrand ..), putStrand_putStrand]
  rfl

theorem confine_mem (s u : State) : (confine s u).mem = u.mem := rfl
theorem curCtx_confine (s u : State) : curCtx (confine s u) = curCtx u := rfl

/-- The registers of a strand that has just been set. -/
theorem curCtx_putStrand {s : State} {c i : Nat} (hc : s.cur = .strand c i) (t : Strand) : curCtx (putStrand s c i t) = t.ctx := by
  simp [curCtx, hc]

/-! ### Scratchpad accesses where no word has failed (R49) -/

theorem spLoad_sound {s : State} (h : s.coh.failed = []) (core off n pts : Nat) :
    spLoad s core off n pts =
      (putStamp s core off { stampAt s core off with rts := max (stampAt s core off).rts (max pts (stampAt s core off).wts) },
        memRead s.mem (scratchAt core off) n, max pts (stampAt s core off).wts) := by
  simp only [spLoad, noteSoft_sound h]

theorem spStore_sound {s : State} (h : s.coh.failed = []) (core off n pts v : Nat) :
    spStore s core off n pts v =
      (putStamp { s with mem := memWrite s.mem (scratchAt core off) n v } core off
          { wts := max pts ((stampAt s core off).rts + 1), rts := max pts ((stampAt s core off).rts + 1) },
        max pts ((stampAt s core off).rts + 1)) := by
  simp only [spStore, noteSoft_sound h]

/-! ### Replies that arrive at once (R55, R94) -/

/-- The tag of a bound slot's present generation names its strand. -/
theorem tagged_current {s : State} {c i : Nat} {t : Strand} (hi : i < 16) (ht : strandAt s c i = some t) :
    tagged s { core := c, slot := i, gen := slotGenOf s c i } = some t := by
  simp [tagged, hi, ht]

/-- A reply that has just been sent to a strand takes effect on it. -/
theorem deliver_sendReply {s : State} {tag : Tag} {t : Strand} (ht : tagged s tag = some t) (act : ReplyAct) :
    deliver (sendReply s tag act) tag = takeReply s tag.core tag.slot t act := by
  have ht' : tagged (sendReply s tag act) tag = some t := ht
  have hlast : (sendReply s tag act).coh.replies = s.coh.replies ++ [{ tag := tag, act := act }] := rfl
  have hb : replyBehind (s.coh.replies ++ [{ tag := tag, act := act }]) s.coh.replies.length = false := by simp [replyBehind]
  simp only [deliver, ht', hlast]
  simp [hb, sendReply]

/-- Where no reply to a strand is on its way, none arrives. -/
theorem deliver_none {s : State} {tag : Tag} (h : ∀ r ∈ s.coh.replies, r.tag ≠ tag) : deliver s tag = s := by
  unfold deliver
  split
  · next r hr => rw [if_neg (by simp [h r (List.mem_of_getLast? hr)])]
  · rfl

/-- The strand after its instruction, at a timestamp. -/
def Strand.goneOn (t : Strand) (pts : Nat) : Strand :=
  { t.withPts pts with ctx := { t.ctx with pts := pts, pc := nextPc t.ctx.pc }, st := 0, wait := .none }

/-- A reply that brings a timestamp alone: the strand goes on after its instruction, unless it is single-stepped (R111). -/
theorem takeReply_regs_nil (s : State) (c i : Nat) {t : Strand} (hs : t.steps ≠ 2) (pts : Nat) :
    takeReply s c i t (.regs [] pts) = putStrand s c i (t.goneOn pts) := by
  simp [takeReply, takeReply.replyRegs, stepTrap, Strand.goneOn, Strand.withPts, hs]

/-- A request of a strand on a holding: far, it is on its way; near, the home takes it and what it answers arrives. -/
theorem submitHoldAt_strand {s : State} {c i : Nat} {t : Strand} (hc : s.cur = .strand c i) (ht : strandAt s c i = some t) (pts : Nat) (op : HoldOp) :
    let r : HoldReq := { tag := curTag s, ctxh := curCtxh s, pts := pts, op := op }
    let u := putStrand s c i { t with st := 1, wait := .reply }
    submitHoldAt s pts op = if s.far then { u with hold.reqs := s.hold.reqs ++ [r] } else deliver (serveHold u r) r.tag := by
  simp only [submitHoldAt, suspend_strand hc ht]
  rfl

/-! ### SEND (R171) -/

/-- The timestamp of a load of the scratchpad by the strand (R49). -/
def loadTs (s : State) (c off : Nat) (t : Strand) : Nat := max t.ctx.pts (stampAt s c off).wts

/-- The state in which a SEND of the strand has read its payload and asks the route's home. -/
def sending (s : State) (c i off : Nat) (t : Strand) : State :=
  putStrand (putStamp s c off { stampAt s c off with rts := max (stampAt s c off).rts (loadTs s c off t) }) c i { t with st := 1, wait := .reply }

/-- The payload of a SEND. -/
def payloadAt (s : State) (c off : Nat) : BitVec 256 := BitVec.ofNat 256 (memRead s.mem (scratchAt c off) 32)

/-- The request that a SEND makes. -/
def sendReq (s : State) (c off : Nat) (t : Strand) (h : Word) : HoldReq :=
  { tag := curTag s, ctxh := t.ctxh, pts := loadTs s c off t, op := .send h [payloadAt s c off] 0 0 }

/-- The SEND as its home keeps it. -/
def sendWait (s : State) (c off : Nat) (t : Strand) : SendWait :=
  { tag := curTag s, msgs := [payloadAt s c off], ts := loadTs s c off t }

/-- The answer of a home whose route has GONE. -/
def goneExc (h : Word) : Exc := { cause := .peerGone, info0 := h, detail := 8 }

section
variable {s : State} {g : Guard} {c i off : Nat} {t : Strand} {a b d : GReg}

/-- What the home of a route answers that is no aperture: GONE, the trap; without a credit free, or behind others that wait, nothing yet; else it
takes a credit and sends. -/
theorem serveHold_send {h : Word} (hhome : checkHome s t.ctxh h = .ok ()) (hd : (routeAt s h).dtype ≠ 2) :
    serveHold (sending s c i off t) (sendReq s c off t h) =
      if (routeAt s h).gone then sendReply (sending s c i off t) (curTag s) (.exc (goneExc h))
      else if (routeAt s h).credits = 0 ∨ (routeAt s h).waiting ≠ [] then
        putRoute (sending s c i off t) (hKey h) { routeAt s h with waiting := (routeAt s h).waiting ++ [sendWait s c off t] }
      else sendOk (putRoute (sending s c i off t) (hKey h) { routeAt s h with credits := (routeAt s h).credits - 1 }) h (sendWait s c off t) := by
  have hhome' : checkHome (sending s c i off t) t.ctxh h = .ok () := hhome
  have hrt : routeAt (sending s c i off t) h = routeAt s h := rfl
  simp [serveHold, sendReq, hhome', hrt, hd, holdTrap, goneExc, sendWait]

/-- The strand that asks is found by its tag. -/
theorem tagged_sending (hi : StrandIssues g s c i t) : tagged (sending s c i off t) (curTag s) = some { t with st := 1, wait := .reply } := by
  rw [hi.curTag_eq]
  exact tagged_current hi.slot (strandAt_putStrand ..)

/-- What a route's message changes on its way out: of this device, the flights; through a K-link port, the transactions and the port. -/
theorem inject_eq (u : State) (h : Word) (p : BitVec 256) (ts : Nat) : ∃ l,
    inject u h p ts = { u with
      hold.flights := if (routeAt u h).peer = 0 then u.hold.flights ++ [{ route := h, msg := { bytes := p, ts := ts, route := h } }] else u.hold.flights
      link := l }
    ∧ ((routeAt u h).peer ≠ 0 → l.sent = u.link.sent ++ [((routeAt u h).peer - 1, u.link.xid % 2 ^ 32, h)]) := by
  by_cases hp : (routeAt u h).peer = 0
  · exact ⟨u.link, by simp [inject, hp], fun h => absurd hp h⟩
  · simp only [inject, hp, beq_iff_eq, if_false, queuePacket, putPort]
    split
    · exact ⟨_, rfl, fun _ => rfl⟩
    · exact ⟨_, rfl, fun _ => rfl⟩

/-- The state in which the home has taken a credit of the route and its message is on its way. -/
def sent (s : State) (c i off : Nat) (t : Strand) (h : Word) (l : LinkPart) (n : Sparse (Nat × Nat)) : State :=
  { putRoute (sending s c i off t) (hKey h) { routeAt s h with credits := (routeAt s h).credits - 1 } with
    hold.flights := if (routeAt s h).peer = 0 then
      s.hold.flights ++ [{ route := h, msg := { bytes := payloadAt s c off, ts := loadTs s c off t, route := h } }] else s.hold.flights
    link := l
    core.routeCount := n }

theorem sent_cur (h : Word) (l : LinkPart) (n : Sparse (Nat × Nat)) : (sent s c i off t h l n).cur = s.cur := rfl
theorem sent_mem (h : Word) (l : LinkPart) (n : Sparse (Nat × Nat)) : (sent s c i off t h l n).mem = s.mem := rfl

theorem sendOk_sending (h : Word) : ∃ l n,
    sendOk (putRoute (sending s c i off t) (hKey h) { routeAt s h with credits := (routeAt s h).credits - 1 }) h (sendWait s c off t)
        = sendReply (sent s c i off t h l n) (curTag s) (.regs [] (loadTs s c off t))
      ∧ ((routeAt s h).peer ≠ 0 → l.sent = s.link.sent ++ [((routeAt s h).peer - 1, s.link.xid % 2 ^ 32, h)]) := by
  have hrt : routeAt (putRoute (sending s c i off t) (hKey h) { routeAt s h with credits := (routeAt s h).credits - 1 }) h
      = { routeAt s h with credits := (routeAt s h).credits - 1 } := tget_tset ..
  obtain ⟨l, hl, hsent⟩ := inject_eq (putRoute (sending s c i off t) (hKey h)
    { routeAt s h with credits := (routeAt s h).credits - 1 }) h (payloadAt s c off) (loadTs s c off t)
  rw [hrt] at hl hsent
  exact ⟨l, _, by simp only [sendOk, sendWait, List.foldl_cons, List.foldl_nil, hl]; rfl, hsent⟩

theorem tagged_sent (hi : StrandIssues g s c i t) (h : Word) (l : LinkPart) (n : Sparse (Nat × Nat)) :
    tagged (sent s c i off t h l n) (curTag s) = some { t with st := 1, wait := .reply } :=
  tagged_sending (off := off) hi

/-- The strand that asks, gone on after its SEND. -/
def sentStrand (s : State) (c off : Nat) (t : Strand) : Strand := Strand.goneOn { t with st := 1, wait := .reply } (loadTs s c off t)

section
variable (hi : StrandIssues g s c i t) (hp : ownPtr s (rG s b) 32 = .ok off)
  (hh : checkHandle s [2] (rG s a) = .ok ())
include hi hp hh

/-- SEND once its checks have passed. -/
theorem exec_send :
    exec (.send g a b) s = .next (confine s
      (if s.far then { sending s c i off t with hold.reqs := s.hold.reqs ++ [sendReq s c off t (rG s a)] }
        else deliver (serveHold (sending s c i off t) (sendReq s c off t (rG s a))) (curTag s))) := by
  refine run_ok hi.issues ?_ (.inr hi.sound)
  rw [hh, hp]
  simp only [spLoad_sound hi.sound, hi.curCore_eq, hi.rPts_eq, sendReq, ← hi.curCtxh_eq]
  exact congrArg Except.ok (submitHoldAt_strand (s := putStamp s c off _) hi.cur hi.bound _ _)

theorem exec_send_far (hf : s.far = true) :
    exec (.send g a b) s = .next { sending s c i off t with hold.reqs := s.hold.reqs ++ [sendReq s c off t (rG s a)] } := by
  rw [exec_send hi hp hh, if_pos hf]
  rfl

variable (hf : s.far = false)
include hf

theorem exec_send_near :
    exec (.send g a b) s =
      .next (confine s (deliver (serveHold (sending s c i off t) (sendReq s c off t (rG s a))) (curTag s))) := by
  rw [exec_send hi hp hh, if_neg (by simp [hf])]

variable (hhome : checkHome s t.ctxh (rG s a) = .ok ()) (hd : (routeAt s (rG s a)).dtype ≠ 2)
include hhome hd

/-- On a route that has GONE the strand traps, its PTS as it was (R8). -/
theorem exec_send_gone (hg : (routeAt s (rG s a)).gone = true) :
    exec (.send g a b) s = .next (confine s (raise (goneExc (rG s a)) (sending s c i off t))) := by
  have hcur : (sending s c i off t).cur = .strand c i := hi.cur
  rw [exec_send_near hi hp hh hf, serveHold_send hhome hd, if_pos hg, deliver_sendReply (tagged_sending hi), takeReply]
  simp only [raise, hcur, hi.curTag_eq]

/-- Without a credit, or behind others, the SEND waits at the home. -/
theorem exec_send_waits (hg : (routeAt s (rG s a)).gone = false) (hw : (routeAt s (rG s a)).credits = 0 ∨ (routeAt s (rG s a)).waiting ≠ [])
    (hr : ∀ r ∈ s.coh.replies, r.tag ≠ curTag s) :
    exec (.send g a b) s = .next (putRoute (sending s c i off t) (hKey (rG s a))
      { routeAt s (rG s a) with waiting := (routeAt s (rG s a)).waiting ++ [sendWait s c off t] }) := by
  rw [exec_send_near hi hp hh hf, serveHold_send hhome hd, if_neg (by simp [hg]), if_pos hw, deliver_none (s := putRoute (sending s c i off t) _ _) hr]
  rfl

theorem exec_send_credit
    (hg : (routeAt s (rG s a)).gone = false) (hc : (routeAt s (rG s a)).credits ≠ 0) (hw : (routeAt s (rG s a)).waiting = []) (hs : t.steps ≠ 2) :
    ∃ l n, exec (.send g a b) s = .next (confine s (putStrand (sent s c i off t (rG s a) l n) c i (sentStrand s c off t)))
      ∧ ((routeAt s (rG s a)).peer ≠ 0 → l.sent = s.link.sent ++ [((routeAt s (rG s a)).peer - 1, s.link.xid % 2 ^ 32, rG s a)]) := by
  obtain ⟨l, n, hok, hsent⟩ := sendOk_sending (s := s) (c := c) (i := i) (off := off) (t := t) (rG s a)
  refine ⟨l, n, ?_, hsent⟩
  rw [exec_send_near hi hp hh hf, serveHold_send hhome hd, if_neg (by simp [hg]), if_neg (by simp [hc, hw]), hok,
    deliver_sendReply (tagged_sent hi _ l n), hi.curTag_eq, takeReply_regs_nil (t := { t with st := 1, wait := .reply }) _ _ _ hs, sentStrand]

/-- With a credit free the message is on its way and the strand goes on. -/
theorem exec_send_sent
    (hg : (routeAt s (rG s a)).gone = false) (hc : (routeAt s (rG s a)).credits ≠ 0) (hw : (routeAt s (rG s a)).waiting = []) (hs : t.steps ≠ 2) :
    ∃ u, exec (.send g a b) s = .next u
      ∧ ((routeAt s (rG s a)).peer = 0 → u.hold.flights = s.hold.flights ++
          [{ route := rG s a, msg := { bytes := payloadAt s c off, ts := loadTs s c off t, route := rG s a } }])
      ∧ ((routeAt s (rG s a)).peer ≠ 0 → u.hold.flights = s.hold.flights
          ∧ u.link.sent = s.link.sent ++ [((routeAt s (rG s a)).peer - 1, s.link.xid % 2 ^ 32, rG s a)])
      ∧ routeAt u (rG s a) = { routeAt s (rG s a) with credits := (routeAt s (rG s a)).credits - 1 }
      ∧ rPts u = loadTs s c off t ∧ (curCtx u).pc = nextPc t.ctx.pc ∧ (∀ r, rG u r = rG s r) ∧ ∀ k, memByte u.mem k = memByte s.mem k := by
  obtain ⟨l, n, he, hsent⟩ := exec_send_credit hi hp hh hf hhome hd hg hc hw hs
  have hctx : curCtx (putStrand (sent s c i off t (rG s a) l n) c i (sentStrand s c off t))
      = { t.ctx with pts := loadTs s c off t, pc := nextPc t.ctx.pc } :=
    curCtx_putStrand ((sent_cur ..).trans hi.cur) (sentStrand s c off t)
  refine ⟨_, he, fun h0 => if_pos h0, fun h0 => ⟨if_neg h0, hsent h0⟩, tget_tset .., ?_, ?_, fun r => ?_, fun x => ?_⟩
  · rw [rPts, curCtx_confine, hctx]
  · rw [curCtx_confine, hctx]
  · rw [rG, curCtx_confine, hctx, rG, hi.curCtx_eq]
  · rw [confine_mem, putStrand_mem, sent_mem]

end
end

/-! ### Lists of messages -/

theorem dropAt_eq_eraseIdx {α : Type} (l : List α) (n : Nat) : dropAt l n = l.eraseIdx n := by
  induction l generalizing n with
  | nil => rfl
  | cons x r ih => cases n with
    | zero => rfl
    | succ n => rw [dropAt, ih, List.eraseIdx_cons_succ]

theorem findPos_eq_some {α : Type} {p : α → Bool} {l : List α} {n : Nat} {x : α} (hx : l[n]? = some x) (hp : p x = true)
    (hfirst : ∀ k y, k < n → l[k]? = some y → p y = false) (i : Nat) : findPos p l i = some (i + n, x) := by
  induction l generalizing n i with
  | nil => simp at hx
  | cons y r ih => cases n with
    | zero =>
      obtain rfl : y = x := by simpa using hx
      simp [findPos, hp]
    | succ n =>
      have hy : p y = false := hfirst 0 y (by omega) rfl
      rw [findPos, hy, if_neg (by simp), ih hx (fun k z hk hz => hfirst (k + 1) z (by omega) hz), Nat.add_right_comm, Nat.add_assoc]

theorem findPos_eq_none {α : Type} {p : α → Bool} {l : List α} (h : ∀ x ∈ l, p x = false) (i : Nat) : findPos p l i = none := by
  induction l generalizing i with
  | nil => rfl
  | cons y r ih => rw [findPos, h y (by simp), if_neg (by simp), ih fun x hx => h x (by simp [hx])]

/-! ### RECV and POLL (R174) -/

section
variable {s : State} {g : Guard} {c i off : Nat} {t : Strand} {a b d : GReg}

/-- What a strand's RECV or POLL gives for a record. -/
def given (m : Msg) (recv : Bool) : Word := if recv then m.bytes.setWidth 64 else 1

/-- The timestamp of the store of a record (R49, R174). -/
def storeTs (w : State) (c off : Nat) (y : Strand) (m : Msg) : Nat := max (max y.ctx.pts m.ts) ((stampAt w c off).rts + 1)

/-- The state after a record has been stored to the buffer of the strand `y`, register `d` holding `v`; `k` are the counts of R110. -/
def stored (w : State) (c i off : Nat) (y : Strand) (d : GReg) (v : Word) (m : Msg) (k : Sparse (Nat × Nat)) : State :=
  putStrand (putStamp { w with mem := memWrite w.mem (scratchAt c off) 32 m.bytes.toNat, core.routeCount := k } c off
    { wts := storeTs w c off y m, rts := storeTs w c off y m }) c i (y.gives d v (storeTs w c off y m))

/-- The registers of the strand then. -/
theorem stored_ctx (s : State) {w : State} {y : Strand} (hc : w.cur = .strand c i) (hy : y.ctx = t.ctx) (v : Word) (m : Msg) (k : Sparse (Nat × Nat)) :
    curCtx (confine s (stored w c i off y d v m k)) =
      { t.ctx with pts := storeTs w c off y m, g := t.ctx.g.set d v, pc := nextPc t.ctx.pc } := by
  rw [← hy]
  exact curCtx_putStrand (s := confine s (putStamp { w with mem := memWrite w.mem (scratchAt c off) 32 m.bytes.toNat, core.routeCount := k } c off
    { wts := storeTs w c off y m, rts := storeTs w c off y m })) hc (y.gives d v (storeTs w c off y m))

theorem takeMsg_eq {w : State} {y : Strand} (hc : w.cur = .strand c i) (hy : strandAt w c i = some y) (hf : w.coh.failed = []) (m : Msg) (recv : Bool) :
    ∃ k, takeMsg w d off m recv = stored w c i off y d (given m recv) m k := by
  have hcore : curCore w = c := by simp [curCore, hc]
  obtain ⟨k, hk⟩ : ∃ k, (if ownRoute m.route then countReceived w c m.route else w) = { w with core.routeCount := k } := by
    split
    · exact ⟨_, rfl⟩
    · exact ⟨_, rfl⟩
  have hpts : rPts { w with core.routeCount := k } = y.ctx.pts := by
    rw [rPts, show curCtx { w with core.routeCount := k } = curCtx w from rfl]; simp [curCtx, hc, hy]
  refine ⟨k, ?_⟩
  simp only [takeMsg, hcore, hk, hpts]
  rw [spStore_sound (s := { w with core.routeCount := k }) hf]
  exact advance_wG_wPts (s := putStamp { w with mem := memWrite w.mem (scratchAt c off) 32 m.bytes.toNat, core.routeCount := k } c off _) hc hy _ d _

theorem returnCredit_eq (w : State) (m : Msg) :
    returnCredit w m = { w with hold.credits := w.hold.credits ++ if ownRoute m.route then [m.route] else [] } := by
  unfold returnCredit
  cases ownRoute m.route <;> simp

/-- What the statement says of a RECV or POLL that has taken the record `m` and gives `v`. -/
def Took (s : State) (c off : Nat) (t : Strand) (d : GReg) (ins : Instr) (v : Word) (m : Msg) (P : State → Prop) : Prop :=
  let n := max (max t.ctx.pts m.ts) ((stampAt s c off).rts + 1)
  ∃ u, exec ins s = .next u ∧ rG u d = v ∧ (∀ r, r ≠ d → rG u r = rG s r) ∧ rPts u = n ∧ (curCtx u).pc = nextPc t.ctx.pc
    ∧ stampAt u c off = { wts := n, rts := n } ∧ u.hold.credits = s.hold.credits ++ (if ownRoute m.route then [m.route] else [])
    ∧ (∀ k, memByte u.mem k = if scratchAt c off ≤ k ∧ k < scratchAt c off + 32 then m.bytes.extractLsb' (8 * (k - scratchAt c off)) 8
        else memByte s.mem k)
    ∧ P u

/-- A state that differs from `s`, as far as a RECV or POLL of the strand can tell, in the record that has been found: the strand is `y`. -/
structure Found (s w : State) (c i : Nat) (t y : Strand) : Prop where
  cur : w.cur = s.cur
  bound : strandAt w c i = some y
  ctx : y.ctx = t.ctx
  mem : w.mem = s.mem
  coh : w.coh = s.coh
  credits : w.hold.credits = s.hold.credits

/-- The record found is taken, its credit returned, and what has become of its queue, its channel buffer and the strand stays. -/
theorem took {w : State} {y : Strand} {ins : Instr} {recv : Bool} {m : Msg} {P : State → Prop} (hi : StrandIssues g s c i t) (hw : Found s w c i t y)
    (he : exec ins s = run .strand g none (receive d a b recv) s)
    (hr : receive d a b recv s = .ok (takeMsg (returnCredit w m) d off m recv))
    (hP : ∀ u, u.hold.evqs = w.hold.evqs → u.core.chan = w.core.chan → (∃ z, strandAt u c i = some z ∧ z.got = y.got) → P u) :
    Took s c off t d ins (given m recv) m P := by
  rw [returnCredit_eq] at hr
  obtain ⟨k, hk⟩ := takeMsg_eq (w := { w with hold.credits := w.hold.credits ++ if ownRoute m.route then [m.route] else [] }) (d := d) (off := off)
    (hw.cur.trans hi.cur) hw.bound ((congrArg MemPart.failed hw.coh).trans hi.sound) m recv
  have hn : storeTs { w with hold.credits := w.hold.credits ++ if ownRoute m.route then [m.route] else [] } c off y m
      = max (max t.ctx.pts m.ts) ((stampAt s c off).rts + 1) := by simp only [storeTs, stampAt, hw.ctx, hw.coh]
  have hctx := stored_ctx s (w := { w with hold.credits := w.hold.credits ++ if ownRoute m.route then [m.route] else [] })
    (off := off) (d := d) (hw.cur.trans hi.cur) hw.ctx (given m recv) m k
  rw [hn] at hctx
  rw [hk] at hr
  refine ⟨_, he.trans (run_ok hi.issues hr (.inr hi.sound)), ?_, fun r hr => ?_, ?_, ?_, ?_, ?_, fun x => ?_,
    hP _ rfl rfl ⟨_, strandAt_putStrand .., rfl⟩⟩
  · rw [rG, hctx]; simp [get_set]
  · rw [rG, hctx, rG, hi.curCtx_eq]; simp [get_set, hr]
  · rw [rPts, hctx]
  · rw [hctx]
  · rw [← hn]; exact tget_tset ..
  · exact congrArg (· ++ _) hw.credits
  · show memByte (memWrite w.mem (scratchAt c off) 32 m.bytes.toNat) x = _
    split
    · next h => rw [memByte_memWrite_in _ h, ofNat_div_eq_extractLsb']
    · next h => rw [memByte_memWrite_out _ _ _ _ _ (by omega), hw.mem]

/-- RECV and POLL alike take the record that has been found, RECV giving its first 8 bytes and POLL 1. -/
theorem recv_and_poll_took {w : State} {y : Strand} {m : Msg} {P : State → Prop} (hi : StrandIssues g s c i t) (hw : Found s w c i t y)
    (hr : ∀ recv, receive d a b recv s = .ok (takeMsg (returnCredit w m) d off m recv))
    (hP : ∀ u, u.hold.evqs = w.hold.evqs → u.core.chan = w.core.chan → (∃ z, strandAt u c i = some z ∧ z.got = y.got) → P u) :
    Took s c off t d (.recv g d a b) (m.bytes.extractLsb' 0 64) m P ∧ Took s c off t d (.poll g d a b) 1 m P := by
  refine ⟨?_, took hi hw rfl (hr false) hP⟩
  rw [← BitVec.setWidth_eq_extractLsb' (by decide)]
  exact took hi hw rfl (hr true) hP

theorem recv_and_poll_trap (hi : StrandIssues g s c i t) {e : Exc} (hr : ∀ recv, receive d a b recv s = .error e) :
    Traps (.recv g d a b) s e ∧ Traps (.poll g d a b) s e :=
  ⟨traps_of_run hi.issues rfl (hr true), traps_of_run hi.issues rfl (hr false)⟩

/-- What a wake flit has brought from a queue or route. -/
theorem curGot_eq (hi : StrandIssues g s c i t) (q : Word) : curGot s q = if t.gotQ = q then t.got else [] := by
  simp [curGot, hi.cur, hi.bound]

theorem curGot_nil (hi : StrandIssues g s c i t) {q : Word} (hg : t.got = [] ∨ t.gotQ ≠ q) : curGot s q = [] := by
  rw [curGot_eq hi]
  rcases hg with hg | hg <;> simp [hg]

/-- A RECV that finds nothing blocks. -/
theorem takeNone_recv {u : State} {y : Strand} (hc : u.cur = .strand c i) (hy : strandAt u c i = some y) (h : Word) :
    takeNone u d h true = putStrand u c i { y with st := 2, wait := .recv, gotQ := h, want := 1 } := by
  simp [takeNone, suspend_strand hc hy, hc, mapStrand]

/-- What a waiter of the strand leaves at an event queue. -/
theorem curWaiter_eq (hi : StrandIssues g s c i t) (k : Nat) : curWaiter s k = { tag := curTag s, want := k, issue := t.lastIssue } := by
  simp [curWaiter, hi.cur, hi.bound]

/-- The first record of a queue at which nothing waits is taken. -/
theorem takeEvq_some {key : Nat} {m : Msg} {ms : List Msg} (hr : (evqAt s key).recs = m :: ms) (hb : (evqAt s key).blocked = [])
    (hw : (evqAt s key).waiting = []) : takeEvq s key = some (returnCredit (putEvq s key { evqAt s key with recs := ms }) m, m) := by
  simp [takeEvq, hr, evqFuel, serveEvq, hb, hw]

theorem takeEvq_none {key : Nat} (hr : (evqAt s key).recs = []) : takeEvq s key = none := by
  simp [takeEvq, hr]

/-- The message is one of the route for the acting strand. -/
def MineOn (s : State) (h : Word) (m : Msg) : Prop := m.route = h ∧ m.dtag = tagBits (curTag s)

/-- The route is of the strand's context and ends at the strand, on this device (R174). -/
def OwnRoute (s : State) (t : Strand) (h : Word) : Prop :=
  (lifeOf s (hKey h)).owner = t.ctxh ∧ (routeAt s h).dtype = 0 ∧ (routeAt s h).peer = 0 ∧ (routeAt s h).dtag = tagBits (curTag s)

/-- The oldest message of the route for the strand is taken, where none waits at the core's input. -/
theorem takeChannel_some (hi : StrandIssues g s c i t) {h : Word} {n : Nat} {m : Msg} (hm : (tget [] s.core.chan c)[n]? = some m) (hmine : MineOn s h m)
    (hfirst : ∀ k y, k < n → (tget [] s.core.chan c)[k]? = some y → ¬ MineOn s h y) (hw : tget [] s.core.chanWait c = []) :
    takeChannel s h = some (returnCredit { s with core.chan := tset [] s.core.chan c ((tget [] s.core.chan c).eraseIdx n) } m, m) := by
  have hfind := findPos_eq_some (p := fun m : Msg => m.route == h && m.dtag == tagBits (curTag s)) hm (by simpa [MineOn] using hmine)
    (fun k y hk hy => by simpa [MineOn] using hfirst k y hk hy) 0
  rw [Nat.zero_add] at hfind
  simp only [takeChannel, hi.curCore_eq, hfind, serveInput, hw, dropAt_eq_eraseIdx]
  rfl

theorem takeChannel_none (hi : StrandIssues g s c i t) {h : Word} (hn : ∀ m ∈ tget [] s.core.chan c, ¬ MineOn s h m) : takeChannel s h = none := by
  have hfind := findPos_eq_none (p := fun m : Msg => m.route == h && m.dtag == tagBits (curTag s)) (fun y hy => by simpa [MineOn] using hn y hy) 0
  simp only [takeChannel, hi.curCore_eq, hfind]

section
variable (hi : StrandIssues g s c i t) (hp : ownPtr s (rG s b) 32 = .ok off)
  (hh : checkHandle s [2, 7] (rG s a) = .ok ())
include hi hp hh

theorem receive_got {m : Msg} {ms : List Msg} (hg : t.got = m :: ms) (hq : t.gotQ = rG s a) (recv : Bool) :
    receive d a b recv s = .ok (takeMsg (returnCredit (putStrand s c i { t with got := [] }) m) d off m recv) := by
  have hclear : clearGot s = putStrand s c i { t with got := [] } := by simp [clearGot, hi.cur, mapStrand, hi.bound]
  simp only [receive, hh, hp, bind, Except.bind, curGot_eq hi, hq, if_true, hg, hclear]

/-- What a wake flit has brought is taken first. -/
theorem took_got {m : Msg} {ms : List Msg} (hg : t.got = m :: ms) (hq : t.gotQ = rG s a) :
    let P := fun u : State => ∃ y, strandAt u c i = some y ∧ y.got = []
    Took s c off t d (.recv g d a b) (m.bytes.extractLsb' 0 64) m P ∧ Took s c off t d (.poll g d a b) 1 m P :=
  recv_and_poll_took hi (w := putStrand s c i { t with got := [] }) ⟨rfl, strandAt_putStrand .., rfl, rfl, rfl, rfl⟩ (receive_got hi hp hh hg hq)
    fun _ _ _ hz => hz

variable (hg : t.got = [] ∨ t.gotQ ≠ rG s a)
include hg

section
variable (hk : hKind (rG s a) = 7) (hhome : checkHome s t.ctxh (rG s a) = .ok ())
include hk hhome

/-- With nothing from a wake flit, an event queue's home is asked. -/
theorem receive_evq (recv : Bool) :
    receive d a b recv s = match takeEvq s (hKey (rG s a)) with
      | some (w, m) => .ok (takeMsg w d off m recv)
      | none => .ok (takeNone (if recv then putEvq s (hKey (rG s a)) { evqAt s (hKey (rG s a)) with
          blocked := (evqAt s (hKey (rG s a))).blocked ++ [{ tag := curTag s, want := 1, issue := t.lastIssue }] } else s) d (rG s a) recv) := by
  simp only [receive, hh, hp, bind, Except.bind, curGot_nil hi hg, hk, hi.curCtxh_eq, hhome, curWaiter_eq hi]
  rfl

theorem took_evq {m : Msg} {ms : List Msg}
    (hr : (evqAt s (hKey (rG s a))).recs = m :: ms) (hb : (evqAt s (hKey (rG s a))).blocked = []) (hw : (evqAt s (hKey (rG s a))).waiting = []) :
    let P := fun u : State => (evqAt u (hKey (rG s a))).recs = ms
    Took s c off t d (.recv g d a b) (m.bytes.extractLsb' 0 64) m P ∧ Took s c off t d (.poll g d a b) 1 m P := by
  refine recv_and_poll_took hi (w := putEvq s (hKey (rG s a)) { evqAt s (hKey (rG s a)) with recs := ms }) ⟨rfl, hi.bound, rfl, rfl, rfl, rfl⟩
    (fun recv => ?_) fun u hu _ _ => ?_
  · rw [receive_evq hi hp hh hg hk hhome, takeEvq_some hr hb hw]
  · rw [evqAt, hu]
    exact congrArg Evq.recs (evqAt_putEvq s (hKey (rG s a)) { evqAt s (hKey (rG s a)) with recs := ms })

theorem poll_evq_none (hr : (evqAt s (hKey (rG s a))).recs = []) : Writes (.poll g d a b) s d 0 := by
  have hb := receive_evq (d := d) hi hp hh hg hk hhome false
  simp only [takeEvq_none hr] at hb
  exact writes_of_run hi.issues rfl hb

/-- At an empty event queue RECV waits. -/
theorem recv_evq_blocks (hr : (evqAt s (hKey (rG s a))).recs = []) :
    exec (.recv g d a b) s = .next (putStrand (putEvq s (hKey (rG s a)) { evqAt s (hKey (rG s a)) with
        blocked := (evqAt s (hKey (rG s a))).blocked ++ [{ tag := curTag s, want := 1, issue := t.lastIssue }] }) c i
      { t with st := 2, wait := .recv, gotQ := rG s a, want := 1 }) := by
  have hb := receive_evq (d := d) hi hp hh hg hk hhome true
  simp only [takeEvq_none hr, if_true] at hb
  rw [takeNone_recv (u := putEvq s _ _) hi.cur hi.bound] at hb
  exact run_ok hi.issues hb (.inr hi.sound)

end

section
variable (hk : hKind (rG s a) = 2) (hx : checkIndex (rG s a) = .ok ())
include hk hx

/-- Of a route that has lapsed a channel buffer gives what it still holds. -/
theorem receive_lapsed (hl : liveHandle s (rG s a) = false) (recv : Bool) :
    receive d a b recv s = match takeChannel s (rG s a) with
      | some (w, m) => .ok (takeMsg w d off m recv)
      | none => .error (hExc .lapsed (rG s a)) := by
  simp only [receive, hh, hp, bind, Except.bind, curGot_nil hi hg, hk, hx, hl]
  rfl

theorem receive_own (hl : liveHandle s (rG s a) = true) (ho : OwnRoute s t (rG s a)) (recv : Bool) :
    receive d a b recv s = match takeChannel s (rG s a) with
      | some (w, m) => .ok (takeMsg w d off m recv)
      | none => .ok (takeNone s d (rG s a) recv) := by
  obtain ⟨howner, hdtype, hpeer, hdtag⟩ := ho
  simp only [receive, hh, hp, bind, Except.bind, curGot_nil hi hg, hk, hx, hl, hi.curCtxh_eq, howner, hdtype, hpeer, hdtag, beq_self_eq_true]
  rfl

/-- A route to another destination traps. -/
theorem receive_foreign (hl : liveHandle s (rG s a) = true) (howner : (lifeOf s (hKey (rG s a))).owner = t.ctxh)
    (hne : (routeAt s (rG s a)).dtype ≠ 0 ∨ (routeAt s (rG s a)).peer ≠ 0 ∨ (routeAt s (rG s a)).dtag ≠ tagBits (curTag s)) (recv : Bool) :
    receive d a b recv s = .error (hExc .badOperand (rG s a)) := by
  have hown : ((routeAt s (rG s a)).dtype == 0 && (routeAt s (rG s a)).peer == 0 && (routeAt s (rG s a)).dtag == tagBits (curTag s)) = false := by
    rw [Bool.eq_false_iff]
    simp only [ne_eq, Bool.and_eq_true, beq_iff_eq, not_and]
    tauto
  simp only [receive, hh, hp, bind, Except.bind, curGot_nil hi hg, hk, hx, hl, hi.curCtxh_eq, howner, beq_self_eq_true, hown]
  rfl

theorem took_channel {n : Nat} {m : Msg} (hm : (tget [] s.core.chan c)[n]? = some m) (hmine : MineOn s (rG s a) m)
    (hfirst : ∀ k y, k < n → (tget [] s.core.chan c)[k]? = some y → ¬ MineOn s (rG s a) y) (hw : tget [] s.core.chanWait c = [])
    (ho : liveHandle s (rG s a) = true → OwnRoute s t (rG s a)) :
    let P := fun u : State => tget [] u.core.chan c = (tget [] s.core.chan c).eraseIdx n
    Took s c off t d (.recv g d a b) (m.bytes.extractLsb' 0 64) m P ∧ Took s c off t d (.poll g d a b) 1 m P := by
  refine recv_and_poll_took hi (w := { s with core.chan := tset [] s.core.chan c ((tget [] s.core.chan c).eraseIdx n) })
    ⟨rfl, hi.bound, rfl, rfl, rfl, rfl⟩ (fun recv => ?_) fun u _ hu _ => ?_
  · cases hl : liveHandle s (rG s a) with
    | false => rw [receive_lapsed hi hp hh hg hk hx hl, takeChannel_some hi hm hmine hfirst hw]
    | true => rw [receive_own hi hp hh hg hk hx hl (ho hl), takeChannel_some hi hm hmine hfirst hw]
  · rw [hu]
    exact tget_tset ..

/-- A lapsed route of which nothing is held traps. -/
theorem channel_lapsed (hn : ∀ m ∈ tget [] s.core.chan c, ¬ MineOn s (rG s a) m) (hl : liveHandle s (rG s a) = false) (recv : Bool) :
    receive d a b recv s = .error (hExc .lapsed (rG s a)) := by
  rw [receive_lapsed hi hp hh hg hk hx hl, takeChannel_none hi hn]

/-- Of the strand's own route, of which nothing is held, POLL gives 0 and RECV waits. -/
theorem channel_none (hn : ∀ m ∈ tget [] s.core.chan c, ¬ MineOn s (rG s a) m) (hl : liveHandle s (rG s a) = true) (ho : OwnRoute s t (rG s a)) :
    Writes (.poll g d a b) s d 0
      ∧ exec (.recv g d a b) s = .next (putStrand s c i { t with st := 2, wait := .recv, gotQ := rG s a, want := 1 }) := by
  have hb (recv : Bool) : receive d a b recv s = .ok (takeNone s d (rG s a) recv) := by
    rw [receive_own hi hp hh hg hk hx hl ho, takeChannel_none hi hn]
  refine ⟨writes_of_run hi.issues rfl (hb false), ?_⟩
  have hrecv := hb true
  rw [takeNone_recv hi.cur hi.bound] at hrecv
  exact run_ok hi.issues hrecv (.inr hi.sound)

end
end
end

/-- Settles O23. SEND by what the route's home answers; RECV and POLL by where the record is found, if one is. -/
theorem sendRecvAndPollMoveRecords : Obligations.SendRecvAndPollMoveRecords := by
  intro s g c i t d a b off hi hp h rt buf x ts payload asks
  constructor
  · intro hh
    exact ⟨exec_send_far hi hp hh, fun hf hhome hd => ⟨exec_send_sent hi hp hh hf hhome hd, exec_send_waits hi hp hh hf hhome hd,
      exec_send_gone hi hp hh hf hhome hd⟩⟩
  · intro hh took both
    refine ⟨fun m ms hg hq => took_got hi hp hh hg hq, fun hg hk hhome => ⟨fun m ms hr hb hw => took_evq hi hp hh hg hk hhome hr hb hw,
      fun hr => ⟨poll_evq_none hi hp hh hg hk hhome hr, recv_evq_blocks hi hp hh hg hk hhome hr⟩⟩, fun hg hk hx => ⟨?_, fun hn => ⟨?_, ?_⟩, ?_⟩⟩
    · exact fun n m hm hmine hfirst hw ho => took_channel hi hp hh hg hk hx hm hmine hfirst hw ho
    · exact fun hl => recv_and_poll_trap hi (channel_lapsed hi hp hh hg hk hx hn hl)
    · exact fun hl ho => channel_none hi hp hh hg hk hx hn hl ho
    · exact fun hl howner hne => recv_and_poll_trap hi (receive_foreign hi hp hh hg hk hx hl howner hne)

end Sys2Proof.Machine
end

section
/-! PROOFS. Bring-up and units (O53). -/

namespace Sys2Proof.Machine
open Sys2Proof

/-! ### A core taken out of service (R385) -/

/-- Cores 1 and 2 of cluster 0 are present, core 1 has a strand in slot 0 and has reported 16 uncorrectable errors. -/
def failingCore : State :=
  { hub.ready := [(1, 2), (2, 2), (2000, 2)], core.slots := [(16, {})], core.soft := [(1, List.replicate 16 0)] }

/-- Firmware takes core 1 out of service and its strand ends. The table of slots keeps slot 0 of core 1 under the number 16, under which slot "16" of
core 0 is looked for, too. -/
theorem failingCore_slot : (match exec (.softErrorOutOfService 1) failingCore with
    | .next u => (strandAt u 0 16).isNone
    | _ => false) = true := by
  decide +kernel

/-- Refutes O53: its last clause says that the strand of every slot of every other core stays, with no bound on the slot, and "slot 16" of core 0 is
slot 0 of the core that fails. -/
theorem not_bringUpRestartsAndUnitsFail : ¬ Obligations.BringUpRestartsAndUnitsFail := by
  rintro ⟨-, -, -, -, h⟩
  obtain ⟨-, hout⟩ := h failingCore 1 2 (by decide)
  obtain ⟨u, he, -, -, -, -, -, -, -, hothers⟩ := hout (by decide) (by decide) (by decide) (by decide) (fun k hk => absurd hk (by simp))
    rfl rfl rfl rfl rfl rfl rfl (fun _ _ => rfl) fun _ _ => Nat.zero_le _
  have hstays : strandAt u 0 16 = some {} := hothers 0 16 (by decide)
  have hgone := failingCore_slot
  rw [he] at hgone
  simp [hstays] at hgone

end Sys2Proof.Machine
end

section
/-! PROOFS. Commands enter their engine queue (O30): what a command becomes when the acting strand offers it, the checks at issue of the copy and the
factor engine, QFENCE in a strand and in a stream, and the round robin among the waiting commands. -/

namespace Sys2Proof.Machine
open Sys2Proof

/-! ### A command offered to a queue (R20, R61, R62, R214) -/

/-- A strand out of rotation for a reply, or for the entry of its command into a queue. -/
def Strand.awaits (t : Strand) : Strand := { t with st := 1, wait := .reply }
/-- A strand at its next instruction. -/
def Strand.stepped (t : Strand) : Strand := { t with ctx := { t.ctx with pc := nextPc t.ctx.pc } }

/-- A timestamp that is the strand's already changes nothing. -/
theorem Strand.withPts_self {t : Strand} {n : Nat} (h : t.ctx.pts = n) : t.withPts n = t := by
  subst h
  simp [Strand.withPts]

/-- The command with the agent that issues it. -/
def issuedBy (w : State) (x : Cmd) : Cmd :=
  { x with tag := curTag w, core := curCore w, ctxh := curCtxh w, record := curRec w, privb := curPrivb w, pts := rPts w, env := curEnv w }

/-- The command as a queue of cluster `k` takes it: a QFENCE with its counts, any other with the threshold. -/
def taken (s : State) (k : Nat) (x : Cmd) : Cmd :=
  match x.op with
  | .qfence set _ => { x with op := .qfence set (fenceTargets s k set) }
  | _ => { x with thr := (fctlOf s k).setWidth 32 }

theorem taken_qfence {s : State} {k : Nat} {x : Cmd} {set : BitVec 4} {ts : List (Nat × Nat)} (h : x.op = .qfence set ts) :
    taken s k x = { x with op := .qfence set (fenceTargets s k set) } := by
  simp [taken, h]

theorem taken_other {s : State} {k : Nat} {x : Cmd} (h : ∀ set ts, x.op ≠ .qfence set ts) :
    taken s k x = { x with thr := (fctlOf s k).setWidth 32 } := by
  unfold taken
  split
  · next set ts hx => exact absurd hx (h set ts)
  · rfl

/-- A queue that takes a command changes no more of it than its wait set and its threshold. -/
theorem taken_frame (s : State) (k : Nat) (x : Cmd) : ∃ op thr, taken s k x = { x with op := op, thr := thr } := by
  unfold taken
  split
  · exact ⟨_, x.thr, rfl⟩
  · exact ⟨x.op, _, rfl⟩

theorem enterQueue_eq (s : State) (k : Nat) (f : Bool) (x : Cmd) :
    enterQueue s k f x
      = putQueue s k f { queueAt s k f with cmds := (queueAt s k f).cmds ++ [taken s k x], last := x.core % 4 } := by
  obtain ⟨op, thr, h⟩ := taken_frame s k x
  have hcore : (taken s k x).core = x.core := by rw [h]
  rw [← hcore]
  rfl

@[simp] theorem putQueue_cur (s : State) (k : Nat) (f : Bool) (q : Queue) : (putQueue s k f q).cur = s.cur := by cases f <;> rfl
@[simp] theorem putQueue_core (s : State) (k : Nat) (f : Bool) (q : Queue) : (putQueue s k f q).core = s.core := by cases f <;> rfl
@[simp] theorem putQueue_mem (s : State) (k : Nat) (f : Bool) (q : Queue) : (putQueue s k f q).mem = s.mem := by cases f <;> rfl
@[simp] theorem putQueue_coh (s : State) (k : Nat) (f : Bool) (q : Queue) : (putQueue s k f q).coh = s.coh := by cases f <;> rfl
@[simp] theorem putQueue_sregs (s : State) (k : Nat) (f : Bool) (q : Queue) : (putQueue s k f q).sregs = s.sregs := by cases f <;> rfl
@[simp] theorem strandAt_putQueue (s : State) (k : Nat) (f : Bool) (q : Queue) (c j : Nat) : strandAt (putQueue s k f q) c j = strandAt s c j := by
  simp [strandAt]

theorem tagged_putQueue (s : State) (k : Nat) (f : Bool) (q : Queue) (tag : Tag) : tagged (putQueue s k f q) tag = tagged s tag := by
  cases f <;> rfl

section
variable {w : State} {c j : Nat} {y : Strand} (hc : w.cur = .strand c j) (hw : strandAt w c j = some y) (f : Bool) (x : Cmd)
include hc hw

/-- With a free entry and nobody waiting the command enters; its strand goes on, but for a plain form. -/
theorem offer_enters (h : (queueAt w (clusterOf c) f).cmds.length < 64 ∧ (queueAt w (clusterOf c) f).waits = []) :
    offer w f x = putStrand (putQueue w (clusterOf c) f { queueAt w (clusterOf c) f with
      cmds := (queueAt w (clusterOf c) f).cmds ++ [taken w (clusterOf c) (issuedBy w x)], last := c % 4 }) c j
      (if x.plain then y.awaits else y.stepped) := by
  have hcore : curCore w = c := by simp [curCore, hc]
  obtain ⟨hlen, hwaits⟩ := h
  unfold offer
  simp only [hcore, hlen, hwaits, decide_true, List.isEmpty_nil, Bool.and_self, if_true, enterQueue_eq]
  split
  · rw [suspend_strand (by simpa using hc) (by simpa using hw), Strand.awaits]
    simp only [issuedBy, hcore]
  · rw [advance, mapCtx_strand _ _ c j y (by simpa using hc) (by simpa using hw), Strand.stepped]
    simp only [issuedBy, hcore]

/-- Else it waits for an entry, and its strand with it. -/
theorem offer_waits (h : ¬ ((queueAt w (clusterOf c) f).cmds.length < 64 ∧ (queueAt w (clusterOf c) f).waits = [])) :
    offer w f x = putStrand (putQueue w (clusterOf c) f { queueAt w (clusterOf c) f with
      waits := (queueAt w (clusterOf c) f).waits ++ [{ core := c, cmd := issuedBy w x }] }) c j y.awaits := by
  have hcore : curCore w = c := by simp [curCore, hc]
  unfold offer
  simp only [hcore]
  rw [if_neg (by simpa using h), suspend_strand (by simpa using hc) (by simpa using hw), Strand.awaits]
  simp only [issuedBy, hcore]

end

/-! ### Offered, from what the strand has read -/

/-- In `w` the strand, bound to its slot as in `s`, has made its loads, the last at `pts`: queues, generations and memory are those of `s`. -/
structure Loaded (s w : State) (c j : Nat) (t : Strand) (pts : Nat) : Prop where
  cur : w.cur = .strand c j
  bound : strandAt w c j = some (t.withPts pts)
  eng : w.eng = s.eng
  gens : w.core.slotGen = s.core.slotGen
  mem : w.mem = s.mem

section
variable {s w : State} {g : Guard} {c j pts : Nat} {t : Strand} {i : Instr}

theorem StrandIssues.loaded (hi : StrandIssues g s c j t) : Loaded s s c j t t.ctx.pts :=
  ⟨hi.cur, by rw [Strand.withPts_self rfl, hi.bound], rfl, rfl, rfl⟩

theorem Loaded.queueAt_eq (hl : Loaded s w c j t pts) (k : Nat) (f : Bool) : queueAt w k f = queueAt s k f := by
  rw [queueAt, hl.eng, queueAt]

/-- The command of a strand that has loaded up to `pts`. -/
def Cmd.ofStrand (x : Cmd) (s : State) (c : Nat) (t : Strand) (pts : Nat) (env : Env) : Cmd :=
  { x with tag := curTag s, core := c, ctxh := t.ctxh, record := t.record, privb := t.privb, pts := pts, env := env }

theorem Loaded.issuedBy_eq (hi : StrandIssues g s c j t) (hl : Loaded s w c j t pts) (x : Cmd) :
    issuedBy w x = x.ofStrand s c t pts (curEnv w) := by
  rw [Cmd.ofStrand, hi.curTag_eq]
  simp only [issuedBy, curTag, curCore, curCtxh, curRec, curPrivb, rPts, curCtx, hl.cur, hl.bound, slotGenOf, hl.gens]
  rfl

/-- The strand that offers a command at `pts`, its timestamp then set: a plain form gives back the one it had (R8). -/
theorem offered {f : Bool} {x : Cmd} (hi : StrandIssues g s c j t) (hl : Loaded s w c j t pts) (hop : ∀ set ts, x.op ≠ .qfence set ts)
    (hown : x.own = false) (he : exec i s = .next (confine s (wPts (offer w f x) (if x.plain then t.ctx.pts else pts)))) :
    Offered i s c j t f x.plain x.op x.evq pts := by
  have hissued := hl.issuedBy_eq hi x
  have hq := hl.queueAt_eq (clusterOf c) f
  have hbytes : ∀ a, memByte w.mem a = memByte s.mem a := by simp [hl.mem]
  by_cases hroom : (queueAt s (clusterOf c) f).cmds.length < 64 ∧ (queueAt s (clusterOf c) f).waits = []
  · have htaken : taken w (clusterOf c) (issuedBy w x) = { issuedBy w x with thr := (fctlOf w (clusterOf c)).setWidth 32 } := taken_other hop
    rw [offer_enters hl.cur hl.bound f x (by rwa [hq]), htaken, hissued, hq,
      wPts_strand (by simpa using hl.cur) (strandAt_putStrand ..), putStrand_putStrand] at he
    refine ⟨_, _, { x.ofStrand s c t pts (curEnv w) with thr := (fctlOf w (clusterOf c)).setWidth 32 }, he, strandAt_putStrand .., ?_, ?_,
      by simpa [confine] using hbytes, rfl, rfl, rfl, rfl, rfl, rfl, rfl, rfl, rfl, rfl, hown, ?_⟩
    · cases x.plain <;> rfl
    · cases x.plain <;> rfl
    · rw [if_pos hroom]
      refine ⟨queueAt_putQueue .., ?_⟩
      cases x.plain
      · exact ⟨rfl, rfl⟩
      · exact ⟨rfl, rfl, rfl⟩
  · rw [offer_waits hl.cur hl.bound f x (by rwa [hq]), hissued, hq,
      wPts_strand (by simpa using hl.cur) (strandAt_putStrand ..), putStrand_putStrand] at he
    refine ⟨_, _, x.ofStrand s c t pts (curEnv w), he, strandAt_putStrand .., rfl, rfl, by simpa [confine] using hbytes,
      rfl, rfl, rfl, rfl, rfl, rfl, rfl, rfl, rfl, rfl, hown, ?_⟩
    rw [if_neg hroom]
    exact ⟨queueAt_putQueue .., rfl, rfl, rfl⟩

/-- The same where the strand's timestamp needs no setting: it is that of the command. -/
theorem offered_at_pts {f : Bool} {x : Cmd} (hi : StrandIssues g s c j t) (hl : Loaded s w c j t pts)
    (hop : ∀ set ts, x.op ≠ .qfence set ts) (hown : x.own = false) (hp : x.plain = true → pts = t.ctx.pts)
    (he : exec i s = .next (confine s (offer w f x))) : Offered i s c j t f x.plain x.op x.evq pts := by
  refine offered hi hl hop hown ?_
  have hpts : (if x.plain then t.ctx.pts else pts) = pts := by
    split
    · next h => exact (hp h).symm
    · rfl
  have hself : wPts (offer w f x) pts = offer w f x := by
    by_cases hroom : (queueAt w (clusterOf c) f).cmds.length < 64 ∧ (queueAt w (clusterOf c) f).waits = []
    · rw [offer_enters hl.cur hl.bound f x hroom, wPts_strand (by simpa using hl.cur) (strandAt_putStrand ..), putStrand_putStrand,
        Strand.withPts_self (by cases x.plain <;> rfl)]
    · rw [offer_waits hl.cur hl.bound f x hroom, wPts_strand (by simpa using hl.cur) (strandAt_putStrand ..), putStrand_putStrand,
        Strand.withPts_self (t := (t.withPts pts).awaits) (n := pts) rfl]
  rw [he, hpts, hself]

end

/-! ### Records read before a command is offered (R49, R218) -/

/-- The state after a load of a scratchpad sector at `pts`. -/
def readAt (s : State) (core off pts : Nat) : State :=
  putStamp s core off { stampAt s core off with rts := max (stampAt s core off).rts (max pts (stampAt s core off).wts) }

theorem spLoad_readAt {s : State} (h : s.coh.failed = []) (core off n pts : Nat) :
    spLoad s core off n pts = (readAt s core off pts, memRead s.mem (scratchAt core off) n, max pts (stampAt s core off).wts) :=
  spLoad_sound h ..

@[simp] theorem readAt_failed (s : State) (core off pts : Nat) : (readAt s core off pts).coh.failed = s.coh.failed := rfl
@[simp] theorem readAt_mem (s : State) (core off pts : Nat) : (readAt s core off pts).mem = s.mem := rfl

/-- A load moves no sector's time of writing. -/
theorem stampAt_readAt_wts (s : State) (core off pts core' off' : Nat) :
    (stampAt (readAt s core off pts) core' off').wts = (stampAt s core' off').wts := by
  simp only [readAt, stampAt, putStamp]
  by_cases h : core' * 8192 + off' / 64 = core * 8192 + off / 64
  · rw [h, tget_tset]
  · rw [tget_tset_ne _ _ _ _ _ h]

/-- A strand whose loads have moved nothing but the timestamps of sectors has loaded, once its own timestamp is set. -/
theorem StrandIssues.loaded_wPts {g : Guard} {s : State} {c j : Nat} {t : Strand} (hi : StrandIssues g s c j t) (m : Sparse Stamp) (pts : Nat) :
    Loaded s (wPts { s with coh.stamps := m } pts) c j t pts := by
  have hcur : ({ s with coh.stamps := m } : State).cur = .strand c j := hi.cur
  rw [wPts_strand hcur (t := t) hi.bound]
  exact ⟨hcur, strandAt_putStrand .., rfl, rfl, rfl⟩

theorem StrandIssues.loaded_readAt {g : Guard} {s : State} {c j : Nat} {t : Strand} (hi : StrandIssues g s c j t) (core off n pts : Nat) :
    Loaded s (wPts (readAt s core off n) pts) c j t pts :=
  hi.loaded_wPts _ pts

theorem StrandIssues.loaded_readAt_readAt {g : Guard} {s : State} {c j : Nat} {t : Strand} (hi : StrandIssues g s c j t)
    (core off n off' n' pts : Nat) :
    Loaded s (wPts (readAt (readAt s core off n) core off' n') pts) c j t pts :=
  hi.loaded_wPts _ pts

@[simp] theorem wPts_coh (s : State) (n : Nat) : (wPts s n).coh = s.coh := by
  unfold wPts
  split
  · exact mapStrand_coh ..
  · exact mapCtx_coh ..

@[simp] theorem wPts_cur (s : State) (n : Nat) : (wPts s n).cur = s.cur := by
  unfold wPts
  split
  · exact mapStrand_cur ..
  · exact mapCtx_cur ..

/-- The queue a record is to be sent to, when its handle passes; none is asked for. -/
theorem recordQueue_ok {s : State} {b : Option GReg} (h : ∀ r, b = some r → checkHandle s [7] (rG s r) = .ok ()) :
    recordQueue s b = .ok (b.elim 0 (rG s)) := by
  cases b with
  | none => rfl
  | some r => rw [recordQueue, h r rfl]; rfl

theorem ok_bind {ε α β : Type} (v : α) (f : α → Except ε β) : (Except.ok v >>= f) = f v := rfl
theorem error_bind {ε α β : Type} (e : ε) (f : α → Except ε β) : (Except.error e >>= f) = .error e := rfl
theorem bind_eq_ok {ε α β : Type} {x : Except ε α} {f : α → Except ε β} {y : β} :
    (x >>= f) = .ok y ↔ ∃ v, x = .ok v ∧ f v = .ok y := by
  cases x <;> simp [bind, Except.bind]
theorem need_eq_ok {b : Bool} {e : Exc} {u : Unit} : need b e = .ok u ↔ b = true := by cases b <;> simp [need]
theorem need_ok {b : Bool} (h : b = true) (e : Exc) : need b e = .ok () := if_pos h
theorem need_error {b : Bool} (h : b = false) (e : Exc) : need b e = .error e := if_neg (by simp [h])

/-! ### Descriptors at issue (R216 to R218) -/

section
variable {s : State} {b : Nat} {dst index : Bool}

/-- Step 3 of R218 passes. -/
theorem DescOk.check (h : DescOk s b dst index) (p : Word) (remote : Bool) : descCheck s p b dst index remote = .ok () := by
  obtain ⟨hspare, hhere, hbank, hstride, haux, -, -, -⟩ := h
  have hscratch : ((descOf b).scratch && (descOf b).fmt != 0) = false := by
    cases hx : (descOf b).scratch
    · rfl
    · simp [hbank hx]
  have hdst : (dst && (descOf b).stride == 0) = false := by
    cases dst
    · rfl
    · simpa using hstride rfl
  have hindex : (index || (descOf b).aux == 0) = true := by
    cases index
    · simp [haux rfl]
    · rfl
  refine need_ok ?_ _
  rw [hspare, hscratch, hdst, hhere, Bool.or_false, hindex]
  rfl

/-- A destination that does not move fails step 3 of R218. -/
theorem descCheck_stride (p : Word) (remote : Bool) (h : (descOf b).stride = 0) : descCheck s p b true index remote = .error (bad p) :=
  need_error (by simp [h]) _

/-- Steps 1 to 3 of R40 pass. -/
theorem checkPtr3_ok {p : Word} (hspace : pSpace p ≤ 4) (hzero : pZeroOk p = true)
    (hcore : pSpace p = 3 → corePresent s (p.toNat / 2 ^ 48 % 1024) = true) (detail : Nat) : checkPtr3 s p detail = .ok () := by
  have hpresent : (pSpace p != 3 || corePresent s (pCore 0 p)) = true := by
    by_cases h3 : pSpace p = 3
    · simpa [pCore, h3] using hcore h3
    · simp [h3]
  rw [checkPtr3, need_ok (decide_eq_true hspace), need_ok hzero, need_ok hpresent]
  rfl

/-- Whether a pointer passes does not depend on the detail that its trap would report. -/
theorem checkPtr_ok_any {p : Word} {n detail : Nat} (h : checkPtr s p n detail = .ok ()) (detail' : Nat) : checkPtr s p n detail' = .ok () := by
  simp only [checkPtr, checkPtr3, bind_eq_ok, need_eq_ok] at h ⊢
  exact h

/-- Step 4 of R218 passes. -/
theorem DescOk.ptrs (h : DescOk s b dst index) : descPtrs s (descOf b) index = .ok () := by
  obtain ⟨-, hhere, -, -, -, ⟨hspace, hzero, hcore⟩, haligned, hindices⟩ := h
  have hindex : (if index then checkPtr s (descOf b).aux 4 0 else .ok ()) = .ok () := by
    cases index
    · rfl
    · exact checkPtr_ok_any (hindices rfl) 0
  have haligned' : ((descOf b).ptr.toNat % fmtSize (withFmt s (descOf b)).fmt == 0) = true := by simpa using haligned
  simp only [descPtrs, hhere, checkPtr3_ok hspace hzero hcore, need_ok haligned', hindex]
  rfl

end

/-- The formats combine and the sizes agree (R217, R218). -/
def CopyFits (xs xd : CopyDesc) : Prop :=
  if xs.fmt = xd.fmt ∨ xs.fmt = 0 ∨ xd.fmt = 0 then
    xs.fmt ≠ 15 ∧ xd.fmt ≠ 15 ∧ xs.count * fmtSize xs.fmt = xd.count * fmtSize xd.fmt
  else convFmt xs.fmt = true ∧ convFmt xd.fmt = true ∧ xs.count = xd.count

/-- Step 5 of R218: the formats, then the sizes. -/
def sizesCheck (p : Word) (xs xd : CopyDesc) : Except Exc Unit :=
  match copyMode xs.fmt xd.fmt with
  | none => .error (bad p)
  | some .bits => need (xs.count * fmtSize xs.fmt == xd.count * fmtSize xd.fmt) (bad p)
  | some .conv => need (xs.count == xd.count) (bad p)

/-- Equal formats, and any with RAW, combine bit by bit; format 15 with none. -/
theorem copyMode_bits {fs fd : Nat} (h : fs = fd ∨ fs = 0 ∨ fd = 0) : copyMode fs fd = if fs = 15 ∨ fd = 15 then none else some .bits := by
  simp [copyMode, or_assoc, h]

/-- Other formats combine by conversion, where both are converted. -/
theorem copyMode_conv {fs fd : Nat} (h : ¬ (fs = fd ∨ fs = 0 ∨ fd = 0)) :
    copyMode fs fd = if convFmt fs = true ∧ convFmt fd = true then some .conv else none := by
  simp only [copyMode, or_assoc, h, Bool.or_eq_true, Bool.and_eq_true, beq_iff_eq, if_false]
  split
  · next h15 => rw [if_neg]; rintro ⟨hs, hd⟩; rcases h15 with rfl | rfl <;> simp_all [convFmt, floatFmt, intFmt]
  · rfl

theorem sizesCheck_fits {xs xd : CopyDesc} (h : CopyFits xs xd) (p : Word) : sizesCheck p xs xd = .ok () := by
  unfold CopyFits at h
  split at h
  · next hraw =>
    obtain ⟨hs, hd, hsize⟩ := h
    simp [sizesCheck, copyMode_bits hraw, hs, hd, need, hsize]
  · next hraw =>
    obtain ⟨hs, hd, hcount⟩ := h
    simp [sizesCheck, copyMode_conv hraw, hs, hd, need, hcount]

theorem sizesCheck_unfit {xs xd : CopyDesc} (h : ¬ CopyFits xs xd) (p : Word) : sizesCheck p xs xd = .error (bad p) := by
  unfold CopyFits at h
  split at h
  · next hraw =>
    by_cases h15 : xs.fmt = 15 ∨ xd.fmt = 15
    · simp [sizesCheck, copyMode_bits hraw, h15]
    · rw [not_or] at h15
      have hsize : (xs.count * fmtSize xs.fmt == xd.count * fmtSize xd.fmt) = false := by simpa [h15] using h
      simp [sizesCheck, copyMode_bits hraw, h15, need, hsize]
  · next hraw =>
    by_cases hconv : convFmt xs.fmt = true ∧ convFmt xd.fmt = true
    · have hcount : (xs.count == xd.count) = false := by simpa [hconv] using h
      simp [sizesCheck, copyMode_conv hraw, hconv, need, hcount]
    · simp [sizesCheck, copyMode_conv hraw, hconv]

/-- No route is checked for an endpoint of this device. -/
theorem remoteRoute_here {s : State} {x : CopyDesc} (h : x.rt = false) : remoteRoute s (withFmt s x) = .ok () := by
  have : (withFmt s x).rt = false := by
    unfold withFmt
    split <;> exact h
  rw [remoteRoute, this]
  rfl

/-- A pointer of another space names no record of the own scratchpad. -/
theorem ownPtr_space {s : State} {p : Word} (h : ¬ (pSpace p = 1 ∨ pSpace p = 2 ∨ pSpace p = 3)) (n : Nat) : ownPtr s p n = .error (bad p) := by
  simp [ownPtr, pScratch, or_assoc, h]

/-- What is left of COPY, GATH and SCAT at issue once `w` has both records, `bd` and `bs`. -/
def copyChecked (s : State) (d a : GReg) (b : Option GReg) (gi si remote : Bool) (mk : CopyDesc → CopyDesc → CmdOp) (bd bs : Nat) (w : State) :
    Except Exc State := do
  descCheck s (rG s d) bd true si remote
  descCheck s (rG s a) bs false gi false
  descPtrs s (descOf bd) si
  descPtrs s (descOf bs) gi
  sizesCheck (rG s d) (withFmt s (descOf bs)) (withFmt s (descOf bd))
  let q ← recordQueue s b
  remoteRoute s (withFmt s (descOf bd))
  .ok (offer w false (bareCmd (mk (withFmt s (descOf bd)) (withFmt s (descOf bs))) q false))

section
variable {g : Guard} {s : State} {c j : Nat} {t : Strand} {d a : GReg} {b : Option GReg} {i : Instr} {od os bd bs : Nat}
  (hi : StrandIssues g s c j t) (hb : ∀ r, b = some r → checkHandle s [7] (rG s r) = .ok ())
  (hd : ownPtr s (rG s d) 32 = .ok od) (hbd : memRead s.mem (scratchAt c od) 32 = bd)
include hi

section
variable {gi si remote : Bool} {mk : CopyDesc → CopyDesc → CmdOp}
  (ha : ownPtr s (rG s a) 32 = .ok os) (hbs : memRead s.mem (scratchAt c os) 32 = bs)
  (he : exec i s = run .strand g none (copyIssue d a b gi si remote mk) s)
include hd hbd ha hbs

theorem copyIssue_eq :
    let one := max t.ctx.pts (stampAt s c od).wts
    copyIssue d a b gi si remote mk s = copyChecked s d a b gi si remote mk bd bs
      (wPts (readAt (readAt s c od t.ctx.pts) c os one) (max one (stampAt s c os).wts)) := by
  intro one
  simp only [copyIssue, hd, ha, hi.curCore_eq, hi.rPts_eq, spLoad_readAt, readAt_failed, readAt_mem, hi.sound, stampAt_readAt_wts, softCheck_sound,
    ok_bind, hbd, hbs, copyChecked, sizesCheck]
  cases copyMode (withFmt s (descOf bs)).fmt (withFmt s (descOf bd)).fmt with
  | none => rfl
  | some m => cases m <;> rfl

include he

include hb in
/-- COPY, GATH and SCAT whose checks pass offer their descriptors at the timestamp of the later load. -/
theorem offered_copyIssue (hop : ∀ x y set ts, mk x y ≠ .qfence set ts)
    (hfits : CopyFits (withFmt s (descOf bs)) (withFmt s (descOf bd))) (hdd : DescOk s bd true si) (hds : DescOk s bs false gi) :
    Offered i s c j t false false (mk (withFmt s (descOf bd)) (withFmt s (descOf bs))) (b.elim 0 (rG s))
      (max (max t.ctx.pts (stampAt s c od).wts) (stampAt s c os).wts) := by
  have hl := hi.loaded_readAt_readAt c od t.ctx.pts os (max t.ctx.pts (stampAt s c od).wts)
    (max (max t.ctx.pts (stampAt s c od).wts) (stampAt s c os).wts)
  refine offered_at_pts (x := bareCmd _ (b.elim 0 (rG s)) false) hi hl (hop _ _) rfl nofun ?_
  rw [he]
  refine run_ok hi.issues ?_ (.inr hi.sound)
  simp only [copyIssue_eq hi hd hbd ha hbs, copyChecked, hdd.check, hds.check, hdd.ptrs, hds.ptrs, sizesCheck_fits hfits, recordQueue_ok hb,
    remoteRoute_here hdd.here, ok_bind]

/-- A destination that does not move, formats that do not combine or sizes that do not agree trap with D's pointer. -/
theorem traps_copyIssue (h : (descOf bd).stride = 0
      ∨ DescOk s bd true si ∧ DescOk s bs false gi ∧ ¬ CopyFits (withFmt s (descOf bs)) (withFmt s (descOf bd))) :
    Traps i s (bad (rG s d)) := by
  refine traps_of_run hi.issues he ?_
  rcases h with hstride | ⟨hdd, hds, hfits⟩
  · simp only [copyIssue_eq hi hd hbd ha hbs, copyChecked, descCheck_stride _ _ hstride, error_bind]
  · simp only [copyIssue_eq hi hd hbd ha hbs, copyChecked, hdd.check, hds.check, hdd.ptrs, hds.ptrs, sizesCheck_unfit hfits, ok_bind, error_bind]

end

/-- A pointer to no scratchpad traps before anything is read. -/
theorem traps_copy_and_fill_space (v : Src) (h : ¬ (pSpace (rG s d) = 1 ∨ pSpace (rG s d) = 2 ∨ pSpace (rG s d) = 3)) :
    Traps (.copy g d a b) s (bad (rG s d)) ∧ Traps (.fill g d v b) s (bad (rG s d)) := by
  constructor
  · exact traps_of_run hi.issues rfl (by simp only [copyIssue, ownPtr_space h, error_bind])
  · exact traps_of_run hi.issues rfl (by simp only [ownPtr_space h, error_bind])

include hb hd hbd in
/-- A FILL whose checks pass offers its descriptor and its value. -/
theorem offered_fill {v : Src} (hdd : DescOk s bd true false)
    (hfmt : (withFmt s (descOf bd)).fmt = 0 ∨ convFmt (withFmt s (descOf bd)).fmt = true) :
    Offered (.fill g d v b) s c j t false false (.fill (withFmt s (descOf bd)) (srcZ s v)) (b.elim 0 (rG s))
      (max t.ctx.pts (stampAt s c od).wts) := by
  have hfmt' : ((withFmt s (descOf bd)).fmt == 0 || convFmt (withFmt s (descOf bd)).fmt) = true := by simpa using hfmt
  have hl := hi.loaded_readAt c od t.ctx.pts (max t.ctx.pts (stampAt s c od).wts)
  refine offered_at_pts (x := bareCmd _ (b.elim 0 (rG s)) false) hi hl nofun rfl nofun (run_ok hi.issues ?_ (.inr hi.sound))
  simp only [hd, hbd, hi.curCore_eq, hi.rPts_eq, spLoad_readAt, readAt_failed, hi.sound, softCheck_sound, hdd.check, hdd.ptrs, need_ok hfmt',
    recordQueue_ok hb, remoteRoute_here hdd.here, ok_bind]
  rfl

include hb in
/-- An OVLD of an overlay's id offers the id and the frame. -/
theorem offered_ovld {v : Src} {frame : Option (Fin 4)} (hlo : 1 ≤ (srcZ s v).toNat) (hhi : (srcZ s v).toNat ≤ 0xFFFE) :
    Offered (.ovld g frame v b) s c j t false false (.ovld (srcZ s v).toNat (frame.map fun f => f.val)) (b.elim 0 (rG s)) t.ctx.pts := by
  refine offered_at_pts (x := bareCmd _ (b.elim 0 (rG s)) false) hi hi.loaded nofun rfl (fun _ => rfl) (run_ok hi.issues ?_ (.inr hi.sound))
  simp only [decide_eq_true hlo, decide_eq_true hhi, Bool.and_self, need_ok rfl, recordQueue_ok hb, ok_bind]
  rfl

/-- An id that no overlay has traps. -/
theorem traps_ovld {v : Src} {frame : Option (Fin 4)} (h : (srcZ s v).toNat = 0 ∨ 0xFFFE < (srcZ s v).toNat) :
    Traps (.ovld g frame v b) s (bad (srcZ s v)) := by
  have hid : (decide (1 ≤ (srcZ s v).toNat) && decide ((srcZ s v).toNat ≤ 0xFFFE)) = false := by
    rw [Bool.and_eq_false_iff, decide_eq_false_iff_not, decide_eq_false_iff_not]
    omega
  exact traps_of_run hi.issues rfl (by simp only [need_error hid, error_bind])

end

/-! ### Factor forms at issue (R277 to R284) -/

/-- Step 3 of R284 passes for a slot of the strand's cluster. -/
theorem factorHandle_ok {s : State} {h : Word} (hh : checkHandle s [5] h = .ok ()) (hhome : hHome h = curCore s / 4 * 4) :
    factorHandle s h = .ok () := by
  rw [factorHandle, hh, need_ok (by simpa using hhome)]
  rfl

/-- What R284 checks at issue of a form with a shape at `p`, whose record is `b`, on the slot `h`. -/
structure FactorReady (s : State) (c : Nat) (h p : Word) (b : Nat) (q : Option GReg) : Prop where
  record : memRead s.mem (scratchAt (pCore c p) (pOff p)) 32 = b
  ptr : mshapePtr s c p = true
  window : winOk s (pCore c p) c (pOff p) 32 true false = true
  noChannel : (shapeOf s (pCore c p) p b).ch = false
  zero : (shapeOf s (pCore c p) p b).zeroOk = true
  two : (shapeOf s (pCore c p) p b).e2 = 1
  three : (shapeOf s (pCore c p) p b).e3 = 1
  handle : checkHandle s [5] h = .ok ()
  home : hHome h = c / 4 * 4
  posts : ∀ r, q = some r → checkHandle s [7] (rG s r) = .ok ()

/-- The record is a matrix shape's. -/
theorem FactorReady.shape {s : State} {c : Nat} {h p : Word} {b : Nat} {q : Option GReg} (hr : FactorReady s c h p b q) :
    (!(shapeOf s (pCore c p) p b).ch && (shapeOf s (pCore c p) p b).zeroOk && (shapeOf s (pCore c p) p b).e2 == 1
      && (shapeOf s (pCore c p) p b).e3 == 1) = true := by
  simp [hr.noChannel, hr.zero, hr.two, hr.three]

section
variable {g : Guard} {s : State} {c j : Nat} {t : Strand} {i : Instr} {d a : GReg} {x y : Src}
  (hi : StrandIssues g s c j t)
include hi

section
variable {q : Option GReg} {mk : Word → Word → Nat → CmdOp}

theorem factorIssue_eq {b : Nat} (hr : FactorReady s c (rG s d) (rG s a) b q) :
    let ts := max t.ctx.pts (stampAt s (pCore c (rG s a)) (pOff (rG s a))).wts
    let u := offer (wPts (readAt s (pCore c (rG s a)) (pOff (rG s a)) t.ctx.pts) ts) true
      (bareCmd (mk (rG s d) (rG s a) b) (q.elim 0 (rG s)) q.isNone)
    factorIssue d a q mk s = .ok (if q.isNone then wPts u t.ctx.pts else u) := by
  simp only [factorIssue, mshapeCheck, mshapeRead, mshapeFmt, hi.curCore_eq, hi.rPts_eq, need_ok hr.ptr, need_ok hr.window, spLoad_readAt, hi.sound,
    wPts_coh, readAt_failed, softCheck_sound, hr.record, need_ok hr.shape,
    factorHandle_ok hr.handle (hi.curCore_eq ▸ hr.home), recordQueue_ok hr.posts, ok_bind]

variable (he : exec i s = run .strand g none (factorIssue d a q mk) s)
include he

/-- A form with a shape whose checks pass offers its command at the timestamp of the record's load. -/
theorem offered_factorIssue {b : Nat} (hop : ∀ h p n set ts, mk h p n ≠ .qfence set ts) (hr : FactorReady s c (rG s d) (rG s a) b q) :
    Offered i s c j t true q.isNone (mk (rG s d) (rG s a) b) (q.elim 0 (rG s))
      (max t.ctx.pts (stampAt s (pCore c (rG s a)) (pOff (rG s a))).wts) := by
  have hl := hi.loaded_readAt (pCore c (rG s a)) (pOff (rG s a)) t.ctx.pts (max t.ctx.pts (stampAt s (pCore c (rG s a)) (pOff (rG s a))).wts)
  have he' := he.trans (run_ok hi.issues (factorIssue_eq hi hr) (.inr hi.sound))
  cases q with
  | none => exact offered (x := bareCmd (mk (rG s d) (rG s a) b) 0 true) hi hl (hop _ _ _) rfl he'
  | some r => exact offered_at_pts (x := bareCmd (mk (rG s d) (rG s a) b) (rG s r) false) hi hl (hop _ _ _) rfl nofun he'

/-- A pointer to no matrix shape's record traps. -/
theorem traps_factorIssue (hptr : mshapePtr s c (rG s a) = false) : Traps i s (bad (rG s a)) :=
  traps_of_run hi.issues he (by simp only [factorIssue, mshapeCheck, hi.curCore_eq, need_error hptr, error_bind])

end

omit hi in
/-- The orders that FINIT admits. -/
theorem orderOk_iff (n : Nat) : (decide (4 ≤ n) && decide (n ≤ 64) && n % 4 == 0) = true ↔ 4 ≤ n ∧ n ≤ 64 ∧ n % 4 = 0 := by
  simp [and_assoc]

omit hi in
/-- The λ that FINIT admits: greater than 0 and finite, by its FP32 bits. -/
theorem posBits_iff (n : Nat) : posBits n = true ↔ 0 < n ∧ n < 0x7F800000 := by
  simp only [posBits, finBits, Bool.and_eq_true, bne_iff_ne, decide_eq_true_eq]
  omega

omit hi in
/-- The forms with a shape issue alike, each with its own command. -/
theorem factorForms_issue (s : State) (g : Guard) (d a : GReg) (q : Option GReg) (h p : Word) (b : Nat) :
    ∀ f ∈ ([(.fupd g d a q, .fupd h p b), (.fdwn g d a q, .fdwn h p b), (.ftrs g d a q, .ftrs h p b), (.ftrb g d a q, .ftrb h p b),
        (.frd g d a q, .frd h p b), (.fwr g d a q, .fwr h p b)] : List (Instr × CmdOp)),
      ∃ mk : Word → Word → Nat → CmdOp, exec f.1 s = run .strand g none (factorIssue d a q mk) s
        ∧ (∀ h p n set ts, mk h p n ≠ .qfence set ts) ∧ f.2 = mk h p b := by
  simp only [List.forall_mem_cons, List.not_mem_nil, false_implies, implies_true, and_true]
  exact ⟨⟨.fupd, rfl, nofun, rfl⟩, ⟨.fdwn, rfl, nofun, rfl⟩, ⟨.ftrs, rfl, nofun, rfl⟩, ⟨.ftrb, rfl, nofun, rfl⟩, ⟨.frd, rfl, nofun, rfl⟩,
    ⟨.fwr, rfl, nofun, rfl⟩⟩

/-- FINIT of an admitted order and λ offers them. -/
theorem offered_finit (hn : 4 ≤ (srcZ s x).toNat ∧ (srcZ s x).toNat ≤ 64 ∧ (srcZ s x).toNat % 4 = 0)
    (hlam : 0 < (srcZ s y).toNat % 2 ^ 32 ∧ (srcZ s y).toNat % 2 ^ 32 < 0x7F800000)
    (hh : checkHandle s [5] (rG s d) = .ok ()) (hhome : hHome (rG s d) = c / 4 * 4) :
    Offered (.finit g d x y) s c j t true true (.finit (rG s d) (srcZ s x).toNat (BitVec.ofNat 32 ((srcZ s y).toNat % 2 ^ 32))) 0 t.ctx.pts := by
  have hbits : (srcZ s y).setWidth 32 = BitVec.ofNat 32 ((srcZ s y).toNat % 2 ^ 32) := by
    apply BitVec.eq_of_toNat_eq
    simp
  refine offered_at_pts (x := bareCmd _ 0 true) hi hi.loaded nofun rfl (fun _ => rfl) (run_ok hi.issues ?_ (.inr hi.sound))
  simp only [need_ok ((orderOk_iff _).mpr hn), need_ok ((posBits_iff _).mpr hlam), factorHandle_ok hh (hi.curCore_eq ▸ hhome), hbits, ok_bind]

/-- An order that FINIT does not admit traps. -/
theorem traps_finit_order (hn : ¬ (4 ≤ (srcZ s x).toNat ∧ (srcZ s x).toNat ≤ 64 ∧ (srcZ s x).toNat % 4 = 0)) :
    Traps (.finit g d x y) s (bad (srcZ s x)) :=
  traps_of_run hi.issues rfl (by
    simp only [need_error (Bool.eq_false_iff.mpr (mt (orderOk_iff _).mp hn)), error_bind])

/-- So does a λ, with an order that is admitted. -/
theorem traps_finit_lambda (hn : 4 ≤ (srcZ s x).toNat ∧ (srcZ s x).toNat ≤ 64 ∧ (srcZ s x).toNat % 4 = 0)
    (hlam : ¬ (0 < (srcZ s y).toNat % 2 ^ 32 ∧ (srcZ s y).toNat % 2 ^ 32 < 0x7F800000)) : Traps (.finit g d x y) s (bad (srcZ s y)) :=
  traps_of_run hi.issues rfl (by
    simp only [need_ok ((orderOk_iff _).mpr hn), need_error (Bool.eq_false_iff.mpr (mt (posBits_iff _).mp hlam)), ok_bind, error_bind])

/-- FDIA of a slot of the strand's cluster offers it. -/
theorem offered_fdia (hh : checkHandle s [5] (rG s a) = .ok ()) (hhome : hHome (rG s a) = c / 4 * 4) :
    Offered (.fdia g d a) s c j t true true (.fdia (rG s a) d) 0 t.ctx.pts := by
  refine offered_at_pts (x := bareCmd _ 0 true) hi hi.loaded nofun rfl (fun _ => rfl) (run_ok hi.issues ?_ (.inr hi.sound))
  simp only [factorHandle_ok hh (hi.curCore_eq ▸ hhome), ok_bind]

/-- A slot of another cluster traps. -/
theorem traps_fdia (hh : checkHandle s [5] (rG s a) = .ok ()) (hhome : hHome (rG s a) ≠ c / 4 * 4) :
    Traps (.fdia g d a) s (hExc .badOperand (rG s a)) := by
  have hother : (hHome (rG s a) == curCore s / 4 * 4) = false := by simpa [hi.curCore_eq] using hhome
  exact traps_of_run hi.issues rfl (by simp only [factorHandle, hh, need_error hother, ok_bind, error_bind])

end

/-! ### QFENCE (R62, R228) -/

/-- The queue a strand's QFENCE may enter is the copy or the factor queue, of a set that is not empty and does not name it. -/
theorem qfenceStatic_strand {s : State} {c j : Nat} (hc : s.cur = .strand c j) (q : Fin 4) (w : BitVec 4) :
    qfenceStatic s q w = if q.val < 2 ∧ w ≠ 0 ∧ w.getLsbD q.val = false then none else some (wordExc s .badOperand 6) := by
  simp only [qfenceStatic, hc]
  refine if_congr ?_ rfl rfl
  simp only [Bool.and_eq_true, Bool.or_eq_true, beq_iff_eq, bne_iff_ne, Bool.not_eq_true', and_assoc, Fin.ext_iff]
  exact and_congr_left fun _ => ⟨fun h => by rcases h with h | h <;> simp [h], fun h => by simp; omega⟩

/-- That of a stream's QFENCE is the stream's own. -/
theorem qfenceStatic_stream {s : State} {k : Nat} {cp : Bool} (hc : s.cur = .stream k cp) (q : Fin 4) (w : BitVec 4) :
    qfenceStatic s q w
      = if q.val = (if cp then 3 else 2) ∧ w ≠ 0 ∧ w.getLsbD q.val = false then none else some (wordExc s .badOperand 6) := by
  simp only [qfenceStatic, hc]
  refine if_congr ?_ rfl rfl
  simp only [Bool.and_eq_true, beq_iff_eq, bne_iff_ne, Bool.not_eq_true', and_assoc, Fin.ext_iff]
  cases cp <;> rfl

section
variable {g : Guard} {s : State} {c j : Nat} {t : Strand} {q : Fin 4} {w : BitVec 4}

section
variable (hi : StrandIssues g s c j t)
include hi

/-- A set that is empty or names its own queue, or a queue that no strand enters, traps at step 6. -/
theorem traps_qfence (h : 2 ≤ q.val ∨ w = 0 ∨ w.getLsbD q.val = true) : Traps (.qfence g q w) s (wordExc s .badOperand 6) := by
  have hstatic : qfenceStatic s q w = some (wordExc s .badOperand 6) := by
    rw [qfenceStatic_strand hi.cur, if_neg]
    rintro ⟨hq, hw, hself⟩
    rcases h with h | h | h
    · omega
    · exact hw h
    · exact Bool.false_ne_true (hself.symm.trans h)
  show execQfence g q w s = _
  simp [execQfence, run, perform, hstatic, placeOk, hi.cur]

variable (hq : q.val < 2) (hw : w ≠ 0) (hself : w.getLsbD q.val = false)
include hq hw hself

theorem exec_qfence_strand : exec (.qfence g q w) s = .next (confine s (offer s (q == 1) (bareCmd (.qfence w []) 0 false))) := by
  have hstatic : qfenceStatic s q w = none := by rw [qfenceStatic_strand hi.cur, if_pos ⟨hq, hw, hself⟩]
  have hany : Issues .any g s := ⟨by simp [hi.cur, placeOk], hi.guard, hi.issues.acting, hi.clean⟩
  show execQfence g q w s = _
  rw [execQfence, hstatic]
  refine run_ok hany ?_ (.inr hi.sound)
  simp only [hi.cur]
  rfl

/-- The QFENCE enters with the counts it is to wait for; where there is no entry it waits, and its strand with it. -/
theorem qfence_strand :
    ∃ (u : State) (cmd : Cmd), exec (.qfence g q w) s = .next u ∧ cmd.tag = curTag s ∧ cmd.core = c ∧ cmd.pts = t.ctx.pts
      ∧ (let Q := queueAt s (clusterOf c) (q == 1)
         if Q.cmds.length < 64 ∧ Q.waits = [] then
           cmd.op = .qfence w (fenceTargets s (clusterOf c) w)
           ∧ queueAt u (clusterOf c) (q == 1) = { Q with cmds := Q.cmds ++ [cmd], last := c % 4 } ∧ (curCtx u).pc = nextPc t.ctx.pc
         else cmd.op = .qfence w [] ∧ queueAt u (clusterOf c) (q == 1) = { Q with waits := Q.waits ++ [{ core := c, cmd := cmd }] })
      ∧ (∀ r, rG u r = rG s r) ∧ ∀ a, memByte u.mem a = memByte s.mem a := by
  have he := exec_qfence_strand hi hq hw hself
  have hissued := hi.loaded.issuedBy_eq hi (bareCmd (.qfence w []) 0 false)
  have hctx : ∀ Q x, curCtx (confine s (putStrand (putQueue s (clusterOf c) (q == 1) Q) c j x)) = x.ctx := fun Q x => by
    rw [curCtx_confine, curCtx_putStrand (by simpa using hi.cur)]
  have hbytes : ∀ Q x a, memByte (confine s (putStrand (putQueue s (clusterOf c) (q == 1) Q) c j x)).mem a = memByte s.mem a := by simp [confine_mem]
  by_cases hroom : (queueAt s (clusterOf c) (q == 1)).cmds.length < 64 ∧ (queueAt s (clusterOf c) (q == 1)).waits = []
  · rw [offer_enters hi.cur hi.bound _ _ hroom, taken_qfence (set := w) (ts := []) rfl, hissued] at he
    refine ⟨_, { (bareCmd (.qfence w []) 0 false).ofStrand s c t t.ctx.pts (curEnv s) with op := .qfence w (fenceTargets s (clusterOf c) w) },
      he, rfl, rfl, rfl, ?_, fun r => ?_, hbytes _ _⟩
    · rw [if_pos hroom]
      exact ⟨rfl, queueAt_putQueue .., by rw [hctx]; rfl⟩
    · rw [rG, hctx, rG, hi.curCtx_eq]
      rfl
  · rw [offer_waits hi.cur hi.bound _ _ hroom, hissued] at he
    refine ⟨_, (bareCmd (.qfence w []) 0 false).ofStrand s c t t.ctx.pts (curEnv s), he, rfl, rfl, rfl, ?_, fun r => ?_, hbytes _ _⟩
    · rw [if_neg hroom]
      exact ⟨rfl, queueAt_putQueue ..⟩
    · rw [rG, hctx, rG, hi.curCtx_eq]
      rfl

end

/-! A QFENCE in a stream. -/

section
variable {k : Nat} {cp : Bool} (hc : s.cur = .stream k cp)
include hc

theorem curCtx_stream : curCtx s = ((pairAt s k).stream cp).ctx := by simp [curCtx, hc]

/-- A change of the stream that acts. -/
theorem mapStream_stream (f : Stream → Stream) :
    mapStream s f = putPair s k ((pairAt s k).setStream cp (f ((pairAt s k).stream cp))) := by
  simp [mapStream, hc]

theorem suspend_stream (st : Nat) (v : Wait) :
    suspend s st v = putPair s k ((pairAt s k).setStream cp { (pairAt s k).stream cp with wait := true }) := by
  simp [suspend, hc]

theorem wPts_stream (n : Nat) : wPts s n = mapCtx s fun x => { x with pts := n } := by
  simp [wPts, hc]

/-- A stream whose timestamp is set and that goes on. -/
theorem advance_wPts_stream (hst : (pairAt s k).st ≠ 0) (n : Nat) : advance (wPts s n) = putPair s k ((pairAt s k).setStream cp
    { (pairAt s k).stream cp with ctx := { ((pairAt s k).stream cp).ctx with pts := n, pc := nextPc ((pairAt s k).stream cp).ctx.pc } }) := by
  have hact : Acting s := by simpa [Acting, hc] using hst
  rw [wPts_stream hc, advance, mapCtx_mapCtx _ _ _ hact, mapCtx_stream s _ k cp hc]

theorem streamFence_cur : (streamFence k cp w s).cur = .stream k cp := by
  simp only [streamFence, mapStream_stream hc]
  split <;> simp [hc]

theorem streamFence_coh : (streamFence k cp w s).coh = s.coh := by
  simp only [streamFence, mapStream_stream hc]
  split <;> simp

/-- What a stream's QFENCE that has been performed leaves of the stream: at its next instruction, no earlier than the operations it has waited for. -/
theorem streamFence_met (hst : (pairAt s k).st ≠ 0) (h : fenceMet s k (((pairAt s k).stream cp).fence.getD (fenceTargets s k w)) = true) :
    (pairAt (streamFence k cp w s) k).stream cp = { (pairAt s k).stream cp with
      fence := none
      ctx := { ((pairAt s k).stream cp).ctx with
        pts := max (rPts s) (fenceEts s k (((pairAt s k).stream cp).fence.getD (fenceTargets s k w)))
        pc := nextPc ((pairAt s k).stream cp).ctx.pc } } := by
  simp only [streamFence, h, if_true, mapStream_stream hc]
  rw [advance_wPts_stream (by simpa using hc) (by simpa using hst)]
  simp

/-- What one that is not met leaves: the stream as it was, waiting for the operations that it has found. -/
theorem streamFence_unmet (h : fenceMet s k (((pairAt s k).stream cp).fence.getD (fenceTargets s k w)) = false) :
    (pairAt (streamFence k cp w s) k).stream cp = { (pairAt s k).stream cp with
      fence := some (((pairAt s k).stream cp).fence.getD (fenceTargets s k w)), wait := true } := by
  simp only [streamFence, h, Bool.false_eq_true, if_false, mapStream_stream hc]
  rw [suspend_stream (by simpa using hc)]
  simp

end

section
variable {k : Nat} {cp : Bool} (hc : s.cur = .stream k cp) (hst : (pairAt s k).st ≠ 0) (hg : guardHolds s g = true) (hhit : s.coh.hit = none)
  (hq : q.val = (if cp then 3 else 2)) (hw : w ≠ 0) (hself : w.getLsbD q.val = false)
include hc hst hg hhit hq hw hself

theorem exec_qfence_stream : exec (.qfence g q w) s = .next (confine s (streamFence k cp w s)) := by
  have hstatic : qfenceStatic s q w = none := by rw [qfenceStatic_stream hc, if_pos ⟨hq, hw, hself⟩]
  have hany : Issues .any g s := ⟨by simp [hc, placeOk], hg, by simpa [Acting, hc] using hst, hhit⟩
  show execQfence g q w s = _
  rw [execQfence, hstatic]
  exact run_ok hany (by simp only [hc]) (.inl (by rw [streamFence_coh hc, hhit]))

theorem qfence_stream_met (h : fenceMet s k (((pairAt s k).stream cp).fence.getD (fenceTargets s k w)) = true) :
    ∃ u, exec (.qfence g q w) s = .next u ∧ (curCtx u).pc = nextPc ((pairAt s k).stream cp).ctx.pc
      ∧ ((pairAt u k).stream cp).fence = none ∧ (∀ r, rG u r = rG s r)
      ∧ rPts u = max (rPts s) (fenceEts s k (((pairAt s k).stream cp).fence.getD (fenceTargets s k w))) := by
  have hmet := streamFence_met hc hst h
  have hctx : curCtx (confine s (streamFence k cp w s)) = ((pairAt (streamFence k cp w s) k).stream cp).ctx :=
    curCtx_stream (streamFence_cur hc)
  refine ⟨_, exec_qfence_stream hc hst hg hhit hq hw hself, by rw [hctx, hmet], congrArg Stream.fence hmet, fun r => ?_, by rw [rPts, hctx, hmet]⟩
  rw [rG, hctx, hmet, rG, curCtx_stream hc]

theorem qfence_stream_unmet (h : fenceMet s k (((pairAt s k).stream cp).fence.getD (fenceTargets s k w)) = false) :
    ∃ u, exec (.qfence g q w) s = .next u ∧ ((pairAt u k).stream cp).ctx = ((pairAt s k).stream cp).ctx
      ∧ ((pairAt u k).stream cp).fence = some (((pairAt s k).stream cp).fence.getD (fenceTargets s k w))
      ∧ ((pairAt u k).stream cp).wait = true := by
  have hunmet := streamFence_unmet hc h
  exact ⟨_, exec_qfence_stream hc hst hg hhit hq hw hself, (congrArg Stream.ctx hunmet).trans rfl, congrArg Stream.fence hunmet,
    congrArg Stream.wait hunmet⟩

end

end

/-! ### The round robin (R20) -/

/-- How far a core's turn is: 0 for the core after the one served last. -/
def turnOf (q : Queue) (w : QWait) : Nat := (w.core % 4 + 7 - q.last % 4) % 4

/-- The core whose turn is `i`th. -/
theorem turnOf_eq_iff (q : Queue) (w : QWait) {i : Nat} (hi : i < 4) : (w.core % 4 == (q.last + 1 + i) % 4) = (turnOf q w == i) := by
  rw [Bool.eq_iff_iff, beq_iff_eq, beq_iff_eq, turnOf]
  omega

/-- The round robin takes the longest waiting command of the core whose turn is nearest. -/
theorem nextWaiter_eq {q : Queue} {n : Nat} {w : QWait} (hw : q.waits[n]? = some w)
    (hfirst : ∀ m x, q.waits[m]? = some x → turnOf q w ≤ turnOf q x ∧ (m < n → turnOf q x ≠ turnOf q w)) : nextWaiter q = some (n, w) := by
  have hturn : turnOf q w < 4 := Nat.mod_lt _ (by decide)
  have hsplit : ∀ k < 4, List.range 4 = List.range k ++ k :: List.range' (k + 1) (3 - k) := by decide
  rw [nextWaiter, List.findSome?_eq_some_iff]
  refine ⟨_, _, _, hsplit _ hturn, ?_, fun k hk => findPos_eq_none (fun x hx => ?_) 0⟩
  · have hpos := findPos_eq_some (p := fun x : QWait => x.core % 4 == (q.last + 1 + turnOf q w) % 4) hw
      (by rw [turnOf_eq_iff _ _ hturn]; simp)
      (fun m x hm hx => by rw [turnOf_eq_iff _ _ hturn]; simpa using (hfirst m x hx).2 hm) 0
    simpa using hpos
  · have hk : k < turnOf q w := List.mem_range.mp hk
    obtain ⟨m, hm⟩ := List.mem_iff_getElem?.mp hx
    rw [turnOf_eq_iff _ _ (by omega)]
    have := (hfirst m x hm).1
    simp
    omega

/-- A full queue takes none. -/
theorem exec_queueEntry_full {s : State} {k : Nat} {f : Bool} (h : 64 ≤ (queueAt s k f).cmds.length) : exec (.queueEntry k f) s = .next s := by
  show execQueueEntry k f s = .next s
  simp only [execQueueEntry, if_neg (Nat.not_lt.mpr h), confine_self]

section
variable {s : State} {k : Nat} {f : Bool}

/-- The state in which the queue no longer holds the command waiting at a position. -/
def called (s : State) (k : Nat) (f : Bool) (n : Nat) : State := putQueue s k f { queueAt s k f with waits := (queueAt s k f).waits.eraseIdx n }

/-- The state in which that command has entered. -/
def admitted (s : State) (k : Nat) (f : Bool) (n : Nat) (x : Cmd) : State := enterQueue (called s k f n) k f x

theorem queueAt_admitted (n : Nat) (x : Cmd) : queueAt (admitted s k f n x) k f = { queueAt s k f with
    cmds := (queueAt s k f).cmds ++ [taken (called s k f n) k x], waits := (queueAt s k f).waits.eraseIdx n, last := x.core % 4 } := by
  rw [admitted, enterQueue_eq, called, queueAt_putQueue, queueAt_putQueue]

theorem admitted_replies (n : Nat) (x : Cmd) : (admitted s k f n x).coh.replies = s.coh.replies := by
  rw [admitted, enterQueue_eq, called, putQueue_coh, putQueue_coh]

theorem tagged_admitted (n : Nat) (x : Cmd) (tag : Tag) : tagged (admitted s k f n x) tag = tagged s tag := by
  rw [admitted, enterQueue_eq, called, tagged_putQueue, tagged_putQueue]

theorem exec_queueEntry {n : Nat} {w : QWait} (hlen : (queueAt s k f).cmds.length < 64) (hnext : nextWaiter (queueAt s k f) = some (n, w)) :
    exec (.queueEntry k f) s = .next (confine s (if w.cmd.own || w.cmd.plain then admitted s k f n w.cmd
      else match tagged s w.cmd.tag with
        | some t => sendReply (admitted s k f n w.cmd) w.cmd.tag (.regs [] t.ctx.pts)
        | none => admitted s k f n w.cmd)) := by
  show execQueueEntry k f s = _
  rw [← tagged_admitted n w.cmd]
  simp only [execQueueEntry, hlen, if_true, hnext, dropAt_eq_eraseIdx]
  rfl

/-- A queue with a free entry takes the waiting command whose turn is nearest, and answers its strand if that waits for the entry alone. -/
theorem queueEntry_takes {n : Nat} {w : QWait} (hlen : (queueAt s k f).cmds.length < 64) (hnext : nextWaiter (queueAt s k f) = some (n, w)) :
    ∃ (u : State) (cmd : Cmd), exec (.queueEntry k f) s = .next u ∧ cmd.tag = w.cmd.tag ∧ cmd.core = w.cmd.core ∧ cmd.pts = w.cmd.pts
      ∧ cmd.evq = w.cmd.evq ∧ cmd.ctxh = w.cmd.ctxh ∧ cmd.plain = w.cmd.plain
      ∧ ((∀ ws ts, w.cmd.op ≠ .qfence ws ts) → cmd.op = w.cmd.op ∧ cmd.thr = (fctlOf s k).setWidth 32)
      ∧ queueAt u k f = { queueAt s k f with
          cmds := (queueAt s k f).cmds ++ [cmd], waits := (queueAt s k f).waits.eraseIdx n, last := w.cmd.core % 4 }
      ∧ (w.cmd.own = false → w.cmd.plain = false → ∀ t, tagged s w.cmd.tag = some t →
          u.coh.replies = s.coh.replies ++ [{ tag := w.cmd.tag, act := .regs [] t.ctx.pts }]) := by
  obtain ⟨op, thr, htaken⟩ := taken_frame (called s k f n) k w.cmd
  have hfctl : fctlOf (called s k f n) k = fctlOf s k := by rw [fctlOf, called, putQueue_sregs, fctlOf]
  refine ⟨_, taken (called s k f n) k w.cmd, exec_queueEntry hlen hnext, by rw [htaken], by rw [htaken], by rw [htaken], by rw [htaken],
    by rw [htaken], by rw [htaken], fun hop => ?_, Eq.trans ?_ (queueAt_admitted n w.cmd), fun hown hplain t ht => ?_⟩
  · rw [taken_other hop, hfctl]
    exact ⟨rfl, rfl⟩
  · split
    · rfl
    · split <;> rfl
  · simp only [hown, hplain, ht, Bool.or_self, Bool.false_eq_true, if_false]
    rw [← admitted_replies (s := s) (k := k) (f := f) n w.cmd]
    rfl

end

/-- Settles O30. The copy and the factor forms by what is left of their checks once their records are read (that an endpoint in global memory may have
FMT 0 is an inference, log entry 29); QFENCE by who issues it; the round robin by the first command of the core whose turn is nearest. -/
theorem commandsEnterTheirEngineQueue : Obligations.CommandsEnterTheirEngineQueue := by
  refine ⟨?copies, ?factors, ?fences, ?roundRobin⟩
  case copies =>
    intro s g c j t d a v b frame hi bd bs xd xs named evq posts one both fits
    have hevq : evq = b.elim 0 (rG s) := by cases b <;> rfl
    rw [hevq]
    exact ⟨fun hd ha hb hfits => ⟨offered_copyIssue hi hb hd rfl ha rfl rfl nofun hfits, offered_copyIssue hi hb hd rfl ha rfl rfl nofun hfits,
      offered_copyIssue hi hb hd rfl ha rfl rfl nofun hfits⟩, fun hd hb hdd hfmt => offered_fill hi hb hd rfl hdd hfmt,
      fun hlo hhi hb => offered_ovld hi hb hlo hhi, traps_ovld hi, traps_copy_and_fill_space hi v, fun hd ha _ h => traps_copyIssue hi hd rfl ha rfl rfl h⟩
  case factors =>
    intro s g c j t d a x y q hi h p owner b shape mine evq posts ready forms n lam
    refine ⟨fun hready f hf => ?_, fun hptr f hf => ?_,
      fun hlo hhi hmod hpos hfin ⟨hhandle, hhome⟩ => offered_finit hi ⟨hlo, hhi, hmod⟩ ⟨hpos, hfin⟩ hhandle hhome,
      fun hn => traps_finit_order hi (by omega), fun hlo hhi hmod hlam => traps_finit_lambda hi ⟨hlo, hhi, hmod⟩ (by omega),
      fun ⟨hhandle, hhome⟩ => offered_fdia hi hhandle hhome, traps_fdia hi⟩
    · obtain ⟨hptr, hwin, hch, hzero, he2, he3, ⟨hhandle, hhome⟩, hq⟩ := hready
      have hr : FactorReady s c h p b q := ⟨rfl, hptr, hwin, hch, hzero, he2, he3, hhandle, hhome, hq⟩
      obtain ⟨mk, he, hop, hmk⟩ := factorForms_issue s g d a q h p b f hf
      have hevq : evq = q.elim 0 (rG s) := by cases q <;> rfl
      rw [hmk, hevq]
      exact offered_factorIssue hi he hop hr
    · obtain ⟨mk, he, -, -⟩ := factorForms_issue s g d a q h p b f hf
      exact traps_factorIssue hi he hptr
  case fences =>
    intro s g c j t q w
    exact ⟨fun hi => qfence_strand hi, fun hi => traps_qfence hi, fun k cp hc hst hg hhit hq hw hself =>
      ⟨qfence_stream_met hc hst hg hhit hq hw hself, qfence_stream_unmet hc hst hg hhit hq hw hself⟩⟩
  case roundRobin =>
    intro s k f q turn
    exact ⟨fun n w hlen hw _ _ hfirst => queueEntry_takes hlen (nextWaiter_eq hw hfirst), exec_queueEntry_full⟩

end Sys2Proof.Machine
end

section
/-! PROOFS. The invariant (O58) and what only SRW and ticks change (O59): which parts of the state an instruction or event leaves alone, said once of
each, and the step built on it. -/

namespace Sys2Proof.Machine
open Sys2Proof

/-! ### What a trap leaves alone (R103 to R108) -/

/-- The state with the parts that taking a trap may change left out: of two states with the same rest, nothing else differs. -/
def rest (s : State) : State := { s with core := {}, hold := {}, page := {}, work := {}, eng := {}, census := {} }

theorem time_of_rest {s t : State} (h : rest t = rest s) : t.time = s.time := (congrArg State.time h :)
theorem hub_of_rest {s t : State} (h : rest t = rest s) : t.hub = s.hub := (congrArg State.hub h :)
theorem sregs_of_rest {s t : State} (h : rest t = rest s) : t.sregs = s.sregs := (congrArg State.sregs h :)
theorem coh_of_rest {s t : State} (h : rest t = rest s) : t.coh = s.coh := (congrArg State.coh h :)

@[simp] theorem rest_putEvq (s : State) (k : Nat) (q : Evq) : rest (putEvq s k q) = rest s := rfl
@[simp] theorem rest_putStrand (s : State) (c i : Nat) (t : Strand) : rest (putStrand s c i t) = rest s := rfl
@[simp] theorem rest_putPair (s : State) (k : Nat) (p : Pair) : rest (putPair s k p) = rest s := rfl
@[simp] theorem rest_putRange (s : State) (k : Nat) (r : Range) : rest (putRange s k r) = rest s := rfl
@[simp] theorem rest_wakeParked (s : State) (k : Nat) : rest (wakeParked s k) = rest s := rfl
@[simp] theorem rest_freeSlot (s : State) (c i : Nat) : rest (freeSlot s c i) = rest s := rfl
@[simp] theorem rest_freeRegion (s : State) (t : Strand) : rest (freeRegion s t) = rest s := rfl
@[simp] theorem rest_orphan (s : State) (l : List Tag) : rest (orphan s l) = rest s := rfl
@[simp] theorem rest_withdraw (s : State) (t : Tag) : rest (withdraw s t) = rest s := rfl
@[simp] theorem rest_countSvc (s : State) (k i n : Nat) : rest (countSvc s k i n) = rest s := rfl

@[simp] theorem rest_serveEvq (s : State) (k n : Nat) : rest (serveEvq s k n) = rest s := by
  induction n generalizing s with
  | zero => rfl
  | succ n ih =>
    simp only [serveEvq]
    split
    · split
      · exact ih _
      · split
        · split
          · exact ih _
          · rfl
        · rfl
    · split
      · split
        · exact ih _
        · rfl
      · rfl

@[simp] theorem rest_landRecord (s : State) (k : Nat) (m : Msg) : rest (landRecord s k m) = rest s := by simp [landRecord]

@[simp] theorem rest_raiseRecord (s : State) (c : Nat) (r : TrapRec) : rest (raiseRecord s c r) = rest s := by
  simp only [raiseRecord, landTrap]
  split
  · split
    · exact rest_landRecord ..
    · rfl
  · rfl

@[simp] theorem rest_settlePair (s : State) (k : Nat) : rest (settlePair s k) = rest s := by
  simp only [settlePair]
  split
  · split <;> simp
  · rfl

@[simp] theorem rest_abandonForks (s : State) (t : Tag) : rest (abandonForks s t) = rest s := by
  simp only [abandonForks]
  split <;> simp

@[simp] theorem rest_giveBack (s : State) (g : Tag) (t : Strand) : rest (giveBack s g t) = rest s := by
  unfold giveBack
  split <;> rfl

@[simp] theorem rest_unitEnds (s : State) (r : Rec) (ts cause : Nat) (resp : Option (Nat × Nat)) : rest (unitEnds s r ts cause resp) = rest s := by
  cases resp <;> rfl

@[simp] theorem rest_endStrand (s : State) (c i cause : Nat) : rest (endStrand s c i cause) = rest s := by
  unfold endStrand
  split <;> simp

@[simp] theorem rest_parkRecord (s : State) (c i k : Nat) (t : Strand) (ovl : Nat) : rest (parkRecord s c i k t ovl).1 = rest s := rfl

@[simp] theorem rest_countSpan (s : State) (k : Nat) (r : Range) : rest (countSpan s k r) = rest s := by
  unfold countSpan
  split <;> rfl

@[simp] theorem rest_postFault (s : State) (h : Word) (va : Nat) (w : Bool) (tag : Option Tag) : rest (postFault s h va w tag) = rest s := by
  simp only [postFault]
  split
  · rfl
  · split
    · rw [rest_countSpan]; rfl
    · rfl

@[simp] theorem rest_trapStrand (s : State) (c i : Nat) (e : Exc) : rest (trapStrand s c i e) = rest s := by
  unfold trapStrand
  split
  · rfl
  · dsimp only
    split
    · simp
    · simp
    · simp
    · split
      · simp
      · split
        · simp
        · split <;> simp

@[simp] theorem rest_faultStream (s : State) (k : Nat) (cp : Bool) (e : Exc) : rest (faultStream s k cp e) = rest s := by
  simp [faultStream]

/-- Taking a trap leaves device time, the hub, the special registers, memory and its coherence alone. -/
theorem rest_raise (e : Exc) (s : State) : rest (raise e s) = rest s := by
  unfold raise
  split <;> simp

@[simp] theorem rest_mapCtx (s : State) (f : Ctx → Ctx) : rest (mapCtx s f) = rest s := by
  obtain ⟨_, _, h⟩ := mapCtx_frame s f; rw [h]; rfl
@[simp] theorem rest_advance (s : State) : rest (advance s) = rest s := rest_mapCtx ..

/-! ### What an instruction or an event leaves alone -/

/-- Device time, the special registers that SRW writes and the note of a failed word are as they were. -/
structure Kept (s t : State) : Prop where
  time : t.time = s.time
  sregs : t.sregs = s.sregs
  hit : t.coh.hit = s.coh.hit

theorem kept_confine (s u : State) : Kept s (confine s u) := ⟨rfl, rfl, rfl⟩
theorem kept_confineHub (s u : State) : Kept s (confineHub s u) := ⟨rfl, rfl, rfl⟩

theorem kept_registerWrite (off : Nat) (v : Word) (s : State) : ∃ t, execRegisterWrite off v s = .next t ∧ Kept s t := by
  refine ⟨_, rfl, ?_⟩
  split
  · exact ⟨rfl, rfl, rfl⟩
  · split
    · exact ⟨rfl, rfl, rfl⟩
    · split <;> exact ⟨rfl, rfl, rfl⟩

/-- All but SRW, DT_TICK, RESET and BRING_UP keep them: their meanings are confined. -/
theorem exec_kept (s : State) (i : Instr) (hw : ∀ g r a, i ≠ .srw g r a) (ht : i ≠ .dtTick) (hr : i ≠ .reset) (hb : i ≠ .bringUp) :
    ∃ t, exec i s = .next t ∧ Kept s t := by
  cases i
  case srw g r a => exact absurd rfl (hw g r a)
  case dtTick => exact absurd rfl ht
  case reset => exact absurd rfl hr
  case bringUp => exact absurd rfl hb
  case registerWrite off v => exact kept_registerWrite off v s
  all_goals exact ⟨_, rfl, rfl, rfl, rfl⟩

/-- An instruction, which a word stands for, is confined to leave device time and the hub's registers alone. -/
theorem exec_word_kept (s : State) (i : Instr) (h : i.hasWord = true) : ∃ t, exec i s = .next t ∧ t.hub = s.hub ∧ t.time = s.time := by
  cases i
  case cqtailDoorbell | apprun | registerWrite | status | summary | snapshotExpiry | grantctx | renewctx | loadovl | hostLaunch | hostCancel
    | checkpoint | restore | longCommandEnd | attest | sensors | thermtabRead | thermtabWrite | linkcfgDown | linkcfgTrain | reset
    | bringupPhase | unitReady | currentSample | softErrorOutOfService | bringUp | dtTick => cases h
  all_goals exact ⟨_, rfl, rfl, rfl⟩

/-! ### The four that do not keep them -/

/-- DT_TICK does nothing before the time tree is ready, and else moves device time on by 1, overtaking the units ahead of it. -/
theorem exec_dtTick (s : State) : ∃ t, exec .dtTick s = .next t ∧ t.sregs = s.sregs ∧ t.coh.hit = s.coh.hit ∧ (t.time = s.time
    ∨ t.time = { dt := s.time.dt + 1, early := (s.time.early.filter fun e => e.2 != 1).map fun e => (e.1, e.2 - 1) }) := by
  refine ⟨_, rfl, ?_⟩
  split
  · exact ⟨rfl, rfl, .inl rfl⟩
  · exact ⟨rfl, rfl, .inr rfl⟩

/-- What firmware does with the entry at CQHEAD: it leaves it, refuses it, or executes it. -/
theorem command_cases (opc : Nat) (mine : State → Bool) (flagsOk : Nat → Bool) (body : State → State) (s : State) :
    command opc mine flagsOk body s = s ∨ (∃ n, command opc mine flagsOk body s = finishCmd (refuseCmd s n))
      ∨ command opc mine flagsOk body s = body s := by
  unfold command
  split
  · exact .inl rfl
  · split
    · exact .inr (.inl ⟨1, rfl⟩)
    · split
      · exact .inr (.inl ⟨7, rfl⟩)
      · exact .inr (.inr rfl)

theorem kept_refuse (s : State) (n : Nat) : Kept s (finishCmd (refuseCmd s n)) := ⟨rfl, rfl, rfl⟩

/-- RESET restarts the device, or leaves all this alone. -/
theorem exec_reset (s : State) : ∃ t, exec .reset s = .next t ∧ (Kept s t ∨ ∃ u test, t = restart u test) := by
  refine ⟨_, rfl, ?_⟩
  rcases command_cases 0x0E (fun _ => true) (· == 0) (fun s =>
    let mode := (cmdArg s 0).toNat
    if 2 ≤ mode then finishCmd (refuseCmd s 2) else restart (writeEntry s (cmdAddr s) 0 0 0) (mode == 1)) s with h | ⟨n, h⟩ | h
  · rw [h]; exact .inl ⟨rfl, rfl, rfl⟩
  · rw [h]; exact .inl (kept_refuse s n)
  · rw [h]
    by_cases hm : 2 ≤ (cmdArg s 0).toNat
    · simp only [hm, if_true]; exact .inl (kept_refuse s 2)
    · simp only [hm, if_false]; exact .inr ⟨_, _, rfl⟩

/-- Settles O59. -/
theorem onlySrwWritesControlsAndOnlyTicksMoveTime : Obligations.OnlySrwWritesControlsAndOnlyTicksMoveTime := by
  intro s t i h
  refine ⟨fun hw hr hb => ?_, fun ht hr hb => ?_, fun hi => ?_, ?_⟩
  · by_cases ht : i = .dtTick
    · subst ht
      obtain ⟨u, hu, hs, -⟩ := exec_dtTick s
      cases hu.symm.trans h
      exact hs
    · obtain ⟨u, hu, hk⟩ := exec_kept s i hw ht hr hb
      cases hu.symm.trans h
      exact hk.sregs
  · by_cases hw : ∀ g r a, i ≠ .srw g r a
    · obtain ⟨u, hu, hk⟩ := exec_kept s i hw ht hr hb
      cases hu.symm.trans h
      exact hk.time
    · push Not at hw
      obtain ⟨g, r, a, rfl⟩ := hw
      obtain ⟨u, hu, -, hk⟩ := exec_word_kept s (.srw g r a) rfl
      cases hu.symm.trans h
      exact hk
  · obtain ⟨u, hu, hk⟩ := exec_word_kept s i hi
    cases hu.symm.trans h
    exact hk
  · rintro rfl
    obtain ⟨u, hu, -, -, ht⟩ := exec_dtTick s
    cases hu.symm.trans h
    exact ht.imp (congrArg TimePart.dt) (congrArg TimePart.dt)


/-! ### The invariant -/

/-- What keeps device time, the special registers and the note of a failed word keeps the invariant. -/
theorem Inv.kept {s t : State} (h : Inv s) (hk : Kept s t) : Inv t where
  win := hk.sregs ▸ h.win
  bfmt := hk.sregs ▸ h.bfmt
  expr := hk.sregs ▸ h.expr
  fctl := hk.sregs ▸ h.fctl
  skew := hk.time ▸ h.skew
  hit := hk.hit ▸ h.hit

/-- An entry of a table after a key has been set is the key's or an entry of before. -/
theorem mem_tset {α : Type} [DecidableEq α] {d v : α} {m : Sparse α} {k : Nat} {e : Nat × α} (h : e ∈ tset d m k v) : e = (k, v) ∨ e ∈ m := by
  unfold tset at h
  split at h
  · exact .inr (List.mem_of_mem_filter h)
  · exact mem_tput m k v e h

/-- What holds of each entry and of the value set holds of each entry after. -/
theorem forall_mem_tset {α : Type} [DecidableEq α] {d v : α} {m : Sparse α} {k : Nat} {P : α → Prop} (h : ∀ e ∈ m, P e.2) (hv : P v) :
    ∀ e ∈ tset d m k v, P e.2 := by
  intro e he
  rcases mem_tset he with rfl | he
  · exact hv
  · exact h e he

/-! Each value that SRW admits is one that the register may hold, once its reserved bits are 0. -/

/-- A mask of ones leaves a field as it is. -/
theorem field_and_mask (v m : Word) (n k : Nat) (h : m.extractLsb' n k = BitVec.allOnes k) :
    (v &&& m).toNat / 2 ^ n % 2 ^ k = v.toNat / 2 ^ n % 2 ^ k := by
  have he : (v &&& m).extractLsb' n k = v.extractLsb' n k := by rw [BitVec.extractLsb'_and, h, BitVec.and_allOnes]
  simpa [BitVec.extractLsb'_toNat, Nat.shiftRight_eq_div_pow] using congrArg BitVec.toNat he

theorem winLegal_and_mask (v : Word) : winLegal (v &&& winMask) = winLegal v := by
  have enabled : (v &&& winMask).getLsbD 63 = v.getLsbD 63 := by
    rw [BitVec.getLsbD_and, show winMask.getLsbD 63 = true from rfl, Bool.and_true]
  have kind : (v &&& winMask).toNat / 2 ^ 59 % 4 = v.toNat / 2 ^ 59 % 4 := field_and_mask v winMask 59 2 rfl
  have base := field_and_mask v winMask 0 20 rfl
  have limit := field_and_mask v winMask 20 20 rfl
  rw [pow_zero, Nat.div_one, Nat.div_one] at base
  simp only [winLegal, enabled, kind, base, limit]

theorem winStored_of_legal {v : Word} (h : winLegal v = true) : winStored (v &&& winMask) = true := by
  simp [winStored, winLegal_and_mask, h, BitVec.and_assoc]

theorem bfmtStored_of_legal {v : Word} (h : bfmtLegal v = true) : bfmtStored (v.setWidth 4) = true := by
  simp only [bfmtLegal, bfmtStored, bne_iff_ne, ne_eq, ← BitVec.toNat_inj, BitVec.toNat_setWidth] at h ⊢
  simpa using h

theorem exprStored_of_legal {v : Word} (h : exprLegal v = true) : exprStored (v &&& 0x1F#64) = true := by
  have field := field_and_mask v 0x1F#64 0 5 rfl
  have rest : (v &&& 0x1F#64).toNat ≤ 31 := by rw [BitVec.toNat_and]; exact Nat.and_le_right
  simp only [exprLegal, exprStored, decide_eq_true_eq] at h ⊢
  omega

theorem fctlStored_of_legal {v : Word} (h : fctlLegal v = true) : fctlStored (v &&& 0xFFFFFFFF#64) = true := by
  have field := field_and_mask v 0xFFFFFFFF#64 0 32 rfl
  have rest : (v &&& 0xFFFFFFFF#64).toNat ≤ 0xFFFFFFFF := by rw [BitVec.toNat_and]; exact Nat.and_le_right
  simp only [fctlLegal, fctlStored, decide_eq_true_eq] at h ⊢
  omega

theorem inv_srwTo {s u : State} {core : Nat} {r : SReg} {v : Word} (h : Inv s) (hu : srwTo s core r v = .ok u) : Inv u := by
  cases r
  case win n =>
    simp only [srwTo] at hu
    split at hu
    · next hl => cases hu; exact { h with win := forall_mem_tset (P := fun w => winStored w = true) h.win (winStored_of_legal hl) }
    · cases hu
  case bfmt n =>
    simp only [srwTo] at hu
    split at hu
    · next hl => cases hu; exact { h with bfmt := forall_mem_tset (P := fun w => bfmtStored w = true) h.bfmt (bfmtStored_of_legal hl) }
    · cases hu
  case expr =>
    simp only [srwTo] at hu
    split at hu
    · next hl => cases hu; exact { h with expr := forall_mem_tset (P := fun w => exprStored w = true) h.expr (exprStored_of_legal hl) }
    · cases hu
  case fctl =>
    simp only [srwTo] at hu
    split at hu
    · next hl => cases hu; exact { h with fctl := forall_mem_tset (P := fun w => fctlStored w = true) h.fctl (fctlStored_of_legal hl) }
    · cases hu
  case mstat | vstat => cases hu; exact h.kept ⟨rfl, rfl, rfl⟩
  all_goals cases hu

/-! ### The invariant after an instruction or event -/

/-- A trap keeps the invariant. -/
theorem Inv.of_rest {s t : State} (h : Inv s) (hr : rest t = rest s) : Inv t :=
  h.kept ⟨time_of_rest hr, sregs_of_rest hr, congrArg MemPart.hit (coh_of_rest hr)⟩

theorem inv_exec_srw {s t : State} {g : Guard} {r : SReg} {a : Src} (h : Inv s) (ht : exec (.srw g r a) s = .next t) : Inv t := by
  have confined {u : State} (hu : Inv u) : Inv (confineSrw s u) := ⟨hu.win, hu.bfmt, hu.expr, hu.fctl, h.skew, h.hit⟩
  cases ht
  refine confined ?_
  unfold perform
  split
  · exact h.of_rest (rest_raise ..)
  · split
    · exact h.of_rest (rest_raise ..)
    · split
      · cases hw : srwTo s (curCore s) r (srcZ s a) with
        | error e => simpa only [hw, error_bind, orTrap] using h.of_rest (rest_raise e s)
        | ok u =>
          have hu : Inv (advance u) := (inv_srwTo h hw).of_rest (rest_advance u)
          simpa only [hw, ok_bind, orTrap, orSoft_of_hit hu.hit] using hu
      · exact h.of_rest (rest_advance s)

/-- An overtaken unit is one tick less ahead. -/
theorem inv_exec_dtTick {s t : State} (h : Inv s) (ht : exec .dtTick s = .next t) : Inv t := by
  obtain ⟨u, hu, hsregs, hhit, htime⟩ := exec_dtTick s
  cases hu.symm.trans ht
  refine ⟨hsregs ▸ h.win, hsregs ▸ h.bfmt, hsregs ▸ h.expr, hsregs ▸ h.fctl, ?_, hhit ▸ h.hit⟩
  rcases htime with htime | htime <;> rw [htime]
  · exact h.skew
  · intro e he
    obtain ⟨x, hx, rfl⟩ := List.mem_map.mp he
    exact le_trans (Nat.sub_le ..) (h.skew x (List.mem_of_mem_filter hx))

/-- Bring-up leaves each of them at its value after reset. -/
theorem inv_restart (s : State) (test : Bool) : Inv (restart s test) := reset_inv.kept ⟨rfl, rfl, rfl⟩

theorem inv_exec_reset {s t : State} (h : Inv s) (ht : exec .reset s = .next t) : Inv t := by
  obtain ⟨u, hu, hk | ⟨v, test, rfl⟩⟩ := exec_reset s <;> cases hu.symm.trans ht
  · exact h.kept hk
  · exact inv_restart v test

/-- Every instruction and event keeps the invariant. -/
theorem inv_exec {s t : State} {i : Instr} (h : Inv s) (ht : exec i s = .next t) : Inv t := by
  by_cases hw : ∃ g r a, i = .srw g r a
  · obtain ⟨g, r, a, rfl⟩ := hw
    exact inv_exec_srw h ht
  · by_cases hd : i = .dtTick
    · subst hd; exact inv_exec_dtTick h ht
    · by_cases hr : i = .reset
      · subst hr; exact inv_exec_reset h ht
      · by_cases hb : i = .bringUp
        · subst hb; cases ht; exact inv_restart ..
        · obtain ⟨u, hu, hk⟩ := exec_kept s i (fun g r a he => hw ⟨g, r, a, he⟩) hd hr hb
          cases hu.symm.trans ht
          exact h.kept hk

/-! ### The invariant after a step -/

/-- The state answered, if one is, meets the invariant. -/
def InvAfter (o : Host.Outcome State Fault Refusal) : Prop := ∀ t, o = .next t → Inv t

/-- What keeps the invariant as a pending act. -/
def Deed.Good (d : Deed) : Prop := ∀ s, Inv s → InvAfter (d s)

theorem invAfter_next {t : State} (h : Inv t) : InvAfter (.next t) := by rintro _ ⟨⟩; exact h
theorem invAfter_confine {s u : State} (h : Inv s) : InvAfter (.next (confine s u)) := invAfter_next (h.kept (kept_confine s u))
theorem invAfter_confineHub {s u : State} (h : Inv s) : InvAfter (.next (confineHub s u)) := invAfter_next (h.kept (kept_confineHub s u))
theorem invAfter_exec (i : Instr) {s : State} (h : Inv s) : InvAfter (exec i s) := fun _ ht => inv_exec h ht
theorem good_exec (i : Instr) : Deed.Good (exec i) := fun _ h => invAfter_exec i h

theorem Inv.putStrand {s : State} (h : Inv s) (c i : Nat) (t : Strand) : Inv (putStrand s c i t) := h.kept ⟨rfl, rfl, rfl⟩
theorem Inv.putPair {s : State} (h : Inv s) (k : Nat) (p : Pair) : Inv (putPair s k p) := h.kept ⟨rfl, rfl, rfl⟩
theorem Inv.withFreeWord {s : State} (h : Inv s) : Inv (withFreeWord s) := h.kept ⟨mapCtx_time .., mapCtx_sregs .., by simp [Machine.withFreeWord, withWord]⟩

theorem invAfter_performWord (w : IWord) {s : State} (h : Inv s) : InvAfter (performWord w s) := by
  unfold performWord
  split
  · exact invAfter_exec _ h
  · exact invAfter_exec _ h
  · exact invAfter_confine h
  · exact invAfter_confine h
  · exact invAfter_confine h

theorem invAfter_afterStep (c i : Nat) {o : Host.Outcome State Fault Refusal} (h : InvAfter o) : InvAfter (afterStep c i o) := by
  cases o with
  | next s => exact invAfter_confine (h s rfl)
  | fault | refused => rintro _ ⟨⟩

theorem invAfter_countStream (k : Nat) (cp : Bool) {o : Host.Outcome State Fault Refusal} (h : InvAfter o) : InvAfter (countStream k cp o) := by
  cases o with
  | next s =>
    refine invAfter_next ?_
    split
    · exact h s rfl
    · exact (h s rfl).putPair ..
  | fault | refused => rintro _ ⟨⟩

theorem invAfter_issueStrand (c i : Nat) (t : Strand) {s : State} (h : Inv s) : InvAfter (issueStrand s c i t) := by
  unfold issueStrand
  split
  · exact invAfter_next h
  · split
    · exact invAfter_confine h
    · split
      · exact invAfter_confine h
      · split
        · exact invAfter_confine h
        · dsimp only
          split
          · exact invAfter_confine h.withFreeWord
          · split
            · exact invAfter_exec _ h.withFreeWord
            · exact invAfter_afterStep _ _ (invAfter_performWord _ (h.kept ⟨rfl, rfl, rfl⟩))

theorem Inv.noteBeat {s : State} (h : Inv s) (c i : Nat) : Inv (noteBeat s c i) := by
  unfold Machine.noteBeat
  split
  · exact h.kept ⟨rfl, rfl, rfl⟩
  · exact h

theorem invAfter_strandTurn (c i : Nat) {s : State} (h : Inv s) : InvAfter (strandTurn c i s) := by
  unfold strandTurn
  split
  · exact invAfter_next h
  · split
    · exact invAfter_issueStrand _ _ _ h
    · split
      · exact invAfter_confine h
      · exact invAfter_next (h.putStrand ..)
    · split
      · exact invAfter_afterStep _ _ (invAfter_performWord _ ((h.noteBeat ..).putStrand ..))
      · exact invAfter_next h
    · exact invAfter_afterStep _ _ (invAfter_performWord _ (h.putStrand ..))
    · exact invAfter_afterStep _ _ (invAfter_performWord _ (h.putStrand ..))
    · exact invAfter_afterStep _ _ (invAfter_performWord _ (h.putStrand ..))
    · split
      · exact invAfter_next h
      · exact invAfter_confine h
    · split
      · exact invAfter_confine h
      · exact invAfter_next h
    · exact invAfter_next h

theorem invAfter_streamAgain (k : Nat) (cp : Bool) {s : State} (h : Inv s) : InvAfter (streamAgain k cp s) :=
  invAfter_countStream _ _ (invAfter_performWord _ (h.putPair ..))

theorem invAfter_streamTurn (k : Nat) (cp : Bool) {s : State} (h : Inv s) : InvAfter (streamTurn k cp s) := by
  unfold streamTurn
  dsimp only
  split
  · exact invAfter_next h
  · split
    · exact invAfter_streamAgain _ _ h
    · split
      · exact invAfter_next h
      · split
        · exact invAfter_confine h
        · split
          · exact invAfter_confine h
          · split
            · exact invAfter_streamAgain _ _ h
            · split
              · exact invAfter_confine (h.putPair ..).withFreeWord
              · split
                · exact invAfter_exec _ (h.putPair ..).withFreeWord
                · exact invAfter_countStream _ _ (invAfter_performWord _ ((h.putPair ..).putPair ..))

theorem good_turn (a : Agent) (far : Bool) : Deed.Good (turn a far) := by
  intro s h
  have h' : Inv { s with cur := a, far := far } := h.kept ⟨rfl, rfl, rfl⟩
  cases a with
  | strand c i => exact invAfter_strandTurn c i h'
  | stream k cp => exact invAfter_streamTurn k cp h'
  | none => exact invAfter_next h'

/-- Every act keeps the invariant. -/
theorem good_doAct (a : Act) : Deed.Good (doAct a) := by
  intro s h
  cases a
  case turn a far => exact good_turn a far s h
  case event i =>
    simp only [doAct]
    split
    · exact invAfter_exec i h
    · exact invAfter_next h
  case early unit =>
    refine invAfter_next ?_
    split
    · next hu =>
      have hlt : tget 0 s.time.early unit < 2 := by simp_all
      have hs : ∀ e ∈ bump s.time.early unit, e.2 ≤ 2 := forall_mem_tset (P := (· ≤ 2)) h.skew hlt
      exact { h with skew := hs }
    · exact h
  case sense | badCommand | failCommand | readBar0 => exact invAfter_confineHub h
  all_goals exact invAfter_confine h

/-! What is pending, list by list: events by position, and those that a list's entries name. -/

theorem good_each {n : Nat} {f : Nat → Deed} (h : ∀ k, (f k).Good) : ∀ d ∈ each n f, d.Good := by
  simp only [each, List.forall_mem_map]
  exact fun k _ => h k

/-- An act that is confined keeps the invariant. -/
theorem good_confine (f : State → State) : Deed.Good fun s => .next (confine s (f s)) := fun _ h => invAfter_confine h

theorem good_pendingTurns (s : State) : ∀ d ∈ pendingTurns s, d.Good := by
  simp only [pendingTurns, List.forall_mem_append, List.forall_mem_map, List.forall_mem_flatMap]
  refine ⟨fun _ _ => good_turn _ _, fun e _ => ?_⟩
  split
  · simp
  · simp [good_turn]

theorem good_pendingHoldings (s : State) : ∀ d ∈ pendingHoldings s, d.Good := by
  simp only [pendingHoldings, List.forall_mem_append, List.forall_mem_map]
  refine ⟨⟨⟨⟨⟨⟨⟨⟨⟨⟨⟨⟨⟨⟨fun r _ => good_exec (.replyArrival r.tag.core r.tag.slot), fun e _ => good_exec (.trapRecordLand e.1)⟩,
    good_each fun k => good_exec (.homeRequest k)⟩, good_each fun k => good_exec (.lockWithdrawal k)⟩, good_each fun k => good_exec (.lapseNotice k)⟩,
    good_each fun k => good_exec (.translationExpiry k)⟩, good_each fun k => good_exec (.purge k)⟩, good_each fun k => good_exec (.purgeAck k)⟩,
    good_each fun k => good_exec (.unmapComplete k)⟩, good_each fun k => good_exec (.evqRecordArrival k)⟩, good_each fun k => good_exec (.wakeFlit k)⟩,
    good_each fun k => good_exec (.recordReturn k)⟩, good_each fun k => good_exec (.messageDelivery k)⟩, good_each fun k => good_exec (.dropNotice k)⟩,
    good_each fun k => good_exec (.creditReturn k)⟩

theorem good_pendingMemory (s : State) : ∀ d ∈ pendingMemory s, d.Good := by
  simp only [pendingMemory, List.forall_mem_append, List.forall_mem_map]
  refine ⟨⟨⟨⟨⟨⟨⟨fun r _ => ?_, fun m _ => ?_⟩, fun l _ => good_exec (.memoryWriteBackAck l)⟩, good_each fun k => good_exec (.pteStore k)⟩,
    good_each fun _ => good_confine _⟩, good_each fun k => good_exec (.pageBacked k)⟩, good_each fun k => good_exec (.pageMove k)⟩,
    fun u _ => good_exec (.hotnessExamination u)⟩
  · split
    · exact good_exec (.leaseRead r.2)
    · exact good_exec (.leaseRead r.2)
    · exact good_exec (.leaseRenewal r.2)
    · exact good_exec (.homeWrite r.2)
    · exact good_exec (.homeWrite r.2)
    · exact good_exec (.ownershipRequest r.2)
    · exact good_exec (.farAtomic r.2)
  · split
    · exact good_exec (.recall m.2)
    · exact good_exec (.recallReplyData m.2)
    · exact good_exec (.notHeld m.2)
    · exact good_exec (.writeBack m.2)

theorem good_pendingEngines (s : State) : ∀ d ∈ pendingEngines s, d.Good := by
  simp only [pendingEngines, List.forall_mem_append, List.forall_mem_flatMap]
  refine ⟨⟨⟨⟨fun e _ => ?_, fun e _ => ?_⟩, fun e _ => ?_⟩, good_each fun k => good_exec (.overlayLoad k)⟩, good_each fun k => good_exec (.overlayLoadEnd k)⟩
  · simp only [List.forall_mem_cons]
    exact ⟨good_exec (.queueEntry e.1 false), good_exec (.engineOperationStart e.1 false), good_exec (.copyBeat e.1), List.forall_mem_nil _⟩
  · simp only [List.forall_mem_cons]
    exact ⟨good_exec (.queueEntry e.1 true), good_exec (.engineOperationStart e.1 true), good_exec (.factorStartEvent e.1),
      good_exec (.factorCommitEvent e.1), good_exec (.engineOperationEnd e.1 2), List.forall_mem_nil _⟩
  · split
    · exact List.forall_mem_nil _
    · simp only [List.forall_mem_cons]
      exact ⟨good_exec (.engineOperationEnd e.1 0), good_exec (.engineOperationEnd e.1 1), good_exec (.semwStreamDesync e.1 false),
        good_exec (.semwStreamDesync e.1 true), List.forall_mem_nil _⟩

theorem good_pendingWork (s : State) : ∀ d ∈ pendingWork s, d.Good := by
  simp only [pendingWork, List.forall_mem_append, List.forall_mem_flatMap, List.forall_mem_map, List.forall_mem_singleton]
  exact ⟨⟨⟨⟨⟨⟨⟨⟨⟨⟨⟨⟨⟨fun c _ i _ => good_exec (.slotBind c i), good_each fun _ => good_confine _⟩, fun e _ => good_exec (.recordPromotion (e.1 / 16) (e.1 % 16))⟩,
    good_each fun k => good_exec (.migrationArrival k)⟩, good_each fun k => good_exec (.childEnds k)⟩, fun b _ u _ => good_exec (.cancelToken u b.2)⟩,
    good_each fun k => good_exec (.cancelAcknowledgment k)⟩, good_each fun k => good_exec (.cancelRetire k)⟩, good_each fun k => good_exec (.barrierAck k)⟩,
    good_exec .governorCheck⟩, good_each fun k => good_exec (.thermalEvaluation k)⟩, fun e _ => good_exec (.slotDisplace (e.1 / 16) (e.1 % 16))⟩,
    good_each fun k => good_exec (.haltAck k)⟩, fun e _ => good_exec (.waitdtWake (e.1 / 16) (e.1 % 16))⟩

theorem good_pendingCensus (s : State) : ∀ d ∈ pendingCensus s, d.Good := by
  simp only [pendingCensus, List.forall_mem_append, List.forall_mem_flatMap, List.forall_mem_map, List.forall_mem_cons]
  exact ⟨⟨fun c _ => ⟨⟨⟨fun u _ => good_exec (.wave u c.2), fun u _ => good_exec (.censusReport u c.2)⟩, good_exec (.censusComplete c.2), List.forall_mem_nil _⟩,
      fun u _ => good_exec (.censusClose u c.2)⟩, fun c _ => good_each fun k => good_exec (.responderSpawn c.1 k)⟩,
    fun k _ => ⟨good_exec (.moveReserve k), good_exec (.moveReserveReply k), good_exec (.entrySend k), good_exec (.entryArrival k), good_exec (.moveAck k),
      List.forall_mem_nil _⟩⟩

theorem good_pendingLinks (s : State) : ∀ d ∈ pendingLinks s, d.Good := by
  simp only [pendingLinks, List.forall_mem_append, List.forall_mem_flatMap, List.forall_mem_cons]
  refine fun e _ => ⟨⟨good_exec (.ackIdleTimeout e.1), good_exec (.linkReplayTimeout e.1), good_exec (.trainingTimeout e.1), List.forall_mem_nil _⟩, fun q _ => ?_⟩
  split
  case h_2 =>
    simp only [List.forall_mem_cons, List.mem_filterMap]
    refine ⟨good_exec (.wdone e.1), ?_⟩
    rintro d ⟨k, -, hd⟩
    split at hd
    · cases hd; exact good_exec (.wdoneArrival k q.xid)
    · cases hd
  all_goals rw [List.forall_mem_singleton]
  · exact good_exec (.write e.1)
  · exact good_exec (.read e.1)
  · exact good_exec (.rdata e.1)
  · exact good_exec (.amoPacket e.1)
  · exact good_exec (.amodata e.1)
  · exact good_exec (.msg e.1)
  · exact good_exec (.drop e.1)
  · exact good_exec (.link e.1)

theorem good_pendingHub (s : State) : ∀ d ∈ pendingHub s, d.Good := by
  simp only [pendingHub, List.forall_mem_append, List.forall_mem_map, List.forall_mem_cons]
  refine ⟨⟨?_, fun e _ => good_exec (.softErrorOutOfService e.1)⟩, good_exec .longCommandEnd, good_exec .snapshotExpiry, good_exec .bringupPhase,
    good_exec .dtTick, List.forall_mem_nil _⟩
  split
  · exact List.forall_mem_nil _
  · simp only [List.forall_mem_cons]
    exact ⟨good_exec .status, good_exec .summary, good_exec .grantctx, good_exec .renewctx, good_exec .loadovl, good_exec .hostLaunch, good_exec .hostCancel,
      good_exec .checkpoint, good_exec .restore, good_exec .attest, good_exec .sensors, good_exec .thermtabRead, good_exec .thermtabWrite,
      good_exec .linkcfgDown, good_exec .linkcfgTrain, good_exec .reset, fun _ h => invAfter_confineHub h, List.forall_mem_nil _⟩

theorem good_nextPending (s : State) : Deed.Good (nextPending s) := by
  have hp : ∀ d ∈ pending s, d.Good := by
    simp only [pending, List.forall_mem_append]
    exact ⟨⟨⟨⟨⟨⟨⟨good_pendingTurns s, good_pendingHoldings s⟩, good_pendingMemory s⟩, good_pendingEngines s⟩, good_pendingWork s⟩, good_pendingCensus s⟩,
      good_pendingLinks s⟩, good_pendingHub s⟩
  simp only [nextPending]
  cases h : (pending s)[s.turnNo % (pending s).length]? with
  | none => exact good_exec .dtTick
  | some d => exact hp d (List.mem_of_getElem? h)

/-- Settles O58: whatever a step takes, a tick that is due, an act of the agenda or what is pending, keeps the invariant. -/
theorem everyStepKeepsTheInvariant : Obligations.EveryStepKeepsTheInvariant := by
  intro s s' h ht
  revert s'
  show InvAfter (step s)
  unfold step
  split
  · exact invAfter_exec _ h
  · split
    · exact good_doAct _ _ (h.kept ⟨rfl, rfl, rfl⟩)
    · exact good_nextPending s _ (h.kept ⟨rfl, rfl, rfl⟩)

end Sys2Proof.Machine
end

section
/-! PROOFS. Special registers (O13): what SRR gives, bit by bit where a register has fields, and what SRW stores. -/

namespace Sys2Proof.Machine
open Sys2Proof

/-! ### SRR (R101, R115, R23) -/

section
variable {s : State} {g : Guard} {c i : Nat} {t : Strand}

/-- SRR of a register other than DTIME writes its value. -/
theorem writes_srr (hi : StrandIssues g s c i t) (d : GReg) {r : SReg} (hr : r ≠ .dtime) : Writes (.srr g d r) s d (sregOf s c t r) :=
  writes_of_run hi.issues rfl (by simp [hi.cur, hi.bound, hr])

/-- The strand once it has read DTIME. -/
def Strand.readsDt (t : Strand) (d : GReg) (n : Nat) : Strand :=
  { t with dtlast := n, ctx := { t.ctx with g := t.ctx.g.set d.val (BitVec.ofNat 64 n), pc := nextPc t.ctx.pc } }

theorem exec_srr_dtime (hi : StrandIssues g s c i t) (d : GReg) :
    exec (.srr g d .dtime) s = .next (putStrand s c i (t.readsDt d (strandDt s c t))) := by
  have hb : advance (wG (putStrand s c i { t with dtlast := strandDt s c t }) d (sregOf s c t .dtime))
      = putStrand s c i (t.readsDt d (strandDt s c t)) := by
    rw [wG, mapCtx_strand (putStrand s c i _) _ c i _ hi.cur (strandAt_putStrand ..), putStrand_putStrand, advance,
      mapCtx_strand (putStrand s c i _) _ c i _ hi.cur (strandAt_putStrand ..), putStrand_putStrand]
    rfl
  refine (run_ok hi.issues (t := putStrand s c i (t.readsDt d (strandDt s c t))) ?_ (.inr hi.sound)).trans rfl
  simp [hi.cur, hi.bound, hb]

theorem srr_dtime (hi : StrandIssues g s c i t) (d : GReg) : ∃ u x, exec (.srr g d .dtime) s = .next u ∧ strandAt u c i = some x
    ∧ x.dtlast = max (s.time.dt + tget 0 s.time.early c) t.dtlast ∧ rG u d = BitVec.ofNat 64 x.dtlast ∧ x.ctx.pc = nextPc t.ctx.pc
    ∧ Keeps [d] [] s u ∧ OnlyAgent s u := by
  have hu (x : Strand) : curCtx (putStrand s c i x) = x.ctx := curCtx_putStrand hi.cur x
  refine ⟨_, _, exec_srr_dtime hi d, strandAt_putStrand .., rfl, ?_, rfl, ⟨?_, ?_, ?_, fun a => rfl⟩, ?_⟩
  · simp [rG, hu, Strand.readsDt, get_set]
  · intro r hr
    simp only [List.mem_singleton] at hr
    simp [rG, hu, hi.curCtx_eq, Strand.readsDt, get_set, hr]
  · intro p _
    simp [rP, hu, hi.curCtx_eq, Strand.readsDt]
  · simp [rPts, hu, hi.curCtx_eq, Strand.readsDt]
  · simp only [OnlyAgent, hi.cur]
    exact ⟨_, rfl⟩

end

/-- STAT's fields (R101): PRIO, three flags and the last cause, the rest 0. -/
theorem statOf_fields (t : Strand) : ((statOf t).extractLsb' 28 4).toNat = t.record.prio.toNat % 16 ∧ (statOf t).extractLsb' 24 4 = 0
    ∧ (statOf t).getLsbD 23 = t.evict ∧ (statOf t).getLsbD 22 = t.restart ∧ (statOf t).getLsbD 21 = decide (t.steps ≠ 0)
    ∧ (statOf t).extractLsb' 16 5 = 0 ∧ ((statOf t).extractLsb' 8 8).toNat = t.lastCause % 256 ∧ (statOf t).extractLsb' 0 8 = 0
    ∧ (statOf t).extractLsb' 32 32 = 0 := by
  have flag (b : Bool) (n : Nat) : (if b then n else 0) = b.toNat * n := by cases b <;> simp
  have he := Bool.toNat_lt t.evict
  have hr := Bool.toNat_lt t.restart
  have hs := Bool.toNat_lt (decide (t.steps ≠ 0))
  have hstat : (statOf t).toNat = t.record.prio.toNat % 16 * 2 ^ 28 + t.evict.toNat * 2 ^ 23 + t.restart.toNat * 2 ^ 22
      + (decide (t.steps ≠ 0)).toNat * 2 ^ 21 + t.lastCause % 256 * 256 := by
    have hb : (t.steps != 0) = decide (t.steps ≠ 0) := by by_cases h : t.steps = 0 <;> simp [h]
    simp only [statOf, recPrio, BitVec.toNat_ofNat, flag, hb]
    omega
  have field (n k m : Nat) (h : (statOf t).toNat / 2 ^ n % 2 ^ k = m) : ((statOf t).extractLsb' n k).toNat = m := by
    rw [BitVec.extractLsb'_toNat, Nat.shiftRight_eq_div_pow, h]
  have zero (n k : Nat) (h : (statOf t).toNat / 2 ^ n % 2 ^ k = 0) : (statOf t).extractLsb' n k = 0 :=
    BitVec.eq_of_toNat_eq (by rw [field n k 0 h]; rfl)
  have bit (n : Nat) (b : Bool) (h : (statOf t).toNat / 2 ^ n % 2 = b.toNat) : (statOf t).getLsbD n = b := by
    rw [BitVec.getLsbD, Nat.testBit_eq_decide_div_mod_eq, h]
    cases b <;> rfl
  refine ⟨field _ _ _ ?_, zero _ _ ?_, bit _ _ ?_, bit _ _ ?_, bit _ _ ?_, zero _ _ ?_, field _ _ _ ?_, zero _ _ ?_, zero _ _ ?_⟩ <;> rw [hstat] <;> omega

/-- OVT's fields: the overlay of each frame (R101). -/
theorem ovtOf_field (s : State) (c : Nat) {f : Nat} (hf : f < 4) :
    ((ovtOf s c).extractLsb' (16 * f) 16).toNat = tget 0 s.core.ovt (c * 4 + f) % 65536 := by
  have hb : ∀ f, tget 0 s.core.ovt (c * 4 + f) % 65536 < 65536 := fun f => Nat.mod_lt _ (by decide)
  have h0 := hb 0
  have h1 := hb 1
  have h2 := hb 2
  have h3 := hb 3
  have hovt : (ovtOf s c).toNat = tget 0 s.core.ovt (c * 4 + 0) % 65536 + tget 0 s.core.ovt (c * 4 + 1) % 65536 * 65536
      + tget 0 s.core.ovt (c * 4 + 2) % 65536 * 65536 ^ 2 + tget 0 s.core.ovt (c * 4 + 3) % 65536 * 65536 ^ 3 := by
    simp only [ovtOf, BitVec.toNat_ofNat, List.range, List.range.loop, List.foldr]
    omega
  rw [BitVec.extractLsb'_toNat, Nat.shiftRight_eq_div_pow, hovt]
  interval_cases f <;> omega

/-! ### SRW (R99, R102, R205, R233, R279) -/

/-- What a mask of ones at the low end leaves. -/
theorem and_lowMask (v m : Word) (k : Nat) (hk : k ≤ 64) (hm : m.toNat = 2 ^ k - 1) : v &&& m = BitVec.ofNat 64 (v.toNat % 2 ^ k) := by
  refine BitVec.eq_of_toNat_eq ?_
  have : v.toNat % 2 ^ k < 2 ^ 64 := lt_of_lt_of_le (Nat.mod_lt _ (by positivity)) (Nat.pow_le_pow_right (by decide) hk)
  rw [BitVec.toNat_and, hm, Nat.and_two_pow_sub_one_eq_mod, BitVec.toNat_ofNat, Nat.mod_eq_of_lt this]

/-- A window that R99 forbids. -/
def WinForbidden (v : Word) : Prop :=
  v.getLsbD 63 = true ∧ (v.toNat / 2 ^ 59 % 4 = 3 ∨ v.toNat % 2 ^ 20 % 64 ≠ 0 ∨ v.toNat / 2 ^ 20 % 2 ^ 20 % 64 ≠ 0
    ∨ 0x80000 < v.toNat / 2 ^ 20 % 2 ^ 20 ∨ v.toNat / 2 ^ 20 % 2 ^ 20 ≤ v.toNat % 2 ^ 20)

theorem winLegal_iff (v : Word) : winLegal v = true ↔ ¬ WinForbidden v := by
  simp only [winLegal, WinForbidden, Bool.or_eq_true, Bool.not_eq_true', Bool.and_eq_true, bne_iff_ne, beq_iff_eq, decide_eq_true_eq, ne_eq]
  by_cases he : v.getLsbD 63 = true
  · simp only [he, Bool.true_eq_false, false_or, true_and]; omega
  · rw [Bool.not_eq_true] at he
    simp only [he, true_or, Bool.false_eq_true, false_and, not_false_eq_true]

/-- What leaves device time, the hub and the note of a failed word alone is confined already. -/
theorem confineSrw_eq {s u : State} (ht : u.time = s.time) (hh : u.hub = s.hub) (hc : u.coh.hit = s.coh.hit) : confineSrw s u = u := by
  simp [confineSrw, ← ht, ← hh, ← hc]

section
variable {s : State} {g : Guard} {c i : Nat} {t : Strand} {r : SReg} {a : Src}

/-- SRW of a value that its register admits stores it. -/
theorem exec_srw_ok (hi : StrandIssues g s c i t) {p : SregPart} {q : StatPart} (h : srwTo s c r (srcZ s a) = .ok { s with sregs := p, stat := q }) :
    exec (.srw g r a) s = .next (advance { s with sregs := p, stat := q }) := by
  have hr : rest (advance { s with sregs := p, stat := q }) = rest { s with sregs := p, stat := q } := rest_advance _
  show Host.Outcome.next (confineSrw s _) = _
  rw [perform_issues _ hi.issues]
  simp only [hi.curCore_eq, h, ok_bind, orTrap, orSoft_sound hi.sound]
  exact congrArg Host.Outcome.next (confineSrw_eq (time_of_rest hr :) (hub_of_rest hr :) (congrArg MemPart.hit (coh_of_rest hr) :))

/-- SRW of a value that it forbids traps, and stores nothing. -/
theorem exec_srw_error (hi : StrandIssues g s c i t) {e : Exc} (h : srwTo s c r (srcZ s a) = .error e) :
    exec (.srw g r a) s = .next (raise e s) := by
  have hr := rest_raise e s
  show Host.Outcome.next (confineSrw s _) = _
  rw [perform_issues _ hi.issues]
  simp only [hi.curCore_eq, h, error_bind, orTrap]
  rw [confineSrw_eq (time_of_rest hr) (hub_of_rest hr) (congrArg MemPart.hit (coh_of_rest hr))]

theorem srwTo_win (s : State) (c : Nat) (j : Fin 8) (v : Word) : srwTo s c (.win j) v
    = if winLegal v then .ok { s with sregs.win := tset 0 s.sregs.win (c * 8 + j.val) (v &&& winMask) } else .error (bad v) := rfl
theorem srwTo_bfmt (s : State) (c : Nat) (j : Fin 16) (v : Word) : srwTo s c (.bfmt j) v
    = if bfmtLegal v then .ok { s with sregs.bfmt := tset 0 s.sregs.bfmt (c * 16 + j.val) (v.setWidth 4) } else .error (bad v) := rfl
theorem srwTo_expr (s : State) (c : Nat) (v : Word) : srwTo s c .expr v
    = if exprLegal v then .ok { s with sregs.expr := tset 0 s.sregs.expr c (BitVec.ofNat 64 (v.toNat % 2 ^ 5)) } else .error (bad v) := by
  rw [← and_lowMask v 0x1F#64 5 (by decide) rfl]; rfl
theorem srwTo_fctl (s : State) (c : Nat) (v : Word) : srwTo s c .fctl v
    = if fctlLegal v then .ok { s with sregs.fctl := tset 0x35800000 s.sregs.fctl (c / 4) (BitVec.ofNat 64 (v.toNat % 2 ^ 32)) }
      else .error (bad v) := by
  rw [← and_lowMask v 0xFFFFFFFF#64 32 (by decide) rfl]; rfl

/-- What a write of VSTAT leaves (R189): the count stays while the upper half written is 0, and flags written as 1 are cleared. -/
def vstatAfter (old v : Word) : Word := (if v.toNat / 2 ^ 32 != 0 then old &&& 0xFFFFFFFF#64 else old) &&& ~~~(v &&& 0x3F#64)

theorem vstatAfter_low (old v : Word) {j : Nat} (h : j < 32) :
    (vstatAfter old v).getLsbD j = (old.getLsbD j && !(v.getLsbD j && decide (j < 6))) := by
  have hm : (0x3F#64).getLsbD j = decide (j < 6) := by revert j; decide
  have hl : (0xFFFFFFFF#64).getLsbD j = true := by revert j; decide
  unfold vstatAfter
  split <;> simp only [BitVec.getLsbD_and, BitVec.getLsbD_not, hm, hl, Bool.and_true] <;> rw [show decide (j < 64) = true by simp; omega, Bool.true_and]

theorem vstatAfter_high (old v : Word) {j : Nat} (h : 32 ≤ j) : (vstatAfter old v).getLsbD j = (old.getLsbD j && decide (v.toNat < 2 ^ 32)) := by
  by_cases hj : j < 64
  · have hm : (0x3F#64).getLsbD j = false := by revert j; decide
    have hl : (0xFFFFFFFF#64).getLsbD j = false := by revert j; decide
    unfold vstatAfter
    split
    · next hv =>
      have : ¬ v.toNat < 2 ^ 32 := by rw [bne_iff_ne] at hv; omega
      simp only [BitVec.getLsbD_and, hl, Bool.and_false, Bool.false_and, this, decide_false]
    · next hv =>
      have : v.toNat < 2 ^ 32 := by rw [bne_iff_ne] at hv; omega
      simp only [BitVec.getLsbD_and, BitVec.getLsbD_not, hm, hj, decide_true, Bool.and_false, Bool.not_false, Bool.and_true, this]
  · rw [BitVec.getLsbD_of_ge _ _ (by omega), BitVec.getLsbD_of_ge _ _ (by omega), Bool.false_and]
end

/-- Settles O13. SRR by the value that each register has; SRW by what each register admits. -/
theorem specialRegistersAreReadAndWritten : Obligations.SpecialRegistersAreReadAndWritten := by
  refine ⟨fun s g c i t d hi => ?_, fun s g c i t a hi => ?_⟩
  · have gives (r : SReg) (hr : r ≠ .dtime) : Writes (.srr g d r) s d (sregOf s c t r) := writes_srr hi d hr
    refine ⟨srr_dtime hi d, gives .ptsr nofun, gives .coreid nofun, fun hlt hc => ?_, gives .ctxh nofun, gives .privb nofun, gives .privsz nofun,
      ⟨_, gives .stat nofun, statOf_fields t⟩, gives .tqh nofun, ⟨_, gives .ovt nofun, fun f hf => ovtOf_field s c hf⟩, gives .icnt nofun,
      gives .stale nofun, gives .bconf nofun, fun j => gives (.win j) nofun, fun j => ?_, gives .mstat nofun, gives .fctl nofun, gives .vstat nofun,
      gives .expr nofun⟩
    · simpa [sregOf, tagBits, hi.curTag_eq, Nat.mod_eq_of_lt hc, Nat.mod_eq_of_lt (show i < 32 by omega)] using gives .stag nofun
    · have hz : sregOf s c t (.bfmt j) = (tget 0 s.sregs.bfmt (c * 16 + j.val)).zeroExtend 64 := BitVec.ofNat_toNat ..
      exact hz ▸ gives (.bfmt j) nofun
  · intro v k low base limit forbidden after kept
    have hwin : winLegal v = true ↔ ¬ forbidden := winLegal_iff v
    refine ⟨fun j hj => exec_srw_ok hi ?_, fun j hj => ?_, fun j hj => exec_srw_ok hi ?_, fun j hj => exec_srw_error hi ?_, fun hj => exec_srw_ok hi ?_,
      fun hj => exec_srw_error hi ?_, fun hj => exec_srw_ok hi ?_, fun hj => exec_srw_error hi ?_, exec_srw_ok hi rfl,
      ⟨vstatAfter (tget 0 s.stat.vstat c) v, exec_srw_ok hi rfl, fun j => vstatAfter_low _ _, fun j => vstatAfter_high _ _⟩⟩
    · rw [srwTo_win, if_pos (hwin.mpr hj)]; rfl
    · have he : srwTo s c (.win j) v = .error (bad v) := by rw [srwTo_win, if_neg (fun h => hwin.mp h hj)]
      exact ⟨_, exec_srw_error hi he, rfl, sregs_of_rest (rest_raise ..)⟩
    · exact (srwTo_bfmt ..).trans (if_pos (bne_iff_ne.mpr hj))
    · exact (srwTo_bfmt ..).trans (if_neg (by simpa [bfmtLegal] using hj))
    · exact (srwTo_expr ..).trans (if_pos (decide_eq_true hj))
    · exact (srwTo_expr ..).trans (if_neg (by simpa [exprLegal] using hj))
    · exact (srwTo_fctl ..).trans (if_pos (decide_eq_true hj))
    · exact (srwTo_fctl ..).trans (if_neg (by simpa [fctlLegal] using hj))

end Sys2Proof.Machine
end

section
/-! PROOFS. Grants (O19): what a strand's request on a holding comes to when its home serves it at once, and the entry that a home issues. -/

namespace Sys2Proof.Machine
open Sys2Proof

/-! ### A request on a holding served at once (R31, R32, R94) -/

/-- The strand once the home has answered it with registers, at a timestamp. -/
def Strand.answered (t : Strand) (ws : List (Nat × Word)) (n : Nat) : Strand :=
  { t.withPts n with
    ctx := { t.ctx with
      g := ws.foldl (fun (g : Vector Word 16) w => g.set (w.1 % 16) w.2 (Nat.mod_lt _ (by decide))) t.ctx.g
      pc := nextPc t.ctx.pc, pts := n }
    st := 0, wait := .none }

theorem answered_one (t : Strand) (d : GReg) (x : Word) (n : Nat) : (t.answered [(d.val, x)] n).ctx.g = t.ctx.g.set d.val x := by
  simp [Strand.answered, Nat.mod_eq_of_lt d.isLt]

theorem answered_two (t : Strand) (d e : GReg) (x y : Word) (n : Nat) :
    (t.answered [(d.val, x), (e.val, y)] n).ctx.g = (t.ctx.g.set d.val x).set e.val y := by
  simp [Strand.answered, Nat.mod_eq_of_lt d.isLt, Nat.mod_eq_of_lt e.isLt]

/-- A reply of registers: the strand goes on with them, unless it is single-stepped (R111). -/
theorem takeReply_regs (s : State) (c i : Nat) {t : Strand} (hs : t.steps ≠ 2) (ws : List (Nat × Word)) (n : Nat) :
    takeReply s c i t (.regs ws n) = putStrand s c i (t.answered ws n) := by
  simp [takeReply, takeReply.replyRegs, stepTrap, Strand.answered, Strand.withPts, hs]

/-- A tag names the strand that its slot holds, whatever else differs. -/
theorem tagged_of_core {u v : State} (h : v.core = u.core) (tag : Tag) : tagged v tag = tagged u tag := by
  have hg : slotGenOf v tag.core tag.slot = slotGenOf u tag.core tag.slot := by rw [slotGenOf, slotGenOf, h]
  have hs : strandAt v tag.core tag.slot = strandAt u tag.core tag.slot := by rw [strandAt, strandAt, h]
  rw [tagged, tagged, hg, hs]

section
variable {s : State} {g : Guard} {c i : Nat} {t : Strand} {ins : Instr}

/-- The request that the acting strand makes. -/
def holdReq (s : State) (t : Strand) (n : Nat) (op : HoldOp) : HoldReq := { tag := curTag s, ctxh := t.ctxh, pts := n, op := op }

/-- An instruction whose checks pass asks its home, which is near, from the state `w` in which it has read what it needs. -/
theorem exec_asks (hi : StrandIssues g s c i t) {w : State} {x : Strand} (hcur : w.cur = .strand c i) (hx : strandAt w c i = some x) (hf : w.far = false)
    {body : State → Except Exc State} {op : HoldOp} (he : exec ins s = run .strand g none body s) (hb : body s = .ok (submitHold w op)) :
    exec ins s = .next (confine s (deliver (serveHold (putStrand w c i x.awaits) (holdReq w x x.ctx.pts op)) (curTag w))) := by
  have hpts : rPts w = x.ctx.pts := by simp [rPts, curCtx, hcur, hx]
  have hctxh : curCtxh w = x.ctxh := by simp [curCtxh, hcur, hx]
  rw [he, run_ok hi.issues hb (.inr hi.sound), submitHold, submitHoldAt_strand hcur hx, if_neg (by simp [hf]), hpts, hctxh]
  rfl

/-- The strand that asks is found by its tag. -/
theorem tagged_asking {w v : State} {x : Strand} (hi : StrandIssues g s c i t) (hcur : w.cur = .strand c i)
    (hcore : v.core = (putStrand w c i x.awaits).core) : tagged v (curTag w) = some x.awaits := by
  have htag : curTag w = { core := c, slot := i, gen := slotGenOf (putStrand w c i x.awaits) c i } := by simp [curTag, hcur, slotGenOf]
  rw [tagged_of_core hcore, htag]
  exact tagged_current hi.slot (strandAt_putStrand ..)

/-- The state after the home's answer, which left the state `v` and gives the strand the registers `ws`. -/
theorem exec_answered (hi : StrandIssues g s c i t) {w : State} {x : Strand} (hcur : w.cur = .strand c i) (hx : strandAt w c i = some x)
    (hf : w.far = false) (hs : x.steps ≠ 2) {body : State → Except Exc State} {op : HoldOp}
    (he : exec ins s = run .strand g none body s) (hb : body s = .ok (submitHold w op)) {v : State} {act : ReplyAct} {ws : List (Nat × Word)} {n : Nat}
    (hv : serveHold (putStrand w c i x.awaits) (holdReq w x x.ctx.pts op) = sendReply v (curTag w) act)
    (hact : takeReply v c i x.awaits act = takeReply v c i x.awaits (.regs ws n)) (hcore : v.core = (putStrand w c i x.awaits).core) :
    exec ins s = .next (confine s (putStrand v c i (x.answered ws n))) := by
  have htag : (curTag w).core = c ∧ (curTag w).slot = i := by simp [curTag, hcur]
  rw [exec_asks hi hcur hx hf he hb, hv, deliver_sendReply (tagged_asking hi hcur hcore), htag.1, htag.2, hact, takeReply_regs (t := x.awaits) v c i hs]
  rfl

/-- The registers of an answer are in place, and nothing else of the strand has changed but its PC. -/
theorem answered_back {u : State} {y : Strand} (hi : StrandIssues g s c i t) (hu : u.cur = s.cur) (hg : y.ctx.g = t.ctx.g) (d : GReg) (x : Word) (n : Nat) :
    let w := confine s (putStrand u c i (y.answered [(d.val, x)] n))
    rG w d = x ∧ (∀ r, r ≠ d → rG w r = rG s r) ∧ (curCtx w).pc = nextPc y.ctx.pc ∧ rPts w = n := by
  have hw : curCtx (confine s (putStrand u c i (y.answered [(d.val, x)] n))) = (y.answered [(d.val, x)] n).ctx :=
    (curCtx_confine ..).trans (curCtx_putStrand (hu.trans hi.cur) _)
  simp only [rG, rPts, hw, answered_one, hi.curCtx_eq, hg, get_set]
  exact ⟨by simp, fun r hr => if_neg hr, rfl, rfl⟩

theorem answered_back_two {u : State} (hi : StrandIssues g s c i t) (hu : u.cur = s.cur) {d e : GReg} (hde : d ≠ e) (x y : Word) :
    let w := confine s (putStrand u c i (t.answered [(d.val, x), (e.val, y)] t.ctx.pts))
    rG w d = x ∧ rG w e = y ∧ (∀ r, r ≠ d → r ≠ e → rG w r = rG s r) ∧ (curCtx w).pc = nextPc t.ctx.pc ∧ rPts w = t.ctx.pts := by
  have hw : curCtx (confine s (putStrand u c i (t.answered [(d.val, x), (e.val, y)] t.ctx.pts)))
      = (t.answered [(d.val, x), (e.val, y)] t.ctx.pts).ctx := (curCtx_confine ..).trans (curCtx_putStrand (hu.trans hi.cur) _)
  simp only [rG, rPts, hw, answered_two, hi.curCtx_eq, get_set]
  exact ⟨by simp [hde], by simp, fun r hr hr' => by simp [hr, hr'], rfl, rfl⟩

end

/-! ### The entry that a home issues (R24, R27, R29, R162) -/

theorem u32_ok {v : Word} (h : v.toNat < 2 ^ 32) : u32 v = .ok v.toNat := if_pos h
theorem u32_error {v : Word} (h : 2 ^ 32 ≤ v.toNat) : u32 v = .error (bad v) := if_neg (by omega)

/-- The least number that has a property, of those from `k` on. -/
theorem leastFrom_eq_some {p : Nat → Bool} {k fuel j : Nat} (h : leastFrom p k fuel = some j) :
    k ≤ j ∧ j < k + fuel ∧ p j = true ∧ ∀ n, k ≤ n → n < j → p n = false := by
  induction fuel generalizing k with
  | zero => cases h
  | succ fuel ih =>
    rw [leastFrom] at h
    split at h
    · next hp =>
      cases h
      exact ⟨le_rfl, by omega, hp, fun n h1 h2 => by omega⟩
    · next hp =>
      obtain ⟨h1, h2, h3, h4⟩ := ih h
      refine ⟨by omega, by omega, h3, fun n hn hj => ?_⟩
      rcases Nat.eq_or_lt_of_le hn with rfl | hn
      · simpa using hp
      · exact h4 n hn hj

/-- The entry that a home may issue is the lowest of those it may (log entry 7). -/
theorem freeEntry_lowest {s : State} {kind home key : Nat} (h : freeEntry s kind home = some key) :
    ∃ j, j < kindCap kind ∧ key = entryKey kind home j ∧ issuable s kind key = true ∧ ∀ k, k < j → issuable s kind (entryKey kind home k) = false := by
  obtain ⟨j, hj, rfl⟩ := Option.map_eq_some_iff.mp h
  obtain ⟨-, hlt, hp, hmin⟩ := leastFrom_eq_some hj
  exact ⟨j, by omega, rfl, hp, fun k hk => hmin k (Nat.zero_le _) hk⟩

/-- An entry after one has been issued. -/
theorem lifeOf_issueEntry (s : State) (key : Nat) (owner : Word) (expiry : Nat) :
    lifeOf (issueEntry s key owner expiry) key = { st := 1, expiry := expiry, gen := nextGen (lifeOf s key).gen, owner := owner } := lifeOf_setLife ..
theorem lifeOf_setLife_ne (s : State) {key k : Nat} (h : k ≠ key) (x : Life) : lifeOf (setLife s key x) k = lifeOf s k := tget_tset_ne _ _ _ _ _ h
theorem lifeOf_issueEntry_ne (s : State) {key k : Nat} (h : k ≠ key) (owner : Word) (expiry : Nat) :
    lifeOf (issueEntry s key owner expiry) k = lifeOf s k := lifeOf_setLife_ne s h _
theorem curHandle_issueEntry (s : State) (key : Nat) (owner : Word) (expiry : Nat) :
    curHandle (issueEntry s key owner expiry) key = mkHandle key (nextGen (lifeOf s key).gen) := by rw [curHandle, lifeOf_issueEntry]

/-! ### GRANT (R162) -/

/-- The acting strand's request has left it waiting for its home. -/
def asking (s : State) (c i : Nat) (t : Strand) : State := putStrand s c i t.awaits

/-- The instruction answers a next state with the registers `ws` written and the PC at the next instruction; other registers, PTS and memory are as
they were. -/
def GivesBack (s : State) (t : Strand) (ins : Instr) (ws : List (GReg × Word)) (u : State) : Prop :=
  exec ins s = .next u ∧ (∀ w ∈ ws, rG u w.1 = w.2) ∧ (∀ r, r ∉ ws.map (·.1) → rG u r = rG s r) ∧ (curCtx u).pc = nextPc t.ctx.pc ∧ rPts u = t.ctx.pts
    ∧ ∀ b, memByte u.mem b = memByte s.mem b

section
variable {s : State} {g : Guard} {c i : Nat} {t : Strand} {ins : Instr} {body : State → Except Exc State} {op : HoldOp} {v : State}

/-- A home that answers at once, having changed the state to `v`, gives the registers it answers with. -/
theorem givesBack_one (hi : StrandIssues g s c i t) (hf : s.far = false) (hs : t.steps ≠ 2) (he : exec ins s = run .strand g none body s)
    (hb : body s = .ok (submitHold s op)) (d : GReg) (x : Word) {act : ReplyAct}
    (hv : serveHold (asking s c i t) (holdReq s t t.ctx.pts op) = sendReply v (curTag s) act)
    (hact : takeReply v c i t.awaits act = takeReply v c i t.awaits (.regs [(d.val, x)] t.ctx.pts)) (hcore : v.core = (asking s c i t).core) (hcur : v.cur = s.cur) (hmem : v.mem = s.mem) :
    ∃ u, GivesBack s t ins [(d, x)] u ∧ u.hold = v.hold := by
  obtain ⟨hd, hr, hpc, hpts⟩ := answered_back hi hcur rfl d x t.ctx.pts
  refine ⟨_, ⟨exec_answered hi hi.cur hi.bound hf hs he hb hv hact hcore, by simpa using hd, fun r h => hr r (by simpa using h), hpc, hpts, fun b => ?_⟩, rfl⟩
  rw [confine_mem, putStrand_mem, hmem]

theorem givesBack_two (hi : StrandIssues g s c i t) (hf : s.far = false) (hs : t.steps ≠ 2) (he : exec ins s = run .strand g none body s)
    (hb : body s = .ok (submitHold s op)) {d e : GReg} (hde : e.val = d.val + 1) (x y : Word)
    (hv : serveHold (asking s c i t) (holdReq s t t.ctx.pts op) = sendReply v (curTag s) (.regs [(d.val, x), (pairReg d, y)] t.ctx.pts))
    (hcore : v.core = (asking s c i t).core) (hcur : v.cur = s.cur) (hmem : v.mem = s.mem) :
    ∃ u, GivesBack s t ins [(d, x), (e, y)] u ∧ u.hold = v.hold := by
  have hne : d ≠ e := fun h => by subst h; omega
  rw [show pairReg d = e.val from hde.symm] at hv
  obtain ⟨hd, he', hr, hpc, hpts⟩ := answered_back_two hi hcur hne x y
  refine ⟨_, ⟨exec_answered hi hi.cur hi.bound hf hs he hb hv rfl hcore, by simp [hd, he'], fun r h => ?_, hpc, hpts, fun b => ?_⟩, rfl⟩
  · simp only [List.map_cons, List.map_nil, List.mem_cons, List.not_mem_nil, or_false, not_or] at h
    exact hr r h.1 h.2
  · rw [confine_mem, putStrand_mem, hmem]

end

/-- The entry issued, and every other as it was. -/
theorem lives_issued {s u : State} {key : Nat} {owner : Word} {expiry : Nat} (h : u.hold.lives = (issueEntry s key owner expiry).hold.lives) :
    lifeOf u key = { st := 1, expiry := expiry, gen := nextGen (lifeOf s key).gen, owner := owner } ∧ ∀ k, k ≠ key → lifeOf u k = lifeOf s k := by
  have hl (k : Nat) : lifeOf u k = lifeOf (issueEntry s key owner expiry) k := by rw [lifeOf, lifeOf, h]
  exact ⟨(hl key).trans (lifeOf_issueEntry ..), fun k hk => (hl k).trans (lifeOf_issueEntry_ne s hk ..)⟩

section
variable {s : State} {g : Guard} {c i : Nat} {t : Strand} {d e a : GReg} {x y : Src} {key : Nat}
  (hi : StrandIssues g s c i t) (hf : s.far = false) (hs : t.steps ≠ 2) (hy : (srcZ s y).toNat < 2 ^ 32)

/-- A grant that has issued an entry. -/
def Issued (s : State) (t : Strand) (ins : Instr) (key home term : Nat) (ws : List (GReg × Word)) : Prop :=
  ∃ u, GivesBack s t ins ws u ∧ lifeOf u key = { st := 1, expiry := localDt s home + term, gen := nextGen (lifeOf s key).gen, owner := t.ctxh }
    ∧ ∀ k, k ≠ key → lifeOf u k = lifeOf s k
/-- A grant that has issued none. -/
def NoneIssued (s : State) (t : Strand) (ins : Instr) (ws : List (GReg × Word)) : Prop := ∃ u, GivesBack s t ins ws u ∧ u.hold = s.hold

/-! Of a range: its home, its entry, its base and its page table must be there. -/

section
variable {w : State} {ctxh : Word} {die size term home base : Nat} {nc lp : Bool}

theorem grantRange_some (hh : rangeHome w die = some home) (hk : freeEntry w 0 home = some key) (hb : rangeBase w ctxh size = some base)
    (hfits : tableFits w { base := base, size := size, nc := nc, lp := lp } = true) :
    grantRange w ctxh die size term nc lp =
      some (issueRange w key ctxh (localDt w home + term) { base := base, size := size, nc := nc, lp := lp },
        mkHandle key (nextGen (lifeOf w key).gen), base) := by
  simp only [grantRange, hh, hk, hb, hfits, if_true]
  rw [show curHandle (issueRange w key ctxh _ _) key = curHandle (issueEntry w key ctxh (localDt w home + term)) key from rfl, curHandle_issueEntry]

theorem grantRange_tableFull (hh : rangeHome w die = some home) (hk : freeEntry w 0 home = some key) (hb : rangeBase w ctxh size = some base)
    (hfits : tableFits w { base := base, size := size, nc := nc, lp := lp } = false) : grantRange w ctxh die size term nc lp = none := by
  simp only [grantRange, hh, hk, hb, hfits, Bool.false_eq_true, if_false]

theorem grantRange_noHome (hh : rangeHome w die = none) : grantRange w ctxh die size term nc lp = none := by
  simp only [grantRange, hh]

theorem grantRange_noBase (hb : rangeBase w ctxh size = none) : grantRange w ctxh die size term nc lp = none := by
  unfold grantRange
  split
  · rfl
  · simp [hb]

end

section
variable {nc lp : Bool} (hsize : rG s a ≠ 0 ∧ (rG s a).toNat % (if lp then 2 ^ 21 else 2 ^ 16) = 0 ∧ (rG s a).toNat ≤ 2 ^ 43) (hde : e.val = d.val + 1)

include hy hsize in
theorem grantRange_checked :
    (do
      need ((rG s a).toNat != 0 && (rG s a).toNat % (if lp then 2 ^ 21 else 2 ^ 16) == 0 && decide ((rG s a).toNat ≤ 2 ^ 43)) (bad (rG s a))
      let term ← u32 (srcZ s y)
      .ok (submitHold s (.grantRange d (rG s a).toNat term nc lp)))
      = Except.ok (submitHold s (.grantRange d (rG s a).toNat (srcZ s y).toNat nc lp)) := by
  obtain ⟨h0, hp, h43⟩ := hsize
  have h0' : (rG s a).toNat ≠ 0 := fun h => h0 (BitVec.eq_of_toNat_eq h)
  rw [need_ok (by simp only [hp, h43, Bool.and_eq_true, bne_iff_ne, beq_self_eq_true, decide_true, and_true]; exact h0'), ok_bind, u32_ok hy, ok_bind]

include hi hf hs hy hsize hde

theorem grantRange_fails (hn : grantRange (asking s c i t) t.ctxh (c / 256) (rG s a).toNat (srcZ s y).toNat nc lp = none) :
    NoneIssued s t (.grantRange g d a y nc lp) [(d, 0), (e, 0)] := by
  refine givesBack_two hi hf hs rfl (grantRange_checked hy hsize) hde 0 0 (v := asking s c i t) ?_ rfl rfl rfl
  have hdie : dieOf (curTag s).core = c / 256 := by rw [hi.curTag_eq]; rfl
  simp only [serveHold, holdReq, hdie, hn, holdReply]

theorem grantRange_issues {home base : Nat} (hh : rangeHome s (c / 256) = some home) (hk : freeEntry s 0 home = some key)
    (hb : rangeBase s t.ctxh (rG s a).toNat = some base) (hfits : tableFits s { base := base, size := (rG s a).toNat, nc := nc, lp := lp } = true) :
    Issued s t (.grantRange g d a y nc lp) key home (srcZ s y).toNat [(d, mkHandle key (nextGen (lifeOf s key).gen)), (e, BitVec.ofNat 64 base)] := by
  have hr := grantRange_some (w := asking s c i t) (term := (srcZ s y).toNat) hh hk hb hfits
  have hdie : dieOf (curTag s).core = c / 256 := by rw [hi.curTag_eq]; rfl
  obtain ⟨u, hu, hold⟩ := givesBack_two hi hf hs rfl (grantRange_checked hy hsize) (ins := .grantRange g d a y nc lp) hde
    (mkHandle key (nextGen (lifeOf s key).gen)) (BitVec.ofNat 64 base)
    (v := issueRange (asking s c i t) key t.ctxh (localDt s home + (srcZ s y).toNat) { base := base, size := (rG s a).toNat, nc := nc, lp := lp })
    (by simp only [serveHold, holdReq, hdie, hr, holdReply]; rfl) rfl rfl rfl
  exact ⟨u, hu, lives_issued (s := asking s c i t) (congrArg HoldPart.lives hold :)⟩

end

/-! Of the other kinds: an entry at a home that is known. -/

include hi hf hs

/-- A home that finds no entry to issue answers 0. -/
theorem grant_fails {ins : Instr} {body : State → Except Exc State} {op : HoldOp} (he : exec ins s = run .strand g none body s)
    (hb : body s = .ok (submitHold s op))
    (hv : serveHold (asking s c i t) (holdReq s t t.ctx.pts op) = holdReply (asking s c i t) (holdReq s t t.ctx.pts op) [(d.val, 0)]) :
    NoneIssued s t ins [(d, 0)] :=
  givesBack_one (v := asking s c i t) hi hf hs he hb d 0 hv rfl rfl rfl rfl

/-- A home that issues an entry answers its handle; what else it sets up with it is no entry. -/
theorem grant_issues {ins : Instr} {body : State → Except Exc State} {op : HoldOp} {home term : Nat} (f : State → State)
    (he : exec ins s = run .strand g none body s) (hb : body s = .ok (submitHold s op))
    (hv : serveHold (asking s c i t) (holdReq s t t.ctx.pts op)
      = (let u := f (issueEntry (asking s c i t) key t.ctxh (localDt s home + term))
         holdReply u (holdReq s t t.ctx.pts op) [(d.val, curHandle u key)]))
    (hcore : ∀ u, (f u).core = u.core) (hcur : ∀ u, (f u).cur = u.cur) (hmem : ∀ u, (f u).mem = u.mem) (hlives : ∀ u, (f u).hold.lives = u.hold.lives) :
    Issued s t ins key home term [(d, mkHandle key (nextGen (lifeOf s key).gen))] := by
  have hh : curHandle (f (issueEntry (asking s c i t) key t.ctxh (localDt s home + term))) key = mkHandle key (nextGen (lifeOf s key).gen) := by
    rw [curHandle, (lives_issued (s := asking s c i t) (hlives _)).1]; rfl
  obtain ⟨u, hu, hold⟩ := givesBack_one (v := f (issueEntry (asking s c i t) key t.ctxh (localDt s home + term))) hi hf hs he hb d _
    (hv.trans (by dsimp only; rw [hh]; rfl)) rfl (hcore _) (hcur _) (hmem _)
  exact ⟨u, hu, lives_issued (s := asking s c i t) ((congrArg HoldPart.lives hold).trans (hlives _))⟩

end

/-! What the home does with each form. -/

section
variable {w : State} {r : HoldReq} {d : GReg} {home term cap which key : Nat}

theorem serveHold_grantLock_some (hr : r.op = .grantLock d home term) (hk : freeEntry w 1 home = some key) :
    serveHold w r = (let u := issueEntry w key r.ctxh (localDt w home + term); holdReply u r [(d.val, curHandle u key)]) := by
  simp only [serveHold, hr, hk]
theorem serveHold_grantLock_none (hr : r.op = .grantLock d home term) (hk : freeEntry w 1 home = none) :
    serveHold w r = holdReply w r [(d.val, 0)] := by
  simp only [serveHold, hr, hk]

/-- An accumulator slot issued is tagged to the strand (R252). -/
def tagSlot (key : Nat) (tag : Tag) (u : State) : State :=
  { u with eng.mslots := tset {} u.eng.mslots (slotKey key 8) { tag := tag, parked := false } }

theorem serveHold_grantMslot_some (hr : r.op = .grantSlot d false which term) (hh : r.tag.core / 4 * 4 = home) (hk : slotEntry w 4 home which = some key) :
    serveHold w r = (let u := tagSlot key r.tag (issueEntry w key r.ctxh (localDt w home + term)); holdReply u r [(d.val, curHandle u key)]) := by
  subst hh
  simp only [serveHold, hr, Bool.false_eq_true, if_false, hk, tagSlot]
theorem serveHold_grantFslot_some (hr : r.op = .grantSlot d true which term) (hh : r.tag.core / 4 * 4 = home) (hk : slotEntry w 5 home which = some key) :
    serveHold w r = (let u := issueEntry w key r.ctxh (localDt w home + term); holdReply u r [(d.val, curHandle u key)]) := by
  subst hh
  simp only [serveHold, hr, if_true, hk]
theorem serveHold_grantSlot_none {factor : Bool} (hr : r.op = .grantSlot d factor which term) (hh : r.tag.core / 4 * 4 = home)
    (hk : slotEntry w (if factor then 5 else 4) home which = none) : serveHold w r = holdReply w r [(d.val, 0)] := by
  subst hh
  simp only [serveHold, hr, hk]
theorem serveHold_grantEvq_some (hr : r.op = .grantEvq d cap term) (hh : defaultSlice w r.tag.core = home) (hk : freeEntry w 7 home = some key)
    (hroom : storeUsed w home + cap ≤ 65536) :
    serveHold w r = (let u := putEvq (issueEntry w key r.ctxh (localDt w home + term)) key { cap := cap }
      holdReply u r [(d.val, curHandle u key)]) := by
  subst hh
  simp only [serveHold, hr, hk, hroom, if_true]
theorem serveHold_grantEvq_none (hr : r.op = .grantEvq d cap term) (hh : defaultSlice w r.tag.core = home)
    (hk : freeEntry w 7 home = none ∨ 65536 < storeUsed w home + cap) : serveHold w r = holdReply w r [(d.val, 0)] := by
  subst hh
  simp only [serveHold, hr]
  rcases hk with hk | hk
  · simp only [hk]
  · split
    · rw [if_neg (by omega)]
    · rfl

end

/-! The checks of each form. -/

section
variable {s : State} {g : Guard} {c i : Nat} {t : Strand} {d a : GReg} {x y : Src}

/-- A value, a term and a request: the checks of a grant in one. -/
theorem grant_checked {b : Bool} (hb : b = true) (hy : (srcZ s y).toNat < 2 ^ 32) (e : Exc) (op : Nat → HoldOp) :
    (do need b e
        let term ← u32 (srcZ s y)
        .ok (submitHold s (op term))) = Except.ok (submitHold s (op (srcZ s y).toNat)) := by
  rw [need_ok hb, ok_bind, u32_ok hy, ok_bind]

/-- A value that is not admitted is the first thing found. -/
theorem check_fails {α : Type} {b : Bool} (hb : b = false) (e : Exc) (k : Unit → Except Exc α) : (need b e >>= k) = .error e := by
  rw [need_error hb, error_bind]

/-- A term that is no u32 is found after it (R161). -/
theorem term_fails {b : Bool} (hb : b = true) (hy : 2 ^ 32 ≤ (srcZ s y).toNat) (e : Exc) (op : Nat → HoldOp) :
    (do need b e
        let term ← u32 (srcZ s y)
        .ok (submitHold s (op term))) = Except.error (bad (srcZ s y)) := by
  rw [need_ok hb, ok_bind, u32_error hy, error_bind]

theorem slicePresent_lt {v : Nat} (h : slicePresent s v = true) : v < 1024 := by
  simp only [slicePresent, Bool.and_eq_true, decide_eq_true_eq] at h
  exact h.1.1.1

theorem word_eq_zero_iff (v : Word) : v = 0 ↔ v.toNat = 0 := ⟨fun h => h ▸ rfl, fun h => BitVec.eq_of_toNat_eq h⟩

/-- The slice that a GRANT.LOCK names: its own, for 0 (R162). -/
def lockSlice (s : State) (c v : Nat) : Nat := if v = 0 then defaultSlice s c else v

theorem grantLock_checked (hi : StrandIssues g s c i t) (hv : (srcZ s x).toNat = 0 ∨ slicePresent s (srcZ s x).toNat = true)
    (hy : (srcZ s y).toNat < 2 ^ 32) :
    (do need (srcZ s x == 0 || (decide ((srcZ s x).toNat < 1024) && slicePresent s (srcZ s x).toNat)) (bad (srcZ s x))
        let term ← u32 (srcZ s y)
        .ok (submitHold s (.grantLock d (if srcZ s x == 0 then defaultSlice s (curCore s) else (srcZ s x).toNat) term)))
      = Except.ok (submitHold s (.grantLock d (lockSlice s c (srcZ s x).toNat) (srcZ s y).toNat)) := by
  have hslice : (if srcZ s x == 0 then defaultSlice s (curCore s) else (srcZ s x).toNat) = lockSlice s c (srcZ s x).toNat := by
    simp only [lockSlice, beq_iff_eq, word_eq_zero_iff, hi.curCore_eq]
  rw [hslice]
  refine grant_checked (op := fun term => .grantLock d (lockSlice s c (srcZ s x).toNat) term) ?_ hy _
  rcases hv with h0 | hp
  · simp [(word_eq_zero_iff _).mpr h0]
  · simp [hp, slicePresent_lt hp]

theorem grantLock_refused (h0 : (srcZ s x).toNat ≠ 0) (hp : slicePresent s (srcZ s x).toNat = false) :
    (srcZ s x == 0 || (decide ((srcZ s x).toNat < 1024) && slicePresent s (srcZ s x).toNat)) = false := by
  have hw : srcZ s x ≠ 0 := mt (word_eq_zero_iff _).mp h0
  rw [hp, Bool.and_false, Bool.or_false, beq_eq_false_iff_ne]
  exact hw

/-! Each form, its checks passed, at a home that is near. -/

section
variable {key : Nat} (hi : StrandIssues g s c i t) (hf : s.far = false) (hs : t.steps ≠ 2) (hy : (srcZ s y).toNat < 2 ^ 32)
include hi hf hs hy

theorem grantLock_issues (hv : (srcZ s x).toNat = 0 ∨ slicePresent s (srcZ s x).toNat = true) (hk : freeEntry s 1 (lockSlice s c (srcZ s x).toNat) = some key) :
    Issued s t (.grantLock g d x y) key (lockSlice s c (srcZ s x).toNat) (srcZ s y).toNat [(d, mkHandle key (nextGen (lifeOf s key).gen))] :=
  grant_issues hi hf hs id rfl (grantLock_checked hi hv hy) (serveHold_grantLock_some (w := asking s c i t) rfl hk)
    (fun _ => rfl) (fun _ => rfl) (fun _ => rfl) fun _ => rfl

theorem grantLock_fails (hv : (srcZ s x).toNat = 0 ∨ slicePresent s (srcZ s x).toNat = true) (hk : freeEntry s 1 (lockSlice s c (srcZ s x).toNat) = none) :
    NoneIssued s t (.grantLock g d x y) [(d, 0)] :=
  grant_fails hi hf hs rfl (grantLock_checked hi hv hy) (serveHold_grantLock_none (w := asking s c i t) rfl hk)

theorem grantMslot_issues (hv : (srcZ s x).toNat ≤ 8) (hk : slotEntry s 4 (c / 4 * 4) (srcZ s x).toNat = some key) :
    Issued s t (.grantMslot g d x y) key (c / 4 * 4) (srcZ s y).toNat [(d, mkHandle key (nextGen (lifeOf s key).gen))] :=
  grant_issues hi hf hs (tagSlot key (curTag s)) rfl (grant_checked (decide_eq_true hv) hy (bad (srcZ s x)) fun term => .grantSlot d false (srcZ s x).toNat term)
    (serveHold_grantMslot_some (w := asking s c i t) rfl (by rw [holdReq, hi.curTag_eq]) hk)
    (fun _ => rfl) (fun _ => rfl) (fun _ => rfl) fun _ => rfl

theorem grantMslot_fails (hv : (srcZ s x).toNat ≤ 8) (hk : slotEntry s 4 (c / 4 * 4) (srcZ s x).toNat = none) :
    NoneIssued s t (.grantMslot g d x y) [(d, 0)] :=
  grant_fails hi hf hs rfl (grant_checked (decide_eq_true hv) hy (bad (srcZ s x)) fun term => .grantSlot d false (srcZ s x).toNat term)
    (serveHold_grantSlot_none (w := asking s c i t) rfl (by rw [holdReq, hi.curTag_eq]) hk)

theorem grantFslot_issues (hv : (srcZ s x).toNat ≤ 4) (hk : slotEntry s 5 (c / 4 * 4) (srcZ s x).toNat = some key) :
    Issued s t (.grantFslot g d x y) key (c / 4 * 4) (srcZ s y).toNat [(d, mkHandle key (nextGen (lifeOf s key).gen))] :=
  grant_issues hi hf hs id rfl (grant_checked (decide_eq_true hv) hy (bad (srcZ s x)) fun term => .grantSlot d true (srcZ s x).toNat term)
    (serveHold_grantFslot_some (w := asking s c i t) rfl (by rw [holdReq, hi.curTag_eq]) hk)
    (fun _ => rfl) (fun _ => rfl) (fun _ => rfl) fun _ => rfl

theorem grantFslot_fails (hv : (srcZ s x).toNat ≤ 4) (hk : slotEntry s 5 (c / 4 * 4) (srcZ s x).toNat = none) :
    NoneIssued s t (.grantFslot g d x y) [(d, 0)] :=
  grant_fails hi hf hs rfl (grant_checked (decide_eq_true hv) hy (bad (srcZ s x)) fun term => .grantSlot d true (srcZ s x).toNat term)
    (serveHold_grantSlot_none (w := asking s c i t) rfl (by rw [holdReq, hi.curTag_eq]) hk)

end

theorem grantEvq_checked (hlo : 4 ≤ (srcZ s x).toNat) (hhi : (srcZ s x).toNat ≤ 4096) :
    (decide (4 ≤ (srcZ s x).toNat) && decide ((srcZ s x).toNat ≤ 4096)) = true := by simp [hlo, hhi]

section
variable {key : Nat} (hi : StrandIssues g s c i t) (hf : s.far = false) (hs : t.steps ≠ 2) (hy : (srcZ s y).toNat < 2 ^ 32)
  (hlo : 4 ≤ (srcZ s x).toNat) (hhi : (srcZ s x).toNat ≤ 4096)
include hi hf hs hy hlo hhi

theorem grantEvq_issues (hk : freeEntry s 7 (defaultSlice s c) = some key) (hroom : storeUsed s (defaultSlice s c) + (srcZ s x).toNat ≤ 65536) :
    Issued s t (.grantEvq g d x y) key (defaultSlice s c) (srcZ s y).toNat [(d, mkHandle key (nextGen (lifeOf s key).gen))] :=
  grant_issues hi hf hs (fun u => putEvq u key { cap := (srcZ s x).toNat }) rfl
    (grant_checked (grantEvq_checked hlo hhi) hy (bad (srcZ s x)) fun term => .grantEvq d (srcZ s x).toNat term)
    (serveHold_grantEvq_some (w := asking s c i t) rfl (by rw [holdReq, hi.curTag_eq]; rfl) hk hroom)
    (fun _ => rfl) (fun _ => rfl) (fun _ => rfl) fun _ => rfl

theorem grantEvq_fails (hk : freeEntry s 7 (defaultSlice s c) = none ∨ 65536 < storeUsed s (defaultSlice s c) + (srcZ s x).toNat) :
    NoneIssued s t (.grantEvq g d x y) [(d, 0)] :=
  grant_fails hi hf hs rfl (grant_checked (grantEvq_checked hlo hhi) hy (bad (srcZ s x)) fun term => .grantEvq d (srcZ s x).toNat term)
    (serveHold_grantEvq_none (w := asking s c i t) rfl (by rw [holdReq, hi.curTag_eq]; rfl) hk)

end
end

/-- Settles O19. A grant by what its home answers once its checks have passed; a refused one by the check that fails. -/
theorem grantsIssueEntriesOrTrap : Obligations.GrantsIssueEntriesOrTrap := by
  refine ⟨?served, ?refused⟩
  case served =>
    intro s g c i t d e a x y nc lp key hi hf hs hy hde term v own h back issued failed sizeOk slice
    exact ⟨fun home base hsize hh hk hb => ⟨grantRange_issues hi hf hs hy hsize hde hh hk hb,
        fun hfits => grantRange_fails hi hf hs hy hsize hde (grantRange_tableFull (w := asking s c i t) hh hk hb hfits)⟩,
      fun hsize hb => grantRange_fails hi hf hs hy hsize hde (grantRange_noBase (w := asking s c i t) hb),
      fun hsize hh => grantRange_fails hi hf hs hy hsize hde (grantRange_noHome (w := asking s c i t) hh),
      grantLock_issues hi hf hs hy, grantLock_fails hi hf hs hy, grantMslot_issues hi hf hs hy, grantMslot_fails hi hf hs hy,
      grantFslot_issues hi hf hs hy, grantFslot_fails hi hf hs hy, grantEvq_issues hi hf hs hy, grantEvq_fails hi hf hs hy,
      fun kind home => freeEntry_lowest⟩
  case refused =>
    intro s g c i t d a x y nc lp hi v page
    refine ⟨fun hbad => ?_, fun h0 hp => ?_, fun h8 => ?_, fun h4 => ?_, fun hv => ?_, fun hy h4 => ⟨?_, ?_, ?_⟩⟩
    · have hneed : ((rG s a).toNat != 0 && (rG s a).toNat % page == 0 && decide ((rG s a).toNat ≤ 2 ^ 43)) = false := by
        rw [word_eq_zero_iff] at hbad
        by_contra hc
        simp only [Bool.not_eq_false, Bool.and_eq_true, bne_iff_ne, beq_iff_eq, decide_eq_true_eq] at hc
        omega
      exact traps_of_run hi.issues rfl (check_fails hneed _ _)
    · exact traps_of_run hi.issues rfl (check_fails (grantLock_refused h0 hp) _ _)
    · exact traps_of_run hi.issues rfl (check_fails (decide_eq_false (not_le.mpr h8)) _ _)
    · exact traps_of_run hi.issues rfl (check_fails (decide_eq_false (not_le.mpr h4)) _ _)
    · have hneed : (decide (4 ≤ v) && decide (v ≤ 4096)) = false := by
        rw [Bool.and_eq_false_iff, decide_eq_false_iff_not, decide_eq_false_iff_not]; omega
      exact traps_of_run hi.issues rfl (check_fails hneed _ _)
    · exact traps_of_run hi.issues rfl (term_fails (decide_eq_true (h4.trans_le (by decide))) hy _ fun term => .grantSlot d false v term)
    · exact traps_of_run hi.issues rfl (term_fails (decide_eq_true (h4.trans_le (by decide))) hy _ fun term => .grantSlot d true v term)
    · exact traps_of_run hi.issues rfl (term_fails (grantEvq_checked h4.ge (h4.trans_le (by decide))) hy _ fun term => .grantEvq d v term)

end Sys2Proof.Machine
end

section
/-! PROOFS. Renewals, lives, locks and routes at their home (O20), and requests and replies that travel (O21). -/

namespace Sys2Proof.Machine
open Sys2Proof

/-! ### What the home does with each request (R31, R33, R164, R166, R168) -/

section
variable {w : State} {r : HoldReq} {d : GReg} {h : Word} {term : Nat}

/-- A renewal retags an accumulator slot to the strand (R252). -/
def retag (h : Word) (tag : Tag) (u : State) : State := if hKind h = 4 then tagSlot (hKey h) tag u else u

theorem retag_core (tag : Tag) (u : State) : (retag h tag u).core = u.core := by unfold retag; split <;> rfl
theorem retag_cur (tag : Tag) (u : State) : (retag h tag u).cur = u.cur := by unfold retag; split <;> rfl
theorem retag_mem (tag : Tag) (u : State) : (retag h tag u).mem = u.mem := by unfold retag; split <;> rfl
theorem retag_hold (tag : Tag) (u : State) : (retag h tag u).hold = u.hold := by unfold retag; split <;> rfl

theorem serveHold_renew (hr : r.op = .renew d h term) (hh : checkHome w r.ctxh h = .ok ()) :
    serveHold w r = holdReply (retag h r.tag (setLife w (hKey h) { lifeOf w (hKey h) with expiry := localDt w (hHome h) + term })) r
      [(d.val, BitVec.ofNat 64 (localDt w (hHome h) + term))] := by
  simp only [serveHold, hr, hh, retag, beq_iff_eq, tagSlot]

theorem serveHold_renew_error {e : Exc} (hr : r.op = .renew d h term) (hh : checkHome w r.ctxh h = .error e) :
    serveHold w r = sendReply w r.tag (.exc e) := by
  simp only [serveHold, hr, hh, holdTrap]

theorem serveHold_life_other (hr : r.op = .life d h) (hx : checkIndex h = .ok ()) (hg : (lifeOf w (hKey h)).gen ≠ hGen h) :
    serveHold w r = sendReply w r.tag (.life d.val 0 r.pts) := by
  simp only [serveHold, hr, hx, bne_iff_ne, ne_eq, hg, not_false_eq_true, if_true]

theorem serveHold_life (hr : r.op = .life d h) (hx : checkIndex h = .ok ()) (hg : (lifeOf w (hKey h)).gen = hGen h)
    (ho : (lifeOf w (hKey h)).owner = r.ctxh) :
    serveHold w r = sendReply w r.tag (.life d.val (if isLive w (hKey h) then (lifeOf w (hKey h)).expiry else 0) r.pts) := by
  simp only [serveHold, hr, hx, bne_iff_ne, ne_eq, hg, ho, not_true, if_false]

end

section
variable {w : State} {r : HoldReq} {d : GReg} {h : Word} {term : Nat} {nw : Bool} (hr : r.op = .lock d h term nw) (hx : checkIndex h = .ok ())
  (ho : (lifeOf w (hKey h)).owner = r.ctxh) (hg : (lifeOf w (hKey h)).gen ≠ 0)
include hr hx ho hg

/-- A free lock issues its next tenure. -/
theorem serveHold_lock_free (hs : (lifeOf w (hKey h)).st = 0) (hq : (lockAt w (hKey h)).queue = []) :
    serveHold w r = (let u := issueEntry w (hKey h) (lifeOf w (hKey h)).owner (localDt w (hHome h) + term)
      holdReply u r [(d.val, curHandle u (hKey h))]) := by
  simp [serveHold, hr, hx, ho, hg, hs, hq]

variable (hb : (lifeOf w (hKey h)).st ≠ 0 ∨ (lockAt w (hKey h)).queue ≠ [])
include hb

/-- Of a lock that is held, .NW gives 0. -/
theorem serveHold_lock_nw (hn : nw = true) : serveHold w r = holdReply w r [(d.val, 0)] := by
  have hb' : ((lifeOf w (hKey h)).st == 0 && (lockAt w (hKey h)).queue.isEmpty) = false := by
    rcases hb with hb | hb <;> simp [hb]
  simp [serveHold, hr, hx, ho, hg, hn, hb']

/-- A LOCK of one waits. -/
theorem serveHold_lock_waits (hn : nw = false) (hroom : lockWaiters w (hHome h) < 16384) : serveHold w r
    = putLock w (hKey h) { queue := (lockAt w (hKey h)).queue ++ [{ tag := r.tag, term := term, d := d, pts := r.pts }] } := by
  have hb' : ((lifeOf w (hKey h)).st == 0 && (lockAt w (hKey h)).queue.isEmpty) = false := by
    rcases hb with hb | hb <;> simp [hb]
  simp [serveHold, hr, hx, ho, hg, hn, hb', Nat.not_le.mpr hroom]

end

/-! ### The instructions (R164, R166) -/

/-- The instruction gives `v` in `d`; other registers and memory are as they were. -/
def Gives (s : State) (t : Strand) (d : GReg) (ins : Instr) (v : Word) (u : State) : Prop :=
  exec ins s = .next u ∧ rG u d = v ∧ (∀ r, r ≠ d → rG u r = rG s r) ∧ (curCtx u).pc = nextPc t.ctx.pc ∧ ∀ b, memByte u.mem b = memByte s.mem b

theorem GivesBack.gives {s u : State} {t : Strand} {d : GReg} {ins : Instr} {v : Word} (h : GivesBack s t ins [(d, v)] u) : Gives s t d ins v u := by
  obtain ⟨he, hw, hr, hpc, -, hm⟩ := h
  exact ⟨he, hw _ (List.mem_singleton_self _), fun r h => hr r (by simpa using h), hpc, hm⟩

section
variable {s : State} {g : Guard} {c i : Nat} {t : Strand} {d a : GReg} {y : Src}
  (hi : StrandIssues g s c i t) (hf : s.far = false) (hs : t.steps ≠ 2)
include hi hf hs

theorem renew_gives (hy : (srcZ s y).toNat < 2 ^ 32) (hh : checkHandle s [0, 1, 2, 4, 5, 6, 7] (rG s a) = .ok ())
    (hhome : checkHome s t.ctxh (rG s a) = .ok ()) :
    ∃ u, Gives s t d (.renew g d a y) (BitVec.ofNat 64 (localDt s (hHome (rG s a)) + (srcZ s y).toNat)) u
      ∧ lifeOf u (hKey (rG s a)) = { lifeOf s (hKey (rG s a)) with expiry := localDt s (hHome (rG s a)) + (srcZ s y).toNat } ∧ rPts u = t.ctx.pts := by
  let x := localDt s (hHome (rG s a)) + (srcZ s y).toNat
  obtain ⟨u, hu, hold⟩ := givesBack_one hi hf hs (ins := .renew g d a y) rfl (by rw [hh, ok_bind, u32_ok hy, ok_bind]) d (BitVec.ofNat 64 x)
    (v := retag (rG s a) (curTag s) (setLife (asking s c i t) (hKey (rG s a)) { lifeOf s (hKey (rG s a)) with expiry := x }))
    (serveHold_renew (w := asking s c i t) rfl hhome) rfl (retag_core ..) (retag_cur ..) (retag_mem ..)
  rw [retag_hold] at hold
  refine ⟨u, hu.gives, ?_, hu.2.2.2.2.1⟩
  rw [lifeOf, hold]
  exact tget_tset ..

theorem life_gives_other (hh : checkHandle s [0, 1, 2, 3, 4, 5, 6, 7] (rG s a) = .ok ()) (hx : checkIndex (rG s a) = .ok ())
    (hg : (lifeOf s (hKey (rG s a))).gen ≠ hGen (rG s a)) : ∃ u, Gives s t d (.life g d a) 0 u := by
  have hact : takeReply (asking s c i t) c i t.awaits (.life d.val 0 t.ctx.pts) = takeReply (asking s c i t) c i t.awaits (.regs [(d.val, 0)] t.ctx.pts) := by
    simp only [takeReply, Nat.zero_sub]; rfl
  obtain ⟨u, hu, -⟩ := givesBack_one (v := asking s c i t) hi hf hs (ins := .life g d a) rfl (by rw [hh, ok_bind]) d 0
    (serveHold_life_other (w := asking s c i t) rfl hx hg) hact rfl rfl rfl
  exact ⟨u, hu.gives⟩

theorem life_gives (hh : checkHandle s [0, 1, 2, 3, 4, 5, 6, 7] (rG s a) = .ok ()) (hx : checkIndex (rG s a) = .ok ())
    (hg : (lifeOf s (hKey (rG s a))).gen = hGen (rG s a)) (ho : (lifeOf s (hKey (rG s a))).owner = t.ctxh) :
    ∃ u, Gives s t d (.life g d a) (BitVec.ofNat 64 ((if (lifeOf s (hKey (rG s a))).st = 1
      ∧ localDt s (keyHome (hKey (rG s a))) ≤ (lifeOf s (hKey (rG s a))).expiry then (lifeOf s (hKey (rG s a))).expiry else 0) - localDt s c)) u := by
  obtain ⟨u, hu, -⟩ := givesBack_one (v := asking s c i t) hi hf hs (ins := .life g d a) rfl (by rw [hh, ok_bind]) d _
    (serveHold_life (w := asking s c i t) rfl hx hg ho) rfl rfl rfl rfl
  have hlive : isLive (asking s c i t) (hKey (rG s a)) = true ↔ (lifeOf s (hKey (rG s a))).st = 1
      ∧ localDt s (keyHome (hKey (rG s a))) ≤ (lifeOf s (hKey (rG s a))).expiry := by
    show isLive s _ = true ↔ _
    simp [isLive]
  simp only [hlive] at hu
  exact ⟨u, hu.gives⟩

variable (hy : (srcZ s y).toNat < 2 ^ 32) (hh : checkHandle s [1] (rG s a) = .ok ()) (hx : checkIndex (rG s a) = .ok ())
  (ho : (lifeOf s (hKey (rG s a))).owner = t.ctxh) (hg : (lifeOf s (hKey (rG s a))).gen ≠ 0)

omit hi hf hs in
include hy hh in
theorem lockOn_checked (nw : Bool) : lockOn d a y nw s = .ok (submitHold s (.lock d (rG s a) (srcZ s y).toNat nw)) := by
  rw [lockOn, hh, ok_bind, u32_ok hy, ok_bind]

include hy hh hx ho hg

/-- A free lock issues its next tenure, to LOCK as to .NW. -/
theorem lock_gives {ins : Instr} {nw : Bool} (he : exec ins s = run .strand g none (lockOn d a y nw) s)
    (hst : (lifeOf s (hKey (rG s a))).st = 0) (hq : (lockAt s (hKey (rG s a))).queue = []) :
    ∃ u, Gives s t d ins (mkHandle (hKey (rG s a)) (nextGen (lifeOf s (hKey (rG s a))).gen)) u
      ∧ lifeOf u (hKey (rG s a)) =
        { st := 1, expiry := localDt s (hHome (rG s a)) + (srcZ s y).toNat, gen := nextGen (lifeOf s (hKey (rG s a))).gen
          owner := (lifeOf s (hKey (rG s a))).owner } := by
  obtain ⟨u, hu, hlife, -⟩ := grant_issues (op := .lock d (rG s a) (srcZ s y).toNat nw) hi hf hs id he (lockOn_checked hy hh nw)
    ((serveHold_lock_free (w := asking s c i t) (r := holdReq s t t.ctx.pts _) rfl hx ho hg hst hq).trans (by rw [show (lifeOf (asking s c i t) (hKey (rG s a))).owner = t.ctxh from ho]; rfl))
    (fun _ => rfl) (fun _ => rfl) (fun _ => rfl) fun _ => rfl
  exact ⟨u, hu.gives, ho ▸ hlife⟩

variable (hb : (lifeOf s (hKey (rG s a))).st ≠ 0 ∨ (lockAt s (hKey (rG s a))).queue ≠ [])
include hb

theorem lockNw_gives_none : ∃ u, Gives s t d (.lockNw g d a y) 0 u ∧ u.hold = s.hold := by
  obtain ⟨u, hu, hold⟩ := grant_fails hi hf hs (ins := .lockNw g d a y) rfl (lockOn_checked hy hh true)
    (serveHold_lock_nw (w := asking s c i t) rfl hx ho hg hb rfl)
  exact ⟨u, hu.gives, hold⟩

omit hs in
/-- LOCK of a lock that is held waits in its queue. -/
theorem lock_waits (hroom : lockWaiters s (hHome (rG s a)) < 16384) (hr : ∀ r ∈ s.coh.replies, r.tag ≠ curTag s) :
    exec (.lock g d a y) s = .next (putLock (putStrand s c i { t with st := 1, wait := .reply }) (hKey (rG s a))
      { queue := (lockAt s (hKey (rG s a))).queue ++ [{ tag := curTag s, term := (srcZ s y).toNat, d := d, pts := t.ctx.pts }] }) := by
  rw [exec_asks hi hi.cur hi.bound hf rfl (lockOn_checked hy hh false),
    serveHold_lock_waits (w := putStrand s c i t.awaits) (r := holdReq s t t.ctx.pts _) rfl hx ho hg hb rfl hroom, deliver_none (s := putLock (putStrand s c i _) _ _) hr]
  rfl

end

/-! ### ROUTE (R167, R168) -/

section
variable {w : State} {r : HoldReq} {d : GReg} {desc : Route} {term home key : Nat}

theorem serveHold_route_some (hr : r.op = .route d desc term) (hh : defaultSlice w r.tag.core = home) (hk : freeEntry w 2 home = some key) :
    serveHold w r = (let u := putRoute (issueEntry w key r.ctxh (localDt w home + term)) key desc; holdReply u r [(d.val, curHandle u key)]) := by
  subst hh
  simp only [serveHold, hr, hk]
theorem serveHold_route_none (hr : r.op = .route d desc term) (hh : defaultSlice w r.tag.core = home) (hk : freeEntry w 2 home = none) :
    serveHold w r = holdReply w r [(d.val, 0)] := by
  subst hh
  simp only [serveHold, hr, hk]

end

section
variable {s : State} {g : Guard} {c i off : Nat} {t : Strand} {d a : GReg} {y : Src}

/-- The state in which a ROUTE has read its descriptor. -/
def routing (s : State) (c i off : Nat) (t : Strand) : State := putStrand (readAt s c off t.ctx.pts) c i (t.withPts (loadTs s c off t))

/-- ROUTE once its pointer and its term have passed: what is left are the descriptor's checks. -/
theorem exec_route (hi : StrandIssues g s c i t) (hp : ownPtr s (rG s a) 32 = .ok off) (hy : (srcZ s y).toNat < 2 ^ 32) :
    exec (.route g d a y) s = run .strand g none (fun _ => do
      let desc ← routeOf s (memRead s.mem (scratchAt c off) 32)
      .ok (submitHold (routing s c i off t) (.route d desc (srcZ s y).toNat))) s := by
  have hw : wPts (readAt s c off t.ctx.pts) (max t.ctx.pts (stampAt s c off).wts) = routing s c i off t := wPts_strand (s := readAt s c off _) hi.cur hi.bound _
  show run _ _ _ _ s = run _ _ _ _ s
  simp only [run, perform_issues _ hi.issues, hp, ok_bind, u32_ok hy, spLoad_readAt hi.sound, hi.curCore_eq, hi.rPts_eq,
    softCheck_sound (t := readAt s c off t.ctx.pts) hi.sound, hw]

variable (hi : StrandIssues g s c i t) (hf : s.far = false) (hs : t.steps ≠ 2) (hy : (srcZ s y).toNat < 2 ^ 32) (hp : ownPtr s (rG s a) 32 = .ok off)
include hi hf hs hy hp

/-- What the home answers once it has left the state `v`. -/
theorem route_answered {desc : Route} {v : State} {x : Word} (hd : routeOf s (memRead s.mem (scratchAt c off) 32) = .ok desc)
    (hv : serveHold (putStrand (routing s c i off t) c i (t.withPts (loadTs s c off t)).awaits)
      (holdReq (routing s c i off t) (t.withPts (loadTs s c off t)) (loadTs s c off t) (.route d desc (srcZ s y).toNat))
      = sendReply v (curTag s) (.regs [(d.val, x)] (loadTs s c off t)))
    (hcore : v.core = (putStrand (routing s c i off t) c i (t.withPts (loadTs s c off t)).awaits).core) (hcur : v.cur = s.cur) (hmem : v.mem = s.mem) :
    ∃ u, Gives s t d (.route g d a y) x u ∧ u.hold = v.hold ∧ rPts u = loadTs s c off t := by
  obtain ⟨hx, hr, hpc, hpts⟩ := answered_back (y := t.withPts (loadTs s c off t)) hi hcur rfl d x (loadTs s c off t)
  refine ⟨_, ⟨exec_answered hi (w := routing s c i off t) hi.cur (strandAt_putStrand ..) hf hs (exec_route hi hp hy) (by rw [hd, ok_bind]) hv rfl hcore,
    hx, hr, hpc, fun b => ?_⟩, rfl, hpts⟩
  rw [confine_mem, putStrand_mem, hmem]

theorem route_issues {desc : Route} {k : Nat} (hd : routeOf s (memRead s.mem (scratchAt c off) 32) = .ok desc)
    (hk : freeEntry s 2 (defaultSlice s c) = some k) :
    ∃ u, Gives s t d (.route g d a y) (mkHandle k (nextGen (lifeOf s k).gen)) u ∧ tget {} u.hold.routes k = desc
      ∧ lifeOf u k = { st := 1, expiry := localDt s (defaultSlice s c) + (srcZ s y).toNat, gen := nextGen (lifeOf s k).gen, owner := t.ctxh }
      ∧ rPts u = max t.ctx.pts (stampAt s c off).wts := by
  let w := putStrand (routing s c i off t) c i (t.withPts (loadTs s c off t)).awaits
  let v := putRoute (issueEntry w k t.ctxh (localDt s (defaultSlice s c) + (srcZ s y).toNat)) k desc
  have hh : curHandle v k = mkHandle k (nextGen (lifeOf s k).gen) := curHandle_issueEntry ..
  obtain ⟨u, hu, hold, hpts⟩ := route_answered (v := v) (x := mkHandle k (nextGen (lifeOf s k).gen)) hi hf hs hy hp hd
    ((serveHold_route_some (w := w) rfl (by rw [holdReq, show curTag (routing s c i off t) = curTag s from rfl, hi.curTag_eq]; rfl) hk).trans
      (by dsimp only; rw [← hh]; rfl)) rfl rfl rfl
  exact ⟨u, hu, by rw [hold]; exact tget_tset .., (lives_issued (s := w) (congrArg HoldPart.lives hold :)).1, hpts⟩

theorem route_fails {desc : Route} (hd : routeOf s (memRead s.mem (scratchAt c off) 32) = .ok desc) (hk : freeEntry s 2 (defaultSlice s c) = none) :
    ∃ u, Gives s t d (.route g d a y) 0 u ∧ u.hold = s.hold := by
  let w := putStrand (routing s c i off t) c i (t.withPts (loadTs s c off t)).awaits
  obtain ⟨u, hu, hold, -⟩ := route_answered (v := w) (x := 0) hi hf hs hy hp hd
    (serveHold_route_none (w := w) rfl (by rw [holdReq, show curTag (routing s c i off t) = curTag s from rfl, hi.curTag_eq]; rfl) hk) rfl rfl rfl
  exact ⟨u, hu, hold⟩

omit hf hs in
theorem route_traps {e : Exc} (he : routeOf s (memRead s.mem (scratchAt c off) 32) = .error e) : Traps (.route g d a y) s e :=
  traps_of_run hi.issues (exec_route hi hp hy) (by rw [he, error_bind])

end

/-- Settles O20. Each request by what its home does with it. -/
theorem renewLifeLockAndRouteAtTheirHome : Obligations.RenewLifeLockAndRouteAtTheirHome := by
  intro s g c i t d a y hi hf hs hy term h key x home q gives
  refine ⟨renew_gives hi hf hs hy, fun hh hx => ⟨life_gives_other hi hf hs hh hx, life_gives hi hf hs hh hx⟩,
    fun hh hx ho hg => ⟨lock_gives hi hf hs hy hh hx ho hg rfl, fun hb => ⟨lockNw_gives_none hi hf hs hy hh hx ho hg hb, lock_waits hi hf hy hh hx ho hg hb⟩,
      fun hst hq => ?_⟩,
    fun off hp => ⟨fun desc k => route_issues hi hf hs hy hp, fun desc => route_fails hi hf hs hy hp, fun e => route_traps hi hy hp⟩⟩
  obtain ⟨u, hu, -⟩ := lock_gives (ins := .lockNw g d a y) (nw := true) hi hf hs hy hh hx ho hg rfl hst hq
  exact ⟨u, hu⟩

/-! ### Requests that travel (R32, R94, R55) -/

/-- A request whose home is far is on its way, its strand in STATE 1. -/
theorem exec_travels {s : State} {g : Guard} {c i : Nat} {t : Strand} {ins : Instr} {body : State → Except Exc State} {op : HoldOp}
    (hi : StrandIssues g s c i t) (hf : s.far = true) (he : exec ins s = run .strand g none body s) (hb : body s = .ok (submitHold s op)) :
    exec ins s = .next { putStrand s c i t.awaits with hold.reqs := s.hold.reqs ++ [holdReq s t t.ctx.pts op] } := by
  rw [he, run_ok hi.issues hb (.inr hi.sound), submitHold, submitHoldAt_strand hi.cur hi.bound, if_pos hf, hi.rPts_eq, hi.curCtxh_eq]
  rfl

section
variable {s : State} {n : Nat} {r : HoldReq} (hr : s.hold.reqs[n]? = some r)
include hr

/-- HOME_REQUEST takes the request out of transit and serves it. -/
theorem exec_homeRequest : exec (.homeRequest n) s = .next (confine s (serveHold { s with hold.reqs := s.hold.reqs.eraseIdx n } r)) := by
  show Host.Outcome.next (confine s _) = _
  rw [hr, dropAt_eq_eraseIdx]

variable {d : GReg} {h : Word} {term : Nat} (hop : r.op = .renew d h term)
include hop

theorem homeRequest_renew (hk : hKind h ≠ 4) (hh : checkHome s r.ctxh h = .ok ()) : exec (.homeRequest n) s = .next (
    let x := localDt s (hHome h) + term
    let u := setLife { s with hold.reqs := s.hold.reqs.eraseIdx n } (hKey h) { lifeOf s (hKey h) with expiry := x }
    { u with coh.replies := s.coh.replies ++ [{ tag := r.tag, act := .regs [(d.val, BitVec.ofNat 64 x)] r.pts }] }) := by
  rw [exec_homeRequest hr, serveHold_renew (w := { s with hold.reqs := s.hold.reqs.eraseIdx n }) hop hh, retag, if_neg hk]
  rfl

theorem homeRequest_renew_error {e : Exc} (hh : checkHome s r.ctxh h = .error e) : exec (.homeRequest n) s = .next
    { s with hold.reqs := s.hold.reqs.eraseIdx n, coh.replies := s.coh.replies ++ [{ tag := r.tag, act := .exc e }] } := by
  rw [exec_homeRequest hr, serveHold_renew_error (w := { s with hold.reqs := s.hold.reqs.eraseIdx n }) hop hh]
  rfl

end

section
variable {s : State} {c i : Nat} {r : Reply} {rest : List Reply} (hr : s.coh.replies = r :: rest) (hc : r.tag.core = c) (hslot : r.tag.slot = i)
include hr hc hslot

/-- The first reply in transit is the first for its slot, and none is before it. -/
theorem replyArrival_waits {t : Strand} (ht : tagged s r.tag = some t) (hst : t.st = 1) (hw : t.wait = .reply) :
    exec (.replyArrival c i) s = .next (confine s (takeReply { s with coh.replies := rest } c i t r.act)) := by
  show Host.Outcome.next (confine s _) = _
  rw [hr]
  simp [findPos, hc, hslot, replyBehind, dropAt, ht, hst, hw]

theorem replyArrival_regs {t : Strand} {d : GReg} {v : Word} {pts : Nat} (hact : r.act = .regs [(d.val, v)] pts) (hi : i < 16) (hp : r.tag.park = false)
    (hg : slotGenOf s c i = r.tag.gen) (ht : strandAt s c i = some t) (hst : t.st = 1) (hw : t.wait = .reply) (hs : t.steps ≠ 2) :
    exec (.replyArrival c i) s = .next (putStrand { s with coh.replies := rest } c i
        { t with ctx := { t.ctx with g := t.ctx.g.set d.val v, pc := nextPc t.ctx.pc, pts := pts }
                 lhit := if pts = t.ctx.pts then t.lhit else 0, st := 0, wait := .none }) := by
  have htag : tagged s r.tag = some t := by simp [tagged, hp, hc, hslot, hi, hg, ht]
  rw [replyArrival_waits hr hc hslot htag hst hw, hact, takeReply_regs (t := t) { s with coh.replies := rest } c i hs]
  simp only [Strand.answered, Strand.withPts, List.foldl_cons, List.foldl_nil, Nat.mod_eq_of_lt d.isLt, beq_iff_eq]
  rfl

theorem replyArrival_stale (hg : slotGenOf s c i ≠ r.tag.gen) : exec (.replyArrival c i) s = .next
    { s with coh.replies := rest, core.stale := tset 0 s.core.stale c (tget 0 s.core.stale c + 1) } := by
  have htag : tagged s r.tag = none := by simp [tagged, hc, hslot, hg]
  show Host.Outcome.next (confine s _) = _
  rw [hr]
  simp [findPos, hc, hslot, replyBehind, dropAt, htag]
  rfl

/-- A reply whose home sent another to the core before it stays (R55). -/
theorem replyArrival_behind {q : Reply} {more : List Reply} (hq : rest = q :: more) (hhome : r.home.isSome = true) (hsame : q.home = r.home)
    (hqc : q.tag.core = c) (hqs : q.tag.slot ≠ i) : exec (.replyArrival c q.tag.slot) s = .next s := by
  show Host.Outcome.next (confine s _) = _
  subst hq
  rw [hr]
  simp [findPos, hc, hslot, hqc, Ne.symm hqs, replyBehind, hsame, hhome]

end

/-- Settles O21. -/
theorem requestsTravelAndRepliesArrive : Obligations.RequestsTravelAndRepliesArrive := by
  refine ⟨fun s g c i t d a y hi hf hy hh => exec_travels hi hf rfl (by rw [hh, ok_bind, u32_ok hy, ok_bind]),
    fun s n r d h term hr hop hk => ⟨homeRequest_renew hr hop hk, fun e => homeRequest_renew_error hr hop⟩, ?_⟩
  intro s c i t r rest d v pts hr hc hslot hact
  exact ⟨replyArrival_regs hr hc hslot hact, replyArrival_stale hr hc hslot, fun q more hq => replyArrival_behind hr hc hslot hq⟩

end Sys2Proof.Machine
end

section
/-! PROOFS. Lapse and DARK ticks (O22): when they have an effect, and what each kind's fate and reclaiming does. -/

namespace Sys2Proof.Machine
open Sys2Proof

/-! ### The ticks (R28, R31, R34, R35) -/

section
variable {s : State} {kind home index : Nat}

/-- The entry of a tick has not come to its time: the tick does nothing. -/
theorem lapseTick_early (h : (lifeOf s (entryKey kind home index)).st ≠ 1
    ∨ localDt s home ≤ (lifeOf s (entryKey kind home index)).expiry) : exec (.lapseTick kind home index) s = .next s := by
  show Host.Outcome.next (confine s (if _ then _ else s)) = _
  rw [if_neg]
  · rfl
  · simp only [Bool.and_eq_true, beq_iff_eq, decide_eq_true_eq]; omega

theorem darkTick_early (h : (lifeOf s (entryKey kind home index)).st ≠ 2
    ∨ localDt s home < (lifeOf s (entryKey kind home index)).darkAt) : exec (.darkTick kind home index) s = .next s := by
  show Host.Outcome.next (confine s (if _ then _ else s)) = _
  rw [if_neg]
  · rfl
  · simp only [Bool.and_eq_true, beq_iff_eq, decide_eq_true_eq]; omega

section
variable (hst : (lifeOf s (entryKey kind home index)).st = 1) (he : (lifeOf s (entryKey kind home index)).expiry < localDt s home)
include hst he

/-- An entry that lapses meets its fate and goes DUSK, unless it is a lock with a waiter. -/
theorem lapseTick_dusk (hq : kind ≠ 1 ∨ (lockAt s (entryKey kind home index)).queue = []) :
    exec (.lapseTick kind home index) s = .next (confine s (setLife (applyFate s kind (entryKey kind home index)) (entryKey kind home index)
      { lifeOf s (entryKey kind home index) with st := 2, darkAt := localDt s home + 256 })) := by
  show Host.Outcome.next (confine s (if _ then _ else s)) = _
  rw [if_pos (by simp [hst, he])]
  congr 2
  split
  · next w ws hw => exact absurd hw (by rcases hq with h | h; exacts [absurd rfl h, h ▸ nofun])
  · rfl

/-- A lock with a waiter passes to it. -/
theorem lapseTick_handOff (hk : kind = 1) {w : LockWait} {ws : List LockWait} (hq : (lockAt s (entryKey kind home index)).queue = w :: ws) :
    exec (.lapseTick kind home index) s = .next (confine s (handOff s (entryKey kind home index) (localDt s home) w ws)) := by
  show Host.Outcome.next (confine s (if _ then _ else s)) = _
  rw [if_pos (by simp [hst, he])]
  subst hk
  rw [hq]
  rfl

end

section
variable (hst : (lifeOf s (entryKey kind home index)).st = 2) (he : (lifeOf s (entryKey kind home index)).darkAt ≤ localDt s home)
include hst he

/-- An entry at the end of its DUSK is reclaimed and goes DARK, unless it is a lock with a waiter. -/
theorem darkTick_dark (hq : kind ≠ 1 ∨ (lockAt s (entryKey kind home index)).queue = []) :
    exec (.darkTick kind home index) s = .next (confine s (setLife (reclaim s kind (entryKey kind home index)) (entryKey kind home index)
      { lifeOf s (entryKey kind home index) with st := 0 })) := by
  show Host.Outcome.next (confine s (if _ then _ else s)) = _
  rw [if_pos (by simp [hst, he])]
  congr 2
  split
  · next w ws hw => exact absurd hw (by rcases hq with h | h; exacts [absurd rfl h, h ▸ nofun])
  · rfl

theorem darkTick_handOff (hk : kind = 1) {w : LockWait} {ws : List LockWait} (hq : (lockAt s (entryKey kind home index)).queue = w :: ws) :
    exec (.darkTick kind home index) s = .next (confine s (handOff s (entryKey kind home index) (localDt s home) w ws)) := by
  show Host.Outcome.next (confine s (if _ then _ else s)) = _
  rw [if_pos (by simp [hst, he])]
  subst hk
  rw [hq]
  rfl

end
end

/-- What the handing on of a lock does (R35). -/
theorem handOff_gives (s : State) (key t : Nat) (w : LockWait) (ws : List LockWait) (v : State) :
    let u := confine v (handOff s key t w ws)
    lifeOf u key = { st := 1, expiry := t + w.term, gen := nextGen (lifeOf s key).gen, owner := (lifeOf s key).owner } ∧ (lockAt u key).queue = ws
      ∧ u.coh.replies = s.coh.replies ++ [{ tag := w.tag, act := .regs [(w.d.val, mkHandle key (nextGen (lifeOf s key).gen))] w.pts }] := by
  have hh : curHandle (issueEntry (putLock s key { queue := ws }) key (lifeOf s key).owner (t + w.term)) key = mkHandle key (nextGen (lifeOf s key).gen) :=
    curHandle_issueEntry ..
  refine ⟨lifeOf_issueEntry (putLock s key { queue := ws }) .., congrArg Lock.queue (tget_tset ({} : Lock) s.hold.locks key { queue := ws }), ?_⟩
  rw [← hh]; rfl

theorem lifeOf_confine_setLife (v s : State) (key : Nat) (x : Life) : lifeOf (confine v (setLife s key x)) key = x :=
  tget_tset ({} : Life) s.hold.lives key x

/-! ### Fates (R34, R36) -/

theorem mem_noticeUnits (s : State) (v : Nat) : v ∈ noticeUnits s ↔ v < 1024 ∧ (readyCode s v = 1 ∨ readyCode s v = 2)
    ∧ if unitOf v ≤ 47 then readyCode s (kCluster (clusterOf v)) = 1 ∨ readyCode s (kCluster (clusterOf v)) = 2 else unitOf v ≤ 51 := by
  simp only [noticeUnits, List.mem_filter, List.mem_range, Bool.and_eq_true, Bool.or_eq_true, beq_iff_eq]
  split <;> simp

/-- The SENDs that wait at a route are answered in their order; nothing else but the route's own list changes. -/
theorem failSends_eq (s : State) (key : Nat) (e : Exc) : failSends s key e =
    { putRoute s key { tget {} s.hold.routes key with waiting := [] } with
      coh.replies := s.coh.replies ++ (tget {} s.hold.routes key).waiting.map fun w => { tag := w.tag, act := .exc e } } := by
  have fold (ws : List SendWait) : ∀ u : State, ws.foldl (fun s w => sendReply s w.tag (.exc e)) u
      = { u with coh.replies := u.coh.replies ++ ws.map fun w => { tag := w.tag, act := .exc e } } := by
    induction ws with
    | nil => intro u; simp
    | cons w ws ih => intro u; rw [List.foldl_cons, ih]; simp [sendReply]
  exact fold _ _

/-- Waking the receiver adds a wake flit, or does nothing. -/
theorem wakeReceiver_eq (s : State) (h : Word) : ∃ l, wakeReceiver s h = { s with hold.wakes := s.hold.wakes ++ l }
    ∧ ∀ v, tagged s (tagOf (routeAt s h).dtag) = some v → v.gotQ = h → v.st = 2 → l = [{ tag := tagOf (routeAt s h).dtag, q := h }] := by
  simp only [wakeReceiver]
  split
  · next t ht =>
    split
    · exact ⟨_, rfl, fun _ _ _ _ => rfl⟩
    · next hn =>
      refine ⟨[], by simp, fun v hv hq hst => absurd ?_ hn⟩
      cases ht.symm.trans hv
      simp [hq, hst]
  · next ht => exact ⟨[], by simp, fun v hv => by simp [ht] at hv⟩

/-- The fate of a route: the SENDs that wait are answered, and the strand blocked in RECV on it is woken. -/
theorem applyFate_route (s : State) (key : Nat) (hk : hKey (curHandle s key) = key) :
    let u := applyFate s 2 key
    let rt := tget {} s.hold.routes key
    tget {} u.hold.routes key = { rt with waiting := [] }
      ∧ u.coh.replies = s.coh.replies ++ rt.waiting.map (fun w =>
          { tag := w.tag, act := .exc { cause := .lapsed, info0 := curHandle s key, detail := 8 } })
      ∧ ∀ v, tagged s (tagOf rt.dtag) = some v → v.gotQ = curHandle s key → v.st = 2 →
          u.hold.wakes = s.hold.wakes ++ [{ tag := tagOf rt.dtag, q := curHandle s key }] := by
  intro u rt
  obtain ⟨l, hl, hw⟩ := wakeReceiver_eq (failSends s key { cause := .lapsed, info0 := curHandle s key, detail := 8 }) (curHandle s key)
  have hu : u = { failSends s key { cause := .lapsed, info0 := curHandle s key, detail := 8 } with hold.wakes := s.hold.wakes ++ l } := by
    refine hl.trans ?_
    rw [failSends_eq]; rfl
  have hrt : routeAt (failSends s key { cause := .lapsed, info0 := curHandle s key, detail := 8 }) (curHandle s key) = { rt with waiting := [] } := by
    rw [failSends_eq, routeAt, hk]
    exact tget_tset ({} : Route) s.hold.routes key _
  rw [hrt] at hw
  rw [failSends_eq] at hu hw
  rw [hu]
  exact ⟨tget_tset ({} : Route) s.hold.routes key _, rfl, fun v hv hq hst => congrArg (s.hold.wakes ++ ·) (hw v hv hq hst)⟩

/-! ### The end of a context (R34, R166) -/

/-- The strand of a lapsed context that blocks is woken. -/
def Strand.woken (t : Strand) : Strand := { t with st := 0, wait := .woken }

/-- A strand blocked in STATE 2 is woken by the end of its context; nothing else of its core's strands and park entries changes. -/
theorem stopStrand_blocked {s : State} {c i : Nat} {t : Strand} (ht : strandAt s c i = some t) (hst : t.st = 2) :
    (stopStrand s c i).core = { s.core with slots := tput s.core.slots (c * 16 + i) t.woken } := by
  simp only [stopStrand, ht]
  rw [if_neg (by simp [hst]), if_neg (by simp [Strand.atBarrier, hst]), if_pos (by simp [hst])]
  rfl

/-- A strand that has been woken stays so. -/
theorem stopStrand_woken {s : State} {c i : Nat} {t : Strand} (ht : strandAt s c i = some t) (hst : t.st = 0) : stopStrand s c i = s := by
  simp only [stopStrand, ht]
  rw [if_neg (by simp [hst]), if_neg (by simp [Strand.atBarrier, hst]), if_neg (by simp [hst])]

/-- The end of a context wakes a strand blocked under it, however often the table lists its slot. -/
theorem strandAt_foldl_stopStrand {c i : Nat} {t : Strand} (hi : i < 16) (ks : List Nat) : ∀ (s : State), (∀ k ∈ ks, k = c * 16 + i) →
    (strandAt s c i = some t ∧ t.st = 2 ∧ ks ≠ [] ∨ strandAt s c i = some t.woken) →
    strandAt (ks.foldl (fun s k => stopStrand s (k / 16) (k % 16)) s) c i = some t.woken
      ∧ (ks.foldl (fun s k => stopStrand s (k / 16) (k % 16)) s).core.park = s.core.park := by
  induction ks with
  | nil =>
    rintro s - (⟨-, -, h⟩ | h)
    · exact absurd rfl h
    · exact ⟨h, rfl⟩
  | cons k ks ih =>
    intro s hk hs
    obtain rfl : k = c * 16 + i := hk k (by simp)
    rw [List.foldl_cons, show (c * 16 + i) / 16 = c by omega, show (c * 16 + i) % 16 = i by omega]
    have hks : ∀ k ∈ ks, k = c * 16 + i := fun k h => hk k (by simp [h])
    rcases hs with ⟨ht, hst, -⟩ | ht
    · have hcore := stopStrand_blocked ht hst
      have hw : strandAt (stopStrand s c i) c i = some t.woken := by
        rw [strandAt, hcore]; exact tfind_tput ..
      obtain ⟨h1, h2⟩ := ih (stopStrand s c i) hks (.inr hw)
      exact ⟨h1, h2.trans (by rw [hcore])⟩
    · rw [stopStrand_woken ht rfl]
      exact ih s hks (.inr ht)

theorem mem_of_tfind {α : Type} {m : Sparse α} {k : Nat} {v : α} (h : tfind m k = some v) : (k, v) ∈ m := by
  induction m with
  | nil => cases h
  | cons e m ih =>
    simp only [tfind] at h
    split at h
    · next hk => cases h; simp [← hk]
    · exact List.mem_cons_of_mem _ (ih h)

/-- The strands of a context as its end leaves them, before its park entries. -/
def stopContext (s : State) (h : Word) : State :=
  ((s.core.slots.filter fun e => e.2.ctxh == h).map (·.1)).foldl (fun s k => stopStrand s (k / 16) (k % 16)) s

theorem lapseContext_core (s : State) (h : Word) : (lapseContext s h).core = (((stopContext s h).core.park.map fun e => e.1 / 32).eraseDups.foldl
    (fun s c => stopParked s c fun p => p.ctxh == h) (stopContext s h)).core := rfl

/-- With no park entries the end of a context is that of its strands. -/
theorem lapseContext_core_of_park {s : State} {h : Word} (hp : (stopContext s h).core.park = []) :
    (lapseContext s h).core = (stopContext s h).core := by
  rw [lapseContext_core, hp, List.map_nil, List.eraseDups_nil, List.foldl_nil]

theorem lapseContext_wakes {s : State} {h : Word} {c i : Nat} {t : Strand} (ht : strandAt s c i = some t) (hi : i < 16) (hc : t.ctxh = h)
    (hst : t.st = 2) (hall : ∀ e ∈ s.core.slots, e.2.ctxh = h → e = (c * 16 + i, t)) (hp : s.core.park = []) :
    strandAt (lapseContext s h) c i = some t.woken := by
  have hmem : (c * 16 + i, t) ∈ s.core.slots.filter fun e => e.2.ctxh == h := List.mem_filter.2 ⟨mem_of_tfind ht, by simp [hc]⟩
  obtain ⟨h1, h2⟩ : strandAt (stopContext s h) c i = some t.woken ∧ (stopContext s h).core.park = s.core.park := by
    refine strandAt_foldl_stopStrand hi _ s (fun k hk => ?_) (.inl ⟨ht, hst, List.ne_nil_of_mem (List.mem_map_of_mem (f := (·.1)) hmem)⟩)
    obtain ⟨e, he, rfl⟩ := List.mem_map.1 hk
    rw [List.mem_filter, beq_iff_eq] at he
    rw [hall e he.1 he.2]
  rw [← h1, strandAt, lapseContext_core_of_park (s := s) (h := h) (h2.trans hp), strandAt]

/-! ### What is reclaimed (R36, R165, R222, R301, R353) -/

theorem tfind_filter {α : Type} (p : Nat → Bool) (m : Sparse α) (k : Nat) :
    tfind (m.filter fun e => p e.1) k = if p k then tfind m k else none := by
  induction m with
  | nil => simp [tfind]
  | cons e m ih =>
    by_cases hk : e.1 = k
    · by_cases hp : p k
      · simp [hk, hp, tfind]
      · simp [hk, hp, ih]
    · by_cases hp : p e.1 <;> simp [hk, hp, tfind, ih]

/-- A table from which the keys of a slot are removed. -/
theorem tget_filter_ne {α : Type} (d : α) (m : Sparse α) (w j n : Nat) :
    tget d (m.filter fun e => e.1 / w != j) n = if n / w = j then d else tget d m n := by
  rw [tget, tfind_filter (fun k => k / w != j)]
  by_cases h : n / w = j <;> simp [h, tget]

@[simp] theorem tget_tdel {α : Type} (d : α) (m : Sparse α) (k : Nat) : tget d (tdel m k) k = d := by
  rw [tget, tfind_tdel]; rfl

theorem foldl_preserves {α β γ : Type} (f : β → α → β) (g : β → γ) (hf : ∀ b a, g (f b a) = g b) (l : List α) : ∀ b, g (l.foldl f b) = g b := by
  induction l with
  | nil => exact fun _ => rfl
  | cons a l ih => exact fun b => (ih _).trans (hf b a)

/-- Of a context that has gone DARK no bundle and no launch is left, and its counters are free. -/
theorem freeContext_frees (s : State) (h : Word) : (∀ b ∈ (freeContext s h).work.bundles, b.ctxh ≠ h)
    ∧ (∀ e ∈ (freeContext s h).work.launches, e.2.ctxh ≠ h)
    ∧ ∀ e ∈ (freeContext s h).work.counters, e.2.ctxh = h → e.2 = { gen := e.2.gen } := by
  refine ⟨fun b hb => ?_, fun e he => ?_, fun e he hc => ?_⟩
  · simpa using (List.mem_filter.1 hb).2
  · simpa using (List.mem_filter.1 he).2
  · obtain ⟨x, -, rfl⟩ := List.mem_map.1 he
    by_cases hx : x.2.ctxh = h
    · simp [hx]
    · simp [hx] at hc

/-- An unmap write leaves the entry free but under a purge, and lists the unmap. -/
theorem unmapWrite_gives (s : State) (pte home : Nat) (p : Pte) (old : Nat) (freed move : Option Nat) (large nc : Bool) :
    tget {} (unmapWrite s pte home p old freed move large nc).page.pte pte = { p with purge := true }
      ∧ ∃ w ∈ (unmapWrite s pte home p old freed move large nc).page.unmaps, w.pte = pte ∧ w.freed = freed := by
  constructor
  · unfold unmapWrite; dsimp only; split <;> exact tget_tset ({} : Pte) _ _ _
  · exact ⟨_, List.mem_append_right _ (List.mem_singleton.2 rfl), rfl, rfl⟩

/-- A range whose table lists one page, PRESENT: the page is unmapped and its frame is to be freed. -/
theorem unmapRange_unmaps {s : State} {key pk : Nat} {p : Pte} (hp : (pk, p) ∈ s.page.pte) (hst : p.st = 1)
    (h : let lo := pteKey (lifeOf s key).owner ((rangeAt s key).base / 65536)
         let hi := pteKey (lifeOf s key).owner (((rangeAt s key).base + (rangeAt s key).size) / 65536)
         lo ≤ pk ∧ pk < hi ∧ ∀ e ∈ s.page.pte, lo ≤ e.1 → e.1 < hi → e = (pk, p)) :
    tget {} (unmapRange s key).page.pte pk = { purge := true } ∧ ∃ w ∈ (unmapRange s key).page.unmaps, w.pte = pk ∧ w.freed = some p.pn := by
  obtain ⟨hlo, hhi, hall⟩ := h
  simp only [unmapRange]
  generalize hes : s.page.pte.filter _ = es
  have hmem : ∀ e ∈ es, e = (pk, p) := fun e he => by
    rw [← hes, List.mem_filter, Bool.and_eq_true, decide_eq_true_eq, decide_eq_true_eq] at he
    exact hall e he.1 he.2.1 he.2.2
  have hne : es ≠ [] := fun h => by
    rw [← hes, List.filter_eq_nil_iff] at h
    exact h _ hp (by simp [hlo, hhi])
  obtain ⟨es', e, rfl⟩ : ∃ l e, es = l ++ [e] := ⟨_, _, (List.dropLast_append_getLast hne).symm⟩
  obtain rfl := hmem e (by simp)
  rw [List.foldl_append, List.foldl_cons, List.foldl_nil, if_pos (by simp [hst])]
  exact unmapWrite_gives ..

/-! ### Withdrawals and notices (R36, R166) -/

theorem lockOf_eq_some {r : HoldReq} {tag : Tag} {key : Nat} : r.lockOf tag = some key ↔ r.tag = tag ∧ ∃ d h term nw, r.op = .lock d h term nw ∧ hKey h = key := by
  rw [HoldReq.lockOf]
  by_cases ht : r.tag = tag
  · rw [if_pos (beq_iff_eq.2 ht)]
    cases r.op <;> simp [ht]
  · rw [if_neg (by simpa using ht)]
    simp [ht]

theorem lockWithdrawal_taken {s : State} {n key : Nat} {tag : Tag} (hn : s.hold.withdrawals[n]? = some (key, tag))
    (h : ∀ r ∈ s.hold.reqs, r.tag = tag → ∀ d h term nw, r.op = .lock d h term nw → hKey h ≠ key) :
    exec (.lockWithdrawal n) s = .next (putLock { s with hold.withdrawals := s.hold.withdrawals.eraseIdx n } key
      { queue := (lockAt s key).queue.filter fun w => w.tag != tag }) := by
  show Host.Outcome.next (confine s _) = _
  rw [hn]
  dsimp only
  rw [if_neg, dropAt_eq_eraseIdx]
  · rfl
  · rw [List.any_eq_true]
    rintro ⟨r, hr, hl⟩
    obtain ⟨ht, d, x, term, nw, ho, hk⟩ := lockOf_eq_some.1 (eq_of_beq hl)
    exact h r hr ht d x term nw ho hk

theorem lockWithdrawal_waits {s : State} {n key : Nat} {tag : Tag} (hn : s.hold.withdrawals[n]? = some (key, tag)) {r : HoldReq}
    (hr : r ∈ s.hold.reqs) (ht : r.tag = tag) {d h term nw} (ho : r.op = .lock d h term nw) (hk : hKey h = key) :
    exec (.lockWithdrawal n) s = .next s := by
  show Host.Outcome.next (confine s _) = _
  rw [hn]
  dsimp only
  rw [if_pos]
  · rfl
  · exact List.any_eq_true.2 ⟨r, hr, beq_iff_eq.2 (lockOf_eq_some.2 ⟨ht, d, h, term, nw, ho, hk⟩)⟩

theorem lapseNotice_taken {s : State} {n unit dt : Nat} {h : Word} (hn : s.hold.notices[n]? = some (unit, dt, h)) :
    ∃ u, exec (.lapseNotice n) s = .next u ∧ hasNoticed u unit h = true ∧ u.hold.notices = s.hold.notices.eraseIdx n ∧ u.mem = s.mem := by
  refine ⟨takeNotice { s with hold.notices := s.hold.notices.eraseIdx n } unit h, ?_, ?_, rfl, rfl⟩
  · show Host.Outcome.next (confine s _) = _
    rw [hn]
    dsimp only
    rw [dropAt_eq_eraseIdx]
    rfl
  · show (tget [] (tset [] s.hold.noticed unit _) unit).contains h = true
    rw [tget_tset]
    simp

theorem filter_map_route (ms : List Msg) : (ms.filter fun m => m.route != 0).map (·.route) = (ms.map (·.route)).filter (· != 0) := by
  rw [List.filter_map]; rfl

/-- Settles O22. -/
theorem lapseAndDarkTicksMoveTheLifeOn : Obligations.LapseAndDarkTicksMoveTheLifeOn := by
  refine ⟨fun s kind home index => ?_, fun s n key tag hn => ⟨lockWithdrawal_taken hn, fun r hr ht d h term nw ho hk => lockWithdrawal_waits hn hr ht ho hk⟩,
    fun s n unit dt h hn => lapseNotice_taken hn⟩
  intro key x dt
  refine ⟨?_, ?_, lapseTick_early, ?_, ?_, ?_, ?_, ?_, ?_, ?_, ?_, ?_, ?_, ?_, ?_, darkTick_early⟩
  · intro hk hst he hq
    rw [lapseTick_dusk hst he (.inr hq)]
    rcases hk with rfl | rfl | rfl | rfl <;> rfl
  · rintro rfl ⟨hst, he⟩ w ws hq
    exact ⟨_, lapseTick_handOff hst he rfl hq, handOff_gives ..⟩
  · rintro rfl hst he
    refine ⟨_, lapseTick_dusk hst he (.inl (by decide)), lifeOf_confine_setLife .., noticeUnits s, rfl, mem_noticeUnits s⟩
  · rintro rfl hst he hk
    exact ⟨_, lapseTick_dusk hst he (.inl (by decide)), lifeOf_confine_setLife .., applyFate_route s key hk⟩
  · rintro rfl hst he
    exact ⟨_, lapseTick_dusk hst he (.inl (by decide)), lifeOf_confine_setLife .., tget_tset ({} : Evq) s.hold.evqs key _, rfl⟩
  · rintro rfl hst he
    refine ⟨_, lapseTick_dusk hst he (.inl (by decide)), lifeOf_confine_setLife .., List.mem_append_right _ (List.mem_singleton.2 rfl), ?_⟩
    intro c i v hv hi hc hv2 hall hp
    exact lapseContext_wakes hv hi hc hv2 hall hp
  · intro hk hst he hq
    rw [darkTick_dark hst he (.inr hq)]
    rcases hk with rfl | rfl <;> rfl
  · rintro rfl hst he -
    exact ⟨_, darkTick_dark hst he (.inl (by decide)), lifeOf_confine_setLife .., tget_tdel ({} : Dirent) s.census.dirents _⟩
  · rintro rfl hst he w ws hq
    exact ⟨_, darkTick_handOff hst he rfl hq, handOff_gives ..⟩
  · rintro rfl hst he
    exact ⟨_, darkTick_dark hst he (.inl (by decide)), lifeOf_confine_setLife .., tget_tdel ({} : Mslot) s.eng.mslots _, tget_filter_ne 0 s.eng.acc 8192 _⟩
  · rintro rfl hst he
    exact ⟨_, darkTick_dark hst he (.inl (by decide)), lifeOf_confine_setLife .., tget_tdel 0 s.eng.order _, tget_filter_ne 0 s.eng.fac 4096 _⟩
  · rintro rfl hst he
    refine ⟨_, darkTick_dark hst he (.inl (by decide)), lifeOf_confine_setLife .., tget_tdel ({} : Evq) s.hold.evqs key, ?_, rfl⟩
    rw [← filter_map_route]
    rfl
  · rintro rfl hst he
    exact ⟨_, darkTick_dark hst he (.inl (by decide)), lifeOf_confine_setLife .., freeContext_frees s _⟩
  · rintro rfl hst he pk p hp hp1 hall
    exact ⟨_, darkTick_dark hst he (.inl (by decide)), lifeOf_confine_setLife .., unmapRange_unmaps hp hp1 hall⟩

end Sys2Proof.Machine
end

section
/-! PROOFS. The stage governor, the thermal evaluation and the tick of device time (O43). -/

namespace Sys2Proof.Machine
open Sys2Proof

/-! ### The best of a list (R308, R309) -/

/-- A fold that keeps the better of two keeps the first that nothing before it equals and nothing after it beats. -/
theorem foldl_best {β : Type} {f : Option β → β → Option β} {p : β} (r : List β) (h0 : ∀ x, f none x = some x)
    (hl : ∀ y x, f (some y) x = some y ∨ f (some y) x = some x) (hr : ∀ x ∈ r, f (some p) x = some p) :
    ∀ l, (∀ y ∈ l, f (some y) p = some p) → (l ++ p :: r).foldl f none = some p := by
  have after : ∀ l : List β, (∀ x ∈ l, f (some p) x = some p) → l.foldl f (some p) = some p := by
    intro l
    induction l with
    | nil => exact fun _ => rfl
    | cons x l ih => intro h; rw [List.foldl_cons, h x (by simp)]; exact ih fun y hy => h y (by simp [hy])
  have before : ∀ (l : List β) (y : β), f (some y) p = some p → (∀ y ∈ l, f (some y) p = some p) → (l ++ p :: r).foldl f (some y) = some p := by
    intro l
    induction l with
    | nil => intro y hy _; rw [List.nil_append, List.foldl_cons, hy]; exact after r hr
    | cons x l ih =>
      intro y hy h
      rw [List.cons_append, List.foldl_cons]
      rcases hl y x with e | e <;> rw [e]
      · exact ih y hy fun z hz => h z (by simp [hz])
      · exact ih x (h x (by simp)) fun z hz => h z (by simp [hz])
  rintro (_ | ⟨x, l⟩) h
  · rw [List.nil_append, List.foldl_cons, h0]; exact after r hr
  · rw [List.cons_append, List.foldl_cons, h0]; exact before l x (h x (by simp)) fun y hy => h y (by simp [hy])

theorem bestOf_eq_some {better : Nat → Nat → Bool} {xs : List (Nat × Nat)} {i v : Nat} (hs : xs.Pairwise fun a b => a.1 < b.1) (hm : (i, v) ∈ xs)
    (hl : ∀ x ∈ xs, x.1 < i → better v x.2 = true) (hr : ∀ x ∈ xs, i < x.1 → better x.2 v = false) : bestOf better xs = some i := by
  obtain ⟨l, r, rfl⟩ := List.append_of_mem hm
  rw [List.pairwise_append, List.pairwise_cons] at hs
  obtain ⟨-, ⟨hir, -⟩, hli⟩ := hs
  rw [bestOf, foldl_best (p := (i, v))]
  · rfl
  · exact fun _ => rfl
  · intro y x; dsimp only; split <;> simp
  · intro x hx
    have := hr x (by simp [hx]) (hir x hx)
    simp [this]
  · intro x hx
    have := hl x (by simp [hx]) (hli x hx (i, v) (by simp))
    simp [this]

/-! ### The stage governor (R308) -/

/-- The stages of a launch that satisfy a condition, each with its occupancy, in the order of their numbers. -/
def ranked (l : Launch) (p : Stage → Bool) : List (Nat × Nat) :=
  ((((List.range l.stages.length).filterMap fun k => (l.stages[k]?).map fun g => (k, g)).filter fun x => p x.2).map fun x => (x.1, x.2.queue.length))

theorem mem_ranked {l : Launch} {p : Stage → Bool} {x : Nat × Nat} : x ∈ ranked l p ↔ ∃ g, l.stages[x.1]? = some g ∧ p g = true ∧ x.2 = g.queue.length := by
  simp only [ranked, List.mem_map, List.mem_filter, List.mem_filterMap, List.mem_range, Option.map_eq_some_iff]
  constructor
  · rintro ⟨_, ⟨⟨k, -, g, hg, rfl⟩, hp⟩, rfl⟩
    exact ⟨g, hg, hp, rfl⟩
  · rintro ⟨g, hg, hp, hx⟩
    exact ⟨(x.1, g), ⟨⟨x.1, (List.getElem?_eq_some_iff.1 hg).1, g, hg, rfl⟩, hp⟩, by rw [← hx]⟩

theorem ranked_sorted (l : Launch) (p : Stage → Bool) : (ranked l p).Pairwise fun a b => a.1 < b.1 := by
  refine List.pairwise_map.2 (List.Pairwise.filter _ (List.pairwise_filterMap.2 (List.pairwise_lt_range.imp ?_)))
  rintro a b hab x hx y hy
  obtain ⟨-, -, rfl⟩ := Option.map_eq_some_iff.1 hx
  obtain ⟨-, -, rfl⟩ := Option.map_eq_some_iff.1 hy
  exact hab

/-- A stage whose occupancy is above its HI. -/
def Stage.full (g : Stage) : Bool := decide (g.hi < g.queue.length)
/-- A stage whose occupancy is below its LO, and that serves two clusters. -/
def Stage.spare (g : Stage) : Bool := decide (g.queue.length < g.lo) && decide (2 ≤ g.clusters.length)

theorem govern_of_none {l : Launch} (h : ranked l Stage.full = [] ∨ ranked l Stage.spare = []) : govern l = l := by
  have hb {b : Nat → Nat → Bool} {xs : List (Nat × Nat)} (hx : xs = []) : bestOf b xs = none := hx ▸ rfl
  unfold govern
  dsimp only
  split
  · next i j hi hj =>
    rcases h with h | h
    · exact absurd (hi.symm.trans (hb h)) nofun
    · exact absurd (hj.symm.trans (hb h)) nofun
  · rfl

theorem setAt_eq_set {α : Type} (l : List α) (n : Nat) (v : α) : setAt l n v = l.set n v := by
  induction l generalizing n with
  | nil => rfl
  | cons x l ih => cases n with
    | zero => rfl
    | succ n => rw [setAt, ih, List.set_cons_succ]

theorem le_foldl_max (xs : List Nat) : ∀ n : Nat, n ≤ xs.foldl max n ∧ ∀ x ∈ xs, x ≤ xs.foldl max n := by
  induction xs with
  | nil => exact fun n => ⟨Nat.le_refl n, nofun⟩
  | cons y xs ih =>
    intro n
    obtain ⟨h1, h2⟩ := ih (max n y)
    rw [List.foldl_cons]
    refine ⟨by omega, fun x hx => ?_⟩
    rcases List.mem_cons.1 hx with rfl | hx
    · omega
    · exact h2 x hx

theorem foldl_max_le {xs : List Nat} {c : Nat} (h : ∀ x ∈ xs, x ≤ c) : ∀ n : Nat, n ≤ c → xs.foldl max n ≤ c := by
  induction xs with
  | nil => exact fun n hn => hn
  | cons y xs ih => intro n hn; exact ih (fun x hx => h x (by simp [hx])) _ (Nat.max_le.2 ⟨hn, h y (by simp)⟩)

theorem largest_eq {xs : List Nat} {c : Nat} (hc : c ∈ xs) (h : ∀ x ∈ xs, x ≤ c) : largest xs = c :=
  Nat.le_antisymm (foldl_max_le h 0 (Nat.zero_le c)) ((le_foldl_max xs 0).2 c hc)

theorem govern_moves {l : Launch} {i j : Nat} {a b : Stage} (ha : l.stages[i]? = some a) (hb : l.stages[j]? = some b)
    (hi : bestOf (fun a b => decide (b < a)) (ranked l Stage.full) = some i)
    (hj : bestOf (fun a b => decide (a < b)) (ranked l Stage.spare) = some j) :
    let left : Stage := { b with clusters := b.clusters.filter (· != largest b.clusters) }
    govern l = { l with stages := (l.stages.set j left).set i { a with clusters := a.clusters ++ [largest b.clusters] } } := by
  intro left
  unfold govern
  dsimp only
  split
  · next i' j' hi' hj' =>
    cases hi.symm.trans hi'
    cases hj.symm.trans hj'
    rw [ha, hb]
    simp only [setAt_eq_set, left]
  · next h => exact absurd hj (h i j hi)

theorem governorCheck_early {s : State} (h : s.time.dt / 256 ≤ s.work.governed) : exec .governorCheck s = .next s := by
  show Host.Outcome.next (confine s (if _ then _ else s)) = _
  rw [if_neg (by omega)]
  rfl

theorem tfind_map {α : Type} (m : Sparse α) (f : α → α) (k : Nat) : tfind (m.map fun e => (e.1, f e.2)) k = (tfind m k).map f := by
  induction m with
  | nil => rfl
  | cons e m ih => by_cases hk : e.1 = k <;> simp [tfind, hk, ih]

theorem governorCheck_due {s : State} (h : s.work.governed < s.time.dt / 256) : ∃ u, exec .governorCheck s = .next u
    ∧ (∀ n, launchAt u n = govern (launchAt s n)) ∧ u.work.governed = s.time.dt / 256 ∧ u.core.slots = s.core.slots := by
  refine ⟨confine s { s with work.launches := s.work.launches.map (fun e => (e.1, govern e.2)), work.governed := s.time.dt / 256, core.idle := [] },
    ?_, fun n => ?_, ?_, ?_⟩
  · show Host.Outcome.next (confine s (if _ then _ else s)) = _
    rw [if_pos h]
  · show tget {} (s.work.launches.map fun e => (e.1, govern e.2)) n = _
    rw [tget, tfind_map, launchAt, tget]
    cases tfind s.work.launches n <;> rfl
  · rfl
  · rfl

/-! ### The state that an evaluation works on (R309 to R311) -/

/-- The state but for what an evaluation changes of a cluster: its thermal state, its cores' slots and the units that idle. -/
def cold (s : State) : State := { s with work.therm := [], core.slotOff := [], core.idle := [] }

theorem cold_disableSlot (s : State) (u : Nat) : cold (disableSlot s u) = cold s := by
  unfold disableSlot; dsimp only; split <;> rfl

theorem cold_enableSlot (s : State) (u : Nat) : cold (enableSlot s u) = cold s := by
  unfold enableSlot; split <;> rfl

theorem therm_disableSlot (s : State) (u : Nat) : (disableSlot s u).work.therm = s.work.therm := by
  unfold disableSlot; dsimp only; split <;> rfl

theorem therm_enableSlot (s : State) (u : Nat) : (enableSlot s u).work.therm = s.work.therm := by
  unfold enableSlot; split <;> rfl

section
variable {s t : State} (h : cold t = cold s)
include h

theorem thermOf_of_cold (d : Nat) : thermOf t d = thermOf s d :=
  (congrArg (fun x : State => thermOf x d) h : thermOf (cold t) d = thermOf (cold s) d)
theorem tempOf_of_cold (d c : Nat) : tempOf t d c = tempOf s d c :=
  (congrArg (fun x : State => tempOf x d c) h : tempOf (cold t) d c = tempOf (cold s) d c)
theorem dieCluster_of_cold (d c : Nat) : dieCluster t d c = dieCluster s d c :=
  (congrArg (fun x : State => dieCluster x d c) h : dieCluster (cold t) d c = dieCluster (cold s) d c)
theorem corePresent_of_cold (u : Nat) : corePresent t u = corePresent s u :=
  (congrArg (fun x : State => corePresent x u) h : corePresent (cold t) u = corePresent (cold s) u)
theorem hub_of_cold : t.hub = s.hub := (congrArg State.hub h : (cold t).hub = (cold s).hub)

end

/-- The cores of a cluster that are present. -/
def clusterCores (s : State) (d c : Nat) : List Nat := ((List.range 4).map (d * 256 + c * 4 + ·)).filter (corePresent s)

theorem mem_clusterCores {s : State} {d c u : Nat} : u ∈ clusterCores s d c ↔ (∃ j, j < 4 ∧ u = d * 256 + c * 4 + j) ∧ corePresent s u = true := by
  simp only [clusterCores, List.mem_filter, List.mem_map, List.mem_range, eq_comm (a := u)]

theorem nodup_clusterCores (s : State) (d c : Nat) : (clusterCores s d c).Nodup :=
  List.Nodup.filter _ (List.Nodup.map (fun _ _ h => Nat.add_left_cancel h) List.nodup_range)

/-- The state that a cluster comes to at an evaluation. -/
def comesTo (s : State) (d c : Nat) : Nat :=
  nextThermal (tget ({} : ThermCluster) s.work.therm (d * 64 + c)).st (tempOf s d c) (16 * (thermOf s d).amber) (16 * (thermOf s d).crimson)
    (tget ({} : Alarm) s.hub.alarm d).raised

theorem evaluateCluster_normal {d : Nat} {hot : Bool} {s : State} {c : Nat} (h : comesTo s d c = 0) :
    let x := tget ({} : ThermCluster) s.work.therm (d * 64 + c)
    ∃ idle, evaluateCluster d hot s c = { putTherm ((clusterCores s d c).foldl enableSlot s) (d * 64 + c)
      { x with st := 0, withheld := x.withheld && hot, bias := x.bias - 1 } with core.idle := idle } := by
  intro x
  have h : (comesTo s d c == 0) = true := beq_iff_eq.2 h
  cases hot
  · exact ⟨_, if_pos h⟩
  · exact ⟨_, if_pos h⟩

theorem evaluateCluster_warm {d : Nat} {hot : Bool} {s : State} {c : Nat} (h : comesTo s d c ≠ 0) :
    evaluateCluster d hot s c = (clusterCores s d c).foldl disableSlot (putTherm s (d * 64 + c)
      { tget ({} : ThermCluster) s.work.therm (d * 64 + c) with st := comesTo s d c, withheld := true }) := by
  have h : ¬ (comesTo s d c == 0) = true := fun e => h (eq_of_beq e)
  exact if_neg h

theorem cold_evaluateCluster (d : Nat) (hot : Bool) (s : State) (c : Nat) : cold (evaluateCluster d hot s c) = cold s := by
  by_cases h : comesTo s d c = 0
  · obtain ⟨idle, e⟩ := evaluateCluster_normal (hot := hot) h
    rw [e]
    exact foldl_preserves enableSlot cold cold_enableSlot _ s
  · rw [evaluateCluster_warm h]
    exact foldl_preserves disableSlot cold cold_disableSlot _ _

/-- An evaluation of a cluster writes that cluster's thermal state. -/
theorem therm_evaluateCluster (d : Nat) (hot : Bool) (s : State) (c : Nat) :
    let x := tget ({} : ThermCluster) s.work.therm (d * 64 + c)
    ∃ b, (evaluateCluster d hot s c).work.therm = tset {} s.work.therm (d * 64 + c)
      { st := comesTo s d c, withheld := comesTo s d c != 0 || x.withheld && hot, bias := b } := by
  intro x
  by_cases h : comesTo s d c = 0
  · obtain ⟨idle, e⟩ := evaluateCluster_normal (hot := hot) h
    refine ⟨x.bias - 1, ?_⟩
    rw [e, h]
    have := foldl_preserves enableSlot (·.work.therm) therm_enableSlot (clusterCores s d c) s
    show tset {} ((clusterCores s d c).foldl enableSlot s).work.therm _ _ = _
    rw [this]
    rfl
  · refine ⟨x.bias, ?_⟩
    rw [evaluateCluster_warm h, foldl_preserves disableSlot (·.work.therm) therm_disableSlot]
    rw [show (comesTo s d c != 0) = true by simpa using h]
    rfl

/-! ### Slots (R309) -/

/-- A slot is disabled. -/
def slotOffAt (s : State) (k : Nat) : Bool := tget false s.core.slotOff k
/-- The slots of a core that are enabled. -/
def enabledSlots (s : State) (u : Nat) : List Nat := (List.range 16).filter fun i => !slotOffAt s (u * 16 + i)

theorem largest_mem {xs : List Nat} (h : xs ≠ []) : largest xs ∈ xs ∧ ∀ x ∈ xs, x ≤ largest xs := by
  refine ⟨?_, (le_foldl_max xs 0).2⟩
  obtain ⟨m, hm⟩ : ∃ m, xs.max? = some m := by
    cases xs with
    | nil => exact absurd rfl h
    | cons x xs => exact ⟨_, rfl⟩
  rw [List.max?_eq_some_iff] at hm
  rw [largest_eq hm.1 hm.2]
  exact hm.1

theorem disableSlot_of_many {s : State} {u : Nat} (h : 4 < (enabledSlots s u).length) :
    disableSlot s u = { s with core.slotOff := tset false s.core.slotOff (u * 16 + largest (enabledSlots s u)) true } := if_pos h

theorem disableSlot_of_few {s : State} {u : Nat} (h : (enabledSlots s u).length ≤ 4) : disableSlot s u = s := if_neg (Nat.not_lt.2 h)

theorem slotOffAt_disableSlot (s : State) (u k : Nat) : slotOffAt (disableSlot s u) k
    = if 4 < (enabledSlots s u).length ∧ k = u * 16 + largest (enabledSlots s u) then true else slotOffAt s k := by
  by_cases h : 4 < (enabledSlots s u).length
  · rw [disableSlot_of_many h]
    by_cases hk : k = u * 16 + largest (enabledSlots s u)
    · rw [if_pos ⟨h, hk⟩, hk]
      exact tget_tset false s.core.slotOff (u * 16 + largest (enabledSlots s u)) true
    · rw [if_neg (fun e => hk e.2)]
      exact tget_tset_ne false s.core.slotOff _ k true hk
  · rw [disableSlot_of_few (Nat.not_lt.1 h), if_neg (fun e => h e.1)]

theorem leastFrom_eq_none {p : Nat → Bool} {k fuel n : Nat} (h : leastFrom p k fuel = none) (hk : k ≤ n) (hn : n < k + fuel) : p n = false := by
  induction fuel generalizing k with
  | zero => omega
  | succ fuel ih =>
    rw [leastFrom] at h
    split at h
    · cases h
    · next hp =>
      by_cases he : k = n
      · exact he ▸ Bool.eq_false_iff.2 hp
      · exact ih h (by omega) (by omega)

/-- The lowest disabled slot of a core is enabled, every other slot as it was. -/
theorem slotOffAt_enableSlot (s : State) (u k : Nat) : slotOffAt (enableSlot s u) k = true
    ↔ slotOffAt s k = true ∧ ¬ ∃ i, i < 16 ∧ k = u * 16 + i ∧ ∀ n, n < i → slotOffAt s (u * 16 + n) = false := by
  unfold enableSlot
  split
  · next i hi =>
    obtain ⟨-, h16, hoff, hmin⟩ := leastFrom_eq_some hi
    have hmin (n : Nat) (hn : n < i) : slotOffAt s (u * 16 + n) = false := hmin n (Nat.zero_le n) hn
    show tget false (tset false s.core.slotOff (u * 16 + i) false) k = true ↔ _
    by_cases hk : k = u * 16 + i
    · subst hk
      rw [tget_tset]
      exact iff_of_false nofun fun h => h.2 ⟨i, by omega, rfl, hmin⟩
    · rw [tget_tset_ne _ _ _ _ _ hk]
      refine ⟨fun h => ⟨h, ?_⟩, (·.1)⟩
      rintro ⟨j, hj, rfl, hjm⟩
      rcases Nat.lt_trichotomy j i with h1 | h1 | h1
      · exact absurd (h.symm.trans (hmin j h1)) nofun
      · exact hk (by rw [h1])
      · exact absurd (hoff.symm.trans (hjm i h1)) nofun
  · next hi =>
    refine ⟨fun h => ⟨h, ?_⟩, (·.1)⟩
    rintro ⟨j, hj, rfl, -⟩
    exact absurd (h.symm.trans (leastFrom_eq_none (p := fun i => slotOffAt s (u * 16 + i)) hi (Nat.zero_le j) (by omega))) nofun

/-! ### Visiting clusters in turn -/

/-- In a fold over distinct places what one place holds is what its own visit makes of it, in a state with the same there. -/
theorem foldl_visit {σ ι γ : Type} {f : σ → ι → σ} {I : σ → Prop} {g : σ → γ} {c : ι} (hI : ∀ s a, I s → I (f s a)) :
    ∀ (l : List ι), l.Nodup → c ∈ l → (∀ s a, a ∈ l → a ≠ c → g (f s a) = g s) → ∀ s, I s →
      ∃ t, I t ∧ g t = g s ∧ g (l.foldl f s) = g (f t c) := by
  intro l
  induction l with
  | nil => exact fun _ h => absurd h nofun
  | cons a l ih =>
    intro hn hc hne s hs
    rw [List.nodup_cons] at hn
    have stays : ∀ (l : List ι), (∀ a ∈ l, ∀ s, g (f s a) = g s) → ∀ s, g (l.foldl f s) = g s := by
      intro l
      induction l with
      | nil => exact fun _ _ => rfl
      | cons b l ih => exact fun h s => (ih (fun a ha => h a (by simp [ha])) (f s b)).trans (h b (by simp) s)
    by_cases ha : a = c
    · subst ha
      exact ⟨s, hs, rfl, stays l (fun b hb s => hne s b (by simp [hb]) fun e => hn.1 (e ▸ hb)) _⟩
    · obtain ⟨t, h1, h2, h3⟩ := ih hn.2 ((List.mem_cons.1 hc).resolve_left fun e => ha e.symm) (fun s b hb => hne s b (by simp [hb])) (f s a) (hI s a hs)
      exact ⟨t, h1, h2.trans (hne s a (by simp) ha), h3⟩

/-- A fold that leaves what it does not visit. -/
theorem foldl_elsewhere {σ ι γ : Type} {f : σ → ι → σ} {g : σ → γ} : ∀ (l : List ι), (∀ s a, a ∈ l → g (f s a) = g s) → ∀ s, g (l.foldl f s) = g s := by
  intro l
  induction l with
  | nil => exact fun _ _ => rfl
  | cons a l ih => exact fun h s => (ih (fun s b hb => h s b (by simp [hb])) (f s a)).trans (h s a (by simp))

/-- What an evaluation sees and writes of a cluster: its thermal state and its 64 slots. -/
def clusterView (d c : Nat) (s : State) : ThermCluster × (Fin 64 → Bool) :=
  (tget {} s.work.therm (d * 64 + c), fun n => slotOffAt s ((d * 256 + c * 4) * 16 + n))

theorem slotOffAt_fold_elsewhere {f : State → Nat → State} {k : Nat} (hf : ∀ s u, (∀ i, i < 16 → k ≠ u * 16 + i) → slotOffAt (f s u) k = slotOffAt s k)
    {l : List Nat} (h : ∀ u ∈ l, ∀ i, i < 16 → k ≠ u * 16 + i) (s : State) : slotOffAt (l.foldl f s) k = slotOffAt s k :=
  foldl_elsewhere l (g := fun s => slotOffAt s k) (fun s u hu => hf s u (h u hu)) s

theorem enabledSlots_lt {s : State} {u i : Nat} (h : i ∈ enabledSlots s u) : i < 16 := List.mem_range.1 (List.mem_filter.1 h).1

theorem largest_enabledSlots {s : State} {u : Nat} (h : 4 < (enabledSlots s u).length) :
    largest (enabledSlots s u) ∈ enabledSlots s u ∧ ∀ x ∈ enabledSlots s u, x ≤ largest (enabledSlots s u) :=
  largest_mem (List.ne_nil_of_length_pos (by omega))

theorem disableSlot_elsewhere (s : State) (u : Nat) {k : Nat} (h : ∀ i, i < 16 → k ≠ u * 16 + i) : slotOffAt (disableSlot s u) k = slotOffAt s k := by
  rw [slotOffAt_disableSlot, if_neg]
  rintro ⟨h4, hk⟩
  exact h _ (enabledSlots_lt (largest_enabledSlots h4).1) hk

theorem enableSlot_elsewhere (s : State) (u : Nat) {k : Nat} (h : ∀ i, i < 16 → k ≠ u * 16 + i) : slotOffAt (enableSlot s u) k = slotOffAt s k := by
  rw [Bool.eq_iff_iff, slotOffAt_enableSlot]
  exact ⟨(·.1), fun hk => ⟨hk, fun ⟨i, hi, e, _⟩ => h i hi e⟩⟩

/-- The slots after a cluster's evaluation are those after its cores' slots have been enabled or disabled. -/
theorem slotOffAt_evaluateCluster (d : Nat) (hot : Bool) (s : State) (c : Nat) : ∃ t, (∀ k, slotOffAt t k = slotOffAt s k)
    ∧ ∀ k, slotOffAt (evaluateCluster d hot s c) k = slotOffAt ((clusterCores s d c).foldl (if comesTo s d c = 0 then enableSlot else disableSlot) t) k := by
  by_cases h : comesTo s d c = 0
  · obtain ⟨idle, e⟩ := evaluateCluster_normal (hot := hot) h
    rw [if_pos h, e]
    exact ⟨s, fun _ => rfl, fun _ => rfl⟩
  · rw [if_neg h, evaluateCluster_warm h]
    exact ⟨putTherm s (d * 64 + c) _, fun _ => rfl, fun _ => rfl⟩

theorem evaluateCluster_elsewhere (d : Nat) (hot : Bool) (s : State) (c : Nat) {k : Nat}
    (h : ∀ u i, (∃ j, j < 4 ∧ u = d * 256 + c * 4 + j) → i < 16 → k ≠ u * 16 + i) : slotOffAt (evaluateCluster d hot s c) k = slotOffAt s k := by
  obtain ⟨t, ht, e⟩ := slotOffAt_evaluateCluster d hot s c
  rw [e, slotOffAt_fold_elsewhere _ fun u hu i hi => h u i (mem_clusterCores.1 hu).1 hi, ht]
  intro s u hu
  split
  · exact enableSlot_elsewhere s u hu
  · exact disableSlot_elsewhere s u hu

theorem clusterView_evaluateCluster_ne (d : Nat) (hot : Bool) (s : State) {a c : Nat} (h : a ≠ c) :
    clusterView d c (evaluateCluster d hot s a) = clusterView d c s := by
  refine Prod.ext ?_ (funext fun n => ?_)
  · obtain ⟨b, hb⟩ := therm_evaluateCluster d hot s a
    show tget {} (evaluateCluster d hot s a).work.therm _ = _
    rw [hb]
    exact tget_tset_ne _ _ _ _ _ (by omega)
  · refine evaluateCluster_elsewhere d hot s a ?_
    rintro u i ⟨j, hj, rfl⟩ hi
    omega

/-- The slots of one core of a cluster after its evaluation, the core being present. -/
theorem slotOffAt_evaluateCluster_core (d : Nat) (hot : Bool) (s : State) (c : Nat) {j i : Nat} (hj : j < 4) (hi : i < 16)
    (hp : corePresent s (d * 256 + c * 4 + j) = true) :
    let core := d * 256 + c * 4 + j
    (comesTo s d c ≠ 0 → (slotOffAt (evaluateCluster d hot s c) (core * 16 + i) = true ↔ slotOffAt s (core * 16 + i) = true
      ∨ 4 < (enabledSlots s core).length ∧ i ∈ enabledSlots s core ∧ ∀ k ∈ enabledSlots s core, k ≤ i))
    ∧ (comesTo s d c = 0 → (slotOffAt (evaluateCluster d hot s c) (core * 16 + i) = true
      ↔ slotOffAt s (core * 16 + i) = true ∧ ∃ k, k < i ∧ slotOffAt s (core * 16 + k) = true)) := by
  intro core
  obtain ⟨t, ht, e⟩ := slotOffAt_evaluateCluster d hot s c
  have hcore : core ∈ clusterCores s d c := mem_clusterCores.2 ⟨⟨j, hj, rfl⟩, hp⟩
  let slots (s : State) : Fin 16 → Bool := fun n => slotOffAt s (core * 16 + n)
  have visit (f : State → Nat → State) (hf : ∀ s u k, (∀ i, i < 16 → k ≠ u * 16 + i) → slotOffAt (f s u) k = slotOffAt s k) :
      ∃ v, (∀ k, k < 16 → slotOffAt v (core * 16 + k) = slotOffAt s (core * 16 + k))
        ∧ slotOffAt ((clusterCores s d c).foldl f t) (core * 16 + i) = slotOffAt (f v core) (core * 16 + i) := by
    obtain ⟨v, -, h1, h2⟩ := foldl_visit (f := f) (I := fun _ => True) (g := slots) (c := core) (fun _ _ _ => trivial) _ (nodup_clusterCores s d c) hcore
      (fun s u _ hne => funext fun n => hf s u _ fun i hi => by omega) t trivial
    exact ⟨v, fun k hk => (congrFun h1 ⟨k, hk⟩).trans (ht _), congrFun h2 ⟨i, hi⟩⟩
  constructor
  · intro hn
    rw [if_neg hn] at e
    obtain ⟨v, hv, e2⟩ := visit disableSlot fun s u k => disableSlot_elsewhere s u
    have hon : enabledSlots v core = enabledSlots s core := List.filter_congr fun k hk => by rw [hv k (List.mem_range.1 hk)]
    rw [e, e2, slotOffAt_disableSlot, hon, hv i hi]
    by_cases h4 : 4 < (enabledSlots s core).length
    · obtain ⟨hm, hmax⟩ := largest_enabledSlots h4
      split
      · next h =>
        obtain rfl : i = largest (enabledSlots s core) := by omega
        exact iff_of_true rfl (.inr ⟨h4, hm, hmax⟩)
      · next h =>
        refine ⟨.inl, fun h' => h'.resolve_right ?_⟩
        rintro ⟨-, him, hi'⟩
        exact h ⟨h4, by rw [largest_eq him hi']⟩
    · rw [if_neg fun h => h4 h.1]
      exact ⟨.inl, fun h => h.resolve_right fun h => h4 h.1⟩
  · intro hz
    rw [if_pos hz] at e
    obtain ⟨v, hv, e2⟩ := visit enableSlot fun s u k => enableSlot_elsewhere s u
    rw [e, e2, slotOffAt_enableSlot, hv i hi]
    refine and_congr_right fun hoff => ?_
    constructor
    · intro h
      by_contra hk
      refine h ⟨i, hi, rfl, fun n hn => ?_⟩
      rw [hv n (by omega)]
      exact Bool.eq_false_iff.2 fun ho => hk ⟨n, hn, ho⟩
    · rintro ⟨k, hk, ho⟩ ⟨n, hn, hin, hall⟩
      obtain rfl : i = n := by omega
      exact absurd (ho.symm.trans ((hv k (by omega)).symm.trans (hall k hk))) nofun

/-- The clusters of a die that are present. -/
def dieClusters (s : State) (d : Nat) : List Nat := (List.range 48).filter (dieCluster s d)

theorem mem_dieClusters {s : State} {d c : Nat} : c ∈ dieClusters s d ↔ c < 48 ∧ dieCluster s d c = true := by
  rw [dieClusters, List.mem_filter, List.mem_range]

section
variable (d : Nat) (hot : Bool) (s : State)

/-- The state after the evaluation of each cluster of a die. -/
def evaluateClusters : State := (dieClusters s d).foldl (evaluateCluster d hot) s

theorem cold_evaluateClusters : cold (evaluateClusters d hot s) = cold s := foldl_preserves _ cold (cold_evaluateCluster d hot) _ s

variable {d hot s} {c : Nat} (hc : c < 48) (hp : dieCluster s d c = true)
include hc hp

theorem clusterView_evaluateClusters : ∃ t, cold t = cold s ∧ clusterView d c t = clusterView d c s
    ∧ clusterView d c (evaluateClusters d hot s) = clusterView d c (evaluateCluster d hot t c) :=
  foldl_visit (f := evaluateCluster d hot) (I := fun t => cold t = cold s) (g := clusterView d c) (c := c)
    (fun _ _ ht => (cold_evaluateCluster ..).trans ht) _ (List.Nodup.filter _ List.nodup_range)
    (mem_dieClusters.2 ⟨hc, hp⟩) (fun t _ _ hne => clusterView_evaluateCluster_ne d hot t hne) s rfl

omit hc hp in
theorem comesTo_of_view {t : State} (h1 : cold t = cold s) (h2 : clusterView d c t = clusterView d c s) : comesTo t d c = comesTo s d c := by
  have h3 : tget ({} : ThermCluster) t.work.therm (d * 64 + c) = tget {} s.work.therm (d * 64 + c) := congrArg Prod.fst h2
  rw [comesTo, h3, tempOf_of_cold h1, thermOf_of_cold h1, hub_of_cold h1]
  rfl

/-- The thermal state of each cluster after the evaluation. -/
theorem therm_evaluateClusters : let x := tget ({} : ThermCluster) s.work.therm (d * 64 + c)
    let y := tget ({} : ThermCluster) (evaluateClusters d hot s).work.therm (d * 64 + c)
    y.st = comesTo s d c ∧ y.withheld = (comesTo s d c != 0 || x.withheld && hot) := by
  intro x y
  obtain ⟨t, h1, h2, h3⟩ := clusterView_evaluateClusters (hot := hot) hc hp
  obtain ⟨b, hb⟩ := therm_evaluateCluster d hot t c
  have hy : y = _ := congrArg Prod.fst h3
  have hx : tget ({} : ThermCluster) t.work.therm (d * 64 + c) = x := congrArg Prod.fst h2
  rw [clusterView, hb, tget_tset, comesTo_of_view h1 h2, hx] at hy
  rw [hy]
  exact ⟨rfl, rfl⟩

end

/-! ### The power budget (R309) -/

/-- A die over its budget withholds the hottest of its clusters not withheld. -/
def withholdHottest (d : Nat) (hot : Bool) (s : State) : State :=
  if hot then match hottest s d with
    | some c => putTherm s (clusterNo d c) { tget {} s.work.therm (clusterNo d c) with withheld := true }
    | none => s
  else s

theorem cold_withholdHottest (d : Nat) (hot : Bool) (s : State) : cold (withholdHottest d hot s) = cold s := by
  unfold withholdHottest; split
  · split <;> rfl
  · rfl

theorem slotOffAt_withholdHottest (d : Nat) (hot : Bool) (s : State) (k : Nat) : slotOffAt (withholdHottest d hot s) k = slotOffAt s k := by
  unfold withholdHottest; split
  · split <;> rfl
  · rfl

/-- The hottest cluster not withheld, when no other is as hot. -/
theorem hottest_eq_some {s : State} {d c : Nat} (hc : c < 48) (hp : dieCluster s d c = true)
    (hw : (tget ({} : ThermCluster) s.work.therm (d * 64 + c)).withheld = false)
    (h : ∀ k, k < 48 → dieCluster s d k = true → (tget ({} : ThermCluster) s.work.therm (d * 64 + k)).withheld = false → k ≠ c →
      tempOf s d k < tempOf s d c) : hottest s d = some c := by
  have hm : (tempOf s d c, c) ∈ ((List.range 48).filter fun c => dieCluster s d c && !(tget ({} : ThermCluster) s.work.therm (clusterNo d c)).withheld).map
      fun c => (tempOf s d c, c) := by
    refine List.mem_map_of_mem (f := fun c => (tempOf s d c, c)) (List.mem_filter.2 ⟨List.mem_range.2 hc, ?_⟩)
    rw [hp, show (tget ({} : ThermCluster) s.work.therm (clusterNo d c)).withheld = false from hw]; rfl
  have hlt : ∀ x ∈ ((List.range 48).filter fun c => dieCluster s d c && !(tget ({} : ThermCluster) s.work.therm (clusterNo d c)).withheld).map
      (fun c => (tempOf s d c, c)), x = (tempOf s d c, c) ∨ x.1 < tempOf s d c := by
    intro x hx
    obtain ⟨k, hk, rfl⟩ := List.mem_map.1 hx
    simp only [List.mem_filter, List.mem_range, Bool.and_eq_true, Bool.not_eq_true'] at hk
    by_cases hkc : k = c
    · exact .inl (by rw [hkc])
    · exact .inr (h k hk.1 hk.2.1 hk.2.2 hkc)
  unfold hottest
  obtain ⟨l, r, e⟩ := List.append_of_mem hm
  rw [e] at hlt ⊢
  rw [foldl_best (p := (tempOf s d c, c))]
  · rfl
  · exact fun _ => rfl
  · intro y x; dsimp only; split <;> simp
  · intro x hx
    rcases hlt x (by simp [hx]) with rfl | h
    · exact if_neg (Int.lt_irrefl _)
    · exact if_neg (by omega)
  · intro x hx
    rcases hlt x (by simp [hx]) with rfl | h
    · exact ite_self _
    · exact if_pos h

/-- What of a cluster's thermal state later steps of an evaluation leave: all but its place in the ranking. -/
def heldBack (s : State) (k : Nat) : Nat × Bool := ((tget ({} : ThermCluster) s.work.therm k).st, (tget ({} : ThermCluster) s.work.therm k).withheld)

theorem heldBack_putTherm (s : State) (k j : Nat) (x : ThermCluster) : heldBack (putTherm s k x) j = if j = k then (x.st, x.withheld) else heldBack s j := by
  unfold heldBack putTherm
  by_cases h : j = k
  · subst h
    rw [if_pos rfl, tget_tset]
  · rw [if_neg h, tget_tset_ne _ _ _ _ _ h]

theorem heldBack_withholdHottest (d : Nat) (hot : Bool) (s : State) (k : Nat) : (heldBack (withholdHottest d hot s) k).1 = (heldBack s k).1
    ∧ ((heldBack s k).2 = true → (heldBack (withholdHottest d hot s) k).2 = true)
    ∧ (hot = false → heldBack (withholdHottest d hot s) k = heldBack s k) := by
  unfold withholdHottest
  cases hot
  · exact ⟨rfl, id, fun _ => rfl⟩
  · refine ⟨?_, ?_, nofun⟩ <;>
    · simp only [if_true]
      split
      · rw [heldBack_putTherm]
        split
        · next h => simp [h, heldBack]
        · simp
      · simp

theorem heldBack_withholdHottest_of {d : Nat} {s : State} {c : Nat} (h : hottest s d = some c) (k : Nat) :
    heldBack (withholdHottest d true s) k = if k = d * 64 + c then ((heldBack s k).1, true) else heldBack s k := by
  unfold withholdHottest
  simp only [if_true, h]
  rw [heldBack_putTherm]
  by_cases hk : k = clusterNo d c
  · rw [if_pos hk, if_pos (show k = d * 64 + c from hk), hk]; rfl
  · rw [if_neg hk, if_neg (show k ≠ d * 64 + c from hk)]

/-- A cluster's bias goes up by one, to 8 at most. -/
def raiseOne (d : Nat) (s : State) (c : Nat) : State :=
  let x := tget {} s.work.therm (clusterNo d c)
  putTherm s (clusterNo d c) { x with bias := min 8 (x.bias + 1) }
/-- The clusters of a die of which none is NORMAL have their bias raised (R309). -/
def raiseBias (d : Nat) (cs : List Nat) (s : State) : State := cs.foldl (raiseOne d) s

theorem cold_raiseBias (d : Nat) (cs : List Nat) (s : State) : cold (raiseBias d cs s) = cold s := foldl_preserves (raiseOne d) cold (fun _ _ => rfl) cs s

theorem slotOffAt_raiseBias (d : Nat) (cs : List Nat) (s : State) (k : Nat) : slotOffAt (raiseBias d cs s) k = slotOffAt s k :=
  foldl_preserves (raiseOne d) (slotOffAt · k) (fun _ _ => rfl) cs s

theorem heldBack_raiseBias (d : Nat) (cs : List Nat) (s : State) (k : Nat) : heldBack (raiseBias d cs s) k = heldBack s k := by
  refine foldl_preserves (raiseOne d) (heldBack · k) (fun s c => ?_) cs s
  show heldBack (putTherm s (clusterNo d c) _) k = _
  rw [heldBack_putTherm]
  split
  · next h => rw [h]; rfl
  · rfl

/-! ### Power kills (R304, R311) -/

/-- A launch that is cancelled by a power kill. -/
def Launch.killedNow (l : Launch) : Launch := { l with st := 3, killed := true }

/-- A launch marked CANCELLING by a power kill, unless it is so already. -/
def markLaunch (s : State) (n : Nat) : State := if (launchAt s n).st = 3 then s else putLaunch s n (launchAt s n).killedNow

theorem markFamily_launch (s : State) (n : Nat) : markFamily s ([], [n]) true = markLaunch s n := by
  unfold markLaunch
  show (if ((launchAt s n).st == 3) = true then s else putLaunch s n (launchAt s n).killedNow) = _
  simp

theorem launchAt_markLaunch (s : State) (n k : Nat) :
    launchAt (markLaunch s n) k = if k = n ∧ (launchAt s n).st ≠ 3 then (launchAt s n).killedNow else launchAt s k := by
  unfold markLaunch
  split
  · next h => rw [if_neg (fun e => e.2 h)]
  · next h =>
    show tget {} (tset {} s.work.launches n (launchAt s n).killedNow) k = _
    by_cases hk : k = n
    · rw [if_pos ⟨hk, h⟩, hk, tget_tset]
    · rw [if_neg (fun e => hk e.1), tget_tset_ne _ _ _ _ _ hk]; rfl

theorem tokens_markLaunch (s : State) (n : Nat) : (markLaunch s n).work.tokens = s.work.tokens := by
  unfold markLaunch; split <;> rfl

/-- A launch's cancellation marks it and puts its token in force. -/
theorem cancelInstance_launch_eq (s : State) (n : Nat) :
    let new := (cancelTokens s 0 n true).filter fun t => !s.work.tokens.contains t
    cancelInstance s 0 n none true = if 256 < s.work.tokens.length + new.length then none
      else some { markLaunch s n with
        work.tokens := (markLaunch s n).work.tokens ++ new
        work.casts := (markLaunch s n).work.casts ++ (cancelTokens s 0 n true).map fun t =>
          { token := t, toTake := cancelUnits s, left := cancelUnits s, waiter := none } } := by
  intro new
  rw [← markFamily_launch]
  rfl

/-- While its token fits a launch's cancellation marks it, and adds at most that token. -/
theorem cancelInstance_launch {s : State} {n : Nat} (h : s.work.tokens.length + 1 ≤ 256) : ∃ t, cancelInstance s 0 n none true = some t
    ∧ t.work.tokens.length ≤ s.work.tokens.length + 1 ∧ (∀ k, launchAt t k = if k = n ∧ (launchAt s n).st ≠ 3 then (launchAt s n).killedNow else launchAt s k) := by
  have hnew : ((cancelTokens s 0 n true).filter fun t => !s.work.tokens.contains t).length ≤ 1 := List.length_filter_le ..
  rw [cancelInstance_launch_eq, if_neg (by omega)]
  refine ⟨_, rfl, ?_, launchAt_markLaunch s n⟩
  rw [tokens_markLaunch, List.length_append]
  exact Nat.add_le_add_left hnew _

/-- The state but for what a power kill changes. -/
def unkilled (s : State) : State := { s with work.launches := [], work.tokens := [], work.casts := [], work.kills := [] }

theorem unkilled_cancelInstance (s : State) (n : Nat) : unkilled ((cancelInstance s 0 n none true).getD s) = unkilled s := by
  rw [cancelInstance_launch_eq]
  split
  · rfl
  · show unkilled (markLaunch s n) = unkilled s
    unfold markLaunch
    split <;> rfl

/-- Launches cancelled one after the other: each that is listed is marked. -/
theorem foldl_cancelInstance {n : Nat} (ns : List Nat) : ∀ s : State, s.work.tokens.length + ns.length ≤ 256 →
    (n ∈ ns ∧ (launchAt s n).st = 2 ∨ (launchAt s n).st = 3 ∧ (launchAt s n).killed = true) →
    let u := ns.foldl (fun s n => (cancelInstance s 0 n none true).getD s) s
    (launchAt u n).st = 3 ∧ (launchAt u n).killed = true := by
  induction ns with
  | nil => exact fun s _ h => h.resolve_left fun h => absurd h.1 nofun
  | cons m ns ih =>
    intro s hlen h
    rw [List.length_cons] at hlen
    obtain ⟨t, ht, htok, hl⟩ := cancelInstance_launch (s := s) (n := m) (by omega)
    rw [List.foldl_cons, ht]
    refine ih t (by omega) ?_
    rw [hl]
    by_cases hm : n = m
    · subst hm
      rcases h with ⟨-, h2⟩ | ⟨h3, hk⟩
      · rw [if_pos ⟨rfl, by omega⟩]; exact .inr ⟨rfl, rfl⟩
      · rw [if_neg (fun e => e.2 h3)]; exact .inr ⟨h3, hk⟩
    · rw [if_neg (fun e => hm e.1)]
      exact h.imp_left fun h => ⟨(List.mem_cons.1 h.1).resolve_left hm, h.2⟩

theorem unkilled_powerKill (s : State) (h : Word) : unkilled (powerKill s h) = unkilled s :=
  foldl_preserves _ unkilled unkilled_cancelInstance _ _

theorem kills_powerKill (s : State) (h : Word) : (powerKill s h).work.kills = s.work.kills ++ [h] := by
  refine foldl_preserves (fun (s : State) n => (cancelInstance s 0 n none true).getD s) (·.work.kills) (fun s n => ?_) _ _
  rw [cancelInstance_launch_eq]
  split
  · rfl
  · show (markLaunch s n).work.kills = s.work.kills
    unfold markLaunch
    split <;> rfl

theorem powerKill_cancels {s : State} {h : Word} {n : Nat} (h2 : (launchAt s n).st = 2) (hc : (launchAt s n).ctxh = h)
    (hlen : s.work.tokens.length + s.work.launches.length ≤ 256) : (launchAt (powerKill s h) n).st = 3 ∧ (launchAt (powerKill s h) n).killed = true := by
  refine foldl_cancelInstance _ _ ?_ (.inl ⟨?_, h2⟩)
  · rw [List.length_map]
    exact (Nat.add_le_add_left (List.length_filter_le ..) _).trans hlen
  · obtain ⟨l, hl⟩ : ∃ l, tfind s.work.launches n = some l := by
      cases hf : tfind s.work.launches n with
      | some l => exact ⟨l, rfl⟩
      | none => rw [launchAt, tget, hf] at h2; exact absurd h2 (by decide)
    rw [launchAt, tget, hl] at h2 hc
    have hm : (n, l) ∈ s.work.launches.filter fun e => e.2.ctxh == h && e.2.st == 2 :=
      List.mem_filter.2 ⟨mem_of_tfind hl, by simp [show l.ctxh = h from hc, show l.st = 2 from h2]⟩
    exact List.mem_map_of_mem (f := (·.1)) hm

/-! ### The evaluation of a die (R309) -/

section
variable (s : State) (d : Nat)

/-- The die's thermal record. -/
def dieTherm : Therm := (s.hub.therm.toList[d]?).getD {}

/-- The state in which an evaluation begins: its time is noted, and the thermal record is read. -/
def evaluating : State :=
  { s with work.evaluated := tset 0 s.work.evaluated d (s.time.dt / 16), work.thermTab := tset {} s.work.thermTab d (dieTherm s d) }

/-- The state after an evaluation has gone through the clusters and the power budget. -/
def afterBudget : State :=
  let hot := overBudget (evaluating s d) d
  withholdHottest d hot (evaluateClusters d hot (evaluating s d))

/-- The state after the ranking table has been settled. -/
def ranking : State :=
  let cs := dieClusters (evaluating s d) d
  let t := afterBudget s d
  let t := if !cs.isEmpty && cs.all (fun c => (heldBack (afterBudget s d) (clusterNo d c)).1 != 0) then raiseBias d cs t else t
  { t with work.rank := tput t.work.rank d (rankPasses (tempOf t d) 48 (rankOf t d)) }

/-- The end of an evaluation: with a CRIMSON cluster one context is killed. -/
def killing : State :=
  if (dieClusters (evaluating s d) d).any fun c => (heldBack (afterBudget s d) (clusterNo d c)).1 == 2 then match killTarget (ranking s d) d with
    | some h => powerKill (ranking s d) h
    | none => ranking s d
  else ranking s d

end

section
variable {s : State} {d : Nat}

theorem thermalEvaluation_early (h : s.time.dt / 16 ≤ tget 0 s.work.evaluated d) : exec (.thermalEvaluation d) s = .next s := by
  show Host.Outcome.next (confine s (if _ then _ else s)) = _
  rw [if_neg (by simp; omega)]
  rfl

theorem thermalEvaluation_due (hd : d < 4) (h : tget 0 s.work.evaluated d < s.time.dt / 16) :
    exec (.thermalEvaluation d) s = .next (confine s (killing s d)) := by
  show Host.Outcome.next (confine s (if _ then _ else s)) = _
  rw [if_pos (by simp [hd, h])]
  rfl

theorem cold_afterBudget : cold (afterBudget s d) = cold (evaluating s d) := (cold_withholdHottest ..).trans (cold_evaluateClusters ..)

theorem heldBack_ranking (k : Nat) : heldBack (ranking s d) k = heldBack (afterBudget s d) k := by
  show heldBack (if _ then raiseBias d _ _ else _) k = _
  split
  · exact heldBack_raiseBias ..
  · rfl

theorem slotOffAt_ranking (k : Nat) : slotOffAt (ranking s d) k = slotOffAt (evaluateClusters d (overBudget (evaluating s d) d) (evaluating s d)) k := by
  show slotOffAt (if _ then raiseBias d _ _ else _) k = _
  split
  · exact (slotOffAt_raiseBias ..).trans (slotOffAt_withholdHottest ..)
  · exact slotOffAt_withholdHottest ..

/-- The state but for what an evaluation changes of the clusters and the ranking table. -/
def unranked (s : State) : State := { cold s with work.rank := [] }

theorem unranked_ranking : unranked (ranking s d) = unranked (evaluating s d) := by
  have h : ∀ t : State, cold t = cold (evaluating s d) → ∀ r, unranked { t with work.rank := r } = unranked (evaluating s d) :=
    fun t ht r => congrArg (fun x : State => { x with work.rank := [] }) ht
  refine h _ ?_ _
  split
  · exact (cold_raiseBias ..).trans cold_afterBudget
  · exact cold_afterBudget

/-- A power kill leaves what the evaluation has done. -/
theorem unkilled_killing : unkilled (killing s d) = unkilled (ranking s d) := by
  unfold killing
  split
  · split
    · exact unkilled_powerKill ..
    · rfl
  · rfl

/-- What the model holds of a state that no power kill touches. -/
theorem of_unkilled {α : Type} {f : State → α} (hf : ∀ s, f (unkilled s) = f s) : f (killing s d) = f (ranking s d) := by
  rw [← hf, unkilled_killing, hf]

/-- What the model holds of a state that no evaluation touches but by its kills. -/
theorem of_unranked {α : Type} {f : State → α} (hf : ∀ s, f (unranked s) = f s) : f (ranking s d) = f (evaluating s d) := by
  rw [← hf, unranked_ranking, hf]

theorem heldBack_killing (k : Nat) : heldBack (killing s d) k = heldBack (afterBudget s d) k :=
  (of_unkilled (f := (heldBack · k)) fun _ => rfl).trans (heldBack_ranking k)

theorem slotOffAt_killing (k : Nat) :
    slotOffAt (killing s d) k = slotOffAt (evaluateClusters d (overBudget (evaluating s d) d) (evaluating s d)) k :=
  (of_unkilled (f := (slotOffAt · k)) fun _ => rfl).trans (slotOffAt_ranking k)

theorem evaluated_killing : (killing s d).work.evaluated = (evaluating s d).work.evaluated :=
  (of_unkilled (f := (·.work.evaluated)) fun _ => rfl).trans (of_unranked (f := (·.work.evaluated)) fun _ => rfl)

theorem thermTab_killing : (killing s d).work.thermTab = (evaluating s d).work.thermTab :=
  (of_unkilled (f := (·.work.thermTab)) fun _ => rfl).trans (of_unranked (f := (·.work.thermTab)) fun _ => rfl)

/-- What the ranking leaves of the launches, and of what a kill goes by. -/
theorem ranking_leaves : (ranking s d).work.launches = s.work.launches ∧ (ranking s d).work.kills = s.work.kills
    ∧ (ranking s d).work.tokens = s.work.tokens ∧ killTarget (ranking s d) d = killTarget s d :=
  ⟨of_unranked (f := (·.work.launches)) fun _ => rfl, of_unranked (f := (·.work.kills)) fun _ => rfl,
    of_unranked (f := (·.work.tokens)) fun _ => rfl, of_unranked (f := (killTarget · d)) fun _ => rfl⟩

/-- The states, as `evaluating` sees them: with the die's own thermal record. -/
def reading (s : State) (d : Nat) : State := { s with work.thermTab := tset {} s.work.thermTab d (dieTherm s d) }

/-- The state of a cluster after an evaluation, by the die's thermal record. -/
def thermalNext (s : State) (d c : Nat) : Nat :=
  nextThermal (tget ({} : ThermCluster) s.work.therm (d * 64 + c)).st (tempOf (reading s d) d c) (16 * (dieTherm s d).amber)
    (16 * (dieTherm s d).crimson) (tget ({} : Alarm) s.hub.alarm d).raised

theorem thermOf_evaluating : thermOf (evaluating s d) d = dieTherm s d := tget_tset ({} : Therm) s.work.thermTab d _

theorem comesTo_evaluating (c : Nat) : comesTo (evaluating s d) d c = thermalNext s d c := by
  rw [comesTo, thermOf_evaluating]; rfl

theorem overBudget_evaluating : overBudget (evaluating s d) d = true
    ↔ (dieTherm s d).budget < (tget ({} : Sensor) s.hub.sensors (200 + d)).raw.toNat ∨ (tget ({} : Alarm) s.hub.alarm d).budget = true := by
  rw [overBudget, thermOf_evaluating, Bool.or_eq_true, decide_eq_true_eq]; rfl

/-- The thermal states and the withheld clusters before the power budget is looked at. -/
theorem heldBack_evaluateClusters {hot : Bool} {c : Nat} (hc : c < 48) (hp : dieCluster s d c = true) :
    heldBack (evaluateClusters d hot (evaluating s d)) (d * 64 + c)
      = (thermalNext s d c, thermalNext s d c != 0 || (heldBack s (d * 64 + c)).2 && hot) := by
  obtain ⟨h1, h2⟩ := therm_evaluateClusters (d := d) (hot := hot) (s := evaluating s d) hc hp
  rw [comesTo_evaluating] at h1 h2
  exact Prod.ext h1 h2

theorem heldBack_afterBudget_st {c : Nat} (hc : c < 48) (hp : dieCluster s d c = true) :
    (heldBack (afterBudget s d) (d * 64 + c)).1 = thermalNext s d c :=
  (heldBack_withholdHottest ..).1.trans (congrArg Prod.fst (heldBack_evaluateClusters hc hp))

/-- The hottest cluster that is not withheld is withheld, and of those like it no other. -/
theorem afterBudget_hottest {c : Nat} (hot : overBudget (evaluating s d) d = true) (hc : c < 48) (hp : dieCluster s d c = true)
    (hw : (heldBack s (d * 64 + c)).2 = false) (hn : thermalNext s d c = 0)
    (h : ∀ k, k < 48 → dieCluster s d k = true → (heldBack s (d * 64 + k)).2 = false → thermalNext s d k = 0 → k ≠ c →
      tempOf (reading s d) d k < tempOf (reading s d) d c) :
    (heldBack (afterBudget s d) (d * 64 + c)).2 = true ∧ ∀ k, k < 48 → dieCluster s d k = true → (heldBack s (d * 64 + k)).2 = false →
      thermalNext s d k = 0 → k ≠ c → (heldBack (afterBudget s d) (d * 64 + k)).2 = false := by
  have hcold := cold_evaluateClusters d true (evaluating s d)
  have heq : afterBudget s d = withholdHottest d true (evaluateClusters d true (evaluating s d)) := by rw [afterBudget, hot]
  have hh : hottest (evaluateClusters d true (evaluating s d)) d = some c := by
    refine hottest_eq_some hc ?_ ?_ fun k hk hkp hkw hkc => ?_
    · rw [dieCluster_of_cold hcold]; exact hp
    · exact (congrArg Prod.snd (heldBack_evaluateClusters hc hp)).trans (by rw [hn, hw]; rfl)
    · rw [dieCluster_of_cold hcold] at hkp
      have hkw : (heldBack (evaluateClusters d true (evaluating s d)) (d * 64 + k)).2 = false := hkw
      rw [heldBack_evaluateClusters (s := s) hk hkp] at hkw
      simp only [Bool.and_true, Bool.or_eq_false_iff, bne_eq_false_iff_eq] at hkw
      rw [tempOf_of_cold hcold, tempOf_of_cold hcold]
      exact h k hk hkp hkw.2 hkw.1 hkc
  rw [heq]
  refine ⟨?_, fun k hk hkp hkw hkn hkc => ?_⟩
  · rw [heldBack_withholdHottest_of hh, if_pos rfl]
  · rw [heldBack_withholdHottest_of hh, if_neg (by omega), heldBack_evaluateClusters hk hkp, hkn, hkw]; rfl

theorem killing_of_cool (h : ∀ c, c < 48 → dieCluster s d c = true → thermalNext s d c ≠ 2) : killing s d = ranking s d := by
  refine if_neg ?_
  rw [List.any_eq_true]
  rintro ⟨c, hc, h2⟩
  obtain ⟨hc, hp⟩ := mem_dieClusters.1 hc
  exact h c hc hp ((heldBack_afterBudget_st (s := s) hc hp).symm.trans (eq_of_beq h2))

theorem killing_of_crimson {c : Nat} {h : Word} (hc : c < 48) (hp : dieCluster s d c = true) (h2 : thermalNext s d c = 2)
    (hk : killTarget s d = some h) : killing s d = powerKill (ranking s d) h := by
  have hany : ((dieClusters (evaluating s d) d).any fun c => (heldBack (afterBudget s d) (clusterNo d c)).1 == 2) = true :=
    List.any_eq_true.2 ⟨c, mem_dieClusters.2 ⟨hc, hp⟩, beq_iff_eq.2 ((heldBack_afterBudget_st hc hp).trans h2)⟩
  refine (if_pos hany).trans ?_
  rw [ranking_leaves.2.2.2, hk]

/-- The slots of a core after an evaluation of its die. -/
theorem slotOffAt_killing_core {c j i : Nat} (hc : c < 48) (hp : dieCluster s d c = true) (hj : j < 4) (hi : i < 16)
    (hcore : corePresent s (d * 256 + c * 4 + j) = true) :
    let core := d * 256 + c * 4 + j
    (thermalNext s d c ≠ 0 → (slotOffAt (killing s d) (core * 16 + i) = true ↔ slotOffAt s (core * 16 + i) = true
      ∨ 4 < (enabledSlots s core).length ∧ i ∈ enabledSlots s core ∧ ∀ k ∈ enabledSlots s core, k ≤ i))
    ∧ (thermalNext s d c = 0 → (slotOffAt (killing s d) (core * 16 + i) = true
      ↔ slotOffAt s (core * 16 + i) = true ∧ ∃ k, k < i ∧ slotOffAt s (core * 16 + k) = true)) := by
  intro core
  obtain ⟨t, h1, h2, h3⟩ := clusterView_evaluateClusters (hot := overBudget (evaluating s d) d) (s := evaluating s d) hc hp
  have view {x y : State} (h : clusterView d c x = clusterView d c y) {n : Nat} (hn : n < 16) : slotOffAt x (core * 16 + n) = slotOffAt y (core * 16 + n) := by
    have := congrFun (congrArg Prod.snd h) ⟨j * 16 + n, by omega⟩
    simp only [clusterView] at this
    rwa [show (d * 256 + c * 4) * 16 + (j * 16 + n) = core * 16 + n by omega] at this
  have ht {n : Nat} (hn : n < 16) : slotOffAt t (core * 16 + n) = slotOffAt s (core * 16 + n) := view h2 hn
  have hon : enabledSlots t core = enabledSlots s core := List.filter_congr fun k hk => by rw [ht (List.mem_range.1 hk)]
  have hev := slotOffAt_evaluateCluster_core d (overBudget (evaluating s d) d) t c hj hi ((corePresent_of_cold h1 _).trans hcore)
  rw [comesTo_of_view h1 h2, comesTo_evaluating] at hev
  rw [slotOffAt_killing, view h3 hi, ← hon, ← ht hi]
  refine hev.imp id fun h hz => (h hz).trans (and_congr_right fun _ => exists_congr fun k => and_congr_right fun hk => ?_)
  rw [ht (hk.trans hi)]

/-- The slots of another die stay. -/
theorem slotOffAt_killing_elsewhere {k : Nat} (hk : k / 4096 ≠ d) : slotOffAt (killing s d) k = slotOffAt s k := by
  rw [slotOffAt_killing]
  refine foldl_elsewhere (g := (slotOffAt · k)) _ (fun t c hc => evaluateCluster_elsewhere d _ t c ?_) (evaluating s d)
  rintro u i ⟨j, hj, rfl⟩ hi
  have := (mem_dieClusters.1 hc).1
  omega

theorem nextThermal_eq (cur : Nat) (t : Int) (amber crimson : Int) (alarm : Bool) : nextThermal cur t amber crimson alarm
    = if crimson ≤ t ∨ alarm = true then 2 else if cur = 2 ∧ crimson - 48 ≤ t then 2 else if amber ≤ t then 1
      else if (cur = 1 ∨ cur = 2) ∧ amber - 48 ≤ t then 1 else 0 := by
  unfold nextThermal
  simp only [Bool.or_eq_true, decide_eq_true_eq]
  by_cases h : crimson ≤ t ∨ alarm = true
  · rw [if_pos h, if_pos h]
  · rw [if_neg h, if_neg h]
    split
    · split_ifs <;> omega
    · split_ifs <;> omega
    · next h2 h1 =>
      have h2 : cur ≠ 2 := h2
      have h1 : cur ≠ 1 := h1
      split_ifs <;> omega

/-! ### Temperatures (R388) -/

theorem tempOf_good {c : Nat} (h : (tempSensor s d c).flags % 2 = 0) : tempOf s d c = (tempSensor s d c).raw := if_pos (by simp [h])

theorem largestGood_none {cs : List Nat} (h : ∀ k ∈ cs, (tempSensor s d k).flags % 2 = 1) : largestGood s d cs = none := by
  rw [largestGood, List.filterMap_eq_nil_iff.2]
  · rfl
  · intro k hk
    simp [h k hk]

theorem tempOf_suspect {c : Nat} (h : (tempSensor s d c).flags % 2 = 1) (hall : ∀ k ∈ List.range 48, (tempSensor s d k).flags % 2 = 1)
    (hn : ∀ k ∈ neighbours c, k < 48) : tempOf s d c = 16 * (thermOf s d).crimson := by
  unfold tempOf
  dsimp only
  rw [if_neg (by simp [h]), largestGood_none hall, largestGood_none fun k hk => hall k (List.mem_range.2 (hn k hk))]
  rfl

/-! ### Ticks of device time (R21, R22) -/

theorem dtTick_unready (h : readyCode s (kTree 0) ≠ 2) : exec .dtTick s = .next s := by
  show Host.Outcome.next (if _ then s else _) = _
  rw [if_pos (by simpa using h)]

/-- Device time and the units ahead of it, a tick later. -/
def nextTime (t : TimePart) : TimePart := { dt := t.dt + 1, early := (t.early.filter fun e => e.2 != 1).map fun e => (e.1, e.2 - 1) }

/-- A strand parked until a time that has come is woken. -/
def Strand.parkOver (now : Nat) (t : Strand) : Strand :=
  if t.st == 3 && (match t.wait with | .park (some d) => decide (d ≤ now) | _ => false) then { t with st := 0, wait := .woken } else t

theorem parkOver_ctx (now : Nat) (t : Strand) : (t.parkOver now).ctx = t.ctx := by
  unfold Strand.parkOver
  generalize (t.st == 3 && _) = b
  cases b <;> rfl

theorem parkOver_woken {now dl : Nat} {t : Strand} (hst : t.st = 3) (hw : t.wait = .park (some dl)) (h : dl ≤ now) :
    (t.parkOver now).st = 0 ∧ (t.parkOver now).wait = .woken := by
  unfold Strand.parkOver
  rw [if_pos (by simp [hst, hw, h])]
  exact ⟨rfl, rfl⟩

theorem parkOver_other {now : Nat} {t : Strand} (hst : t.st ≠ 3) : t.parkOver now = t := if_neg (by simp [hst])

theorem tfind_map_keyed {α : Type} (m : Sparse α) (f : Nat → α → α) (k : Nat) : tfind (m.map fun e => (e.1, f e.1 e.2)) k = (tfind m k).map (f k) := by
  induction m with
  | nil => rfl
  | cons e m ih => by_cases hk : e.1 = k <;> simp [tfind, hk, ih]

/-- The state after a tick. -/
def ticked (s : State) : State :=
  let t : State := { s with time := nextTime s.time }
  let late (n : Nat × Nat × Word) : Bool := decide (n.2.1 ≤ localDt t n.1)
  let u := (t.hold.notices.filter late).foldl (fun u n => takeNotice u n.1 n.2.2) { t with hold.notices := t.hold.notices.filter fun n => !late n }
  { u with core.slots := u.core.slots.map fun e => (e.1, e.2.parkOver (localDt t (e.1 / 16))) }

theorem dtTick_ready {s : State} (h : readyCode s (kTree 0) = 2) : exec .dtTick s = .next (confine { s with time := nextTime s.time } (ticked s)) :=
  congrArg Host.Outcome.next (if_neg (by simp [h]))

theorem ticked_leaves (s : State) : (ticked s).mem = s.mem
    ∧ (ticked s).core.slots = s.core.slots.map fun e => (e.1, e.2.parkOver (localDt { s with time := nextTime s.time } (e.1 / 16))) := by
  have hmem := foldl_preserves (fun (u : State) (n : Nat × Nat × Word) => takeNotice u n.1 n.2.2) (·.mem) (fun _ _ => rfl)
  have hslots := foldl_preserves (fun (u : State) (n : Nat × Nat × Word) => takeNotice u n.1 n.2.2) (·.core.slots) (fun _ _ => rfl)
  exact ⟨hmem _ _, congrArg (List.map _) (hslots _ _)⟩

theorem dtTick_moves {s : State} (h : readyCode s (kTree 0) = 2) :
    ∃ u, exec .dtTick s = .next u ∧ u.time.dt = s.time.dt + 1 ∧ u.mem = s.mem ∧ u.sregs = s.sregs ∧ u.hub = s.hub
      ∧ (∀ e ∈ u.time.early, ∃ n, (e.1, n) ∈ s.time.early ∧ e.2 = n - 1 ∧ n ≠ 1)
      ∧ ∀ c i t, i < 16 → strandAt s c i = some t → ∃ v, strandAt u c i = some v ∧ v.ctx = t.ctx
        ∧ (∀ dl, t.st = 3 → t.wait = .park (some dl) → dl ≤ u.time.dt + tget 0 u.time.early c → v.st = 0 ∧ v.wait = .woken)
        ∧ (t.st ≠ 3 → v = t) := by
  obtain ⟨hmem, hslots⟩ := ticked_leaves s
  refine ⟨_, dtTick_ready h, rfl, hmem, rfl, rfl, ?_, ?_⟩
  · intro e he
    obtain ⟨x, hx, rfl⟩ := List.mem_map.1 he
    obtain ⟨hx, h1⟩ := List.mem_filter.1 hx
    exact ⟨x.2, hx, rfl, by simpa using h1⟩
  · intro c i t hi ht
    refine ⟨t.parkOver (localDt { s with time := nextTime s.time } c), ?_, parkOver_ctx .., fun dl hst hw hdl => parkOver_woken hst hw hdl, parkOver_other⟩
    show tfind (ticked s).core.slots (c * 16 + i) = _
    rw [hslots, tfind_map_keyed _ fun k (t : Strand) => t.parkOver (localDt { s with time := nextTime s.time } (k / 16)), show tfind s.core.slots (c * 16 + i) = some t from ht,
      show (c * 16 + i) / 16 = c by omega]
    rfl

end

/-- Settles O43. -/
theorem stagesTemperaturesAndTimeAreKept : Obligations.StagesTemperaturesAndTimeAreKept := by
  refine ⟨⟨fun s => ⟨governorCheck_early, governorCheck_due⟩, ?_, ?_⟩, ?_, fun s => ⟨dtTick_unready, dtTick_moves⟩⟩
  · intro l i j c a b ha hb hij hfull hlo hcl hi hj hc hmax left
    have hsrc : bestOf (fun a b => decide (b < a)) (ranked l Stage.full) = some i := by
      refine bestOf_eq_some (v := a.queue.length) (ranked_sorted ..) (mem_ranked.2 ⟨a, ha, by simpa [Stage.full] using hfull, rfl⟩) ?_ ?_ <;>
      · intro x hx hlt
        obtain ⟨g, hg, hp, hx2⟩ := mem_ranked.1 hx
        have := hi x.1 g hg (by simpa [Stage.full] using hp) (by omega)
        simp only [hx2, decide_eq_true_eq, decide_eq_false_iff_not]
        omega
    have hdst : bestOf (fun a b => decide (a < b)) (ranked l Stage.spare) = some j := by
      refine bestOf_eq_some (v := b.queue.length) (ranked_sorted ..) (mem_ranked.2 ⟨b, hb, by simp [Stage.spare, hlo, hcl], rfl⟩) ?_ ?_ <;>
      · intro x hx hlt
        obtain ⟨g, hg, hp, hx2⟩ := mem_ranked.1 hx
        rw [Stage.spare, Bool.and_eq_true, decide_eq_true_eq, decide_eq_true_eq] at hp
        have := hj x.1 g hg hp.1 hp.2 (by omega)
        simp only [hx2, decide_eq_true_eq, decide_eq_false_iff_not]
        omega
    have := govern_moves ha hb hsrc hdst
    rwa [largest_eq hc hmax] at this
  · intro l h
    refine govern_of_none (h.imp (fun h => ?_) fun h => ?_) <;>
    · refine List.eq_nil_iff_forall_not_mem.2 fun x hx => ?_
      obtain ⟨g, hg, hp, -⟩ := mem_ranked.1 hx
      have := h g (List.mem_of_getElem? hg)
      simp only [Stage.full, Stage.spare, Bool.and_eq_true, decide_eq_true_eq] at hp
      omega
  · intro s d hd go th al tc hot temp next
    have hnext (c : Nat) : next (tc s c).st (temp c) = thermalNext s d c := (nextThermal_eq ..).symm
    have hhot : overBudget (evaluating s d) d = true ↔ hot := overBudget_evaluating
    have hnot : ¬ hot → overBudget (evaluating s d) d = false := fun h => Bool.eq_false_iff.2 fun e => h (hhot.1 e)
    have hafter {c : Nat} (hc : c < 48) (hp : dieCluster s d c = true) : (tc (killing s d) c).st = thermalNext s d c
        ∧ ((thermalNext s d c != 0 || (tc s c).withheld && overBudget (evaluating s d) d) = true → (tc (killing s d) c).withheld = true)
        ∧ (overBudget (evaluating s d) d = false → (tc (killing s d) c).withheld = (thermalNext s d c != 0)) := by
      have hk : heldBack (killing s d) (d * 64 + c) = _ := heldBack_killing _
      have he := heldBack_evaluateClusters (s := s) (hot := overBudget (evaluating s d) d) hc hp
      obtain ⟨-, hsnd, hcool⟩ := heldBack_withholdHottest d (overBudget (evaluating s d) d) (evaluateClusters d (overBudget (evaluating s d) d) (evaluating s d)) (d * 64 + c)
      rw [he] at hsnd hcool
      refine ⟨(congrArg Prod.fst hk).trans (heldBack_afterBudget_st hc hp), fun h => (congrArg Prod.snd hk).trans (hsnd h), fun h => ?_⟩
      refine (congrArg Prod.snd (hk.trans (hcool h))).trans ?_
      rw [h, Bool.and_false, Bool.or_false]
    simp only [hnext]
    refine ⟨thermalEvaluation_early, fun h => ⟨_, thermalEvaluation_due hd h, ?_, ?_, ?_, ?_, ?_, ?_⟩, fun h => ⟨_, thermalEvaluation_due hd h, ?_, ?_⟩, ?_, ?_⟩
    · exact (congrArg (tget 0 · d) (evaluated_killing (s := s) (d := d))).trans (tget_tset ..)
    · exact (congrArg (tget {} · d) (thermTab_killing (s := s) (d := d))).trans (tget_tset ..)
    · intro c hc hp
      obtain ⟨h1, h2, h3⟩ := hafter hc hp
      refine ⟨h1, fun hn => h2 (by simp [hn]), fun hn hh => ?_, fun hn hh hw => h2 ?_⟩
      · exact (h3 (hnot hh)).trans (by rw [hn]; rfl)
      · rw [hw, hhot.2 hh, Bool.true_and, Bool.or_true]
    · intro c hh hc hp hw hn hall
      obtain ⟨h1, h2⟩ := afterBudget_hottest (hhot.2 hh) hc hp hw hn hall
      exact ⟨(congrArg Prod.snd (heldBack_killing (d * 64 + c))).trans h1,
        fun k hk hkp hkw hkn hkc => (congrArg Prod.snd (heldBack_killing (d * 64 + k))).trans (h2 k hk hkp hkw hkn hkc)⟩
    · intro hcool
      have e := killing_of_cool (s := s) (d := d) hcool
      exact ⟨(congrArg (·.work.launches) e).trans ranking_leaves.1, (congrArg (·.work.kills) e).trans ranking_leaves.2.1⟩
    · intro c h hc hp h2 hk
      have e := killing_of_crimson hc hp h2 hk
      obtain ⟨hl, hkills, htok, -⟩ := ranking_leaves (s := s) (d := d)
      have hat (n : Nat) : launchAt (ranking s d) n = launchAt s n := congrArg (fun m => tget ({} : Launch) m n) hl
      refine ⟨(congrArg (·.work.kills) e).trans ((kills_powerKill ..).trans (congrArg (· ++ [h]) hkills)), fun n hn2 hnc hlen => ?_⟩
      have := powerKill_cancels (s := ranking s d) (h := h) (n := n) (by rw [hat]; exact hn2) (by rw [hat]; exact hnc) (by rw [hl, htok]; exact hlen)
      rw [← e] at this
      exact this
    · intro c j hc hp hj hcp
      exact ⟨fun hn i hi => (slotOffAt_killing_core hc hp hj hi hcp).1 hn, fun hn i hi => (slotOffAt_killing_core hc hp hj hi hcp).2 hn⟩
    · exact fun k hk => slotOffAt_killing_elsewhere hk
    · intro core
      refine ⟨fun h4 => ?_, disableSlot_of_few⟩
      obtain ⟨hm, hmax⟩ := largest_enabledSlots (s := s) (u := core) h4
      refine ⟨_, hm, hmax, fun k => (slotOffAt_disableSlot s core k).trans ?_⟩
      rw [show slotOffAt s k = tget false s.core.slotOff k from rfl]
      simp only [show 4 < (enabledSlots s core).length from h4, true_and]
    · intro c
      exact ⟨tempOf_good, tempOf_suspect⟩

end Sys2Proof.Machine
end

section
/-! PROOFS. GRANTCTX, RENEWCTX, LOADOVL and LINKCFG (O51). -/

namespace Sys2Proof.Machine
open Sys2Proof

/-! ### How a command ends (R372) -/

theorem command_taken {opc : Nat} {mine : State → Bool} {flagsOk : Nat → Bool} {body : State → State} {s : State} (hw : s.hub.cqhead ≠ s.hub.cqtail)
    (hn : cmdField s 0 1 = opc) (hm : mine s = true) (hf : flagsOk (cmdFlags s) = true) (ht : accepts s opc = true) :
    command opc mine flagsOk body s = body s := by
  rw [command, if_neg (by simp [hw, hn, hm]), if_neg (by simp [hf]), if_neg (by simp [ht])]

theorem plainCommand_taken {opc : Nat} {body : State → CmdOut} {s : State} (h : Command s opc 0) : plainCommand opc body s = finishCmd (body s) :=
  command_taken h.waits h.named rfl (by rw [h.options]; rfl) h.taken

/-- A command without FLAGS ends as its body says. -/
theorem exec_plainCommand {i : Instr} {opc : Nat} {body : State → CmdOut} {s : State} {d : CmdOut}
    (hi : exec i s = .next (confineHub s (plainCommand opc body s))) (h : Command s opc 0) (hd : body s = d) :
    exec i s = .next (confineHub s (finishCmd d)) := by
  rw [hi, plainCommand_taken h, hd]

theorem termOk_iff {v : Word} : termOk v = true ↔ v.toNat < 2 ^ 32 := decide_eq_true_iff

/-- The entry of a command after it has ended, and the memory outside the entry. -/
theorem writeEntry_mem (s : State) (a status : Nat) (res : Word) (n : Nat) : let m := (writeEntry s a status res n).mem
    memRead m (a + 2) 2 = status % 65536 ∧ memRead m (a + 0x34) 4 = n % 2 ^ 32 ∧ memRead m (a + 0x38) 8 = res.toNat
      ∧ ∀ x, x < a ∨ a + 64 ≤ x → memByte m x = memByte s.mem x := by
  intro m
  refine ⟨memRead_memWrite .., ?_, ?_, fun x hx => ?_⟩
  · exact (memRead_memWrite_out _ (by omega)).trans ((memRead_memWrite_out _ (by omega)).trans (memRead_memWrite ..))
  · exact (memRead_memWrite_out _ (by omega)).trans ((memRead_memWrite ..).trans (Nat.mod_eq_of_lt res.isLt))
  · exact (memByte_memWrite_out _ _ _ _ _ (by omega)).trans ((memByte_memWrite_out _ _ _ _ _ (by omega)).trans (memByte_memWrite_out _ _ _ _ _ (by omega)))

/-- The memory after a command, its queue being where it was. -/
theorem mem_finishCmd {s : State} {d : CmdOut} (ha : cmdAddr d.st = cmdAddr s) :
    (confineHub s (finishCmd d)).mem = (writeEntry d.st (cmdAddr s) d.status d.res d.reslen).mem := by
  rw [← ha]; rfl

section
variable {i : Instr} {s : State} {d : CmdOut} {P : State → Prop} (he : exec i s = .next (confineHub s (finishCmd d)))
include he

/-- A command that leaves memory as it is, and of the hub no more than its wait, ends with its STATUS and RES. -/
theorem commandEnds_of_finishCmd (hm : d.st.mem = s.mem) (hh : d.st.hub = { s.hub with linkWait := d.st.hub.linkWait }) (hs : d.status < 65536)
    (hr : d.reslen = 0) (hP : P (confineHub s (finishCmd d))) : CommandEnds i s d.status d.res [] P := by
  have ha : cmdAddr d.st = cmdAddr s := by rw [cmdAddr, hh]; rfl
  obtain ⟨h1, h2, h3, h4⟩ := writeEntry_mem d.st (cmdAddr d.st) d.status d.res d.reslen
  rw [ha] at h1 h2 h3 h4
  have hmem := mem_finishCmd ha
  refine ⟨_, he, ?_, ?_, ?_, ?_, rfl, fun a _ h => ?_, hP⟩
  · show (d.st.hub.cqhead + 1) % d.st.hub.cqsize = _
    rw [hh]
  · rw [hmem, h1, Nat.mod_eq_of_lt hs]
  · rw [hmem, h2, hr]; rfl
  · rw [hmem, h3]
  · rw [hmem, h4 a (by omega), hm]

/-- A command that is refused changes its entry only. -/
theorem commandEnds_of_refuseCmd {n : Nat} (hd : d = refuseCmd s n) (hn : n < 65536) : CommandEnds i s n 0 [] (OnlyEntry s) := by
  subst hd
  exact commandEnds_of_finishCmd he rfl rfl hn rfl rfl

end

/-! ### Contexts (R31, R374) -/

section
variable {s : State}

/-- The slices that GRANTCTX looks at: the one named, or those READY. -/
def grantHomes (s : State) : List Nat := if (cmdArg s 1).toNat == 0 then sliceIds.filter (slicePresent s) else [(cmdArg s 1).toNat]

theorem grantctx_admitted (ht : (cmdArg s 0).toNat < 2 ^ 32) (hh : (cmdArg s 1).toNat = 0 ∨ slicePresent s (cmdArg s 1).toNat = true) :
    ¬ (!termOk (cmdArg s 0) || ((cmdArg s 1).toNat != 0 && !slicePresent s (cmdArg s 1).toNat)) = true := by
  rcases hh with hh | hh <;> simp [termOk_iff.2 ht, hh]

section
variable (h : Command s 0x03 0) (ht : (cmdArg s 0).toNat < 2 ^ 32) (hh : (cmdArg s 1).toNat = 0 ∨ slicePresent s (cmdArg s 1).toNat = true)
include h ht hh

theorem grantctx_issues {key : Nat} (hk : (grantHomes s).findSome? (freeEntry s 3) = some key) :
    let g := mkHandle key (nextGen (lifeOf s key).gen)
    CommandEnds .grantctx s 0 g [] fun u =>
      lifeOf u key = { st := 1, expiry := s.time.dt + tget 0 s.time.early (keyHome key) + (cmdArg s 0).toNat, gen := nextGen (lifeOf s key).gen, owner := g }
        ∧ ∀ k, k ≠ key → lifeOf u k = lifeOf s k := by
  intro g
  have he : exec .grantctx s = .next (confineHub s (finishCmd
      { st := issueEntry s key g (localDt s (keyHome key) + (cmdArg s 0).toNat), res := g })) := by
    refine exec_plainCommand rfl h ?_
    dsimp only
    rw [if_neg (grantctx_admitted ht hh), ← grantHomes, hk]
  exact commandEnds_of_finishCmd he rfl rfl (by decide : 0 < 65536) rfl ⟨lifeOf_issueEntry .., fun k hk => lifeOf_issueEntry_ne s hk ..⟩

theorem grantctx_fails (hk : (grantHomes s).findSome? (freeEntry s 3) = none) :
    CommandEnds .grantctx s (if (grantHomes s).isEmpty then 7 else 3) 0 [] (OnlyEntry s) := by
  have he : exec .grantctx s = .next (confineHub s (finishCmd (refuseCmd s (if (grantHomes s).isEmpty then 7 else 3)))) := by
    refine exec_plainCommand rfl h ?_
    dsimp only
    rw [if_neg (grantctx_admitted ht hh), ← grantHomes, hk]
  exact commandEnds_of_refuseCmd he rfl (by split <;> decide)

end

theorem grantctx_bad (h : Command s 0x03 0) (hb : 2 ^ 32 ≤ (cmdArg s 0).toNat ∨ (cmdArg s 1).toNat ≠ 0 ∧ slicePresent s (cmdArg s 1).toNat = false) :
    CommandEnds .grantctx s 2 0 [] (OnlyEntry s) := by
  have hb : (!termOk (cmdArg s 0) || ((cmdArg s 1).toNat != 0 && !slicePresent s (cmdArg s 1).toNat)) = true := by
    rcases hb with hb | ⟨h1, h2⟩
    · simp [Bool.eq_false_iff.2 (mt termOk_iff.1 (Nat.not_lt.2 hb))]
    · simp [h1, h2]
  exact commandEnds_of_refuseCmd (exec_plainCommand rfl h (if_pos hb)) rfl (by decide)

theorem grantHomes_named (h : (cmdArg s 1).toNat ≠ 0) : grantHomes s = [(cmdArg s 1).toNat] := if_neg (by simpa using h)

theorem grantHomes_any (h : (cmdArg s 1).toNat = 0) : grantHomes s = sliceIds.filter (slicePresent s) := if_pos (by simpa using h)

/-- The first slice that is READY and has an entry gives it. -/
theorem findSome_present {a b : List Nat} {h key : Nat} (hp : slicePresent s h = true) (hk : freeEntry s 3 h = some key)
    (ha : ∀ x ∈ a, slicePresent s x = false ∨ freeEntry s 3 x = none) : ((a ++ h :: b).filter (slicePresent s)).findSome? (freeEntry s 3) = some key := by
  rw [List.filter_append, List.findSome?_append, List.findSome?_eq_none_iff.2, List.filter_cons_of_pos hp, List.findSome?_cons_of_isSome]
  · exact hk
  · rw [hk]; rfl
  · intro x hx
    obtain ⟨hx, hp⟩ := List.mem_filter.1 hx
    exact (ha x hx).resolve_left fun e => absurd (hp.symm.trans e) nofun

theorem ctxStatus_ne_two {h : Word} : ctxStatus s h ≠ 2 ↔ hKind h = 3 ∧ slicePresent s (hHome h) = true ∧ hGen h ≠ 0 ∧ hIndex h < 256 := by
  unfold ctxStatus
  split
  · next hb =>
    refine iff_of_false (fun e => e rfl) ?_
    rintro ⟨h1, h2, h3, h4⟩
    simp [h1, h2, h3] at hb
    omega
  · next hb =>
    simp only [Bool.or_eq_true, bne_iff_ne, ne_eq, Bool.not_eq_true', beq_iff_eq, decide_eq_true_eq, not_or, not_not, Bool.not_eq_false, not_le] at hb
    obtain ⟨⟨⟨h1, h2⟩, h3⟩, h4⟩ := hb
    refine iff_of_true ?_ ⟨h1, h2, h3, h4⟩
    split <;> decide

theorem ctxStatus_of_ne_two {h : Word} (hn : ctxStatus s h ≠ 2) : ctxStatus s h = if liveHandle s h then 0 else 4 := by
  unfold ctxStatus at *
  split at hn
  · exact absurd rfl hn
  · next hb => exact if_neg hb

theorem renewctx_settled (h : Command s 0x04 0) :
    let g := cmdArg s 0
    let term := (cmdArg s 1).toNat
    let x := s.time.dt + tget 0 s.time.early (hHome g) + term
    let named : Prop := hKind g = 3 ∧ slicePresent s (hHome g) = true ∧ hGen g ≠ 0 ∧ hIndex g < 256
    (named → term < 2 ^ 32 → liveHandle s g = true → CommandEnds .renewctx s 0 (BitVec.ofNat 64 x) [] fun u =>
      lifeOf u (hKey g) = { lifeOf s (hKey g) with expiry := x } ∧ ∀ k, k ≠ hKey g → lifeOf u k = lifeOf s k)
    ∧ (named → term < 2 ^ 32 → liveHandle s g = false → CommandEnds .renewctx s 4 0 [] (OnlyEntry s))
    ∧ ((¬ named ∨ 2 ^ 32 ≤ term) → CommandEnds .renewctx s 2 0 [] (OnlyEntry s)) := by
  intro g term x named
  have hok (hn : ctxStatus s g ≠ 2) (ht : term < 2 ^ 32) : ¬ (ctxStatus s g == 2 || !termOk (cmdArg s 1)) = true := by
    simp [hn, termOk_iff.2 ht]
  refine ⟨fun hn ht hl => ?_, fun hn ht hl => ?_, fun hb => ?_⟩
  · have h2 := ctxStatus_ne_two.2 hn
    have h0 := (ctxStatus_of_ne_two h2).trans (if_pos hl)
    have he : exec .renewctx s = .next (confineHub s (finishCmd
        { st := setLife s (hKey g) { lifeOf s (hKey g) with expiry := x }, res := BitVec.ofNat 64 x })) :=
      exec_plainCommand rfl h ((if_neg (hok h2 ht)).trans (if_neg (by simp [g, h0])))
    exact commandEnds_of_finishCmd he rfl rfl (by decide : 0 < 65536) rfl ⟨lifeOf_setLife .., fun k hk => lifeOf_setLife_ne s hk _⟩
  · have h2 := ctxStatus_ne_two.2 hn
    have h4 := (ctxStatus_of_ne_two h2).trans (if_neg (by simp [hl]))
    exact commandEnds_of_refuseCmd (exec_plainCommand rfl h ((if_neg (hok h2 ht)).trans (if_pos (by simp [g, h4])))) rfl (by decide)
  · refine commandEnds_of_refuseCmd (exec_plainCommand rfl h (if_pos ?_)) rfl (by decide)
    rcases hb with hb | hb
    · have h2 := not_not.1 (mt ctxStatus_ne_two.1 hb)
      simp [show ctxStatus s (cmdArg s 0) = 2 from h2]
    · simp [Bool.eq_false_iff.2 (mt termOk_iff.1 (Nat.not_lt.2 hb))]

end

/-! ### Bytes copied (R1) -/

theorem ofNat_memRead_div (m : List Host.Cell) (a n : Nat) : ∀ j, j < n → BitVec.ofNat 8 (memRead m a n / 256 ^ j) = memByte m (a + j) := by
  induction n generalizing a with
  | zero => exact fun _ h => absurd h (by omega)
  | succ n ih =>
    intro j hj
    have hb : (memByte m a).toNat < 256 := (memByte m a).isLt
    cases j with
    | zero =>
      apply BitVec.eq_of_toNat_eq
      rw [memRead, pow_zero, Nat.div_one, BitVec.toNat_ofNat, Nat.add_mul_mod_self_left, Nat.mod_eq_of_lt hb]
      rfl
    | succ j =>
      rw [memRead, pow_succ', ← Nat.div_div_eq_div_mul, Nat.add_mul_div_left _ _ (by decide), Nat.div_eq_of_lt hb, Nat.zero_add, ih (a + 1) j (by omega),
        Nat.add_right_comm, Nat.add_assoc]

theorem memBytes_congr {m m' : List Host.Cell} {a b n : Nat} (h : ∀ j, j < n → memByte m (a + j) = memByte m' (b + j)) : memBytes m a n = memBytes m' b n := by
  induction n generalizing a b with
  | zero => rfl
  | succ n ih =>
    rw [memBytes, memBytes, show memByte m a = memByte m' b from h 0 (by omega), ih fun j hj => ?_]
    rw [Nat.add_assoc, Nat.add_comm 1, h (j + 1) (by omega), Nat.add_assoc, Nat.add_comm 1]

/-- Bytes copied by a read and a write are those read. -/
theorem memByte_memWrite_memRead (m : List Host.Cell) {a b n j : Nat} (hj : j < n) : memByte (memWrite m a n (memRead m b n)) (a + j) = memByte m (b + j) := by
  rw [memByte_memWrite_in _ ⟨by omega, by omega⟩, Nat.add_sub_cancel_left, ofNat_memRead_div _ _ _ _ hj]

theorem memByte_memPuts_out (m : List Host.Cell) (a x : Nat) (bs : List Byte) (h : x < a ∨ a + bs.length ≤ x) :
    memByte (memPuts m a bs) x = memByte m x := by
  induction bs generalizing m a with
  | nil => rfl
  | cons b bs ih =>
    rw [List.length_cons] at h
    rw [memPuts, ih _ _ (by omega), memByte_memPut_ne _ _ _ _ (by omega)]

theorem memRead_memPuts (m : List Host.Cell) (a : Nat) (bs : List Byte) : memRead (memPuts m a bs) a bs.length = ofBytes bs := by
  induction bs generalizing m a with
  | nil => rfl
  | cons b bs ih =>
    rw [List.length_cons, memRead, memPuts, ih, memByte_memPuts_out _ _ _ _ (.inl (Nat.lt_succ_self a)), memByte_memPut, ofBytes]

/-! ### Bundles (R76, R375) -/

theorem leastFrom_of_least {p : Nat → Bool} {n fuel : Nat} (hp : p n = true) : ∀ k, k ≤ n → n < k + fuel → (∀ j, k ≤ j → j < n → p j = false) →
    leastFrom p k fuel = some n := by
  induction fuel with
  | zero => exact fun k h1 h2 _ => absurd h1 (by omega)
  | succ fuel ih =>
    intro k hk hn h
    rw [leastFrom]
    by_cases hkn : k = n
    · rw [hkn, if_pos hp]
    · rw [if_neg (by rw [h k (Nat.le_refl k) (by omega)]; nofun)]
      exact ih (k + 1) (by omega) (by omega) fun j hj => h j (by omega)

section
variable {s : State}

/-- The digest and the signature of a bundle hold. -/
def bundleVerifies (s : State) : Prop :=
  BitVec.ofNat 512 (memRead s.mem (cmdBuf s + (cmdBufLen s - 576)) 64) = digest (memBytes s.mem (cmdBuf s) (cmdBufLen s - 576))
    ∧ Config.verify (BitVec.ofNat 512 (memRead s.mem (cmdBuf s + (cmdBufLen s - 576)) 64))
      (BitVec.ofNat 4096 (memRead s.mem (cmdBuf s + (cmdBufLen s - 512)) 512)) = true

theorem bundleStatus_length (h : cmdBufLen s < 640 ∨ memRead s.mem (cmdBuf s + 8) 8 ≠ cmdBufLen s) : bundleStatus s = 2 :=
  if_pos (by simpa using h)

section
variable (h1 : 640 ≤ cmdBufLen s) (h2 : memRead s.mem (cmdBuf s + 8) 8 = cmdBufLen s)
include h1 h2

theorem bundleStatus_unverified (hv : ¬ bundleVerifies s) : bundleStatus s = 5 := by
  refine (if_neg ?_).trans (if_pos ?_)
  · simp [h2]; omega
  · by_contra hn
    simp only [Bool.or_eq_true, bne_iff_ne, ne_eq, Bool.not_eq_true', not_or, not_not, Bool.not_eq_false] at hn
    exact hv hn

theorem bundleStatus_ok (hv : bundleVerifies s) {e : OvlEntry} (he : bundleEntries s = [e]) (h3 : memRead s.mem (cmdBuf s + 0) 4 = 0x424D4C46)
    (h4 : memRead s.mem (cmdBuf s + 4) 2 = 1) (h5 : memRead s.mem (cmdBuf s + 16) 48 = 0) (hok : e.ok 1 (cmdBufLen s) = true) (hd : e.dataLen = 0) :
    bundleStatus s = 0 := by
  refine (if_neg ?_).trans ((if_neg ?_).trans ?_)
  · simp [h2]; omega
  · simp only [Bool.or_eq_true, bne_iff_ne, ne_eq, Bool.not_eq_true', not_or, not_not, Bool.not_eq_false]
    exact hv
  · rw [he]
    exact if_neg (by simp only [Nat.add_zero] at h3; simp [h3, h4, h5, hok, hd, distinctIds, disjointImages])

end

/-- The one entry of a bundle that has one. -/
theorem bundleEntries_one (h : memRead s.mem (cmdBuf s + 6) 2 = 1) : let f (off k : Nat) : Nat := memRead s.mem (cmdBuf s + off) k
    bundleEntries s = [{ id := f 64 2, codeLen := f 68 4, codeOff := f 72 8, dataLen := f 80 4, dataOff := f 88 8,
                         zeros := f 66 2 == 0 && f 84 4 == 0 }] := by
  rw [bundleEntries, h, List.range_one, List.map_singleton, ovlEntry]

theorem loadovl_lapsed (h : Command s 0x05 0) (hc : ctxStatus s (cmdArg s 0) ≠ 0) :
    CommandEnds .loadovl s (ctxStatus s (cmdArg s 0)) 0 [] (OnlyEntry s) := by
  refine commandEnds_of_refuseCmd (exec_plainCommand rfl h (if_pos (by simpa using hc))) rfl ?_
  unfold ctxStatus
  split
  · decide
  · split <;> decide

section
variable (h : Command s 0x05 0) (hc : ctxStatus s (cmdArg s 0) = 0) (ht : (cmdArg s 1).toNat < 2 ^ 32)
include h hc ht

theorem loadovl_refused {n : Nat} (hb : bundleStatus s = n) (hn : n ≠ 0) (hn' : n < 65536) : CommandEnds .loadovl s n 0 [] (OnlyEntry s) := by
  refine commandEnds_of_refuseCmd (exec_plainCommand rfl h ((if_neg (by simp [hc])).trans ((if_neg (by simp [termOk_iff.2 ht])).trans (if_pos ?_)))) ?_ hn'
  · simp [hb, hn]
  · rw [hb]

/-- A bundle of one overlay, without data, that LOADOVL takes. -/
def takeBundle (s : State) (e : OvlEntry) (k : Nat) : State :=
  { s with
    work.bundles := s.work.bundles ++ [{ ctxh := cmdArg s 0, number := k, base := bundleBase s, ovls := [(e.id, bundleBase s + e.codeOff, e.codeLen)] }]
    mem := memPuts (memWrite s.mem (bundleBase s + e.codeOff) e.codeLen (memRead s.mem (cmdBuf s + e.codeOff) e.codeLen)) (hostAt (cmdArg s 2).toNat)
      (toBytes 8 0 ++ toBytes 8 0) }

theorem exec_loadovl {e : OvlEntry} {k : Nat} (hb : bundleStatus s = 0) (he : bundleEntries s = [e]) (hd : e.dataLen = 0)
    (hk : freeBundle s (cmdArg s 0) = some k) :
    exec .loadovl s = .next (confineHub s (finishCmd { st := takeBundle s e k, res := BitVec.ofNat 64 k })) := by
  have hp : placeData (cmdArg s 0) (cmdBuf s) (cmdArg s 1).toNat [e] s = some (s, [(0, 0)]) := by
    rw [placeData, if_pos (by simp [hd])]; rfl
  refine exec_plainCommand rfl h ((if_neg (by simp [hc])).trans ((if_neg (by simp [termOk_iff.2 ht])).trans ((if_neg (by simp [hb])).trans ?_)))
  rw [hk, he, hp]
  rfl

end

/-- Firmware keeps images below host memory. -/
theorem bundleBase_le (s : State) : bundleBase s ≤ 2 ^ 62 + s.work.bundles.length * 2 ^ 32 := by
  have h : ∀ o : Option Nat, (∀ k, o = some k → k ≤ s.work.bundles.length) → 2 ^ 62 + o.getD s.work.bundles.length * 2 ^ 32 ≤ 2 ^ 62 + s.work.bundles.length * 2 ^ 32 := by
    rintro (_ | k) hk
    · exact Nat.le_refl _
    · have := hk k rfl
      show 2 ^ 62 + k * 2 ^ 32 ≤ _
      omega
  exact h _ fun k hk => by
    obtain ⟨-, hlt, -⟩ := leastFrom_eq_some hk
    omega

theorem freeBundle_eq_some {ctxh : Word} {k : Nat} (h1 : 1 ≤ k) (hk : k < 65536) (hfree : ∀ x ∈ s.work.bundles, x.ctxh = ctxh → x.number ≠ k)
    (hused : ∀ j, 1 ≤ j → j < k → ∃ x ∈ s.work.bundles, x.ctxh = ctxh ∧ x.number = j) : freeBundle s ctxh = some k := by
  refine leastFrom_of_least ?_ 1 h1 (by omega) fun j hj hjk => ?_
  · simp only [Bool.not_eq_true', List.any_eq_false, Bool.and_eq_true, beq_iff_eq, not_and]
    exact fun x hx hn hc => hfree x hx hc hn
  · obtain ⟨x, hx, hc, hn⟩ := hused j hj hjk
    simp only [Bool.not_eq_false', List.any_eq_true, Bool.and_eq_true, beq_iff_eq]
    exact ⟨x, hx, hn, hc⟩

/-- The memory once a bundle has been taken: its code copied, and one entry of a table without ranges. -/
theorem takeBundle_mem (s : State) (e : OvlEntry) (k : Nat) : (takeBundle s e k).mem
    = memPuts (memWrite s.mem (bundleBase s + e.codeOff) e.codeLen (memRead s.mem (cmdBuf s + e.codeOff) e.codeLen)) (hostAt (cmdArg s 2).toNat)
        (List.replicate 16 0) :=
  congrArg (memPuts _ _) (by decide : toBytes 8 0 ++ toBytes 8 0 = List.replicate 16 (0 : Byte))

theorem takeBundle_table (s : State) (e : OvlEntry) (k : Nat) : memRead (takeBundle s e k).mem (hostAt (cmdArg s 2).toNat) 16 = 0 := by
  rw [takeBundle_mem]
  have h := memRead_memPuts (memWrite s.mem (bundleBase s + e.codeOff) e.codeLen (memRead s.mem (cmdBuf s + e.codeOff) e.codeLen))
    (hostAt (cmdArg s 2).toNat) (List.replicate 16 0)
  rw [List.length_replicate] at h
  rw [h]
  decide

/-- The code of a bundle that has been taken stands below host memory, and is that of the buffer. -/
theorem takeBundle_code {e : OvlEntry} {k : Nat} (hok : e.ok 1 (cmdBufLen s) = true) (hlen : s.work.bundles.length < 2 ^ 20) {j : Nat}
    (hj : j < e.codeLen) : bundleBase s + e.codeOff + j < 2 ^ 63
      ∧ memByte (takeBundle s e k).mem (bundleBase s + e.codeOff + j) = memByte s.mem (cmdBuf s + e.codeOff + j) := by
  have hbase := bundleBase_le s
  have hbuf : cmdBufLen s < 256 ^ 4 := memRead_lt ..
  have hcode : e.codeOff + e.codeLen + 576 ≤ cmdBufLen s := by
    simp only [OvlEntry.ok, imageOk, Bool.and_eq_true, Bool.or_eq_true, beq_iff_eq, decide_eq_true_eq] at hok
    omega
  refine ⟨by omega, ?_⟩
  rw [takeBundle_mem]
  refine (memByte_memPuts_out _ _ _ _ (.inl ?_)).trans (memByte_memWrite_memRead s.mem hj)
  unfold hostAt
  omega

theorem cmdAddr_congr {s t : State} (h : t.hub = s.hub) : cmdAddr t = cmdAddr s := by unfold cmdAddr; rw [h]

theorem hub_takeBundle (s : State) (e : OvlEntry) (k : Nat) : (takeBundle s e k).hub = s.hub := by unfold takeBundle; with_reducible rfl

theorem hold_takeBundle (s : State) (e : OvlEntry) (k : Nat) : (takeBundle s e k).hold = s.hold := by unfold takeBundle; with_reducible rfl

theorem cmdAddr_takeBundle (s : State) (e : OvlEntry) (k : Nat) : cmdAddr (takeBundle s e k) = cmdAddr s := cmdAddr_congr (hub_takeBundle s e k)

theorem mem_loadovl (s : State) (e : OvlEntry) (k : Nat) : (confineHub s (finishCmd { st := takeBundle s e k, res := BitVec.ofNat 64 k })).mem
    = (writeEntry (takeBundle s e k) (cmdAddr s) 0 (BitVec.ofNat 64 k) 0).mem := mem_finishCmd (cmdAddr_takeBundle s e k)

theorem bundles_finishCmd (s : State) (d : CmdOut) : (confineHub s (finishCmd d)).work.bundles = d.st.work.bundles := by
  unfold confineHub finishCmd advanceHead writeEntry
  with_reducible rfl

theorem bundles_loadovl (s : State) (e : OvlEntry) (k : Nat) :
    (confineHub s (finishCmd { st := takeBundle s e k, res := BitVec.ofNat 64 k })).work.bundles = s.work.bundles
      ++ [{ ctxh := cmdArg s 0, number := k, base := bundleBase s, ovls := [(e.id, bundleBase s + e.codeOff, e.codeLen)] }] :=
  (bundles_finishCmd ..).trans (by unfold takeBundle; with_reducible rfl)

theorem hold_finishCmd (s : State) (d : CmdOut) : (confineHub s (finishCmd d)).hold = d.st.hold := by
  unfold confineHub finishCmd advanceHead writeEntry
  with_reducible rfl

theorem hold_loadovl (s : State) (e : OvlEntry) (k : Nat) :
    (confineHub s (finishCmd { st := takeBundle s e k, res := BitVec.ofNat 64 k })).hold = s.hold :=
  (hold_finishCmd ..).trans (hold_takeBundle s e k)

/-- What LOADOVL leaves in memory once it has taken a bundle of one overlay. -/
theorem loadovl_leaves {e : OvlEntry} {k : Nat} (hok : e.ok 1 (cmdBufLen s) = true) (hlen : s.work.bundles.length < 2 ^ 20) (hk : k < 65536)
    (hapart : hostAt (cmdArg s 2).toNat + 16 ≤ cmdAddr s ∨ cmdAddr s + 64 ≤ hostAt (cmdArg s 2).toNat) {m : List Host.Cell}
    (hm : m = (writeEntry (takeBundle s e k) (cmdAddr s) 0 (BitVec.ofNat 64 k) 0).mem) :
    memRead m (cmdAddr s + 2) 2 = 0 ∧ memRead m (cmdAddr s + 0x38) 8 = k
      ∧ memBytes m (bundleBase s + e.codeOff) e.codeLen = memBytes s.mem (cmdBuf s + e.codeOff) e.codeLen
      ∧ memRead m (hostAt (cmdArg s 2).toNat) 16 = 0 := by
  obtain ⟨m1, -, m3, m4⟩ := writeEntry_mem (takeBundle s e k) (cmdAddr s) 0 (BitVec.ofNat 64 k) 0
  rw [← hm] at m1 m3 m4
  have hq : (2 : Nat) ^ 63 ≤ cmdAddr s := by unfold cmdAddr hostAt; omega
  refine ⟨m1, m3.trans ?_, memBytes_congr fun j hj => ?_, ?_⟩
  · rw [BitVec.toNat_ofNat]; omega
  · obtain ⟨hlow, hcode⟩ := takeBundle_code (k := k) hok hlen hj
    exact (m4 _ (.inl (by omega))).trans hcode
  · refine (memRead_congr fun x h1 h2 => ?_).trans (takeBundle_table s e k)
    exact m4 x (by omega)

end

/-! ### A port that is DOWN (R366) -/

theorem pump_keeps (dt n : Nat) (x : Port) : (x.pump dt n).st = x.st ∧ (x.pump dt n).import_ = x.import_ := by
  induction n generalizing x with
  | zero => exact ⟨rfl, rfl⟩
  | succ n ih =>
    rw [Port.pump]
    split
    · split
      · exact ih _
      · exact ⟨rfl, rfl⟩
    · exact ⟨rfl, rfl⟩

theorem portAt_putPort (s : State) (p : Nat) (x : Port) : portAt (putPort s p x) p = x.pump s.time.dt x.tx.length := tget_tset ({} : Port) s.link.ports p _

theorem portAt_putPort_of_tx {s : State} {p : Nat} {x : Port} (h : x.tx = []) : portAt (putPort s p x) p = x := by
  rw [portAt_putPort, h]; rfl

/-- Memory, the hub and a port are as they were. -/
structure Quiet (p : Nat) (s t : State) : Prop where
  mem : t.mem = s.mem
  hub : t.hub = s.hub
  port : portAt t p = portAt s p

theorem Quiet.refl (p : Nat) (s : State) : Quiet p s s := ⟨rfl, rfl, rfl⟩
theorem Quiet.trans {p : Nat} {s t u : State} (h : Quiet p s t) (k : Quiet p t u) : Quiet p s u :=
  ⟨k.mem.trans h.mem, k.hub.trans h.hub, k.port.trans h.port⟩

section
variable {p : Nat} {s : State}

theorem quiet_queuePacket (h : (portAt s p).st = 0) (q : Nat) (x : Packet) : Quiet p s (queuePacket s q x) := by
  unfold queuePacket
  dsimp only
  split
  · next hq =>
    have hne : p ≠ q := by
      rintro rfl
      rw [show (tget ({} : Port) s.link.ports p).st = 0 from h] at hq
      exact absurd hq (by decide)
    exact ⟨rfl, rfl, tget_tset_ne ({} : Port) s.link.ports q p _ hne⟩
  · exact .refl ..

theorem quiet_putQueue (k : Nat) (f : Bool) (q : Queue) : Quiet p s (putQueue s k f q) := by
  unfold putQueue; split <;> exact ⟨rfl, rfl, rfl⟩

theorem quiet_endCopy (k : Nat) (c : Cmd) (status cause : Nat) (info : Word) : Quiet p s (endCopy s k c status cause info) := by
  have h1 : Quiet p s (postRecord s c (queueAt s k false).run status cause info) := by
    unfold postRecord; split
    · exact .refl ..
    · exact ⟨rfl, rfl, rfl⟩
  refine h1.trans ?_
  unfold endCopy
  dsimp only
  split <;> exact ⟨rfl, rfl, rfl⟩

theorem quiet_putRun_queuePacket (h : (portAt s p).st = 0) (n q k : Nat) (x : Packet) (r : Run) :
    Quiet p s (putRun (queuePacket { s with link.xid := n } q x) k false r) := by
  have h1 : Quiet p { s with link.xid := n } (queuePacket { s with link.xid := n } q x) := quiet_queuePacket (s := { s with link.xid := n }) h q x
  have h0 : Quiet p s { s with link.xid := n } := ⟨rfl, rfl, rfl⟩
  unfold putRun
  exact (h0.trans h1).trans (quiet_putQueue ..)

theorem quiet_flushRemote (h : (portAt s p).st = 0) (k : Nat) (d : CopyDesc) : Quiet p s (flushRemote s k d) := by
  unfold flushRemote
  dsimp only
  split
  · exact .refl ..
  · exact quiet_putRun_queuePacket h ..

theorem quiet_settle (k : Nat) (c : Cmd) (e : Nat × Nat × Word) : Quiet p s (finishCopy.settle k c s e) := by
  unfold finishCopy.settle
  dsimp only
  split
  · exact quiet_endCopy ..
  · exact quiet_putQueue ..

theorem quiet_finishCopy (h : (portAt s p).st = 0) (k : Nat) (c : Cmd) (status cause : Nat) (info : Word) :
    Quiet p s (finishCopy s k c status cause info) := by
  unfold finishCopy
  split
  · exact quiet_settle ..
  · split
    · exact (quiet_flushRemote h ..).trans (quiet_settle ..)
    · split
      · exact quiet_settle ..
      · exact quiet_settle ..

/-- The end of a transaction with a cause leaves the port as it is. -/
theorem quiet_endTrans (h : (portAt s p).st = 0) (t : Trans) (c : Cause) (info : Word) (b : Bool) : Quiet p s (endTrans s t (.error c) info b) := by
  refine .trans (t := { s with link.trans := s.link.trans.filter fun u => !(u.port == t.port && u.xid == t.xid) }) ⟨rfl, rfl, rfl⟩ ?_
  unfold endTrans
  dsimp only
  split
  · split
    · unfold copyReply
      dsimp only
      split
      · split
        · exact .refl ..
        · exact quiet_finishCopy (s := { s with link.trans := s.link.trans.filter fun u => !(u.port == t.port && u.xid == t.xid) }) h ..
      · exact .refl ..
    · unfold streamReply
      dsimp only
      split
      · exact .refl ..
      · exact ⟨rfl, rfl, rfl⟩
  · split
    · exact ⟨rfl, rfl, rfl⟩
    · exact ⟨rfl, rfl, rfl⟩

theorem quiet_copyDown (q k : Nat) : Quiet p s (copyDown s q k) := by
  unfold copyDown; split
  · exact quiet_endCopy ..
  · exact .refl ..

theorem quiet_failSends (key : Nat) (e : Exc) : Quiet p s (failSends s key e) := by
  rw [failSends_eq]; exact ⟨rfl, rfl, rfl⟩

theorem Quiet.foldl {α : Type} {f : State → α → State} (h : (portAt s p).st = 0) (hf : ∀ s, (portAt s p).st = 0 → ∀ a, Quiet p s (f s a)) (l : List α) :
    Quiet p s (l.foldl f s) :=
  List.foldlRecOn l f (motive := Quiet p s) (.refl ..) fun t ht a _ => ht.trans (hf t (by rw [ht.port, h]) a)

/-- What ends with a port, once it is DOWN: its routes, the transactions over it, the remote copies through it. -/
def endOfPort (port : Nat) (s : State) : State :=
  let keys := (s.hold.routes.filter fun e => (tget {} s.hold.routes e.1).peer == port + 1).map (·.1)
  let s := keys.foldl (fun s key =>
    failSends (putRoute s key { tget {} s.hold.routes key with gone := true }) key { cause := .peerGone, info0 := curHandle s key, detail := 8 }) s
  let ts := s.link.trans.filter fun t => t.port == port
  let s := ts.foldl (fun s t => endTrans s t (.error .peerGone) t.route true) s
  let s := clusters.foldl (fun s k => copyDown s port k) s
  { s with link.sent := s.link.sent.filter fun e => e.1 != port }

theorem quiet_endOfPort (h : (portAt s p).st = 0) : Quiet p s (endOfPort p s) := by
  have h1 (keys : List Nat) : Quiet p s (keys.foldl (fun s key =>
      failSends (putRoute s key { tget {} s.hold.routes key with gone := true }) key { cause := .peerGone, info0 := curHandle s key, detail := 8 }) s) :=
    Quiet.foldl h (fun t _ key => .trans (t := putRoute t key { tget {} t.hold.routes key with gone := true }) ⟨rfl, rfl, rfl⟩ (quiet_failSends ..)) keys
  have h2 (t : State) (ht : (portAt t p).st = 0) (ts : List Trans) : Quiet p t (ts.foldl (fun s t => endTrans s t (.error .peerGone) t.route true) t) :=
    Quiet.foldl ht (fun _ hu _ => quiet_endTrans hu ..) ts
  have h3 (t : State) (ht : (portAt t p).st = 0) (ks : List Nat) : Quiet p t (ks.foldl (fun s k => copyDown s p k) t) :=
    Quiet.foldl ht (fun _ _ _ => quiet_copyDown ..) ks
  unfold endOfPort
  extract_lets keys t1 ts t2 t3
  have q1 : Quiet p s t1 := h1 keys
  have q2 : Quiet p t1 t2 := h2 t1 (by rw [q1.port, h]) ts
  have q3 : Quiet p t2 t3 := h3 t2 (by rw [q2.port, q1.port, h]) clusters
  have q := (q1.trans q2).trans q3
  clear_value t3
  exact q.trans ⟨rfl, rfl, rfl⟩

end

/-- A port as it is when it has gone DOWN. -/
def Port.downed (x : Port) : Port :=
  { x with st := 0, width := 0, buffer := [], tx := [], rx := x.rx.filter fun p => p.type % 2 == 1 && p.type != 9, owed := false, nakSent := false,
           replays := 0 }

theorem portDown_eq (s : State) (p : Nat) : portDown s p = endOfPort p (putPort s p (portAt s p).downed) := by
  unfold portDown endOfPort Port.downed
  with_reducible rfl

/-- A port that goes DOWN: memory and the hub are as they were. -/
theorem portDown_gives (s : State) (p : Nat) : (portDown s p).mem = s.mem ∧ (portDown s p).hub = s.hub ∧ portAt (portDown s p) p = (portAt s p).downed := by
  have hx : portAt (putPort s p (portAt s p).downed) p = (portAt s p).downed := portAt_putPort_of_tx rfl
  obtain ⟨hm, hh, hp⟩ := quiet_endOfPort (p := p) (s := putPort s p (portAt s p).downed) (by rw [hx]; rfl)
  rw [portDown_eq]
  exact ⟨hm, hh, hp.trans hx⟩

/-! ### LINKCFG (R391) -/

section
variable {s : State} (hw : s.hub.cqhead ≠ s.hub.cqtail) (hn : cmdField s 0 1 = 0x0D) (hf : cmdFlags s = 0) (ht : accepts s 0x0D = true)
include hw hn hf ht

/-- LINKCFG with another action than 1 is taken by LINKCFG_DOWN. -/
theorem exec_linkcfgDown (ha : cmdArg s 1 ≠ 1) : exec .linkcfgDown s = .next (confineHub s (
    if linkStatus s != 0 then finishCmd (refuseCmd s (linkStatus s)) else finishLink (portDown (bindImport s) (cmdArg s 0).toNat))) := by
  show Host.Outcome.next (confineHub s (command 0x0D _ _ _ s)) = _
  rw [command_taken hw hn (by simpa using ha) (by rw [hf]; rfl) ht]

/-- LINKCFG with action 1 is taken by LINKCFG_TRAIN. -/
theorem linkcfgTrain_taken (ha : cmdArg s 1 = 1) {u : State} {body : State → State}
    (hi : exec .linkcfgTrain s = .next (confineHub s (command 0x0D (fun s => cmdArg s 1 == 1) (· == 0) body s))) (hu : body s = u) :
    exec .linkcfgTrain s = .next (confineHub s u) := by
  rw [hi, command_taken hw hn (by rw [ha]; rfl) (by rw [hf]; rfl) ht, hu]

end

theorem linkStatus_ready {s : State} (h8 : (cmdArg s 0).toNat < 8) (ha : (cmdArg s 1).toNat ≤ 1) (hr : readyCode s (kLink (cmdArg s 0).toNat) = 2)
    (hh : cmdArg s 2 = 0 ∨ ctxStatus s (cmdArg s 2) = 0) : linkStatus s = 0 := by
  unfold linkStatus
  dsimp only
  rw [if_neg (by simp; omega), hr]
  rcases hh with hh | hh
  · simp [hh]
  · simp [hh]

theorem linkStatus_bad {s : State} (h : 8 ≤ (cmdArg s 0).toNat ∨ 1 < (cmdArg s 1).toNat) : linkStatus s = 2 := if_pos (by simpa using h)

/-- The state byte of a port that is DOWN. -/
theorem portByte_down {s : State} {p : Nat} (hr : readyCode s (kLink p) = 2) (h : (portAt s p).st = 0) : portByte s p = 0 := by
  unfold portByte
  rw [if_neg (by simp [hr])]
  simp [h]

/-- The entry of a command that ends and its place in the queue, whatever it did but to memory and the hub. -/
theorem finishCmd_entry {s : State} {d : CmdOut} (hh : d.st.hub = s.hub) (hs : d.status < 65536) :
    let u := confineHub s (finishCmd d)
    memRead u.mem (cmdAddr s + 2) 2 = d.status ∧ memRead u.mem (cmdAddr s + 0x38) 8 = d.res.toNat ∧ u.hub.cqhead = (s.hub.cqhead + 1) % s.hub.cqsize := by
  intro u
  have ha : cmdAddr d.st = cmdAddr s := by rw [cmdAddr, hh]; rfl
  have hu : u.mem = (writeEntry d.st (cmdAddr s) d.status d.res d.reslen).mem := mem_finishCmd ha
  obtain ⟨m1, -, m3, -⟩ := writeEntry_mem d.st (cmdAddr s) d.status d.res d.reslen
  rw [← hu] at m1 m3
  refine ⟨m1.trans (Nat.mod_eq_of_lt hs), m3, ?_⟩
  show (d.st.hub.cqhead + 1) % d.st.hub.cqsize = _
  rw [hh]

/-- A port as LINKCFG with action 1 leaves it. -/
def Port.trained (x : Port) (dt : Nat) (h : Word) : Port :=
  match x.st with
  | 0 => { x with st := 1, since := dt, import_ := h }
  | 1 => { x with import_ := h }
  | _ => { x with st := 3, lanes := [], since := dt, import_ := h }

theorem trained_cases (x : Port) (dt : Nat) (h : Word) : (x.st = 0 → x.trained dt h = { x with st := 1, since := dt, import_ := h })
    ∧ (x.st = 1 → x.trained dt h = { x with import_ := h })
    ∧ (2 ≤ x.st → x.trained dt h = { x with st := 3, lanes := [], since := dt, import_ := h }) := by
  unfold Port.trained
  refine ⟨fun h0 => by rw [h0]; rfl, fun h1 => by rw [h1]; rfl, fun h2 => ?_⟩
  split
  · omega
  · omega
  · rfl

theorem trained_tx {x : Port} (hx : x.tx = []) (dt : Nat) (h : Word) : (x.trained dt h).tx = [] := by
  unfold Port.trained; split <;> exact hx

section
variable {s : State} (hw : s.hub.cqhead ≠ s.hub.cqtail) (hn : cmdField s 0 1 = 0x0D) (hf : cmdFlags s = 0) (ht : accepts s 0x0D = true)
include hw hn hf ht

/-- LINKCFG that takes a port down. -/
theorem linkcfgDown_down (hl : linkStatus s = 0) (hr : readyCode s (kLink (cmdArg s 0).toNat) = 2) (ha : cmdArg s 1 = 0) :
    ∃ u, exec .linkcfgDown s = .next u ∧ (portAt u (cmdArg s 0).toNat).st = 0 ∧ (portAt u (cmdArg s 0).toNat).import_ = cmdArg s 2
      ∧ memRead u.mem (cmdAddr s + 2) 2 = 0 ∧ memRead u.mem (cmdAddr s + 0x38) 8 = 0 ∧ u.hub.cqhead = (s.hub.cqhead + 1) % s.hub.cqsize := by
  have he := exec_linkcfgDown hw hn hf ht (by rw [ha]; decide)
  rw [if_neg (by simp [hl])] at he
  obtain ⟨hm, hh, hp⟩ := portDown_gives (bindImport s) (cmdArg s 0).toNat
  generalize portDown (bindImport s) (cmdArg s 0).toNat = t at he hm hh hp
  have hi : (portAt (bindImport s) (cmdArg s 0).toNat).import_ = cmdArg s 2 := by
    unfold bindImport
    dsimp only
    rw [portAt_putPort, (pump_keeps ..).2]
  have hst : (portAt t (cmdArg s 0).toNat).st = 0 := by rw [hp]; rfl
  have hm : t.mem = s.mem := hm
  have hh : t.hub = s.hub := hh
  have harg : cmdArg t 0 = cmdArg s 0 := by rw [cmdArg, cmdField, hm, cmdAddr, hh]; rfl
  have hbyte : portByte t (cmdArg t 0).toNat = 0 := by rw [harg]; exact portByte_down (by rw [readyCode, hh]; exact hr) hst
  obtain ⟨m1, m3, hq⟩ := finishCmd_entry (s := s) (d := { st := t, res := BitVec.ofNat 64 (portByte t (cmdArg t 0).toNat) }) hh (by decide : 0 < 65536)
  refine ⟨_, he, hst, ?_, m1, m3.trans (by rw [hbyte]; rfl), hq⟩
  exact (congrArg Port.import_ hp).trans hi

/-- LINKCFG that trains a port. -/
theorem linkcfgTrain_trains (hl : linkStatus s = 0) (ha : cmdArg s 1 = 1) (hwait : s.hub.linkWait ≠ some (cmdArg s 0).toNat)
    (htx : (portAt s (cmdArg s 0).toNat).tx = []) : ∃ u, exec .linkcfgTrain s = .next u ∧ u.hub.linkWait = some (cmdArg s 0).toNat
      ∧ u.hub.cqhead = s.hub.cqhead ∧ u.mem = s.mem
      ∧ portAt u (cmdArg s 0).toNat = (portAt s (cmdArg s 0).toNat).trained s.time.dt (cmdArg s 2) := by
  have hb : portAt (bindImport s) (cmdArg s 0).toNat = { portAt s (cmdArg s 0).toNat with import_ := cmdArg s 2 } := portAt_putPort_of_tx htx
  refine ⟨_, linkcfgTrain_taken hw hn hf ht ha rfl ((if_neg (by simpa using hwait)).trans (if_neg (by simp [hl]))), rfl, rfl, rfl, ?_⟩
  refine (portAt_putPort_of_tx ?_).trans ?_ <;> rw [hb]
  · exact (trained_tx htx s.time.dt (cmdArg s 2))
  · rfl

theorem linkcfgTrain_waits (ha : cmdArg s 1 = 1) (hwait : s.hub.linkWait = some (cmdArg s 0).toNat)
    (hst : (portAt s (cmdArg s 0).toNat).st = 1 ∨ (portAt s (cmdArg s 0).toNat).st = 3) : exec .linkcfgTrain s = .next s :=
  linkcfgTrain_taken hw hn hf ht ha rfl ((if_pos (by simp [hwait])).trans (if_pos (by simpa using hst)))

theorem linkcfgTrain_ends (ha : cmdArg s 1 = 1) (hwait : s.hub.linkWait = some (cmdArg s 0).toNat)
    (h1 : (portAt s (cmdArg s 0).toNat).st ≠ 1) (h3 : (portAt s (cmdArg s 0).toNat).st ≠ 3) :
    CommandEnds .linkcfgTrain s 0 (BitVec.ofNat 64 (portByte s (cmdArg s 0).toNat)) []
      fun u => u.hub.linkWait = none ∧ portAt u (cmdArg s 0).toNat = portAt s (cmdArg s 0).toNat := by
  have he := linkcfgTrain_taken hw hn hf ht ha rfl ((if_pos (by simp [hwait])).trans (if_neg (by simp [h1, h3])))
  exact commandEnds_of_finishCmd (d := { st := { s with hub.linkWait := none }, res := BitVec.ofNat 64 (portByte s (cmdArg s 0).toNat) })
    he rfl rfl (by decide : 0 < 65536) rfl ⟨rfl, rfl⟩

theorem linkcfgTrain_bad (ha : cmdArg s 1 = 1) (hwait : s.hub.linkWait ≠ some (cmdArg s 0).toNat) (h8 : 8 ≤ (cmdArg s 0).toNat) :
    CommandEnds .linkcfgTrain s 2 0 [] (OnlyEntry s) := by
  have hl := linkStatus_bad (s := s) (.inl h8)
  have he := linkcfgTrain_taken hw hn hf ht ha rfl ((if_neg (by simpa using hwait)).trans (if_pos (by simp [hl])))
  exact commandEnds_of_refuseCmd he (by rw [hl]) (by decide)

theorem linkcfgDown_bad (ha : 1 < (cmdArg s 1).toNat) : CommandEnds .linkcfgDown s 2 0 [] (OnlyEntry s) := by
  have hl := linkStatus_bad (s := s) (.inr ha)
  have he := exec_linkcfgDown hw hn hf ht (by rintro e; rw [e] at ha; exact absurd ha (by decide))
  rw [hl] at he
  exact commandEnds_of_refuseCmd he rfl (by decide)

end

/-- Settles O51. -/
theorem contextsBundlesAndPortsAreSet : Obligations.ContextsBundlesAndPortsAreSet := by
  refine ⟨fun s h => ?_, fun s h => renewctx_settled h, fun s h => ?_, fun s hw hn hf ht _ => ?_⟩
  · intro term home issues
    refine ⟨fun ht h0 hp key hk => ?_, fun ht h0 hp hk => ?_, fun ht h0 a x b key hs hp hk ha => ?_, fun ht h0 hall => ?_, fun ht h0 hex hall => ?_,
      grantctx_bad h⟩
    · exact grantctx_issues h ht (.inr hp) (by rw [grantHomes_named h0]; simp [show freeEntry s 3 (cmdArg s 1).toNat = some key from hk])
    · have := grantctx_fails h ht (.inr hp) (by rw [grantHomes_named h0]; simp [show freeEntry s 3 (cmdArg s 1).toNat = none from hk])
      rwa [grantHomes_named h0] at this
    · exact grantctx_issues h ht (.inl h0) (by rw [grantHomes_any h0, hs]; exact findSome_present hp hk ha)
    · have hnil : grantHomes s = [] := by
        rw [grantHomes_any h0, List.filter_eq_nil_iff]
        exact fun x hx => by simp [hall x hx]
      have := grantctx_fails h ht (.inl h0) (by rw [hnil]; rfl)
      rwa [hnil] at this
    · have hnone : (grantHomes s).findSome? (freeEntry s 3) = none := by
        rw [grantHomes_any h0, List.findSome?_eq_none_iff]
        exact fun x hx => hall x (List.mem_filter.1 hx).1 (List.mem_filter.1 hx).2
      have hne : (grantHomes s).isEmpty = false := by
        obtain ⟨x, hx, hp⟩ := hex
        rw [grantHomes_any h0, List.isEmpty_eq_false_iff]
        exact List.ne_nil_of_mem (List.mem_filter.2 ⟨hx, hp⟩)
      have := grantctx_fails h ht (.inl h0) hnone
      rwa [hne] at this
  · intro ctxh b n f sum verified one base table
    refine ⟨fun hc ht hl => ?_, fun hc ht h1 h2 hv => ?_, loadovl_lapsed h, ?_⟩
    · exact loadovl_refused h hc ht (bundleStatus_length hl) (by decide) (by decide)
    · exact loadovl_refused h hc ht (bundleStatus_unverified h1 h2 hv) (by decide) (by decide)
    · intro hc ht h1 h2 hv hmagic hver hcount hzero hok hdata hlen hapart k hk1 hk hfree hused
      have he : bundleEntries s = [one] := bundleEntries_one hcount
      have hb := bundleStatus_ok h1 h2 hv he hmagic hver hzero hok hdata
      obtain ⟨m1, m2, m3, m4⟩ := loadovl_leaves hok hlen hk hapart (mem_loadovl s one k)
      exact ⟨_, exec_loadovl h hc ht hb he hdata (freeBundle_eq_some hk1 hk hfree hused), m1, m2, bundles_loadovl s one k, m3, m4, hold_loadovl s one k⟩
  · intro p g x ready
    have hl (hr : ready) (ha : (cmdArg s 1).toNat ≤ 1) : linkStatus s = 0 := linkStatus_ready hr.1 ha hr.2.1 hr.2.2
    refine ⟨fun hr ha => linkcfgDown_down hw hn hf ht (hl hr (by rw [ha]; decide)) hr.2.1 ha, linkcfgDown_bad hw hn hf ht, fun hr ha hwait htx => ?_,
      linkcfgTrain_waits hw hn hf ht, linkcfgTrain_ends hw hn hf ht, fun h8 ha hwait => linkcfgTrain_bad hw hn hf ht ha hwait h8⟩
    obtain ⟨u, he, h1, h2, h3, h4⟩ := linkcfgTrain_trains hw hn hf ht (hl hr (by rw [ha]; decide)) ha hwait htx
    obtain ⟨c0, c1, c2⟩ := trained_cases (portAt s (cmdArg s 0).toNat) s.time.dt (cmdArg s 2)
    exact ⟨u, he, h1, h2, h3, fun h0 => h4.trans (c0 h0), fun h0 => h4.trans (c1 h0), fun h0 => h4.trans (c2 h0)⟩

end Sys2Proof.Machine
end

section
/-! PROOFS. Requests at the homes of sectors, recalls and write-backs (O47). -/

namespace Sys2Proof.Machine
open Sys2Proof

/-! ### What a sector holds depends on memory, on what is held and on the page table alone (R346 to R348)

The proofs rewrite whole functions: a `match` on what a symbolic address of the system region names must not be evaluated. -/

section
variable {s t : State} (hh : t.hold = s.hold) (hp : t.page.pte = s.page.pte)
include hh

theorem lifeOf_congr (k : Nat) : lifeOf t k = lifeOf s k := by rw [lifeOf, lifeOf, hh]

theorem rangeFor_congr (c : Word) (va : Nat) : rangeFor t c va = rangeFor s c va := by
  unfold rangeFor; simp only [hh, lifeOf_congr hh]

theorem recordAt_congr (c : Word) (va : Nat) : recordAt t c va = recordAt s c va := by
  unfold recordAt; simp only [lifeOf_congr hh]

theorem entryAt_congr (c : Word) (va : Nat) : entryAt t c va = entryAt s c va := by
  unfold entryAt; simp only [rangeFor_congr hh]

theorem curHandle_congr (k : Nat) : curHandle t k = curHandle s k := by rw [curHandle, curHandle, lifeOf_congr hh]

theorem rangeAt_congr (k : Nat) : rangeAt t k = rangeAt s k := by rw [rangeAt, rangeAt, hh]
omit hh
include hp

theorem residentOf_congr (c : Word) (r : Range) : residentOf t c r = residentOf s c r := by rw [residentOf, residentOf, hp]

theorem pteAt_congr (c : Word) (v : Nat) : pteAt t c v = pteAt s c v := by rw [pteAt, pteAt, hp]
include hh

theorem recordBytes_congr (k : Nat) : recordBytes t k = recordBytes s k := by
  unfold recordBytes
  simp only [-Nat.reducePow, curHandle_congr hh, rangeAt_congr hh, lifeOf_congr hh, residentOf_congr hp]

theorem systemSector_congr (c : Word) (va : Nat) : systemSector t c va = systemSector s c va := by
  have h1 : recordAt t = recordAt s := funext₂ (recordAt_congr hh)
  have h2 : recordBytes t = recordBytes s := funext (recordBytes_congr hh hp)
  have h3 : entryAt t = entryAt s := funext₂ (entryAt_congr hh)
  have h4 : pteAt t = pteAt s := funext₂ (pteAt_congr hp)
  suffices ∀ f, f = systemSector → f t c va = f s c va from this _ rfl
  intro f hf
  delta systemSector at hf
  subst hf
  beta_reduce
  rw [h1, h2, h3, h4]

theorem homeData_congr (hm : t.mem = s.mem) (sec : Nat) : homeData t sec = homeData s sec := by
  have hc : sysCtx t (sec * 64) = sysCtx s (sec * 64) := curHandle_congr hh _
  unfold homeData
  extract_lets pa
  rw [hm, show sysCtx t pa = sysCtx s pa from hc, systemSector_congr hh hp]
end

/-! ### Reading after writing -/

@[simp] theorem dirAt_putDir (s : State) (k : Nat) (d : Dir) : dirAt (putDir s k d) k = d := tget_tset ..

theorem dirAt_putDir_ne {s : State} {k j : Nat} (h : j ≠ k) (d : Dir) : dirAt (putDir s k d) j = dirAt s j := tget_tset_ne _ _ _ _ _ h

@[simp] theorem l1At_putL1 (s : State) (c sec : Nat) (x : L1) : l1At (putL1 s c sec x) c sec = x := tget_tset ..

theorem putL1_mem (s : State) (c sec : Nat) (x : L1) : (putL1 s c sec x).mem = s.mem := rfl

theorem homeData_putDir (s : State) (k : Nat) (d : Dir) (sec : Nat) : homeData (putDir s k d) sec = homeData s sec :=
  homeData_congr (s := s) (t := putDir s k d) rfl rfl rfl sec

/-! ### Answers and room (R14, R47) -/

theorem postRegs_store (v : Nat) : postRegs v .store = [] := rfl

/-- The home's reply to the strand that made a request. -/
def strandReply (s : State) (r : MemReq) (a : ReplyAct) : State := homeReply s (homeOf s r.pa) r.tag a

theorem l1At_strandReply (s u : State) (r : MemReq) (a : ReplyAct) (c sec : Nat) (x : L1) :
    l1At (confine s (strandReply (putL1 u c sec x) r a)) c sec = x := l1At_putL1 ..

theorem dirAt_strandReply (u : State) (r : MemReq) (a : ReplyAct) (k : Nat) (d : Dir) : dirAt (strandReply (putDir u k d) r a) k = d := dirAt_putDir ..

theorem dirAt_strandReply_putL1 (u : State) (r : MemReq) (a : ReplyAct) (k : Nat) (d : Dir) (c sec : Nat) (x : L1) :
    dirAt (strandReply (putL1 (putDir u k d) c sec x) r a) k = d := dirAt_putDir ..

theorem dirAt_strandReply_putL1_ne (u : State) (r : MemReq) (a : ReplyAct) {k j : Nat} (h : j ≠ k) (d : Dir) (c sec : Nat) (x : L1) :
    dirAt (strandReply (putL1 (putDir u k d) c sec x) r a) j = dirAt u j := dirAt_putDir_ne h d

theorem homeData_strandReply (s u : State) (r : MemReq) (a : ReplyAct) (c k : Nat) (x : L1) (sec : Nat) :
    homeData (confine s (strandReply (putL1 u c k x) r a)) sec = homeData u sec :=
  homeData_congr (s := u) (t := confine s (strandReply (putL1 u c k x) r a)) rfl rfl rfl sec

/-- A sector entered in its slice's owner directory (R57). -/
def addOwner (s : State) (home sec : Nat) : State := { s with coh.owners := tset [] s.coh.owners home (ownersOf s home ++ [sec]) }

theorem l1At_addOwner (s u : State) (r : MemReq) (a : ReplyAct) (c sec home k : Nat) (x : L1) :
    l1At (confine s (strandReply (addOwner (putL1 u c sec x) home k) r a)) c sec = x := l1At_putL1 ..

theorem ownersOf_addOwner (s : State) (home sec : Nat) : ownersOf (addOwner s home sec) home = ownersOf s home ++ [sec] := tget_tset ..

/-- A request for ownership that waits for an entry of its slice's directory (R57). -/
def awaitGrant (s : State) (home : Nat) (r : MemReq) : State :=
  { s with coh.grantq := tset [] s.coh.grantq home (tget [] s.coh.grantq home ++ [r]) }

section
variable {s : State} {r : MemReq} (hh : r.hub = none) (he : r.engine = none)
include hh he

theorem answer_regs (hp : r.post ≠ .again) (v pts : Nat) : answer s r v pts = strandReply s r (.regs (postRegs v r.post) pts) := by
  unfold answer
  rw [hh, he]
  dsimp only
  split
  · next h => exact absurd h hp
  · rfl

theorem answer_again (hp : r.post = .again) (v pts : Nat) : answer s r v pts = strandReply s r .again := by
  unfold answer strandReply
  rw [hh, he, hp]

theorem refuse_strand (e : Exc) : refuse s r e = strandReply s r (.exc e) := by
  unfold refuse strandReply
  rw [hh, he]

theorem ofStrand_eq : r.ofStrand = true := by rw [MemReq.ofStrand, hh, he]; rfl

end

theorem fillL1_eq {s : State} (h : s.coh.l1.length < 512) (c sec : Nat) (x : L1) : fillL1 s c sec x = putL1 s c sec x :=
  if_pos (by simp [l1Size, h])

theorem fillL1_putDir {s : State} (h : s.coh.l1.length < 512) (k : Nat) (d : Dir) (c sec : Nat) (x : L1) :
    fillL1 (putDir s k d) c sec x = putL1 (putDir s k d) c sec x :=
  fillL1_eq (s := putDir s k d) h c sec x

theorem l2Full_eq {s : State} (h : s.coh.dir.length < 16384) (sec : Nat) : l2Full s sec = false := by
  have hsize : decide (l2Size ≤ s.coh.dir.length) = false := decide_eq_false (Nat.not_le.2 h)
  unfold l2Full
  rw [hsize, Bool.false_and, Bool.false_and]

theorem l2Room_eq {s : State} {sec : Nat} (h : l2Full s sec = false) : l2Room s sec = s := if_neg (by simp [h])

theorem l2Full_present {s : State} {sec : Nat} (h : (dirAt s sec).present = true) : l2Full s sec = false := by
  have hm : sec ∈ sectorsOf (sec / 4) := List.mem_map.2 ⟨sec % 4, List.mem_range.2 (Nat.mod_lt _ (by decide)), by omega⟩
  have hall : (sectorsOf (sec / 4)).all (fun x => !(dirAt s x).present) = false :=
    List.all_eq_false.2 ⟨sec, hm, by simp [h]⟩
  rw [l2Full, hall]
  simp

/-! ### Requests by the state of their sector (R54) -/

theorem dispatchReq_h {s : State} {r : MemReq} (hl : l2Full s (r.pa / 64) = false) (hst : (dirAt s (r.pa / 64)).st = .h) : dispatchReq s r = serveH s r := by
  unfold dispatchReq
  dsimp only
  split
  · rfl
  · rfl
  · rw [hst, l2Room_eq hl]

section
variable {s : State} {r : MemReq} (h1 : r.kind ≠ .ncRead) (h2 : ∀ v, r.kind ≠ .ncWrite v)
include h1 h2

theorem dispatchReq_o {c : Nat} (hst : (dirAt s (r.pa / 64)).st = .o c) :
    dispatchReq s r = recallFrom (putDir s (r.pa / 64) { dirAt s (r.pa / 64) with queue := (dirAt s (r.pa / 64)).queue ++ [r] }) (r.pa / 64) c := by
  unfold dispatchReq
  dsimp only
  split
  · next h => exact absurd h h1
  · next h => exact absurd h (h2 _)
  · rw [hst]

theorem dispatchReq_t {c : Nat} {a : Bool} (hst : (dirAt s (r.pa / 64)).st = .t c a) :
    dispatchReq s r = putDir s (r.pa / 64) { dirAt s (r.pa / 64) with queue := (dirAt s (r.pa / 64)).queue ++ [r] } := by
  unfold dispatchReq
  dsimp only
  split
  · next h => exact absurd h h1
  · next h => exact absurd h (h2 _)
  · rw [hst]

end

theorem dispatchReq_ncRead {s : State} {r : MemReq} (h : r.kind = .ncRead) : dispatchReq s r = serveH s r := by
  unfold dispatchReq; rw [h]

theorem dispatchReq_ncWrite {s : State} {r : MemReq} {v : Nat} (h : r.kind = .ncWrite v) : dispatchReq s r = serveH s r := by
  unfold dispatchReq; rw [h]

/-! ### Requests of strands served in H (R47, R54, R57, R64) -/

section
variable {s : State} {r : MemReq} (hh : r.hub = none) (he : r.engine = none)
include hh he

theorem serveH_read (hk : r.kind = .read ∨ ∃ cw, r.kind = .renew cw) (hp : r.post ≠ .again) (hr : s.coh.l1.length < 512) :
    let sec := r.pa / 64
    let d := filled s sec
    let ts := max r.pts d.wts
    serveH s r = strandReply (putL1 (putDir s sec { d with rts := max d.rts (ts + r.ll) }) (reqCore s r) sec
        { kind := 1, data := homeData s sec, wts := d.wts, e := ts + r.ll, range := r.range })
      r (.regs (postRegs (sectorPart (homeData s sec) r.pa r.n) r.post) ts) := by
  intro sec d ts
  rcases hk with hk | ⟨cw, hk⟩ <;>
  · unfold serveH
    rw [hk]
    dsimp only
    rw [ofStrand_eq hh he, if_pos rfl, fillL1_putDir hr, answer_regs hh he hp, homeData_putDir]

theorem serveH_write {v : Nat} (hk : r.kind = .write v) (hp : r.post = .store) (hpa : r.pa < 2 ^ 120) :
    let sec := r.pa / 64
    let d := filled s sec
    let w := max r.pts (d.rts + 1)
    let t := putDir { s with mem := memWrite s.mem r.pa r.n v } sec { d with wts := w, rts := w }
    serveH s r = strandReply (if (l1At t (reqCore s r) sec).kind == 1 then
        putL1 t (reqCore s r) sec { l1At t (reqCore s r) sec with data := homeData t sec, wts := w, e := w } else t) r (.regs [] w) := by
  intro sec d w t
  unfold serveH
  rw [hk]
  dsimp only
  rw [if_neg (by omega), ofStrand_eq hh he, Bool.true_and, answer_regs hh he (by rw [hp]; nofun), hp, postRegs_store]

theorem serveH_write_kept {v : Nat} (hk : r.kind = .write v) (hp : r.post = .store) (hpa : r.pa < 2 ^ 120)
    (hx : (l1At s (reqCore s r) (r.pa / 64)).kind = 1) :
    let sec := r.pa / 64
    let d := filled s sec
    let w := max r.pts (d.rts + 1)
    let t := putDir { s with mem := memWrite s.mem r.pa r.n v } sec { d with wts := w, rts := w }
    serveH s r = strandReply (putL1 t (reqCore s r) sec { l1At s (reqCore s r) sec with data := homeData t sec, wts := w, e := w }) r (.regs [] w) :=
  (serveH_write hh he hk hp hpa).trans (congrArg (strandReply · r _) (if_pos (beq_iff_eq.2 hx)))

theorem serveH_write_bare {v : Nat} (hk : r.kind = .write v) (hp : r.post = .store) (hpa : r.pa < 2 ^ 120)
    (hx : (l1At s (reqCore s r) (r.pa / 64)).kind ≠ 1) :
    let sec := r.pa / 64
    let d := filled s sec
    let w := max r.pts (d.rts + 1)
    serveH s r = strandReply (putDir { s with mem := memWrite s.mem r.pa r.n v } sec { d with wts := w, rts := w }) r (.regs [] w) :=
  (serveH_write hh he hk hp hpa).trans (congrArg (strandReply · r _) (if_neg fun e => hx (eq_of_beq e)))

theorem serveH_amo {op : AmoOp} {opnd cmp : Nat} {un : Bool} (hk : r.kind = .amo op opnd cmp un) (hp : r.post ≠ .again) (hpa : r.pa < 2 ^ 120) :
    let sec := r.pa / 64
    let d := filled s sec
    let w := max r.pts (d.rts + 1)
    let value := sectorPart (homeData s sec) r.pa r.n
    serveH s r = strandReply (putDir { s with mem := memWrite s.mem r.pa r.n (amoValue op un r.n value opnd cmp) } sec { d with wts := w, rts := w })
      r (.regs (postRegs value r.post) w) := by
  intro sec d w value
  unfold serveH
  rw [hk]
  dsimp only
  rw [if_neg (by omega), answer_regs hh he hp]

omit hh he in
/-- The home's grant of a sector to a core, with room in its L1. -/
theorem grantOwner_eq (hr : s.coh.l1.length < 512) (c : Nat) : let sec := r.pa / 64
    let d := filled s sec
    let t := putL1 (putDir s sec { d with st := .o c }) c sec { kind := 2, data := homeData s sec, wts := d.wts, e := d.rts, range := r.range }
    grantOwner s r c = addOwner t (homeOf s r.pa) sec := by
  intro sec d t
  unfold grantOwner addOwner
  dsimp only
  rw [fillL1_putDir hr, homeData_putDir]

theorem serveH_own (hk : r.kind = .own) (hp : r.post = .again) (hfull : (ownersOf s (homeOf s r.pa)).length < 65536) :
    serveH s r = strandReply (grantOwner s r (reqCore s r)) r .again := by
  unfold serveH
  rw [hk]
  dsimp only
  rw [if_neg (by simp [ownersFull]; omega), answer_again hh he hp]

omit hh he in
theorem serveH_own_full (hk : r.kind = .own) (hfull : 65536 ≤ (ownersOf s (homeOf s r.pa)).length) :
    serveH s r = recallOldest (awaitGrant s (homeOf s r.pa) r) (homeOf s r.pa) := by
  unfold serveH awaitGrant
  rw [hk]
  dsimp only
  rw [if_pos (by simp [ownersFull]; omega)]

theorem serveH_ncRead (hk : r.kind = .ncRead) (hp : r.post ≠ .again) (hr : s.coh.l1.length < 512) :
    serveH s r = strandReply (putL1 s (reqCore s r) (r.pa / 64) { kind := 3, data := homeData s (r.pa / 64), range := r.range }) r (.regs (postRegs (memRead s.mem r.pa r.n) r.post) r.pts) := by
  unfold serveH
  rw [hk]
  dsimp only
  rw [ofStrand_eq hh he, if_pos rfl, fillL1_eq hr, answer_regs hh he hp, putL1_mem]

end

/-- The issuing core's copy of a sector without coherence: nothing but its L1 changes. -/
theorem ncCopy_eq (s : State) (r : MemReq) (v : Nat) : ∃ l, ncCopy s r v = { s with coh.l1 := l } := by
  unfold ncCopy
  dsimp only
  split
  · exact ⟨_, rfl⟩
  · exact ⟨_, rfl⟩

section
variable {s : State} {r : MemReq} (hh : r.hub = none) (he : r.engine = none)
include hh he

theorem serveH_ncWrite {v : Nat} (hk : r.kind = .ncWrite v) (hp : r.post = .store) : ∃ l,
    serveH s r = strandReply { s with mem := memWrite s.mem r.pa r.n v, coh.l1 := l } r (.regs [] r.pts) := by
  obtain ⟨l, hl⟩ := ncCopy_eq { s with mem := memWrite s.mem r.pa r.n v } r v
  refine ⟨l, ?_⟩
  unfold serveH
  rw [hk]
  dsimp only
  rw [hl, answer_regs hh he (by rw [hp]; nofun), hp, postRegs_store]

theorem serveNcAmo_eq (op : AmoOp) (opnd cmp : Nat) (un : Bool) (hp : r.post ≠ .again) : let old := memRead s.mem r.pa r.n
    ∃ l, serveNcAmo s r op opnd cmp un = strandReply { s with mem := memWrite s.mem r.pa r.n (amoValue op un r.n old opnd cmp), coh.l1 := l } r
      (.regs (postRegs old r.post) r.pts) := by
  intro old
  obtain ⟨l, hl⟩ := ncCopy_eq { s with mem := memWrite s.mem r.pa r.n (amoValue op un r.n old opnd cmp) } r (amoValue op un r.n old opnd cmp)
  refine ⟨l, ?_⟩
  unfold serveNcAmo
  dsimp only
  rw [hl, answer_regs hh he hp]

end


/-! ### A request taken (R36, R55, R106) -/

/-- A state of which a home has taken a request; the page of the request may have been counted. -/
def taking (s : State) (n : Nat) (h : Sparse Hot) : State := { s with coh.net := s.coh.net.eraseIdx n, page.hot := h }

theorem homeData_taking (s : State) (n : Nat) (h : Sparse Hot) (sec : Nat) : homeData (taking s n h) sec = homeData s sec :=
  homeData_congr (s := s) (t := taking s n h) rfl rfl rfl sec

theorem filled_taking (s : State) (n : Nat) (h : Sparse Hot) (sec : Nat) : filled (taking s n h) sec = filled s sec := rfl

theorem reqCore_taking (s : State) (n : Nat) (h : Sparse Hot) (r : MemReq) : reqCore (taking s n h) r = reqCore s r := rfl

theorem countHot_eq (s : State) (pa die : Nat) : ∃ h, countHot s pa die = { s with page.hot := h } := by
  unfold countHot
  split
  · split
    · exact ⟨_, rfl⟩
    · exact ⟨_, rfl⟩
  · exact ⟨_, rfl⟩

theorem counted_eq (s : State) (n : Nat) (r : MemReq) : ∃ h, (if r.hub.isSome || 2 ^ 120 ≤ r.pa then taking s n s.page.hot
    else countHot (taking s n s.page.hot) r.pa (dieOf r.tag.core)) = taking s n h := by
  split
  · exact ⟨_, rfl⟩
  · obtain ⟨h, hc⟩ := countHot_eq (taking s n s.page.hot) r.pa (dieOf r.tag.core)
    exact ⟨h, hc⟩

theorem softWord_none {s : State} (h : s.coh.failed = []) (a n : Nat) : softWord s a n = none := by rw [softWord, h]; rfl

/-- A piece of one word that meets a failed word meets it. -/
theorem softWord_eq_some {s : State} {a n w : Nat} (h : softWord s a n = some w) (hn : a % 8 + n ≤ 8) : w = a / 8 := by
  have hp := List.find?_some h
  simp only [Bool.and_eq_true, decide_eq_true_eq] at hp
  omega

theorem noticed_taking {s : State} {pa n : Nat} {range : Word} (h : hasNoticed s (homeOf s pa) range = false) :
    hasNoticed (taking s n s.page.hot) (homeOf (taking s n s.page.hot) pa) range = false := h

/-- The instruction with which a home takes a request of a kind. -/
def takerOf (n : Nat) : MemKind → Instr
  | .read | .ncRead => .leaseRead n
  | .renew _ => .leaseRenewal n
  | .write _ | .ncWrite _ => .homeWrite n
  | .own => .ownershipRequest n
  | .amo _ _ _ _ => .farAtomic n

theorem takeNet_eq {s : State} {n : Nat} {r : MemReq} (hg : s.coh.net[n]? = some r) (hh : r.hub = none) {kind : MemKind → Bool} (hk : kind r.kind = true) :
    takeNet n kind s = if !earlierSent s r.tag.core (homeOf s r.pa) r.seq && homeUp s r.pa then takeReq (taking s n s.page.hot) r else s := by
  unfold takeNet
  rw [hg, dropAt_eq_eraseIdx]
  dsimp only
  rw [hh, hk, Bool.true_and, Option.isSome_none, Bool.false_or]
  rfl

section
variable {s : State} {n : Nat} {r : MemReq} (hg : s.coh.net[n]? = some r) (hh : r.hub = none)
include hg hh

theorem exec_taker : exec (takerOf n r.kind) s
    = .next (confine s (if !earlierSent s r.tag.core (homeOf s r.pa) r.seq && homeUp s r.pa then takeReq (taking s n s.page.hot) r else s)) := by
  cases hk : r.kind with
  | read | ncRead | renew _ | write _ | ncWrite _ | own | amo _ _ _ _ =>
    show Host.Outcome.next (confine s (takeNet n _ s)) = _
    rw [takeNet_eq hg hh (by rw [hk])]

theorem exec_taker_waits (h : earlierSent s r.tag.core (homeOf s r.pa) r.seq = true ∨ homeUp s r.pa = false) : exec (takerOf n r.kind) s = .next s := by
  rw [exec_taker hg hh, if_neg]
  · rfl
  · rcases h with h | h <;> simp [h]

variable (hfirst : earlierSent s r.tag.core (homeOf s r.pa) r.seq = false) (hup : homeUp s r.pa = true)
include hfirst hup

theorem exec_taken : exec (takerOf n r.kind) s = .next (confine s (takeReq (taking s n s.page.hot) r)) := by
  rw [exec_taker hg hh, if_pos (by rw [hfirst, hup]; rfl)]

theorem exec_taken_lapsed (he : r.engine = none) (hn : hasNoticed s (homeOf s r.pa) r.range = true) : exec (takerOf n r.kind) s
    = .next (confine s (strandReply (taking s n s.page.hot) r (.exc { cause := .lapsed, info0 := r.ptr, detail := r.detail }))) := by
  rw [exec_taken hg hh hfirst hup, takeReq, if_pos (show hasNoticed (taking ..) (homeOf (taking ..) _) _ = true from hn), refuse_strand hh he]

variable (hn : hasNoticed s (homeOf s r.pa) r.range = false)
include hn

theorem exec_taken_soft (he : r.engine = none) {w : Nat} (hw : softWord s r.pa r.n = some w) : exec (takerOf n r.kind) s
    = .next (confine s (strandReply (taking s n s.page.hot) r (.exc { softExc w with detail := r.detail }))) := by
  rw [exec_taken hg hh hfirst hup, takeReq, if_neg (ne_true_of_eq_false (noticed_taking hn)),
    show softWord (taking s n s.page.hot) r.pa r.n = some w from hw]
  dsimp only
  rw [refuse_strand hh he]

variable (hf : s.coh.failed = [])
include hf

theorem exec_taken_coherent (hk : r.nc = false ∨ ∀ op opnd cmp un, r.kind ≠ .amo op opnd cmp un) : ∃ h, exec (takerOf n r.kind) s
    = .next (confine s (dispatchReq (taking s n h) r)) := by
  obtain ⟨h, hc⟩ := counted_eq s n r
  refine ⟨h, ?_⟩
  rw [exec_taken hg hh hfirst hup, takeReq, if_neg (ne_true_of_eq_false (noticed_taking hn)),
    softWord_none (s := taking s n s.page.hot) hf]
  dsimp only
  rw [hc]
  split
  · next hnc hk' => rcases hk with hk | hk
                    · rw [hk] at hnc; cases hnc
                    · exact (hk _ _ _ _ hk').elim
  · rfl

theorem exec_taken_ncAmo (hnc : r.nc = true) {op : AmoOp} {opnd cmp : Nat} {un : Bool} (hk : r.kind = .amo op opnd cmp un) : ∃ h,
    exec (takerOf n r.kind) s = .next (confine s (serveNcAmo (taking s n h) r op opnd cmp un)) := by
  obtain ⟨h, hc⟩ := counted_eq s n r
  refine ⟨h, ?_⟩
  rw [exec_taken hg hh hfirst hup, takeReq, if_neg (ne_true_of_eq_false (noticed_taking hn)),
    softWord_none (s := taking s n s.page.hot) hf]
  dsimp only
  rw [hc, hnc, hk]

end

/-! ### The oldest owner (R57) -/

theorem oldestOwned_st {s : State} {home v k : Nat} (h : oldestOwned s home = some (v, k)) : (dirAt s v).st = .o k := by
  unfold oldestOwned at h
  split at h
  · split at h
    · next hst => cases h; exact hst
    · cases h
  · cases h

theorem recallOldest_none {s : State} {home : Nat} (h : oldestOwned s home = none) : recallOldest s home = s := by rw [recallOldest, h]

theorem recallOldest_owners (s : State) (home : Nat) : (recallOldest s home).coh.owners = s.coh.owners := by
  unfold recallOldest
  split <;> rfl

theorem recallOldest_grantq (s : State) (home : Nat) : (recallOldest s home).coh.grantq = s.coh.grantq := by
  unfold recallOldest
  split <;> rfl

theorem grantq_awaitGrant (s : State) (home : Nat) (r : MemReq) : tget [] (awaitGrant s home r).coh.grantq home = tget [] s.coh.grantq home ++ [r] :=
  tget_tset ..

theorem recallOldest_some {s : State} {home v k : Nat} (h : oldestOwned s home = some (v, k)) : recallOldest s home = recallFrom s v k := by
  rw [recallOldest, h]

/-! ### What a home's taking a request comes to -/

/-- The home takes request `n` of those in transit. -/
def Takes (s u : State) (n : Nat) (r : MemReq) : Prop :=
  exec (takerOf n r.kind) s = .next u ∧ u.coh.net = s.coh.net.eraseIdx n ∧ u.hold = s.hold

/-- The request's home sends a reply to its strand. -/
def Sends (s u : State) (r : MemReq) (a : ReplyAct) : Prop :=
  u.coh.replies = s.coh.replies ++ [{ tag := r.tag, act := a, home := some (homeOf s r.pa) }]

section
variable {s : State} {n : Nat} {r : MemReq} (hg : s.coh.net[n]? = some r) (hh : r.hub = none) (he : r.engine = none)
  (hfirst : earlierSent s r.tag.core (homeOf s r.pa) r.seq = false) (hup : homeUp s r.pa = true) (hroom : Roomy s) (hf : s.coh.failed = [])
  (hn : hasNoticed s (homeOf s r.pa) r.range = false)
include hg hh he hfirst hup hn

theorem taken_soft {w : Nat} (hw : softWord s r.pa r.n = some w) (hpa : r.pa < 2 ^ 52) (hone : r.pa % 8 + r.n ≤ 8) : ∃ u, Takes s u n r ∧ u.mem = s.mem
    ∧ u.coh.dir = s.coh.dir ∧ Sends s u r (.exc { cause := .softError, step := 7, info0 := BitVec.ofNat 64 (r.pa / 8 * 8), detail := r.detail }) := by
  refine ⟨_, ⟨exec_taken_soft hg hh hfirst hup hn he hw, rfl, rfl⟩, rfl, rfl, ?_⟩
  obtain rfl := softWord_eq_some hw hone
  have : softExc (r.pa / 8) = { cause := .softError, step := 7, info0 := BitVec.ofNat 64 (r.pa / 8 * 8) } := by
    rw [softExc, if_pos (by omega), Nat.mul_comm]
  rw [this]
  rfl

include hroom hf

section
variable (hnc : r.nc = false)
include hnc

omit he in
/-- In H the home serves the request. -/
theorem exec_taken_h (hst : (dirAt s (r.pa / 64)).st = .h) : ∃ h, exec (takerOf n r.kind) s = .next (confine s (serveH (taking s n h) r)) := by
  obtain ⟨h, hx⟩ := exec_taken_coherent hg hh hfirst hup hn hf (.inl hnc)
  have hl2 : l2Full (taking s n h) (r.pa / 64) = false := l2Full_eq (s := taking s n h) (Nat.lt_trans hroom.l2 (by decide)) _
  rw [dispatchReq_h (s := taking s n h) hl2 hst] at hx
  exact ⟨h, hx⟩

section
variable (hst : (dirAt s (r.pa / 64)).st = .h)
include hst

theorem taken_leases (hk : r.kind = .read ∨ ∃ cw, r.kind = .renew cw) (hp : r.post ≠ .again) :
    let sec := r.pa / 64
    let d := filled s sec
    let ts := max r.pts d.wts
    ∃ u, Takes s u n r ∧ Sends s u r (.regs (postRegs (sectorPart (homeData s sec) r.pa r.n) r.post) ts) ∧ u.mem = s.mem
      ∧ dirAt u sec = { d with rts := max d.rts (ts + r.ll) }
      ∧ l1At u (reqCore s r) sec = { kind := 1, data := homeData s sec, wts := d.wts, e := ts + r.ll, range := r.range } := by
  obtain ⟨h, hx⟩ := exec_taken_h hg hh hfirst hup hroom hf hn hnc hst
  rw [serveH_read (s := taking s n h) hh he hk hp (Nat.lt_trans hroom.l1 (by decide)), homeData_taking, filled_taking, reqCore_taking] at hx
  exact ⟨_, ⟨hx, rfl, rfl⟩, rfl, rfl, dirAt_putDir .., l1At_strandReply ..⟩

theorem taken_stores {v : Nat} (hk : r.kind = .write v) (hp : r.post = .store) (hpa : r.pa < 2 ^ 120) :
    let sec := r.pa / 64
    let d := filled s sec
    let w := max r.pts (d.rts + 1)
    let x := l1At s (reqCore s r) sec
    ∃ u, Takes s u n r ∧ Sends s u r (.regs [] w) ∧ u.mem = memWrite s.mem r.pa r.n v ∧ dirAt u sec = { d with wts := w, rts := w }
      ∧ l1At u (reqCore s r) sec = if x.kind = 1 then { x with data := homeData u sec, wts := w, e := w } else x := by
  intro sec d w x
  obtain ⟨h, hx⟩ := exec_taken_h hg hh hfirst hup hroom hf hn hnc hst
  by_cases hx1 : x.kind = 1
  · rw [serveH_write_kept (s := taking s n h) hh he hk hp hpa hx1, filled_taking, reqCore_taking] at hx
    refine ⟨_, ⟨hx, rfl, rfl⟩, rfl, rfl, dirAt_putDir .., ?_⟩
    rw [if_pos hx1]
    rw [l1At_strandReply, homeData_strandReply]
    rfl
  · rw [serveH_write_bare (s := taking s n h) hh he hk hp hpa hx1] at hx
    refine ⟨_, ⟨hx, rfl, rfl⟩, rfl, rfl, dirAt_putDir .., ?_⟩
    rw [if_neg hx1]
    rfl

theorem taken_swaps {op : AmoOp} {opnd cmp : Nat} {un : Bool} (hk : r.kind = .amo op opnd cmp un) (hp : r.post ≠ .again) (hpa : r.pa < 2 ^ 120) :
    let sec := r.pa / 64
    let d := filled s sec
    let w := max r.pts (d.rts + 1)
    let value := sectorPart (homeData s sec) r.pa r.n
    ∃ u, Takes s u n r ∧ Sends s u r (.regs (postRegs value r.post) w) ∧ dirAt u sec = { d with wts := w, rts := w }
      ∧ u.mem = memWrite s.mem r.pa r.n (amoValue op un r.n value opnd cmp) ∧ u.coh.l1 = s.coh.l1 := by
  obtain ⟨h, hx⟩ := exec_taken_h hg hh hfirst hup hroom hf hn hnc hst
  rw [serveH_amo (s := taking s n h) hh he hk hp hpa, homeData_taking, filled_taking] at hx
  exact ⟨_, ⟨hx, rfl, rfl⟩, rfl, dirAt_putDir .., rfl, rfl⟩

theorem taken_grants (hk : r.kind = .own) (hp : r.post = .again) (hroomy : (ownersOf s (homeOf s r.pa)).length < 65536) :
    let sec := r.pa / 64
    let d := filled s sec
    let home := homeOf s r.pa
    ∃ u, Takes s u n r ∧ Sends s u r .again ∧ u.mem = s.mem ∧ dirAt u sec = { d with st := .o (reqCore s r) }
      ∧ l1At u (reqCore s r) sec = { kind := 2, data := homeData s sec, wts := d.wts, e := d.rts, range := r.range }
      ∧ ownersOf u home = ownersOf s home ++ [sec] := by
  obtain ⟨h, hx⟩ := exec_taken_h hg hh hfirst hup hroom hf hn hnc hst
  rw [serveH_own (s := taking s n h) hh he hk hp hroomy, grantOwner_eq (s := taking s n h) (Nat.lt_trans hroom.l1 (by decide)), homeData_taking,
    filled_taking, reqCore_taking] at hx
  exact ⟨_, ⟨hx, rfl, rfl⟩, rfl, rfl, dirAt_putDir .., l1At_addOwner .., ownersOf_addOwner ..⟩

omit he in
theorem taken_awaitsGrant (hk : r.kind = .own) (hfull : 65536 ≤ (ownersOf s (homeOf s r.pa)).length) :
    let home := homeOf s r.pa
    ∃ u, Takes s u n r ∧ (u.coh.replies = s.coh.replies ∧ u.mem = s.mem) ∧ tget [] u.coh.grantq home = tget [] s.coh.grantq home ++ [r]
      ∧ dirAt u (r.pa / 64) = dirAt s (r.pa / 64) ∧ ∀ v k, oldestOwned s home = some (v, k) → dirAt u v = { dirAt s v with st := .t k true }
          ∧ u.coh.coh = s.coh.coh ++ [(s.coh.sent, .ask k v)] := by
  intro home
  obtain ⟨h, hx⟩ := exec_taken_h hg hh hfirst hup hroom hf hn hnc hst
  rw [serveH_own_full (s := taking s n h) hk hfull] at hx
  cases ho : oldestOwned s home with
  | none =>
    have ho' : oldestOwned (awaitGrant (taking s n h) home r) home = none := ho
    rw [show homeOf (taking s n h) r.pa = home from rfl, recallOldest_none ho'] at hx
    exact ⟨_, ⟨hx, rfl, rfl⟩, ⟨rfl, rfl⟩, tget_tset .., rfl, fun v k hv => by cases hv⟩
  | some vk =>
    obtain ⟨v, k⟩ := vk
    have ho' : oldestOwned (awaitGrant (taking s n h) home r) home = some (v, k) := ho
    rw [show homeOf (taking s n h) r.pa = home from rfl, recallOldest_some ho'] at hx
    have hv := oldestOwned_st ho
    have hne : r.pa / 64 ≠ v := fun e => by rw [← e, hst] at hv; cases hv
    refine ⟨_, ⟨hx, rfl, rfl⟩, ⟨rfl, rfl⟩, tget_tset .., dirAt_putDir_ne hne _, fun v' k' hv' => ?_⟩
    cases hv'
    exact ⟨dirAt_putDir .., rfl⟩

end

section
variable (h1 : r.kind ≠ .ncRead) (h2 : ∀ v, r.kind ≠ .ncWrite v)
include h1 h2

omit he hroom in
theorem taken_recalls {k : Nat} (hst : (dirAt s (r.pa / 64)).st = .o k) : let sec := r.pa / 64
    ∃ u, Takes s u n r ∧ (u.coh.replies = s.coh.replies ∧ u.mem = s.mem)
      ∧ dirAt u sec = { dirAt s sec with st := .t k true, queue := (dirAt s sec).queue ++ [r] }
      ∧ u.coh.coh = s.coh.coh ++ [(s.coh.sent, .ask k sec)] := by
  obtain ⟨h, hx⟩ := exec_taken_coherent hg hh hfirst hup hn hf (.inl hnc)
  rw [dispatchReq_o (s := taking s n h) h1 h2 hst] at hx
  refine ⟨_, ⟨hx, rfl, rfl⟩, ⟨rfl, rfl⟩, (dirAt_putDir ..).trans ?_, rfl⟩
  rw [dirAt_putDir]
  rfl

omit he hroom in
theorem taken_queues {k : Nat} {a : Bool} (hst : (dirAt s (r.pa / 64)).st = .t k a) : let sec := r.pa / 64
    ∃ u, Takes s u n r ∧ (u.coh.replies = s.coh.replies ∧ u.mem = s.mem)
      ∧ dirAt u sec = { dirAt s sec with queue := (dirAt s sec).queue ++ [r] } ∧ u.coh.coh = s.coh.coh := by
  obtain ⟨h, hx⟩ := exec_taken_coherent hg hh hfirst hup hn hf (.inl hnc)
  rw [dispatchReq_t (s := taking s n h) h1 h2 hst] at hx
  exact ⟨_, ⟨hx, rfl, rfl⟩, ⟨rfl, rfl⟩, dirAt_putDir .., rfl⟩

end

end

section
variable (hnc : r.nc = true) (hp : r.post ≠ .again)

include hp in
theorem taken_ncRead (hk : r.kind = .ncRead) : ∃ u, Takes s u n r ∧ Sends s u r (.regs (postRegs (memRead s.mem r.pa r.n) r.post) r.pts) ∧ u.mem = s.mem
    ∧ u.coh.dir = s.coh.dir := by
  obtain ⟨h, hx⟩ := exec_taken_coherent hg hh hfirst hup hn hf (.inr (by rw [hk]; nofun))
  rw [dispatchReq_ncRead hk, serveH_ncRead (s := taking s n h) hh he hk hp (Nat.lt_trans hroom.l1 (by decide))] at hx
  exact ⟨_, ⟨hx, rfl, rfl⟩, rfl, rfl, rfl⟩

omit hroom in
theorem taken_ncWrite {v : Nat} (hk : r.kind = .ncWrite v) (hp : r.post = .store) : ∃ u, Takes s u n r ∧ Sends s u r (.regs [] r.pts)
    ∧ u.mem = memWrite s.mem r.pa r.n v ∧ u.coh.dir = s.coh.dir := by
  obtain ⟨h, hx⟩ := exec_taken_coherent hg hh hfirst hup hn hf (.inr (by rw [hk]; nofun))
  obtain ⟨l, hl⟩ := serveH_ncWrite (s := taking s n h) hh he hk hp
  rw [dispatchReq_ncWrite hk, hl] at hx
  exact ⟨_, ⟨hx, rfl, rfl⟩, rfl, rfl, rfl⟩

omit hroom in
include hnc hp in
theorem taken_ncAmo {op : AmoOp} {opnd cmp : Nat} {un : Bool} (hk : r.kind = .amo op opnd cmp un) : let old := memRead s.mem r.pa r.n
    ∃ u, Takes s u n r ∧ Sends s u r (.regs (postRegs old r.post) r.pts)
      ∧ u.mem = memWrite s.mem r.pa r.n (amoValue op un r.n old opnd cmp) ∧ u.coh.dir = s.coh.dir := by
  obtain ⟨h, hx⟩ := exec_taken_ncAmo hg hh hfirst hup hn hf hnc hk
  obtain ⟨l, hl⟩ := serveNcAmo_eq (s := taking s n h) hh he op opnd cmp un hp
  rw [hl] at hx
  exact ⟨_, ⟨hx, rfl, rfl⟩, rfl, rfl, rfl⟩

end

end

/-! ### Messages between cores and homes, in their order (R55) -/

theorem cohAt_ask {s : State} {n q c sec : Nat} (hg : s.coh.coh[n]? = some (q, .ask c sec))
    (h : ∀ m ∈ s.coh.coh, m.1 < q → ∀ x, m.2 = .ask c x → homeOf s (x * 64) ≠ homeOf s (sec * 64)) : cohAt s n = some (q, .ask c sec) := by
  unfold cohAt
  rw [hg]
  dsimp only
  refine if_neg fun hany => ?_
  obtain ⟨⟨k, m⟩, hm, hp⟩ := List.any_eq_true.1 hany
  cases m with
  | ask c' x =>
    simp only [Bool.and_eq_true, decide_eq_true_eq, beq_iff_eq] at hp
    obtain ⟨hlt, rfl, hx⟩ := hp
    exact h _ hm hlt x rfl hx
  | data | notHeld | writeBack => simp at hp

section
variable {s : State} {n q c sec : Nat} (h : earlierSent s c (homeOf s (sec * 64)) q = false)
include h

theorem cohAt_data {v wts rts : Nat} (hg : s.coh.coh[n]? = some (q, .data c sec v wts rts)) : cohAt s n = some (q, .data c sec v wts rts) := by
  unfold cohAt
  rw [hg]
  exact if_neg (ne_true_of_eq_false h)

theorem cohAt_notHeld (hg : s.coh.coh[n]? = some (q, .notHeld c sec)) : cohAt s n = some (q, .notHeld c sec) := by
  unfold cohAt
  rw [hg]
  exact if_neg (ne_true_of_eq_false h)

theorem cohAt_writeBack {v : Option Nat} {wts rts : Nat} (hg : s.coh.coh[n]? = some (q, .writeBack c sec v wts rts)) :
    cohAt s n = some (q, .writeBack c sec v wts rts) := by
  unfold cohAt
  rw [hg]
  exact if_neg (ne_true_of_eq_false h)

end

theorem dropCoh_coh (s : State) (n : Nat) : (dropCoh s n).coh.coh = s.coh.coh.eraseIdx n := dropAt_eq_eraseIdx ..

theorem l1At_sendCoh (s u : State) (m : Coh) (c sec : Nat) (x : L1) : l1At (confine s (sendCoh (putL1 u c sec x) m)) c sec = x := l1At_putL1 ..

theorem exec_recall_held {s : State} {n q c sec : Nat} (h : cohAt s n = some (q, .ask c sec)) (hx : (l1At s c sec).kind = 2) : exec (.recall n) s
    = .next (confine s (sendCoh (putL1 (dropCoh s n) c sec { l1At s c sec with kind := 1, dirty := false })
        (.data c sec (l1At s c sec).data (l1At s c sec).wts (l1At s c sec).e))) := by
  show Host.Outcome.next (confine s _) = _
  rw [h]
  dsimp only
  rw [if_pos (by rw [hx]; rfl)]

theorem exec_recall_notHeld {s : State} {n q c sec : Nat} (h : cohAt s n = some (q, .ask c sec)) (hx : (l1At s c sec).kind ≠ 2) : exec (.recall n) s
    = .next (confine s (sendCoh (dropCoh s n) (.notHeld c sec))) := by
  show Host.Outcome.next (confine s _) = _
  rw [h]
  dsimp only
  rw [if_neg fun e => hx (eq_of_beq e)]

/-! ### A sector's release (R54, R57) -/

theorem unqueue_eq {s : State} {sec : Nat} {q : List MemReq} (h : (dirAt s sec).queue = q) :
    unqueue s sec = serveQueue (putDir s sec { dirAt s sec with queue := [] }) sec q := by
  rw [unqueue, h]

theorem unqueue_nil {s : State} {sec : Nat} (h : (dirAt s sec).queue = []) : unqueue s sec = putDir s sec { dirAt s sec with queue := [] } :=
  unqueue_eq h

theorem unqueue_one {s : State} {sec : Nat} {m : MemReq} (h : (dirAt s sec).queue = [m]) :
    unqueue s sec = dispatchReq (putDir s sec { dirAt s sec with queue := [] }) m := unqueue_eq h

theorem serveGrants_nil {s : State} {home : Nat} (h : tget [] s.coh.grantq home = []) : serveGrants s home = s := by rw [serveGrants, h]

/-- The requests of a slice that wait for an entry of its owner directory. -/
def setGrantq (s : State) (home : Nat) (q : List MemReq) : State := { s with coh.grantq := tset [] s.coh.grantq home q }

theorem grantq_setGrantq (s : State) (home : Nat) (q : List MemReq) : tget [] (setGrantq s home q).coh.grantq home = q := tget_tset ..

theorem serveGrants_cons {s : State} {home : Nat} {m : MemReq} {q : List MemReq} (h : tget [] s.coh.grantq home = m :: q)
    (hroom : (ownersOf s home).length < 65536) : serveGrants s home = dispatchReq (setGrantq s home q) m := by
  rw [serveGrants, h]
  exact if_neg (by simp [ownersFull]; omega)

/-- A sector in H whose owner entry is freed. -/
def inH (s : State) (sec : Nat) : State := freeOwner (putDir s sec { dirAt s sec with st := .h }) sec

theorem dirAt_inH (s : State) (sec : Nat) : dirAt (inH s sec) sec = { dirAt s sec with st := .h } := dirAt_putDir ..

theorem dirAt_inH_ne (s : State) {sec k : Nat} (h : k ≠ sec) : dirAt (inH s sec) k = dirAt s k := dirAt_putDir_ne h _

theorem ownersOf_inH (s : State) (sec : Nat) : ownersOf (inH s sec) (homeOf s (sec * 64)) = (ownersOf s (homeOf s (sec * 64))).filter (· != sec) :=
  tget_tset ..

theorem release_eq (s : State) (sec : Nat) : release s sec = unqueue (serveGrants (inH s sec) (homeOf s (sec * 64))) sec := rfl

section
variable {s : State} {sec : Nat}

theorem release_alone (hq : (dirAt s sec).queue = []) (hg : tget [] s.coh.grantq (homeOf s (sec * 64)) = []) :
    release s sec = putDir (inH s sec) sec { dirAt s sec with st := .h } := by
  have hq' : (dirAt (inH s sec) sec).queue = [] := by rw [dirAt_inH]; exact hq
  rw [release_eq, serveGrants_nil (s := inH s sec) hg, unqueue_nil hq', dirAt_inH, ← hq]

theorem release_one {m : MemReq} (hq : (dirAt s sec).queue = [m]) (hg : tget [] s.coh.grantq (homeOf s (sec * 64)) = []) :
    release s sec = dispatchReq (putDir (inH s sec) sec { dirAt s sec with st := .h, queue := [] }) m := by
  have hq' : (dirAt (inH s sec) sec).queue = [m] := by rw [dirAt_inH]; exact hq
  rw [release_eq, serveGrants_nil (s := inH s sec) hg, unqueue_one hq', dirAt_inH]

end

/-- What `handOver` leaves. -/
theorem handOver_eq (s : State) (sec : Nat) (v : Option Nat) (wts rts : Nat) : handOver s sec v wts rts
    = { putDir s sec { dirAt s sec with present := true, wts := wts, rts := rts } with
          mem := (v.map fun v => memWrite s.mem (sec * 64) 64 v).getD s.mem } := by
  cases v <;> rfl

theorem length_tput_le {α : Type} (m : Sparse α) (k : Nat) (v : α) : (tput m k v).length ≤ m.length + 1 := by
  induction m with
  | nil => exact Nat.le_refl _
  | cons e r ih =>
    unfold tput
    split
    · exact Nat.le_refl _
    · split
      · exact Nat.le_succ _
      · exact Nat.succ_le_succ ih

theorem length_tset_le {α : Type} [DecidableEq α] (d : α) (m : Sparse α) (k : Nat) (v : α) : (tset d m k v).length ≤ m.length + 1 := by
  unfold tset
  split
  · exact Nat.le_succ_of_le (List.length_filter_le ..)
  · exact length_tput_le ..

theorem length_putDir_le (s : State) (k : Nat) (d : Dir) : (putDir s k d).coh.dir.length ≤ s.coh.dir.length + 1 := length_tset_le ..

theorem filled_present {s : State} {sec : Nat} (h : (dirAt s sec).present = true) : filled s sec = dirAt s sec := if_pos h

theorem putL1_putDir (s : State) (k : Nat) (d : Dir) (c sec : Nat) (x : L1) : ∃ l, putL1 (putDir s k d) c sec x = putDir { s with coh.l1 := l } k d :=
  ⟨tset {} s.coh.l1 (l1Key c sec) x, rfl⟩

theorem answer_eq {r : MemReq} (hh : r.hub = none) (he : r.engine = none) (s : State) (v pts : Nat) : ∃ a, (r.post = .again → a = .again)
    ∧ answer s r v pts = strandReply s r a := by
  by_cases hp : r.post = .again
  · exact ⟨_, fun _ => rfl, answer_again hh he hp v pts⟩
  · exact ⟨_, fun h => absurd h hp, answer_regs hh he hp v pts⟩

section
variable {s : State} {r : MemReq} (hh : r.hub = none) (he : r.engine = none)
include hh he

/-- A store of a strand to a sector that is in H and in L2. -/
theorem dispatch_store {v wts rts : Nat} (hd : dirAt s (r.pa / 64) = { present := true, st := .h, wts := wts, rts := rts }) (hk : r.kind = .write v)
    (hp : r.post = .store) (hpa : r.pa < 2 ^ 120) : let w := max r.pts (rts + 1)
    ∃ l, dispatchReq s r = strandReply (putDir { s with mem := memWrite s.mem r.pa r.n v, coh.l1 := l } (r.pa / 64)
      { present := true, st := .h, wts := w, rts := w }) r (.regs [] w) := by
  intro w
  have hpres : (dirAt s (r.pa / 64)).present = true := by rw [hd]
  rw [dispatchReq_h (l2Full_present hpres) (by rw [hd])]
  by_cases hx : (l1At s (reqCore s r) (r.pa / 64)).kind = 1
  · rw [serveH_write_kept hh he hk hp hpa hx, filled_present hpres, hd]
    obtain ⟨l, hl⟩ := putL1_putDir { s with mem := memWrite s.mem r.pa r.n v } (r.pa / 64) { present := true, st := .h, wts := w, rts := w }
      (reqCore s r) (r.pa / 64) { l1At s (reqCore s r) (r.pa / 64) with
        data := homeData (putDir { s with mem := memWrite s.mem r.pa r.n v } (r.pa / 64) { present := true, st := .h, wts := w, rts := w }) (r.pa / 64)
        wts := w, e := w }
    exact ⟨l, congrArg (strandReply · r (.regs [] w)) hl⟩
  · rw [serveH_write_bare hh he hk hp hpa hx, filled_present hpres, hd]
    exact ⟨s.coh.l1, rfl⟩

/-- A request for ownership of a sector in H, when its slice's directory has room. -/
theorem dispatch_own (hk : r.kind = .own) (hst : (dirAt s (r.pa / 64)).st = .h) (hl2 : l2Full s (r.pa / 64) = false) (hl1 : s.coh.l1.length < 512)
    (hroom : (ownersOf s (homeOf s r.pa)).length < 65536) : ∃ a l, (r.post = .again → a = .again) ∧ dispatchReq s r
      = strandReply (addOwner (putDir { s with coh.l1 := l } (r.pa / 64) { filled s (r.pa / 64) with st := .o (reqCore s r) }) (homeOf s r.pa) (r.pa / 64))
          r a := by
  rw [dispatchReq_h hl2 hst]
  unfold serveH
  rw [hk]
  dsimp only
  rw [if_neg (by simp [ownersFull]; omega), grantOwner_eq hl1]
  obtain ⟨l, hl⟩ := putL1_putDir s (r.pa / 64) { filled s (r.pa / 64) with st := .o (reqCore s r) } (reqCore s r) (r.pa / 64)
    { kind := 2, data := homeData s (r.pa / 64), wts := (filled s (r.pa / 64)).wts, e := (filled s (r.pa / 64)).rts, range := r.range }
  rw [hl]
  obtain ⟨a, ha, hans⟩ := answer_eq hh he (addOwner (putDir { s with coh.l1 := l } (r.pa / 64) { filled s (r.pa / 64) with st := .o (reqCore s r) })
    (homeOf s r.pa) (r.pa / 64)) 0 r.pts
  exact ⟨a, l, ha, hans⟩

theorem own_granted (hk : r.kind = .own) (hst : (dirAt s (r.pa / 64)).st = .h) (hl2 : l2Full s (r.pa / 64) = false) (hl1 : s.coh.l1.length < 512)
    (hroom : (ownersOf s (homeOf s r.pa)).length < 65536) : ∃ u a, dispatchReq s r = u ∧ (r.post = .again → a = .again) ∧ u.coh.coh = s.coh.coh
      ∧ ownersOf u (homeOf s r.pa) = ownersOf s (homeOf s r.pa) ++ [r.pa / 64] ∧ u.coh.grantq = s.coh.grantq
      ∧ (dirAt u (r.pa / 64)).st = .o (reqCore s r) ∧ (∀ k, k ≠ r.pa / 64 → dirAt u k = dirAt s k)
      ∧ u.coh.replies = s.coh.replies ++ [{ tag := r.tag, act := a, home := some (homeOf s r.pa) }] ∧ ∀ pa, homeOf u pa = homeOf s pa := by
  obtain ⟨a, l, ha, hl⟩ := dispatch_own hh he hk hst hl2 hl1 hroom
  exact ⟨_, a, hl, ha, rfl, ownersOf_addOwner .., rfl, congrArg Dir.st (dirAt_putDir ..), fun k hk => dirAt_putDir_ne hk _, rfl, fun _ => rfl⟩

end

section
variable {t : State} {sec wts rts : Nat} {st : DirSt}

/-- A sector for which nothing waits goes to H. -/
theorem release_leaves (hgrant : tget [] t.coh.grantq (homeOf t (sec * 64)) = []) (hq : (dirAt t sec).queue = []) : ∃ u, release t sec = u
    ∧ u.coh.coh = t.coh.coh ∧ u.mem = t.mem ∧ ownersOf u (homeOf t (sec * 64)) = (ownersOf t (homeOf t (sec * 64))).filter (· != sec)
    ∧ dirAt u sec = { dirAt t sec with st := .h } :=
  ⟨_, release_alone hq hgrant, rfl, rfl, ownersOf_inH .., dirAt_putDir ..⟩

/-- A sector for which a store waits goes to H, and the store is made. -/
theorem release_stores {x : Nat} {m : MemReq} (hgrant : tget [] t.coh.grantq (homeOf t (sec * 64)) = [])
    (hd : dirAt t sec = { present := true, st := st, wts := wts, rts := rts, queue := [m] }) (hk : m.kind = .write x) (hh : m.hub = none)
    (he : m.engine = none) (hp : m.post = .store) (hsec : m.pa / 64 = sec) (hpa : m.pa < 2 ^ 120) :
    let w := max m.pts (rts + 1)
    ∃ u, release t sec = u ∧ u.coh.coh = t.coh.coh ∧ u.mem = memWrite t.mem m.pa m.n x
      ∧ ownersOf u (homeOf t (sec * 64)) = (ownersOf t (homeOf t (sec * 64))).filter (· != sec)
      ∧ dirAt u sec = { present := true, st := .h, wts := w, rts := w }
      ∧ u.coh.replies = t.coh.replies ++ [{ tag := m.tag, act := .regs [] w, home := some (homeOf t m.pa) }] := by
  intro w
  subst hsec
  have hr := release_one (s := t) (m := m) (by rw [hd]) hgrant
  have hd' : dirAt (putDir (inH t (m.pa / 64)) (m.pa / 64) { dirAt t (m.pa / 64) with st := .h, queue := [] }) (m.pa / 64)
      = { present := true, st := .h, wts := wts, rts := rts } := by rw [dirAt_putDir, hd]
  obtain ⟨l, hl⟩ := dispatch_store hh he hd' hk hp hpa
  exact ⟨_, hr.trans hl, rfl, rfl, ownersOf_inH t _, dirAt_strandReply .., rfl⟩

section
variable {m : MemReq} (hl2 : t.coh.dir.length < 16383) (hl1 : t.coh.l1.length < 512) (hgrant : tget [] t.coh.grantq (homeOf t (sec * 64)) = [m])
  (hk : m.kind = .own) (hh : m.hub = none) (he : m.engine = none)
  (hfree : ((ownersOf t (homeOf t (sec * 64))).filter (· != sec)).length < 65536) (hhome : homeOf t m.pa = homeOf t (sec * 64))
  (hne : m.pa / 64 ≠ sec) (hst : (dirAt t (m.pa / 64)).st = .h)
include hl2 hl1 hgrant hk hh he hfree hhome hne hst

/-- The entry that a sector's release frees goes to the request that waits for one: another sector's. -/
theorem serveGrants_inH : ∃ u a, serveGrants (inH t sec) (homeOf t (sec * 64)) = u ∧ (m.post = .again → a = .again) ∧ u.coh.coh = t.coh.coh
    ∧ ownersOf u (homeOf t (sec * 64)) = (ownersOf t (homeOf t (sec * 64))).filter (· != sec) ++ [m.pa / 64]
    ∧ tget [] u.coh.grantq (homeOf t (sec * 64)) = [] ∧ (dirAt u (m.pa / 64)).st = .o (reqCore t m)
    ∧ dirAt u sec = { dirAt t sec with st := .h }
    ∧ u.coh.replies = t.coh.replies ++ [{ tag := m.tag, act := a, home := some (homeOf t m.pa) }] ∧ ∀ pa, homeOf u pa = homeOf t pa := by
  have hg := serveGrants_cons (s := inH t sec) hgrant (by rw [ownersOf_inH]; exact hfree)
  have hlen : (inH t sec).coh.dir.length ≤ t.coh.dir.length + 1 := length_tset_le ({} : Dir) ..
  have hstH : (dirAt (inH t sec) (m.pa / 64)).st = .h := by rw [dirAt_inH_ne t hne]; exact hst
  have hfree' : (ownersOf (inH t sec) (homeOf t m.pa)).length < 65536 := by rw [hhome, ownersOf_inH]; exact hfree
  obtain ⟨u, a, hu, ha, h1, h2, h3, h4, h5, h6, h7⟩ := own_granted (s := setGrantq (inH t sec) (homeOf t (sec * 64)) []) hh he hk hstH
    (l2Full_eq (s := setGrantq (inH t sec) (homeOf t (sec * 64)) []) (Nat.lt_of_le_of_lt hlen (by omega)) _) hl1 hfree'
  refine ⟨u, a, hg.trans hu, ha, h1, ?_, ?_, h4, ?_, h6, h7⟩
  · rw [← ownersOf_inH, ← hhome]
    exact h2
  · rw [h3]
    exact grantq_setGrantq ..
  · exact (h5 _ hne.symm).trans (dirAt_inH t sec)


/-- The freed entry goes to the request that waits for one. -/
theorem release_grants (hq : (dirAt t sec).queue = []) : ∃ u a, release t sec = u ∧ (m.post = .again → a = .again) ∧ u.coh.coh = t.coh.coh
    ∧ ownersOf u (homeOf t (sec * 64)) = (ownersOf t (homeOf t (sec * 64))).filter (· != sec) ++ [m.pa / 64]
    ∧ tget [] u.coh.grantq (homeOf t (sec * 64)) = [] ∧ (dirAt u (m.pa / 64)).st = .o (reqCore t m)
    ∧ u.coh.replies = t.coh.replies ++ [{ tag := m.tag, act := a, home := some (homeOf t m.pa) }] := by
  obtain ⟨u, a, hu, ha, h1, h2, h3, h4, h5, h6, -⟩ := serveGrants_inH hl2 hl1 hgrant hk hh he hfree hhome hne hst
  have hq' : (dirAt u sec).queue = [] := by rw [h5]; exact hq
  exact ⟨_, a, (congrArg (unqueue · sec) hu).trans (unqueue_nil hq'), ha, h1, h2, h3, (congrArg Dir.st (dirAt_putDir_ne hne _)).trans h4, h6⟩

/-- The freed entry goes to the request that waits for one before those that wait for the sector, of which the next one then waits for an entry. -/
theorem release_grants_first {y : MemReq} (hlast : ((ownersOf t (homeOf t (sec * 64))).filter (· != sec)).length = 65535)
    (hd : (dirAt t sec).present = true) (hq : (dirAt t sec).queue = [y]) (hy : y.kind = .own) (hysec : y.pa / 64 = sec)
    (hyhome : homeOf t y.pa = homeOf t (sec * 64)) : ∃ u, release t sec = u
      ∧ ownersOf u (homeOf t (sec * 64)) = (ownersOf t (homeOf t (sec * 64))).filter (· != sec) ++ [m.pa / 64]
      ∧ tget [] u.coh.grantq (homeOf t (sec * 64)) = [y] := by
  obtain ⟨u, a, hu, -, -, h2, h3, -, h5, -, h7⟩ := serveGrants_inH hl2 hl1 hgrant hk hh he hfree hhome hne hst
  have hq' : (dirAt u sec).queue = [y] := by rw [h5]; exact hq
  have hx : dirAt (putDir u sec { dirAt u sec with queue := [] }) (y.pa / 64) = { dirAt t sec with st := .h, queue := [] } := by
    rw [hysec, dirAt_putDir, h5]
  have hhome' : homeOf (putDir u sec { dirAt u sec with queue := [] }) y.pa = homeOf t (sec * 64) := (h7 _).trans hyhome
  have hown : ownersOf (putDir u sec { dirAt u sec with queue := [] }) (homeOf t (sec * 64)) = _ := h2
  have hfull : 65536 ≤ (ownersOf (putDir u sec { dirAt u sec with queue := [] }) (homeOf (putDir u sec { dirAt u sec with queue := [] }) y.pa)).length := by
    rw [hhome', hown, List.length_append, hlast]
    exact Nat.le_refl _
  refine ⟨_, by rw [release_eq, hu, unqueue_one hq', dispatchReq_h (l2Full_present (by rw [hx]; exact hd)) (by rw [hx]), serveH_own_full hy hfull], ?_, ?_⟩
  · rw [ownersOf, recallOldest_owners, hhome']
    exact hown
  · rw [recallOldest_grantq, hhome', grantq_awaitGrant]
    exact congrArg (· ++ [y]) h3

end

end

/-! ### What an owner hands over (R54, R56) -/

/-- The state once the home has taken message `n`, with which a core hands over a sector. -/
def handed (s : State) (n sec : Nat) (v : Option Nat) (wts rts : Nat) : State := handOver (dropCoh s n) sec v wts rts

section
variable (s : State) (n sec : Nat) (v : Option Nat) (wts rts : Nat)

theorem handed_eq : handed s n sec v wts rts = { putDir (dropCoh s n) sec { dirAt s sec with present := true, wts := wts, rts := rts } with
    mem := (v.map fun v => memWrite s.mem (sec * 64) 64 v).getD s.mem } := handOver_eq ..

theorem handed_mem : (handed s n sec v wts rts).mem = (v.map fun v => memWrite s.mem (sec * 64) 64 v).getD s.mem := by rw [handed_eq]

theorem handed_coh : (handed s n sec v wts rts).coh
    = { s.coh with coh := s.coh.coh.eraseIdx n, dir := tset {} s.coh.dir sec { dirAt s sec with present := true, wts := wts, rts := rts } } := by
  rw [handed_eq]
  show ({ s.coh with coh := (dropCoh s n).coh.coh, dir := _ } : MemPart) = _
  rw [dropCoh_coh]
  rfl

theorem handed_dir : (handed s n sec v wts rts).coh.dir = tset {} s.coh.dir sec { dirAt s sec with present := true, wts := wts, rts := rts } := by
  rw [handed_coh]

theorem homeOf_handed (pa : Nat) : homeOf (handed s n sec v wts rts) pa = homeOf s pa := by rw [handed_eq]; rfl

theorem reqCore_handed (m : MemReq) : reqCore (handed s n sec v wts rts) m = reqCore s m := by rw [handed_eq]; rfl

theorem dirAt_handed : dirAt (handed s n sec v wts rts) sec = { dirAt s sec with present := true, wts := wts, rts := rts } := by
  rw [handed_eq]; exact dirAt_putDir (dropCoh s n) ..

theorem dirAt_handed_ne {k : Nat} (h : k ≠ sec) : dirAt (handed s n sec v wts rts) k = dirAt s k := by
  rw [handed_eq]; exact dirAt_putDir_ne (s := dropCoh s n) h _

theorem ownersOf_handed (home : Nat) : ownersOf (handed s n sec v wts rts) home = ownersOf s home := by rw [ownersOf, handed_coh]; rfl

theorem grantq_handed : (handed s n sec v wts rts).coh.grantq = s.coh.grantq := by rw [handed_coh]

theorem length_handed : (handed s n sec v wts rts).coh.dir.length ≤ s.coh.dir.length + 1 := by
  rw [handed_dir]; exact length_tset_le ..

end

theorem exec_recallReplyData {s : State} {n q c sec v wts rts : Nat} (h : cohAt s n = some (q, .data c sec v wts rts)) :
    exec (.recallReplyData n) s = .next (confine s (release (handed s n sec (some v) wts rts) sec)) := by
  show Host.Outcome.next (confine s _) = _
  rw [h]
  rfl

theorem exec_notHeld {s : State} {n q c sec : Nat} (h : cohAt s n = some (q, .notHeld c sec)) :
    exec (.notHeld n) s = .next (confine s (release (dropCoh s n) sec)) := by
  show Host.Outcome.next (confine s _) = _
  rw [h]

theorem exec_writeBack_o {s : State} {n q c sec k wts rts : Nat} {v : Option Nat} (h : cohAt s n = some (q, .writeBack c sec v wts rts))
    (hst : (dirAt s sec).st = .o k) : exec (.writeBack n) s = .next (confine s (release (handed s n sec v wts rts) sec)) := by
  show Host.Outcome.next (confine s _) = _
  rw [h]
  dsimp only
  rw [hst]
  rfl

theorem exec_writeBack_t {s : State} {n q c sec k wts rts : Nat} {a : Bool} {v : Option Nat} (h : cohAt s n = some (q, .writeBack c sec v wts rts))
    (hst : (dirAt s sec).st = .t k a) : exec (.writeBack n) s = .next (confine s (handed s n sec v wts rts)) := by
  show Host.Outcome.next (confine s _) = _
  rw [h]
  dsimp only
  rw [hst]
  rfl

theorem handed_replies (s : State) (n sec : Nat) (v : Option Nat) (wts rts : Nat) : (handed s n sec v wts rts).coh.replies = s.coh.replies := by
  rw [handed_coh]


/-! ### Lines that leave L2 and come back (R50, R54) -/

theorem nodup_sectorsOf (line : Nat) : (sectorsOf line).Nodup :=
  (List.nodup_range).map fun a b (h : line * 4 + a = line * 4 + b) => by omega

/-- One sector of a line that leaves L2. -/
def leaveSector (home : Nat) (s : State) (x : Nat) : State :=
  putDir { s with coh.mts := tset 0 s.coh.mts home (max (mtsOf s home) (max (dirAt s x).wts (dirAt s x).rts)) } x { dirAt s x with st := .t 0 false }

theorem mtsOf_leaveSector (home : Nat) (s : State) (x : Nat) :
    mtsOf (leaveSector home s x) home = max (mtsOf s home) (max (dirAt s x).wts (dirAt s x).rts) := tget_tset ..

theorem dirAt_leaveSector (home : Nat) (s : State) (x : Nat) : dirAt (leaveSector home s x) x = { dirAt s x with st := .t 0 false } := dirAt_putDir ..

theorem dirAt_leaveSector_ne (home : Nat) (s : State) {x k : Nat} (h : k ≠ x) : dirAt (leaveSector home s x) k = dirAt s k := dirAt_putDir_ne h _

theorem leaveSectors (home : Nat) : ∀ (l : List Nat) (s : State), l.Nodup → ∃ u, l.foldl (leaveSector home) s = u ∧ u.mem = s.mem
    ∧ u.coh.writebacks = s.coh.writebacks ∧ (∀ x ∈ l, (dirAt u x).st = .t 0 false) ∧ (∀ x, x ∉ l → dirAt u x = dirAt s x)
    ∧ mtsOf u home = l.foldl (fun m x => max m (max (dirAt s x).wts (dirAt s x).rts)) (mtsOf s home)
  | [], s, _ => ⟨s, rfl, rfl, rfl, by simp, fun _ _ => rfl, rfl⟩
  | x :: l, s, hl => by
    obtain ⟨hx, hl⟩ := List.nodup_cons.1 hl
    obtain ⟨u, hu, hmem, hwb, hin, hout, hmts⟩ := leaveSectors home l (leaveSector home s x) hl
    refine ⟨u, hu, hmem, hwb, fun y hy => ?_, fun y hy => ?_, hmts.trans ?_⟩
    · rcases List.mem_cons.1 hy with rfl | hy
      · rw [hout _ hx, dirAt_leaveSector]
      · exact hin y hy
    · obtain ⟨hne, hy⟩ := not_or.1 fun h => hy (List.mem_cons.2 h)
      exact (hout y hy).trans (dirAt_leaveSector_ne home s hne)
    · rw [mtsOf_leaveSector, List.foldl_cons]
      refine List.foldl_ext _ _ _ fun m y hy => ?_
      rw [dirAt_leaveSector_ne home s fun e : y = x => hx (e ▸ hy)]

theorem victimLeaves_eq (s : State) (line : Nat) : victimLeaves s line
    = (sectorsOf line).foldl (leaveSector (homeOf s (line * 256))) { s with coh.writebacks := s.coh.writebacks ++ [line] } := rfl

/-- One sector of a line that is absent from L2, its queue served. -/
def absentSector (s : State) (x : Nat) : State := unqueue (putDir s x { queue := (dirAt s x).queue }) x

theorem absentSector_nil {s : State} {x : Nat} (h : (dirAt s x).queue = []) : ∃ d, absentSector s x = { s with coh.dir := d }
    ∧ dirAt (absentSector s x) x = {} ∧ ∀ k, k ≠ x → dirAt (absentSector s x) k = dirAt s k := by
  have h1 : (dirAt (putDir s x { queue := (dirAt s x).queue }) x).queue = [] := by rw [dirAt_putDir]; exact h
  have h2 : absentSector s x = _ := unqueue_nil h1
  rw [h2, dirAt_putDir]
  exact ⟨_, rfl, dirAt_putDir .., fun k hk => (dirAt_putDir_ne hk _).trans (dirAt_putDir_ne hk _)⟩

theorem absentSectors : ∀ (l : List Nat) (s : State), l.Nodup → (∀ x ∈ l, (dirAt s x).queue = []) → ∃ d, l.foldl absentSector s = { s with coh.dir := d }
    ∧ (∀ x ∈ l, dirAt (l.foldl absentSector s) x = {}) ∧ ∀ x, x ∉ l → dirAt (l.foldl absentSector s) x = dirAt s x
  | [], s, _, _ => ⟨s.coh.dir, rfl, by simp, fun _ _ => rfl⟩
  | x :: l, s, hl, hq => by
    obtain ⟨hx, hl⟩ := List.nodup_cons.1 hl
    obtain ⟨d, hd, hsame, helse⟩ := absentSector_nil (hq x (by simp))
    obtain ⟨d', hd', hin, hout⟩ := absentSectors l (absentSector s x) hl fun y hy => by
      rw [helse y fun e => hx (e ▸ hy)]; exact hq y (by simp [hy])
    refine ⟨d', hd'.trans (by rw [hd]), fun y hy => ?_, fun y hy => ?_⟩
    · rcases List.mem_cons.1 hy with rfl | hy
      · exact (hout _ hx).trans hsame
      · exact hin y hy
    · obtain ⟨hne, hy⟩ := not_or.1 fun h => hy (List.mem_cons.2 h)
      exact (hout y hy).trans (helse y hne)

/-- The write-back of a line is no longer awaited. -/
def backWritten (s : State) (line : Nat) : State := { s with coh.writebacks := s.coh.writebacks.erase line }

theorem exec_memoryWriteBackAck {s : State} {line : Nat} (h : line ∈ s.coh.writebacks) : exec (.memoryWriteBackAck line) s
    = .next (confine s ((sectorsOf line).foldl absentSector (backWritten s line))) := by
  show Host.Outcome.next (confine s (if _ then _ else _)) = _
  rw [if_pos (List.contains_iff_mem.2 h)]
  rfl

theorem filled_absent {s : State} {sec : Nat} (h : dirAt s sec = {}) : filled s sec
    = { present := true, st := .h, wts := mtsOf s (homeOf s (sec * 64)), rts := mtsOf s (homeOf s (sec * 64)) } := by
  rw [filled, h]
  exact if_neg nofun

/-- A read of a sector in H that is absent from L2 leases it as the slice's memory timestamp says. -/
theorem dispatch_read_absent {s : State} {m : MemReq} (hd : dirAt s (m.pa / 64) = {}) (hk : m.kind = .read) (hh : m.hub = none)
    (he : m.engine = none) (hp : m.post ≠ .again) (hl1 : s.coh.l1.length < 512) (hl2 : s.coh.dir.length < 16384) :
    let mts := mtsOf s (homeOf s (m.pa / 64 * 64))
    let ts := max m.pts mts
    ∃ u, dispatchReq s m = u ∧ u.mem = s.mem ∧ u.coh.replies = s.coh.replies
        ++ [{ tag := m.tag, act := .regs (postRegs (sectorPart (homeData s (m.pa / 64)) m.pa m.n) m.post) ts, home := some (homeOf s m.pa) }]
      ∧ dirAt u (m.pa / 64) = { present := true, st := .h, wts := mts, rts := max mts (ts + m.ll) }
      ∧ ∀ k, k ≠ m.pa / 64 → dirAt u k = dirAt s k := by
  intro mts ts
  rw [dispatchReq_h (l2Full_eq hl2 _) (by rw [hd]), serveH_read hh he (.inl hk) hp hl1, filled_absent hd]
  exact ⟨_, rfl, rfl, rfl, dirAt_strandReply_putL1 .., fun k hk => dirAt_strandReply_putL1_ne _ _ _ hk ..⟩

theorem absentSector_read {s : State} {x : Nat} {m : MemReq} (hq : (dirAt s x).queue = [m]) (hk : m.kind = .read) (hh : m.hub = none)
    (he : m.engine = none) (hp : m.post ≠ .again) (hl1 : s.coh.l1.length < 512) (hl2 : s.coh.dir.length < 16382) (hsec : m.pa / 64 = x) :
    let mts := mtsOf s (homeOf s (x * 64))
    let ts := max m.pts mts
    ∃ u, absentSector s x = u ∧ u.mem = s.mem ∧ u.coh.replies = s.coh.replies
        ++ [{ tag := m.tag, act := .regs (postRegs (sectorPart (homeData s x) m.pa m.n) m.post) ts, home := some (homeOf s m.pa) }]
      ∧ (dirAt u x).rts = ts + m.ll ∧ (dirAt u x).wts = mts ∧ ∀ k, k ≠ x → dirAt u k = dirAt s k := by
  intro mts ts
  subst hsec
  have h1 : (dirAt (putDir s (m.pa / 64) { queue := (dirAt s (m.pa / 64)).queue }) (m.pa / 64)).queue = [m] := by rw [dirAt_putDir]; exact hq
  have h2 : absentSector s (m.pa / 64) = _ := unqueue_one h1
  rw [dirAt_putDir] at h2
  have hlen : (putDir (putDir s (m.pa / 64) { queue := (dirAt s (m.pa / 64)).queue }) (m.pa / 64) {}).coh.dir.length ≤ s.coh.dir.length + 1 + 1 :=
    (length_putDir_le ..).trans (Nat.succ_le_succ (length_putDir_le ..))
  obtain ⟨u, hu, h3, h4, h5, h6⟩ := dispatch_read_absent (s := putDir (putDir s (m.pa / 64) { queue := (dirAt s (m.pa / 64)).queue }) (m.pa / 64) {})
    (dirAt_putDir ..) hk hh he hp hl1 (Nat.lt_of_le_of_lt hlen (by omega))
  rw [homeData_putDir, homeData_putDir] at h4
  have hle : mts ≤ ts + m.ll := Nat.le_trans (Nat.le_max_right m.pts mts) (Nat.le_add_right ..)
  exact ⟨u, h2.trans hu, h3, h4, (congrArg Dir.rts h5).trans (Nat.max_eq_right hle), congrArg Dir.wts h5,
    fun k hk => (h6 k hk).trans ((dirAt_putDir_ne hk _).trans (dirAt_putDir_ne hk _))⟩

theorem sectorsOf_eq (line : Nat) : sectorsOf line = [line * 4, line * 4 + 1, line * 4 + 2, line * 4 + 3] := rfl

theorem lineBase (line : Nat) : line * 4 * 64 = line * 256 := by omega

/-- A line comes back while one read waits for its first sector. -/
theorem absentSectors_read {s : State} {line : Nat} {m : MemReq} (hq : (dirAt s (line * 4)).queue = [m])
    (hrest : ∀ x ∈ sectorsOf line, x ≠ line * 4 → (dirAt s x).queue = []) (hk : m.kind = .read) (hh : m.hub = none)
    (he : m.engine = none) (hp : m.post ≠ .again) (hroom : Roomy s) (hsec : m.pa / 64 = line * 4) :
    let mts := mtsOf s (homeOf s (line * 256))
    let ts := max m.pts mts
    ∃ u, (sectorsOf line).foldl absentSector s = u ∧ u.mem = s.mem ∧ u.coh.replies = s.coh.replies
        ++ [{ tag := m.tag, act := .regs (postRegs (sectorPart (homeData s (line * 4)) m.pa m.n) m.post) ts, home := some (homeOf s m.pa) }]
      ∧ (dirAt u (line * 4)).rts = ts + m.ll ∧ (dirAt u (line * 4)).wts = mts := by
  intro mts ts
  have hnd := nodup_sectorsOf line
  rw [sectorsOf_eq] at hnd hrest ⊢
  obtain ⟨hx, hnd⟩ := List.nodup_cons.1 hnd
  obtain ⟨u, hu, h1, h2, h3, h4, h5⟩ := absentSector_read hq hk hh he hp (Nat.lt_trans hroom.l1 (by decide)) (Nat.lt_trans hroom.l2 (by decide)) hsec
  rw [lineBase] at h2 h3 h4
  obtain ⟨d, hd, -, hout⟩ := absentSectors _ u hnd fun y hy => by
    have hne : y ≠ line * 4 := fun e => hx (e ▸ hy)
    rw [h5 y hne]
    exact hrest y (List.mem_cons_of_mem _ hy) hne
  refine ⟨_, by rw [List.foldl_cons, hu], ?_, ?_, ?_, ?_⟩
  · rw [hd]; exact h1
  · rw [hd]; exact h2
  · rw [hout _ hx]; exact h3
  · rw [hout _ hx]; exact h4

/-! ### A sector handed over and released -/

section
variable {s : State} {n sec wts rts : Nat} {m : MemReq}

theorem grantq_handed_home {v : Option Nat} {q : List MemReq} (hgrant : tget [] s.coh.grantq (homeOf s (sec * 64)) = q) :
    tget [] (handed s n sec v wts rts).coh.grantq (homeOf (handed s n sec v wts rts) (sec * 64)) = q := by
  rw [grantq_handed, homeOf_handed, hgrant]

theorem queue_handed {v : Option Nat} {q : List MemReq} (hq : (dirAt s sec).queue = q) : (dirAt (handed s n sec v wts rts) sec).queue = q := by
  rw [dirAt_handed]; exact hq

theorem handed_owners (v : Option Nat) : (handed s n sec v wts rts).coh.owners = s.coh.owners := by rw [handed_coh]

theorem handed_coh_coh (v : Option Nat) : (handed s n sec v wts rts).coh.coh = s.coh.coh.eraseIdx n := congrArg MemPart.coh (handed_coh ..)

theorem handed_leaves {v : Option Nat} (hgrant : tget [] s.coh.grantq (homeOf s (sec * 64)) = []) (hq : (dirAt s sec).queue = []) :
    let u := confine s (release (handed s n sec v wts rts) sec)
    u.coh.coh = s.coh.coh.eraseIdx n ∧ u.mem = (v.map fun v => memWrite s.mem (sec * 64) 64 v).getD s.mem
      ∧ ownersOf u (homeOf s (sec * 64)) = (ownersOf s (homeOf s (sec * 64))).filter (· != sec)
      ∧ dirAt u sec = { present := true, st := .h, wts := wts, rts := rts } := by
  obtain ⟨u, hu, h1, h2, h3, h4⟩ := release_leaves (grantq_handed_home (n := n) (v := v) (wts := wts) (rts := rts) hgrant) (queue_handed hq)
  rw [homeOf_handed, ownersOf_handed] at h3
  rw [dirAt_handed] at h4
  dsimp only at h4
  rw [hq] at h4
  rw [hu]
  exact ⟨h1.trans (handed_coh_coh v), h2.trans (handed_mem ..), h3, h4⟩

theorem handed_stores {v x : Nat} (hgrant : tget [] s.coh.grantq (homeOf s (sec * 64)) = []) (hq : (dirAt s sec).queue = [m])
    (hk : m.kind = .write x) (hh : m.hub = none) (he : m.engine = none) (hp : m.post = .store) (hsec : m.pa / 64 = sec) (hpa : m.pa < 2 ^ 120) :
    let u := confine s (release (handed s n sec (some v) wts rts) sec)
    let w := max m.pts (rts + 1)
    u.coh.coh = s.coh.coh.eraseIdx n ∧ ownersOf u (homeOf s (sec * 64)) = (ownersOf s (homeOf s (sec * 64))).filter (· != sec)
      ∧ u.mem = memWrite (memWrite s.mem (sec * 64) 64 v) m.pa m.n x ∧ dirAt u sec = { present := true, st := .h, wts := w, rts := w }
      ∧ u.coh.replies = s.coh.replies ++ [{ tag := m.tag, act := .regs [] w, home := some (homeOf s m.pa) }] := by
  obtain ⟨u, hu, h1, h2, h3, h4, h5⟩ := release_stores (t := handed s n sec (some v) wts rts) (grantq_handed_home hgrant)
    (by rw [dirAt_handed, ← hq]) hk hh he hp hsec hpa
  rw [handed_mem] at h2
  rw [homeOf_handed, ownersOf_handed] at h3
  rw [homeOf_handed, handed_replies] at h5
  rw [hu]
  exact ⟨h1.trans (handed_coh_coh _), h3, h2, h4, h5⟩

section
variable {v : Option Nat} (hl2 : (handed s n sec v wts rts).coh.dir.length < 16383) (hl1 : (handed s n sec v wts rts).coh.l1.length < 512)
  (hgrant : tget [] s.coh.grantq (homeOf s (sec * 64)) = [m]) (hk : m.kind = .own) (hh : m.hub = none) (he : m.engine = none)
include hl2 hl1 hgrant hk hh he

theorem handed_grants (hfree : ((ownersOf s (homeOf s (sec * 64))).filter (· != sec)).length < 65536) (hhome : homeOf s m.pa = homeOf s (sec * 64))
    (hne : m.pa / 64 ≠ sec) (hst : (dirAt s (m.pa / 64)).st = .h) (hq : (dirAt s sec).queue = []) :
    let u := confine s (release (handed s n sec v wts rts) sec)
    ∃ a, (m.post = .again → a = .again) ∧ u.coh.coh = s.coh.coh.eraseIdx n
      ∧ ownersOf u (homeOf s (sec * 64)) = (ownersOf s (homeOf s (sec * 64))).filter (· != sec) ++ [m.pa / 64]
      ∧ tget [] u.coh.grantq (homeOf s (sec * 64)) = [] ∧ (dirAt u (m.pa / 64)).st = .o (reqCore s m)
      ∧ u.coh.replies = s.coh.replies ++ [{ tag := m.tag, act := a, home := some (homeOf s (sec * 64)) }] := by
  obtain ⟨u, a, hu, ha, h1, h2, h3, h4, h5⟩ := release_grants hl2 hl1 (grantq_handed_home hgrant) hk hh he
    (by rw [homeOf_handed, ownersOf_handed]; exact hfree) (by rw [homeOf_handed, homeOf_handed]; exact hhome) hne
    (by rw [dirAt_handed_ne _ _ _ _ _ _ hne]; exact hst) (queue_handed hq)
  rw [homeOf_handed, ownersOf_handed] at h2
  rw [homeOf_handed] at h3
  rw [reqCore_handed] at h4
  rw [homeOf_handed, handed_replies, hhome] at h5
  rw [hu]
  exact ⟨a, ha, h1.trans (handed_coh_coh _), h2, h3, h4, h5⟩

theorem handed_grants_first {y : MemReq} (hhome : homeOf s m.pa = homeOf s (sec * 64)) (hne : m.pa / 64 ≠ sec) (hst : (dirAt s (m.pa / 64)).st = .h)
    (hlast : ((ownersOf s (homeOf s (sec * 64))).filter (· != sec)).length = 65535) (hq : (dirAt s sec).queue = [y]) (hy : y.kind = .own)
    (hysec : y.pa / 64 = sec) (hyhome : homeOf s y.pa = homeOf s (sec * 64)) :
    let u := confine s (release (handed s n sec v wts rts) sec)
    ownersOf u (homeOf s (sec * 64)) = (ownersOf s (homeOf s (sec * 64))).filter (· != sec) ++ [m.pa / 64]
      ∧ tget [] u.coh.grantq (homeOf s (sec * 64)) = [y] := by
  obtain ⟨u, hu, h1, h2⟩ := release_grants_first hl2 hl1 (grantq_handed_home hgrant) hk hh he
    (by rw [homeOf_handed, ownersOf_handed, hlast]; decide) (by rw [homeOf_handed, homeOf_handed]; exact hhome) hne
    (by rw [dirAt_handed_ne _ _ _ _ _ _ hne]; exact hst) (by rw [homeOf_handed, ownersOf_handed]; exact hlast) (by rw [dirAt_handed]) (queue_handed hq)
    hy hysec (by rw [homeOf_handed, homeOf_handed]; exact hyhome)
  rw [homeOf_handed, ownersOf_handed] at h1
  rw [homeOf_handed] at h2
  rw [hu]
  exact ⟨h1, h2⟩

end

end

section
variable {s : State} {line : Nat}

theorem exec_l2Victim (hall : ∀ x ∈ sectorsOf line, (dirAt s x).st = .h) (hany : ∃ x ∈ sectorsOf line, (dirAt s x).present = true) :
    exec (.l2VictimWriteBack line) s = .next (confine s (victimLeaves s line)) := by
  obtain ⟨x, hx, hp⟩ := hany
  have h1 : (sectorsOf line).all (fun x => (dirAt s x).st == .h) = true := List.all_eq_true.2 fun x hx => beq_iff_eq.2 (hall x hx)
  have h2 : (sectorsOf line).any (fun x => (dirAt s x).present) = true := List.any_eq_true.2 ⟨x, hx, hp⟩
  show Host.Outcome.next (confine s (if _ then _ else _)) = _
  rw [if_pos (by rw [h1, h2]; rfl)]

theorem exec_l2Victim_not (hany : ∃ x ∈ sectorsOf line, (dirAt s x).st ≠ .h) : exec (.l2VictimWriteBack line) s = .next s := by
  obtain ⟨x, hx, hp⟩ := hany
  have h1 : (sectorsOf line).all (fun x => (dirAt s x).st == .h) = false := List.all_eq_false.2 ⟨x, hx, fun e => hp (eq_of_beq e)⟩
  show Host.Outcome.next (confine s (if _ then _ else _)) = _
  rw [if_neg (by rw [h1]; nofun)]
  rfl

end

theorem homeData_backWritten (s : State) (line sec : Nat) : homeData (backWritten s line) sec = homeData s sec :=
  homeData_congr (s := s) (t := backWritten s line) rfl rfl rfl sec

theorem homeOf_backWritten (s : State) (line pa : Nat) : homeOf (backWritten s line) pa = homeOf s pa := rfl

theorem mtsOf_backWritten (s : State) (line home : Nat) : mtsOf (backWritten s line) home = mtsOf s home := rfl

theorem writtenBack_absent {s : State} {line : Nat} (hline : line ∈ s.coh.writebacks) (hq : ∀ x ∈ sectorsOf line, (dirAt s x).queue = []) :
    ∃ u, exec (.memoryWriteBackAck line) s = .next u ∧ u.mem = s.mem ∧ u.coh.writebacks = s.coh.writebacks.erase line
      ∧ ∀ x ∈ sectorsOf line, dirAt u x = {} := by
  obtain ⟨d, hd, hin, -⟩ := absentSectors _ (backWritten s line) (nodup_sectorsOf line) hq
  refine ⟨_, exec_memoryWriteBackAck hline, ?_⟩
  rw [hd] at hin ⊢
  exact ⟨rfl, rfl, hin⟩

theorem writtenBack_read {s : State} {line : Nat} {m : MemReq} (hline : line ∈ s.coh.writebacks) (hq : (dirAt s (line * 4)).queue = [m])
    (hrest : ∀ x ∈ sectorsOf line, x ≠ line * 4 → (dirAt s x).queue = []) (hk : m.kind = .read) (hh : m.hub = none)
    (he : m.engine = none) (hp : m.post ≠ .again) (hroom : Roomy s) (hsec : m.pa / 64 = line * 4) :
    let ts := max m.pts (mtsOf s (homeOf s (line * 256)))
    ∃ u, exec (.memoryWriteBackAck line) s = .next u ∧ u.mem = s.mem ∧ u.coh.replies = s.coh.replies
        ++ [{ tag := m.tag, act := .regs (postRegs (sectorPart (homeData s (line * 4)) m.pa m.n) m.post) ts, home := some (homeOf s m.pa) }]
      ∧ (dirAt u (line * 4)).rts = ts + m.ll ∧ (dirAt u (line * 4)).wts = mtsOf s (homeOf s (line * 256)) := by
  obtain ⟨u, hu, h1, h2, h3, h4⟩ := absentSectors_read (s := backWritten s line) hq hrest hk hh he hp ⟨hroom.l1, hroom.l2⟩ hsec
  rw [homeData_backWritten, mtsOf_backWritten, homeOf_backWritten, homeOf_backWritten] at h2
  rw [mtsOf_backWritten, homeOf_backWritten] at h3 h4
  refine ⟨confine s u, ?_, h1, h2, h3, h4⟩
  rw [exec_memoryWriteBackAck hline, hu]

/-- Settles O47, clause by clause: what a home's taking a request comes to in each state of the sector, what a recall and its answers leave, and a
fold over the four sectors of a line. -/
theorem sectorsAreServedRecalledAndReturned : Obligations.SectorsAreServedRecalledAndReturned := by
  unfold Obligations.SectorsAreServedRecalledAndReturned
  refine ⟨?_, ?_, ?_, ?_, ?_, ?_, ?_⟩
  · intro s n r hg hh he sec home d c data value i taken sent quiet
    have hi : i = takerOf n r.kind := by unfold i; cases r.kind <;> rfl
    clear_value i
    subst hi sec home d c data value
    refine ⟨exec_taker_waits hg hh, fun w hfirst hup _ hn hw hpa hone => taken_soft hg hh he hfirst hup hn hw hpa hone, fun hfirst hup hroom hf =>
      ⟨fun hn => ⟨_, ⟨exec_taken_lapsed hg hh hfirst hup he hn, rfl, rfl⟩, rfl, rfl, rfl⟩, fun hn hnc => ⟨fun hst => ?_, fun h1 h2 => ?_⟩, fun hn hnc hp => ?_⟩⟩
    · exact ⟨taken_leases hg hh he hfirst hup hroom hf hn hnc hst, fun _ => taken_stores hg hh he hfirst hup hroom hf hn hnc hst,
        fun _ _ _ _ => taken_swaps hg hh he hfirst hup hroom hf hn hnc hst, fun hk hp => ⟨taken_grants hg hh he hfirst hup hroom hf hn hnc hst hk hp,
          taken_awaitsGrant hg hh hfirst hup hroom hf hn hnc hst hk⟩⟩
    · exact ⟨fun _ => taken_recalls hg hh hfirst hup hf hn hnc h1 h2, fun _ _ => taken_queues hg hh hfirst hup hf hn hnc h1 h2⟩
    · exact ⟨taken_ncRead hg hh he hfirst hup hroom hf hn hp, fun _ => taken_ncWrite hg hh he hfirst hup hf hn,
        fun _ _ _ _ => taken_ncAmo hg hh he hfirst hup hf hn hnc hp⟩
  · intro s n q c sec hg hfirst x
    have hc := cohAt_ask hg hfirst
    refine ⟨fun hx => ⟨_, exec_recall_held hc hx, l1At_sendCoh .., rfl, ?_⟩, fun hx => ⟨_, exec_recall_notHeld hc hx, rfl, rfl, ?_⟩⟩
    · exact congrArg (· ++ _) (dropCoh_coh s n)
    · exact congrArg (· ++ _) (dropCoh_coh s n)
  · intro s n q c sec v wts rts hg hfirst hroom home freed back taken
    have hx := exec_recallReplyData (cohAt_data hfirst hg)
    have hl2 : (handed s n sec (some v) wts rts).coh.dir.length < 16383 := Nat.lt_of_le_of_lt (length_handed ..) (by have := hroom.l2; omega)
    have hl1 : (handed s n sec (some v) wts rts).coh.l1.length < 512 := by rw [handed_coh]; exact Nat.lt_trans hroom.l1 (by decide)
    refine ⟨fun hq hgrant => ?_, fun m x hq hgrant hk hh he hp hsec hpa => ?_, fun m hq hgrant hfree hk hh he hp hhome hne hst => ?_,
      fun m y hq hgrant hlast hk hy hh _ he _ hhome hysec hyhome hne hst => ?_⟩
    · obtain ⟨h1, h2, h3, h4⟩ := handed_leaves (v := some v) hgrant hq
      exact ⟨_, ⟨hx, h1⟩, h3, h2, h4⟩
    · obtain ⟨h1, h2, h3, h4, h5⟩ := handed_stores hgrant hq hk hh he hp hsec hpa
      exact ⟨_, ⟨hx, h1⟩, h2, h3, h4, h5⟩
    · obtain ⟨a, ha, h1, h2, h3, h4, h5⟩ := handed_grants hl2 hl1 hgrant hk hh he hfree hhome hne hst hq
      rw [ha hp] at h5
      exact ⟨_, ⟨hx, h1⟩, h2, h3, h4, h5⟩
    · obtain ⟨h1, h2⟩ := handed_grants_first hl2 hl1 hgrant hk hh he hhome hne hst hlast hq hy hysec hyhome
      refine ⟨_, hx, ?_, ?_, h2⟩
      · rw [h1]; simp
      · rw [h1]; simp [hne.symm]
  · intro s n q c sec hg hfirst hq hgrant
    obtain ⟨u, hu, h1, h2, h3, h4⟩ := release_leaves (t := dropCoh s n) hgrant hq
    have hx := exec_notHeld (cohAt_notHeld hfirst hg)
    rw [hu] at hx
    exact ⟨_, hx, h1.trans (dropCoh_coh s n), h4, h2, h3⟩
  · intro s n q c sec wts rts v hg hfirst home taken
    refine ⟨fun k hst hq hgrant => ?_, fun k a hst => ?_⟩
    · obtain ⟨h1, h2, h3, h4⟩ := handed_leaves (v := v) (wts := wts) (rts := rts) (n := n) hgrant hq
      exact ⟨_, ⟨exec_writeBack_o (cohAt_writeBack hfirst hg) hst, h1, h2⟩, h4, h3⟩
    · refine ⟨_, ⟨exec_writeBack_t (cohAt_writeBack hfirst hg) hst, ?_, handed_mem ..⟩, dirAt_handed .., ?_⟩
      · exact handed_coh_coh v
      · exact handed_owners v
  · intro s line home
    refine ⟨fun hall hany => ?_, fun hany => ?_⟩
    · obtain ⟨u, hu, hmem, hwb, hin, -, hmts⟩ := leaveSectors home _ { s with coh.writebacks := s.coh.writebacks ++ [line] } (nodup_sectorsOf line)
      refine ⟨_, exec_l2Victim hall hany, ?_⟩
      rw [victimLeaves_eq, hu]
      exact ⟨hmem, hwb, hin, hmts⟩
    · exact exec_l2Victim_not hany
  · intro s line hline
    exact ⟨writtenBack_absent hline, fun m => writtenBack_read hline⟩

end Sys2Proof.Machine
end

section
/-! PROOFS. An unmap under a key that no handle has (O46). -/

namespace Sys2Proof.Machine
open Sys2Proof

/-- A state in which an unmap is complete whose page-table key, 2^88, names the context key 2^48, one more than the largest that a handle has room
for. Its page has been asked for, in the range of key 0. The handle of the context is therefore 0, and what is asked for is page 0 of context 0. -/
def strayUnmap : State where
  page.unmaps := [{ num := 0, pte := 2 ^ 88, old := 0, home := 0, at_ := 0, tl := 0, holders := [], freed := none, move := none, large := false
                    ncChange := false }]
  page.asked := [(2 ^ 88, 0)]
  hold.lives := [(0, { st := 1 })]

/-- The state of the entry of page 0 of context 0 that an outcome leaves. -/
def entryStOf : Host.Outcome State Fault Refusal → Nat
  | .next u => (tget {} u.page.pte 0).st
  | _ => 0

/-- The entry under another key than the unmap's goes to REQ. -/
theorem strayUnmap_asks : entryStOf (exec (.unmapComplete 0) strayUnmap) = 2 := by
  decide

/-- Refutes O46: an unmap's completion changes the entry of another key when the unmap's own key names a context key beyond 2^48 - 1, since the page
that has been asked for is then backed under the handle's key. -/
theorem not_translationsAndPages : ¬ Obligations.TranslationsAndPages := by
  unfold Obligations.TranslationsAndPages
  rintro ⟨⟨-, -, -, -, -, hunmap⟩, -⟩
  obtain ⟨-, hdone⟩ := hunmap strayUnmap 0 _ rfl
  obtain ⟨-, -, hdone⟩ := hdone (.inl rfl)
  obtain ⟨u, hu, -, -, -, hothers, -⟩ := hdone (by decide) (fun _ e he => nomatch he)
  have hst := strayUnmap_asks
  rw [hu] at hst
  have hsame : tget {} u.page.pte 0 = {} := hothers 0 (by decide)
  rw [entryStOf, hsame] at hst
  exact absurd hst (by decide)

end Sys2Proof.Machine
end

section
/-! PROOFS. Accesses of a strand to a scratchpad and their checks (O15, O16). -/

namespace Sys2Proof.Machine
open Sys2Proof

/-! ### The checks of a generic pointer (R39, R40) -/

/-- What steps 1 to 3 of R40 ask of a pointer: a space, its zero bits, and the presence of the core that space 3 names. -/
def Named (s : State) (p : Word) : Prop :=
  pSpace p ≤ 4 ∧ pZeroOk p = true ∧ (pSpace p = 3 → corePresent s (p.toNat / 2 ^ 48 % 1024) = true)

section
variable {s : State} {p : Word} {n detail : Nat}

theorem Named.check3 (h : Named s p) : checkPtr3 s p detail = .ok () := checkPtr3_ok h.1 h.2.1 h.2.2 detail

theorem checkPtr3_error (h : ¬ Named s p) : checkPtr3 s p detail = .error (pExc .badOperand p detail) := by
  rw [checkPtr3]
  by_cases hs : pSpace p ≤ 4
  · by_cases hz : pZeroOk p = true
    · have h3 : pSpace p = 3 ∧ corePresent s (p.toNat / 2 ^ 48 % 1024) = false := by
        simpa [Named, hs, hz] using h
      have hc : (pSpace p != 3 || corePresent s (pCore 0 p)) = false := by simpa [pCore, h3.1] using h3.2
      rw [need_ok (decide_eq_true hs), need_ok hz, need_error hc]
      rfl
    · rw [need_ok (decide_eq_true hs), need_error (by simpa using hz)]
      rfl
  · rw [need_error (decide_eq_false hs)]
    rfl

theorem Named.check (h : Named s p) (ha : p.toNat % n = 0) : checkPtr s p n detail = .ok () := by
  rw [checkPtr, h.check3, need_ok (by simpa using ha)]
  rfl

theorem Named.check_misaligned (h : Named s p) (ha : p.toNat % n ≠ 0) : checkPtr s p n detail = .error (pExc .misaligned p detail) := by
  rw [checkPtr, h.check3, need_error (by simpa using ha)]
  rfl

theorem checkPtr_error (h : ¬ Named s p) : checkPtr s p n detail = .error (pExc .badOperand p detail) := by
  rw [checkPtr, checkPtr3_error h]
  rfl

/-- A pointer to a scratchpad. -/
theorem pScratch_iff : pScratch p = true ↔ pSpace p = 1 ∨ pSpace p = 2 ∨ pSpace p = 3 := by
  simp [pScratch, or_assoc]

theorem named_of_own (h1 : pSpace p = 1) (hz : p.toNat % 2 ^ 60 < 2 ^ 19) : Named s p := by
  refine ⟨by omega, ?_, fun h => by omega⟩
  simpa [pZeroOk, h1] using hz

theorem pCore_own {c : Nat} (h1 : pSpace p = 1) : pCore c p = c := by simp [pCore, h1]

end

/-! ### One access of a strand at a scratchpad (R42, R49, R52, R154) -/

/-- The checks of an access to a scratchpad after those of its pointer pass: its class is coherent and the windows allow it. -/
theorem spaceAccess_ok {s : State} {p : Word} {n : Nat} {cls : ReqClass} {w : Want} (hc : cls ≠ .n)
    (hw : winOk s (pCore (curCore s) p) (curCore s) (pOff p) n (w.reads .w) (w.writes .w) = true) :
    spaceAccess s p n cls w = .ok (scratchAccess s (pCore (curCore s) p) (pOff p) n w) := by
  rw [spaceAccess, need_ok (by simpa using hc), need_ok hw]
  rfl

theorem winOk_own (s : State) (c o w : Nat) (rd wr : Bool) : winOk s c c o w rd wr = true := by simp [winOk]

/-- An access at a pointer that passes its checks, to a scratchpad, of the strand's own core or without .M. -/
theorem access_scratch {s : State} {p : Word} {n : Nat} {cls : ReqClass} {mig : Bool} {w : Want} (hp : checkPtr s p n w.detail = .ok ())
    (hs : pScratch p = true) (hm : mig = false ∨ (pSpace p = 2 ∨ pSpace p = 3) ∧ pCore (curCore s) p = curCore s) :
    access s p n cls mig w = spaceAccess s p n cls w := by
  have h1 : (mig && !(pSpace p == 2 || pSpace p == 3)) = false := by
    rcases hm with h | ⟨h | h, -⟩ <;> simp [h]
  have h2 : (mig && pCore (curCore s) p != curCore s) = false := by
    rcases hm with h | ⟨-, h⟩ <;> simp [h]
  rw [access, hp, ok_bind]
  simp only [h1, h2, hs, Bool.false_eq_true, if_false, if_true]

/-- An access with .M to the scratchpad of another core: the strand goes there (R173). -/
theorem access_migrates {s : State} {p : Word} {n : Nat} {cls : ReqClass} {w : Want} (hp : checkPtr s p n w.detail = .ok ())
    (hs : pSpace p = 2 ∨ pSpace p = 3) (hm : pCore (curCore s) p ≠ curCore s) :
    access s p n cls true w = migrateTo s (pCore (curCore s) p) := by
  have h1 : (true && !(pSpace p == 2 || pSpace p == 3)) = false := by
    rcases hs with h | h <;> simp [h]
  rw [access, hp, ok_bind]
  simp only [h1, Bool.false_eq_true, if_false]
  exact if_pos (by simpa using hm)

/-! ### The order of the checks (O16) -/

/-- The form of the loads: LD, with the class that step 6 admits. -/
theorem exec_ld (s : State) (g : Guard) (d : GReg) (m : MemOp) (w : Wid) {cls : ReqClass} (mig sx : Bool) (h : cls ≠ .w) :
    exec (.ld g d m w cls mig sx) s = run .strand g none (fun s => access s (memPtr s m) (widBytes w) cls mig (.load (.load d w sx))) s := by
  have hc : (cls == .w) = false := by simpa using h
  simp only [exec, execLd, classStatic, hc, Bool.false_eq_true, if_false]

/-- An instruction whose access has met a failed word traps, whatever it would have done (R106). -/
theorem traps_of_soft {pl : Place} {i : Instr} {g : Guard} {s t : State} {word : Nat} {body : State → Except Exc State} (h : Issues pl g s)
    (he : exec i s = run pl g none body s) (hb : body s = .ok t) (hf : s.coh.failed ≠ []) (hw : t.coh.hit = some word) :
    Traps i s (softExc word) := by
  have hf' : s.coh.failed.isEmpty = false := by simpa using hf
  rw [Traps, he, run, perform_issues _ h, hb, orTrap, orSoft, hf', hw]
  rfl

@[simp] theorem writeRegs_coh (s : State) (ws : List (Nat × Word)) : (writeRegs s ws).coh = s.coh := by
  induction ws generalizing s with
  | nil => rfl
  | cons w ws ih => exact (ih _).trans (wG_coh ..)

@[simp] theorem complete_coh (s : State) (w : Want) (v ts : Nat) : (complete s w v ts).coh = s.coh := by simp [complete]

/-- A load of a scratchpad remembers the failed word that it touches. -/
theorem hit_of_load {s : State} {core off n word : Nat} {post : Post} (hf : s.coh.failed ≠ []) (hc : s.coh.hit = none)
    (hw : softWord s (scratchAt core off) n = some word) : (scratchAccess s core off n (.load post)).coh.hit = some word := by
  have hf' : s.coh.failed.isEmpty = false := by simpa using hf
  rw [scratchAccess, complete_coh, spLoad]
  simp [putStamp, noteSoft, hf', hc, hw]

/-- The memory has a failed word where an access meets one. -/
theorem failed_of_softWord {s : State} {a n word : Nat} (h : softWord s a n = some word) : s.coh.failed ≠ [] := by
  intro hf
  rw [softWord, hf] at h
  cases h

/-- Settles O16: a failed word is met by an access that has passed its checks; the checks fail one by one. -/
theorem accessChecksTrapInOrder : Obligations.AccessChecksTrapInOrder := by
  unfold Obligations.AccessChecksTrapInOrder
  refine ⟨fun s g c i t d m w cls sx word hcur hi ht hg hclean hcls => ?_, fun s g c i t d m w cls mig sx hs hcls => ?_⟩
  · intro p h1 hz ha hw
    have hissues : Issues .strand g s := ⟨by simp [hcur, placeOk], hg, by simp [Acting, hcur, ht], hclean⟩
    have hcore : curCore s = c := by simp [curCore, hcur]
    have hown : pCore (curCore s) p = c := by rw [pCore_own h1, hcore]
    refine traps_of_soft hissues (exec_ld s g d m w false sx (by rcases hcls with h | h <;> simp [h])) ?_ (failed_of_softWord hw)
      (hit_of_load (failed_of_softWord hw) hclean hw) (t := scratchAccess s c (p.toNat % 2 ^ 19) (widBytes w) (.load (.load d w sx)))
    show access s p _ _ _ _ = _
    rw [access_scratch ((named_of_own h1 hz).check ha) (by simp [pScratch_iff, h1]) (.inl rfl),
      spaceAccess_ok (by rcases hcls with h | h <;> simp [h]) (by rw [hown, hcore]; exact winOk_own ..), hown]
    rfl
  · intro p n traps named
    have htraps {k : Cause} (hb : access s p n cls mig (.load (.load d w sx)) = .error (pExc k p 1)) : traps k :=
      traps_of_run hs.issues (exec_ld s g d m w mig sx hcls) hb
    have hnamed : named ↔ Named s p := Iff.rfl
    refine ⟨fun hn => htraps ?_, fun hn ha => htraps ?_, fun hn ha hm h2 h3 => htraps ?_, fun hn ha hm hsp hc => htraps ?_,
      fun hn ha hm hsp hc hw => htraps ?_, fun hp => ?_, fun hp => ?_⟩
    · rw [access, checkPtr_error (mt hnamed.mpr hn)]
      rfl
    · rw [access, Named.check_misaligned hn ha]
      rfl
    · rw [access, Named.check hn ha, ok_bind]
      exact if_pos (by simp [hm, h2, h3])
    · rw [access_scratch (Named.check hn ha) (pScratch_iff.mpr hsp) (.inl hm), spaceAccess, need_error (by simp [hc])]
      rfl
    · rw [access_scratch (Named.check hn ha) (pScratch_iff.mpr (.inr hsp)) (.inl hm), spaceAccess, need_ok (by simp [hc]),
        need_error (by rw [hs.curCore_eq]; exact hw)]
      rfl
    · refine traps_of_run (pl := .strand) hs.issues (body := fun s => do
        let p ← globalPtr s m
        access s p (widBytes w) cls false (.load (.load d w sx))) ?_ ?_
      · have hc : (cls == .w) = false := by simpa using hcls
        simp only [exec, execLdg, classStatic, hc, Bool.false_eq_true, if_false]
      · have : globalPtr s m = .error (bad p) := if_neg (by simpa using hp)
        simp only [this, error_bind]
    · have : localPtr s m = .error (bad p) := if_neg (by simpa using hp)
      exact traps_of_run (pl := .strand) hs.issues (i := .ldl g d m w sx) rfl (by simp only [this, error_bind])

end Sys2Proof.Machine
end

section
/-! PROOFS. Accesses of a strand to a scratchpad at their timestamps (O15). -/

namespace Sys2Proof.Machine
open Sys2Proof

/-! ### A strand whose access completes (R154) -/

/-- Registers set one after another, as a reply sets them. -/
def setRegs (g : Vector Word 16) (ws : List (Nat × Word)) : Vector Word 16 :=
  ws.foldl (fun (g : Vector Word 16) w => g.set (w.1 % 16) w.2 (Nat.mod_lt _ (by decide))) g

@[simp] theorem setRegs_nil (g : Vector Word 16) : setRegs g [] = g := rfl

theorem setRegs_one (g : Vector Word 16) (d : GReg) (x : Word) (r : GReg) : (setRegs g [(d.val, x)]).get r = if r = d then x else g.get r := by
  simp only [setRegs, List.foldl_cons, List.foldl_nil, Nat.mod_eq_of_lt d.isLt, get_set]

theorem setRegs_two (g : Vector Word 16) (d e : GReg) (x y : Word) (r : GReg) :
    (setRegs g [(d.val, x), (e.val, y)]).get r = if r = e then y else if r = d then x else g.get r := by
  simp only [setRegs, List.foldl_cons, List.foldl_nil, Nat.mod_eq_of_lt d.isLt, Nat.mod_eq_of_lt e.isLt, get_set]

/-- The strand after an access that has brought registers, at a timestamp. -/
def Strand.completed (t : Strand) (ws : List (Nat × Word)) (n : Nat) : Strand :=
  { t.withPts n with ctx := { t.ctx with g := setRegs t.ctx.g ws, pc := nextPc t.ctx.pc, pts := n } }

theorem writeRegs_strand {s : State} {c i : Nat} {t : Strand} (hc : s.cur = .strand c i) (ht : strandAt s c i = some t)
    (ws : List (Nat × Word)) (n : Nat) :
    wPts (writeRegs s ws) n = putStrand s c i (Strand.withPts { t with ctx := { t.ctx with g := setRegs t.ctx.g ws } } n) := by
  induction ws generalizing s t with
  | nil => exact wPts_strand hc ht n
  | cons w ws ih =>
    have hw : wG s ⟨w.1 % 16, Nat.mod_lt _ (by decide)⟩ w.2
        = putStrand s c i { t with ctx := { t.ctx with g := t.ctx.g.set (w.1 % 16) w.2 (Nat.mod_lt _ (by decide)) } } :=
      mapCtx_strand s _ c i t hc ht
    show wPts (writeRegs (wG s ⟨w.1 % 16, Nat.mod_lt _ (by decide)⟩ w.2) ws) n = _
    rw [hw, ih (s := putStrand s c i _) hc (strandAt_putStrand ..), putStrand_putStrand]
    rfl

theorem complete_strand {s : State} {c i : Nat} {t : Strand} (hc : s.cur = .strand c i) (ht : strandAt s c i = some t) (w : Want) (v n : Nat) :
    complete s w v n = putStrand s c i (t.completed (postRegs v w.post) n) := by
  rw [complete, writeRegs_strand hc ht, advance, mapCtx_strand (putStrand s c i _) _ c i _ hc (strandAt_putStrand ..), putStrand_putStrand]
  rfl

/-- What a strand sees of the state in which its access has completed. -/
theorem completed_seen {s u : State} {g : Guard} {c i : Nat} {t : Strand} (hi : StrandIssues g s c i t) (hu : u.cur = s.cur)
    (ws : List (Nat × Word)) (n : Nat) :
    let w := putStrand u c i (t.completed ws n)
    (∀ r, rG w r = (setRegs t.ctx.g ws).get r) ∧ (∀ q, rP w q = rP s q) ∧ rPts w = n ∧ (curCtx w).pc = nextPc t.ctx.pc := by
  have hw : curCtx (putStrand u c i (t.completed ws n)) = (t.completed ws n).ctx := curCtx_putStrand (hu.trans hi.cur) _
  simp only [rG, rP, rPts, hw, hi.curCtx_eq]
  exact ⟨fun _ => rfl, fun _ => rfl, rfl, rfl⟩

theorem StrandIssues.rG_eq {s : State} {g : Guard} {c i : Nat} {t : Strand} (hi : StrandIssues g s c i t) (r : GReg) : rG s r = t.ctx.g.get r := by
  rw [rG, hi.curCtx_eq]

/-! ### The bytes that a load brings and a store leaves (R1, R154) -/

/-- A value of a width as a register takes it. -/
def extended (sx : Bool) (n v : Nat) : Word := if sx then (BitVec.ofNat (8 * n) v).signExtend 64 else (BitVec.ofNat (8 * n) v).zeroExtend 64

theorem extLoad_eq (w : Wid) (sx : Bool) (v : Nat) : loadRegs.extLoad w sx v = extended sx (widBytes w) v := by
  cases w
  case w64 =>
    cases sx
    · exact (BitVec.setWidth_eq _).symm
    · exact (BitVec.signExtend_eq _).symm
  all_goals rfl

theorem memRead_add (m : List Host.Cell) (a n k : Nat) : memRead m a (n + k) = memRead m a n + 256 ^ n * memRead m (a + n) k := by
  induction n generalizing a with
  | zero => simp [memRead]
  | succ n ih =>
    rw [Nat.succ_add, memRead, memRead, ih, pow_succ, Nat.add_assoc a 1 n, Nat.add_comm 1 n]
    ring

theorem memRead_mod (m : List Host.Cell) (a n k : Nat) : memRead m a (n + k) % 256 ^ n = memRead m a n := by
  rw [memRead_add, Nat.add_mul_mod_self_left, Nat.mod_eq_of_lt (memRead_lt ..)]

theorem memRead_div (m : List Host.Cell) (a n k : Nat) : memRead m a (n + k) / 256 ^ n = memRead m (a + n) k := by
  rw [memRead_add, Nat.add_mul_div_left _ _ (by positivity), Nat.div_eq_of_lt (memRead_lt ..), Nat.zero_add]

/-- A byte of a number cut to `n` bytes is that of the number. -/
theorem byte_mod (v : Nat) {n k : Nat} (h : k < n) : BitVec.ofNat 8 (v % 256 ^ n / 256 ^ k) = BitVec.ofNat 8 (v / 256 ^ k) := by
  obtain ⟨j, rfl⟩ : ∃ j, n = k + 1 + j := ⟨n - (k + 1), by omega⟩
  apply BitVec.eq_of_toNat_eq
  have h1 : v % 256 ^ (k + 1 + j) / 256 ^ k = v / 256 ^ k % 256 ^ (1 + j) := by
    rw [add_assoc, pow_add, Nat.mod_mul_right_div_self]
  rw [h1]
  simp only [BitVec.toNat_ofNat, Nat.reducePow]
  rw [pow_add, pow_one, Nat.mod_mul_right_mod]

/-- The bytes of memory after a write. -/
theorem memByte_memWrite (m : List Host.Cell) (a n v x : Nat) :
    memByte (memWrite m a n v) x = if a ≤ x ∧ x < a + n then BitVec.ofNat 8 (v / 256 ^ (x - a)) else memByte m x := by
  split
  · next h => exact memByte_memWrite_in m h
  · next h => exact memByte_memWrite_out m a n v x (by omega)

theorem memByte_memWrite_mod (m : List Host.Cell) (a n v x : Nat) :
    memByte (memWrite m a n (v % 256 ^ n)) x = if a ≤ x ∧ x < a + n then BitVec.ofNat 8 (v / 256 ^ (x - a)) else memByte m x := by
  rw [memByte_memWrite]
  split
  · next h => exact byte_mod v (by omega)
  · rfl

/-! ### Accesses at the bank arbiter (R49, R64) -/

/-- The state after an access of a scratchpad sector that writes `v`, read and write at one timestamp. -/
def writtenAt (s : State) (core off n pts v : Nat) : State :=
  putStamp { s with mem := memWrite s.mem (scratchAt core off) n v } core off
    { wts := max pts ((stampAt s core off).rts + 1), rts := max pts ((stampAt s core off).rts + 1) }

theorem stampAt_readAt (s : State) (core off pts : Nat) : stampAt (readAt s core off pts) core off
    = { stampAt s core off with rts := max (stampAt s core off).rts (max pts (stampAt s core off).wts) } := tget_tset ..

theorem stampAt_writtenAt (s : State) (core off n pts v : Nat) : stampAt (writtenAt s core off n pts v) core off
    = { wts := max pts ((stampAt s core off).rts + 1), rts := max pts ((stampAt s core off).rts + 1) } := tget_tset ..

section
variable {s : State} {g : Guard} {c i : Nat} {t : Strand} (hi : StrandIssues g s c i t) {owner off n : Nat}
include hi

theorem scratchAccess_load (post : Post) : scratchAccess s owner off n (.load post) = putStrand (readAt s owner off t.ctx.pts) c i
    (t.completed (postRegs (memRead s.mem (scratchAt owner off) n) post) (max t.ctx.pts (stampAt s owner off).wts)) := by
  rw [scratchAccess, hi.rPts_eq, spLoad_readAt hi.sound]
  exact complete_strand (s := readAt s owner off t.ctx.pts) hi.cur hi.bound ..

theorem scratchAccess_store (v : Nat) (pair : Bool) : scratchAccess s owner off n (.store v pair) = putStrand (writtenAt s owner off n t.ctx.pts v) c i
    (t.completed [] (max t.ctx.pts ((stampAt s owner off).rts + 1))) := by
  rw [scratchAccess, hi.rPts_eq, spStore_sound hi.sound]
  exact complete_strand (s := writtenAt s owner off n t.ctx.pts v) hi.cur hi.bound ..

theorem scratchAccess_amo (op : AmoOp) (un : Bool) (o cmp : Nat) (d : GReg) (w : Wid) :
    let old := memRead s.mem (scratchAt owner off) n
    scratchAccess s owner off n (.amo op un o cmp d w) = putStrand (writtenAt s owner off n t.ctx.pts (amoValue op un n old o cmp)) c i
      (t.completed (loadRegs d w false old) (max t.ctx.pts ((stampAt s owner off).rts + 1))) := by
  simp only [scratchAccess, hi.rPts_eq, spSwap, noteSoft_sound hi.sound]
  exact complete_strand (s := writtenAt s owner off n t.ctx.pts _) hi.cur hi.bound ..

end

/-- An access that the strand may make at the scratchpad of `owner`: the checks of its pointer, of its class and of the windows pass. -/
structure Reaches (s : State) (c owner : Nat) (p : Word) (n : Nat) (cls : ReqClass) (mig : Bool) (rd wr : Bool) : Prop where
  named : Named s p
  scratch : pScratch p = true
  aligned : p.toNat % n = 0
  core : pCore c p = owner
  here : mig = false ∨ (pSpace p = 2 ∨ pSpace p = 3) ∧ owner = c
  coherent : cls ≠ .n
  window : winOk s owner c (p.toNat % 2 ^ 19) n rd wr = true

theorem reaches_own {s : State} {c : Nat} {p : Word} {n : Nat} {cls : ReqClass} (hc : cls ≠ .n) (rd wr : Bool) (h1 : pSpace p = 1)
    (hz : p.toNat % 2 ^ 60 < 2 ^ 19) (ha : p.toNat % n = 0) : Reaches s c c p n cls false rd wr :=
  ⟨named_of_own h1 hz, by simp [pScratch_iff, h1], ha, pCore_own h1, .inl rfl, hc, winOk_own ..⟩

section
variable {s : State} {g : Guard} {c i : Nat} {t : Strand} (hi : StrandIssues g s c i t) {ins : Instr} {owner : Nat} {p : Word} {n : Nat}
  {cls : ReqClass} {mig : Bool} {body : State → Except Exc State}
include hi

/-- An instruction of one access that the strand may make completes in the state that the access leaves. -/
theorem exec_reaches {w : Want} {u : State} (hr : Reaches s c owner p n cls mig (w.reads .w) (w.writes .w))
    (he : exec ins s = run .strand g none body s) (hb : body s = access s p n cls mig w) (hu : scratchAccess s owner (p.toNat % 2 ^ 19) n w = u) :
    exec ins s = .next (confine s u) := by
  refine run_ok hi.issues ?_ (.inr hi.sound) |> he.trans
  have hcore : pCore (curCore s) p = owner := by rw [hi.curCore_eq, hr.core]
  rw [hb, access_scratch (hr.named.check hr.aligned) hr.scratch (hr.here.imp_right fun h => ⟨h.1, by rw [hcore, hi.curCore_eq, h.2]⟩),
    spaceAccess_ok hr.coherent (by rw [hcore, hi.curCore_eq]; exact hr.window), hcore, ← hu]
  rfl

/-- What a load of a scratchpad does: the registers of its reply, and the timestamps. -/
theorem loads_scratch {post : Post} (hr : Reaches s c owner p n cls mig true false)
    (he : exec ins s = run .strand g none body s) (hb : body s = access s p n cls mig (.load post)) :
    let off := p.toNat % 2 ^ 19
    let x := stampAt s owner off
    let ts := max t.ctx.pts x.wts
    ∃ u, exec ins s = .next u ∧ (∀ r, rG u r = (setRegs t.ctx.g (postRegs (memRead s.mem (scratchAt owner off) n) post)).get r)
      ∧ (∀ q, rP u q = rP s q) ∧ rPts u = ts ∧ (curCtx u).pc = nextPc t.ctx.pc ∧ stampAt u owner off = { x with rts := max x.rts ts }
      ∧ ∀ a, memByte u.mem a = memByte s.mem a := by
  intro off x ts
  obtain ⟨hg, hp, hts, hpc⟩ := completed_seen hi (u := readAt s owner off t.ctx.pts) rfl (postRegs (memRead s.mem (scratchAt owner off) n) post) ts
  exact ⟨_, exec_reaches hi (w := .load post) hr he hb (scratchAccess_load hi post), hg, hp, hts, hpc, stampAt_readAt .., fun _ => rfl⟩

/-- What a store to a scratchpad does: its bytes, and the timestamps. -/
theorem stores_scratch {v : Nat} {pair : Bool} (hr : Reaches s c owner p n cls mig false true)
    (he : exec ins s = run .strand g none body s) (hb : body s = access s p n cls mig (.store v pair)) :
    let off := p.toNat % 2 ^ 19
    let ts := max t.ctx.pts ((stampAt s owner off).rts + 1)
    ∃ u, exec ins s = .next u ∧ u.mem = memWrite s.mem (scratchAt owner off) n v
      ∧ (∀ r, rG u r = rG s r) ∧ (∀ q, rP u q = rP s q) ∧ rPts u = ts ∧ (curCtx u).pc = nextPc t.ctx.pc
      ∧ stampAt u owner off = { wts := ts, rts := ts } ∧ u.coh.l1 = s.coh.l1 ∧ u.coh.dir = s.coh.dir := by
  intro off ts
  obtain ⟨hg, hp, hts, hpc⟩ := completed_seen hi (u := writtenAt s owner off n t.ctx.pts v) rfl [] ts
  refine ⟨_, exec_reaches hi (w := .store v pair) hr he hb (scratchAccess_store hi v pair), rfl, fun r => ?_, hp, hts, hpc, stampAt_writtenAt .., rfl, rfl⟩
  exact (hg r).trans (hi.rG_eq r).symm

/-- What an atomic on a scratchpad does: the old value, the new one, and the timestamps. -/
theorem swaps_scratch {op : AmoOp} {un : Bool} {o cmp : Nat} {d : GReg} {w : Wid} (hr : Reaches s c owner p n cls mig true true)
    (he : exec ins s = run .strand g none body s) (hb : body s = access s p n cls mig (.amo op un o cmp d w)) :
    let off := p.toNat % 2 ^ 19
    let ts := max t.ctx.pts ((stampAt s owner off).rts + 1)
    let old := memRead s.mem (scratchAt owner off) n
    ∃ u, exec ins s = .next u ∧ u.mem = memWrite s.mem (scratchAt owner off) n (amoValue op un n old o cmp)
      ∧ (∀ r, rG u r = (setRegs t.ctx.g (loadRegs d w false old)).get r) ∧ (∀ q, rP u q = rP s q) ∧ rPts u = ts
      ∧ (curCtx u).pc = nextPc t.ctx.pc ∧ stampAt u owner off = { wts := ts, rts := ts } := by
  intro off ts old
  obtain ⟨hg, hp, hts, hpc⟩ := completed_seen hi (u := writtenAt s owner off n t.ctx.pts (amoValue op un n old o cmp)) rfl (loadRegs d w false old) ts
  exact ⟨_, exec_reaches hi (w := .amo op un o cmp d w) hr he hb (scratchAccess_amo hi op un o cmp d w), rfl, hg, hp, hts, hpc, stampAt_writtenAt ..⟩

end

/-! ### The values of atomics (R64, R159) -/

/-- A value of `n` bytes as MIN and MAX compare it. -/
def signedOf (un : Bool) (n v : Nat) : Int := if un then v else if v < 256 ^ n / 2 then v else (v : Int) - 256 ^ n

/-- The order of the values shifted by half their range is the signed order. -/
theorem shifted_lt_iff {m a b : Nat} (hm : m % 2 = 0) (ha : a < m) (hb : b < m) :
    (a + m / 2) % m < (b + m / 2) % m ↔ (if a < m / 2 then (a : Int) else a - m) < (if b < m / 2 then (b : Int) else b - m) := by
  have key : ∀ x, x < m → (x + m / 2) % m = if x < m / 2 then x + m / 2 else x + m / 2 - m := fun x hx => by
    split
    · exact Nat.mod_eq_of_lt (by omega)
    · rw [Nat.mod_eq_sub_mod (by omega), Nat.mod_eq_of_lt (by omega)]
  rw [key a ha, key b hb]
  split <;> split <;> omega

theorem even_pow_256 {n : Nat} (hn : n ≠ 0) : 256 ^ n % 2 = 0 := by
  obtain ⟨k, rfl⟩ := Nat.exists_eq_succ_of_ne_zero hn
  omega

/-- What an atomic puts in place of the old value, for operands of its width. -/
theorem amoValue_eq {op : AmoOp} {un : Bool} {n old o cmp : Nat} (hn : n ≠ 0) (hold : old < 256 ^ n) (ho : o < 256 ^ n) (hcmp : cmp < 256 ^ n) :
    amoValue op un n old o cmp = match op with
      | .add => (old + o) % 256 ^ n
      | .and => old &&& o
      | .or => old ||| o
      | .xor => old ^^^ o
      | .min => if signedOf un n o < signedOf un n old then o else old
      | .max => if signedOf un n old < signedOf un n o then o else old
      | .swap => o
      | .cas => if old = cmp then o else old := by
  have hlt : ∀ a b, a < 256 ^ n → b < 256 ^ n →
      ((if un then decide (a < b) else decide ((a + 256 ^ n / 2) % 256 ^ n < (b + 256 ^ n / 2) % 256 ^ n)) = true
        ↔ signedOf un n a < signedOf un n b) := fun a b ha hb => by
    cases un
    · simpa [signedOf] using shifted_lt_iff (even_pow_256 hn) ha hb
    · simp [signedOf]
  cases op <;> simp only [amoValue, Nat.mod_eq_of_lt ho, Nat.mod_eq_of_lt hcmp, hlt _ _ ho hold, hlt _ _ hold ho, beq_iff_eq]

theorem loadRegs_eq (d : GReg) (w : Wid) (sx : Bool) (v : Nat) : loadRegs d w sx v = [(d.val, extended sx (widBytes w) v)] := by
  rw [loadRegs, extLoad_eq]

/-- A value of its width is zero-extended to itself. -/
theorem extended_false {w : Wid} {v : Nat} (hv : v < 256 ^ widBytes w) : extended false (widBytes w) v = BitVec.ofNat 64 v := by
  apply BitVec.eq_of_toNat_eq
  have h8 : (256 : Nat) ^ widBytes w = 2 ^ (8 * widBytes w) := by rw [pow_mul]; norm_num
  have hle : 8 * widBytes w ≤ 64 := by cases w <;> decide
  have hlt : v < 2 ^ 64 := lt_of_lt_of_le (h8 ▸ hv) (Nat.pow_le_pow_right (by decide) hle)
  simp only [extended, Bool.false_eq_true, if_false, BitVec.toNat_setWidth, BitVec.toNat_ofNat]
  rw [← h8, Nat.mod_eq_of_lt hv]

/-! ### The forms of loads and stores (R152, R153) -/

section
variable (s : State) (g : Guard) (d : GReg) (y : Src) (m : MemOp) (w : Wid) {cls : ReqClass} (mig sx : Bool)

theorem exec_ldx (h : cls ≠ .w) : exec (.ldx g d m w cls mig sx) s
    = run .strand g none (fun s => access s (memPtr s m) (2 * widBytes w) cls mig (.load (.loadPair d w sx))) s := by
  have hc : (cls == .w) = false := by simpa using h
  simp only [exec, execLdx, classStatic, hc, Bool.false_eq_true, if_false]

theorem exec_st (h : cls ≠ .s) : exec (.st g y m w cls mig) s
    = run .strand g none (fun s => access s (memPtr s m) (widBytes w) cls mig (.store (storeValue s y (widBytes w)))) s := by
  have hc : (cls == .s) = false := by simpa using h
  simp only [exec, execSt, classStatic, hc, Bool.false_eq_true, if_false]

theorem exec_stx (h : cls ≠ .s) : exec (.stx g d m w cls mig) s
    = run .strand g none (fun s => access s (memPtr s m) (2 * widBytes w) cls mig (.store (pairValue s d w) true)) s := by
  have hc : (cls == .s) = false := by simpa using h
  simp only [exec, execStx, classStatic, hc, Bool.false_eq_true, if_false]

end

/-- The pointer of LDL and STL. -/
theorem localPtr_ok {s : State} {m : MemOp} (h : (memPtr s m).toNat < 0x80000) : localPtr s m = .ok (memPtr s m ||| 0x1000000000000000#64) :=
  if_pos (decide_eq_true h)

theorem toNat_localPtr {v : Word} (h : v.toNat < 0x80000) : (v ||| 0x1000000000000000#64).toNat = 2 ^ 60 + v.toNat := by
  rw [BitVec.toNat_or, show (0x1000000000000000#64).toNat = 2 ^ 60 * 1 from rfl, Nat.or_comm,
    ← Nat.two_pow_add_eq_or_of_lt (by omega) 1, mul_one]

theorem pSpace_localPtr {v : Word} (h : v.toNat < 0x80000) :
    pSpace (v ||| 0x1000000000000000#64) = 1 ∧ (v ||| 0x1000000000000000#64).toNat % 2 ^ 60 < 2 ^ 19 := by
  rw [pSpace, toNat_localPtr h]
  omega

/-- The registers of a pair (R154). -/
theorem postRegs_pair {d e : GReg} (hde : e.val = d.val + 1) (m : List Host.Cell) (a : Nat) (w : Wid) (sx : Bool) :
    postRegs (memRead m a (2 * widBytes w)) (.loadPair d w sx)
      = [(d.val, extended sx (widBytes w) (memRead m a (widBytes w))), (e.val, extended sx (widBytes w) (memRead m (a + widBytes w) (widBytes w)))] := by
  rw [postRegs, loadRegs_eq, extLoad_eq, two_mul, memRead_mod, memRead_div, pairReg, hde]
  rfl

theorem pairValue_eq {s : State} {d e : GReg} (hde : e.val = d.val + 1) (w : Wid) : pairValue s d w
    = (rG s d).toNat % 256 ^ widBytes w + (rG s e).toNat % 256 ^ widBytes w * 256 ^ widBytes w := by
  have he : (⟨pairReg d % 16, Nat.mod_lt _ (by decide)⟩ : GReg) = e := Fin.ext (by rw [pairReg, ← hde]; exact Nat.mod_eq_of_lt e.isLt)
  rw [pairValue, he]

/-! ### Each form at a scratchpad that the strand reaches -/

section
variable {s : State} {g : Guard} {c i : Nat} {t : Strand} (hi : StrandIssues g s c i t) {ins : Instr} {owner : Nat} {p : Word}
  {cls : ReqClass} {mig : Bool} {body : State → Except Exc State} {w : Wid} (he : exec ins s = run .strand g none body s)
include hi he

theorem load_scratch {d : GReg} {sx : Bool} (hr : Reaches s c owner p (widBytes w) cls mig true false)
    (hb : body s = access s p (widBytes w) cls mig (.load (.load d w sx))) :
    let off := p.toNat % 2 ^ 19
    let x := stampAt s owner off
    let ts := max t.ctx.pts x.wts
    ∃ u, (exec ins s = .next u ∧ (∀ r, r ∉ [d] → rG u r = rG s r) ∧ (∀ q, rP u q = rP s q) ∧ rPts u = ts ∧ (curCtx u).pc = nextPc t.ctx.pc
        ∧ stampAt u owner off = { x with rts := max x.rts ts } ∧ ∀ a, memByte u.mem a = memByte s.mem a)
      ∧ rG u d = extended sx (widBytes w) (memRead s.mem (scratchAt owner off) (widBytes w)) := by
  obtain ⟨u, hu, hg, hrest⟩ := loads_scratch hi hr he hb
  rw [postRegs, loadRegs_eq] at hg
  exact ⟨u, ⟨hu, fun r hr => by rw [hg, setRegs_one, if_neg (by simpa using hr), hi.rG_eq], hrest⟩, by rw [hg, setRegs_one, if_pos rfl]⟩

theorem loadPair_scratch {d e : GReg} {sx : Bool} (hde : e.val = d.val + 1) (hr : Reaches s c owner p (2 * widBytes w) cls mig true false)
    (hb : body s = access s p (2 * widBytes w) cls mig (.load (.loadPair d w sx))) :
    let off := p.toNat % 2 ^ 19
    let x := stampAt s owner off
    let ts := max t.ctx.pts x.wts
    ∃ u, (exec ins s = .next u ∧ (∀ r, r ∉ [d, e] → rG u r = rG s r) ∧ (∀ q, rP u q = rP s q) ∧ rPts u = ts ∧ (curCtx u).pc = nextPc t.ctx.pc
        ∧ stampAt u owner off = { x with rts := max x.rts ts } ∧ ∀ a, memByte u.mem a = memByte s.mem a)
      ∧ rG u d = extended sx (widBytes w) (memRead s.mem (scratchAt owner off) (widBytes w))
      ∧ rG u e = extended sx (widBytes w) (memRead s.mem (scratchAt owner off + widBytes w) (widBytes w)) := by
  obtain ⟨u, hu, hg, hrest⟩ := loads_scratch hi hr he hb
  rw [postRegs_pair hde] at hg
  have hne : d ≠ e := fun h => by rw [h] at hde; omega
  refine ⟨u, ⟨hu, fun r hr => ?_, hrest⟩, by rw [hg, setRegs_two, if_neg hne, if_pos rfl], by rw [hg, setRegs_two, if_pos rfl]⟩
  simp only [List.mem_cons, List.not_mem_nil, or_false, not_or] at hr
  rw [hg, setRegs_two, if_neg hr.2, if_neg hr.1, hi.rG_eq]

theorem store_scratch {y : Src} (hr : Reaches s c owner p (widBytes w) cls mig false true)
    (hb : body s = access s p (widBytes w) cls mig (.store (storeValue s y (widBytes w)))) :
    let off := p.toNat % 2 ^ 19
    let ts := max t.ctx.pts ((stampAt s owner off).rts + 1)
    let base := scratchAt owner off
    ∃ u, exec ins s = .next u
      ∧ (∀ a, memByte u.mem a = if base ≤ a ∧ a < base + widBytes w then BitVec.ofNat 8 ((srcZ s y).toNat / 256 ^ (a - base)) else memByte s.mem a)
      ∧ (∀ r, rG u r = rG s r) ∧ (∀ q, rP u q = rP s q) ∧ rPts u = ts ∧ (curCtx u).pc = nextPc t.ctx.pc
      ∧ stampAt u owner off = { wts := ts, rts := ts } ∧ u.coh.l1 = s.coh.l1 ∧ u.coh.dir = s.coh.dir := by
  obtain ⟨u, hu, hm, hrest⟩ := stores_scratch hi hr he hb
  exact ⟨u, hu, fun a => by rw [hm]; exact memByte_memWrite_mod .., hrest⟩

theorem amo_scratch {op : AmoOp} {un : Bool} {d : GReg} {o cmp : Nat} (hr : Reaches s c owner p (widBytes w) cls mig true true)
    (hb : body s = access s p (widBytes w) cls mig (.amo op un o cmp d w)) :
    let off := p.toNat % 2 ^ 19
    let ts := max t.ctx.pts ((stampAt s owner off).rts + 1)
    let base := scratchAt owner off
    let old := memRead s.mem base (widBytes w)
    ∃ u, (exec ins s = .next u ∧ (∀ r, r ∉ [d] → rG u r = rG s r) ∧ (∀ q, rP u q = rP s q) ∧ rPts u = ts ∧ (curCtx u).pc = nextPc t.ctx.pc)
      ∧ rG u d = BitVec.ofNat 64 old ∧ stampAt u owner off = { wts := ts, rts := ts }
      ∧ (∀ a, memByte u.mem a = if base ≤ a ∧ a < base + widBytes w
          then BitVec.ofNat 8 (amoValue op un (widBytes w) old o cmp / 256 ^ (a - base)) else memByte s.mem a) := by
  obtain ⟨u, hu, hm, hg, hP, hts, hpc, hx⟩ := swaps_scratch hi hr he hb
  rw [loadRegs_eq, extended_false (memRead_lt ..)] at hg
  exact ⟨u, ⟨hu, fun r hr => by rw [hg, setRegs_one, if_neg (by simpa using hr), hi.rG_eq], hP, hts, hpc⟩, by rw [hg, setRegs_one, if_pos rfl], hx,
    fun a => by rw [hm]; exact memByte_memWrite ..⟩

end

/-! ### A strand that goes to the data (R52, R98, R173) -/

@[simp] theorem keptTags_abandonForks (s : State) (tag tag' : Tag) (l : List Tag) : keptTags (abandonForks s tag) tag' l = keptTags s tag' l := by
  have h : (abandonForks s tag).eng.mslots = s.eng.mslots := by
    simp only [abandonForks, settlePair]
    split
    · split
      · split <;> rfl
      · rfl
    · rfl
  rw [keptTags, keptTags, h]

theorem abandonForks_core (s : State) (tag : Tag) : (abandonForks s tag).core = s.core := by
  simp only [abandonForks, settlePair]
  split
  · split
    · split <;> rfl
    · rfl
  · rfl

theorem abandonForks_mem (s : State) (tag : Tag) : (abandonForks s tag).mem = s.mem := by
  simp only [abandonForks, settlePair]
  split
  · split
    · split <;> rfl
    · rfl
  · rfl

/-- The image of a strand on its way from a slot. -/
def Strand.leaving (t : Strand) (s : State) (c i : Nat) : Strand :=
  { t with st := 0, wait := .none, former := keptTags s { core := c, slot := i, gen := slotGenOf s c i } t.former }

/-- What a departure leaves: the slot free, the image on its way, memory as it was. -/
theorem depart_seen (s : State) (c i target : Nat) (t : Strand) : let u := depart s c i target t
    strandAt u c i = none ∧ u.core.migr = s.core.migr ++ [(target, t.leaving s c i)] ∧ u.mem = s.mem := by
  refine ⟨tfind_tdel .., ?_, abandonForks_mem ..⟩
  simp only [depart, freeSlot, keptTags_abandonForks, abandonForks_core]
  rfl

section
variable {s : State} {g : Guard} {c i : Nat} {t : Strand} (hi : StrandIssues g s c i t)
include hi

theorem StrandIssues.curLaunch_eq : curLaunch s = launchAt s t.record.launch.toNat := by simp [curLaunch, curRec, hi.cur, hi.bound]

variable {ins : Instr} {owner : Nat} {p : Word} {n : Nat} {cls : ReqClass} {body : State → Except Exc State} {w : Want}
  (hn : Named s p) (ha : p.toNat % n = 0) (hs : pSpace p = 2 ∨ pSpace p = 3) (hc : pCore c p = owner) (hne : owner ≠ c)
  (he : exec ins s = run .strand g none body s) (hb : body s = access s p n cls true w)
include hn ha hs hc hne he hb

/-- An access with .M at another core's scratchpad: the strand goes there when its launch admits the core. -/
theorem migrates_to_owner (hl : admits s (launchAt s t.record.launch.toNat) owner = true) : ∃ u, exec ins s = .next u ∧ strandAt u c i = none
    ∧ u.core.migr = s.core.migr ++ [(owner, t.leaving s c i)] ∧ ∀ a, memByte u.mem a = memByte s.mem a := by
  obtain ⟨hfree, hmigr, hmem⟩ := depart_seen s c i owner t
  refine ⟨_, he.trans (run_ok hi.issues (t := depart s c i owner t) ?_ (.inr hi.sound)), hfree, hmigr, fun a => congrArg (memByte · a) hmem⟩
  rw [hb, access_migrates (hn.check ha) hs (by rw [hi.curCore_eq, hc]; exact hne), hi.curCore_eq, hc, migrateTo, hi.curLaunch_eq, hl]
  simp [hi.cur, hi.bound]

theorem migration_refused (hl : admits s (launchAt s t.record.launch.toNat) owner = false) :
    Traps ins s { cause := .protection, info0 := BitVec.ofNat 64 owner } := by
  refine traps_of_run hi.issues he ?_
  rw [hb, access_migrates (hn.check ha) hs (by rw [hi.curCore_eq, hc]; exact hne), hi.curCore_eq, hc, migrateTo, hi.curLaunch_eq, hl]
  simp

end

/-- Settles O15. Loads, stores and atomics at the own scratchpad, by form; then at another core's, where the windows allow the access or .M takes the
strand there. -/
theorem scratchpadAccessesAreMadeAtTheirTimestamps : Obligations.ScratchpadAccessesAreMadeAtTheirTimestamps := by
  unfold Obligations.ScratchpadAccessesAreMadeAtTheirTimestamps
  intro amo
  have hamo {op un n old o cmp} (hn : n ≠ 0) (hold : old < 256 ^ n) : amoValue op un n old (o % 256 ^ n) (cmp % 256 ^ n)
      = amo op un n old (o % 256 ^ n) (cmp % 256 ^ n) := by
    have hpos : 0 < 256 ^ n := by positivity
    rw [amoValue_eq hn hold (Nat.mod_lt _ hpos) (Nat.mod_lt _ hpos)]
    cases op <;> rfl
  have hwid (w : Wid) : widBytes w ≠ 0 := by cases w <;> decide
  refine ⟨fun s g c i t d m w cls mig sx p hi hcn hcw hmig => ?_, fun s g c i t d y m w cls mig p hi hcn hcs hmig => ?_,
    fun s g c i t op d base disp y w un hi hw => ?_, fun s g c i t d base y m disp w cls mig sx un op p hi hcn => ?_⟩
  · intro off at_ x ts ext reads admitted
    subst hmig
    refine ⟨fun hp ha => load_scratch hi (exec_ld s g d m w false sx hcw) (reaches_own hcn true false ha.1 ha.2.1 ha.2.2) (by rw [hp]),
      fun hp hlt ha => ?_,
      fun hp hw ha e hd he => loadPair_scratch hi (exec_ldx s g d m w false sx hcw) he (reaches_own hcn true false ha.1 ha.2.1 ha.2.2) (by rw [hp])⟩
    obtain ⟨h1, hz⟩ := pSpace_localPtr hlt
    rw [← hp] at h1 hz
    exact load_scratch hi (ins := .ldl g d m w sx) (d := d) (sx := sx) rfl (reaches_own (cls := .s) (by simp) true false h1 hz ha)
      (by simp only [localPtr_ok hlt, ok_bind, hp])
  · intro off base x ts stores admitted
    subst hmig
    refine ⟨fun hp ha => store_scratch hi (exec_st s g y m w false hcs) (reaches_own hcn false true ha.1 ha.2.1 ha.2.2) (by rw [hp]),
      fun hp hlt ha => ?_, fun hp hw ha e hd he => ?_⟩
    · obtain ⟨h1, hz⟩ := pSpace_localPtr hlt
      rw [← hp] at h1 hz
      exact store_scratch hi (ins := .stl g y m w) (y := y) rfl (reaches_own (cls := .w) (by simp) false true h1 hz ha)
        (by simp only [localPtr_ok hlt, ok_bind, hp])
    · obtain ⟨u, hu, hm, hrest⟩ := stores_scratch hi (reaches_own hcn false true ha.1 ha.2.1 ha.2.2) (exec_stx s g d m w false hcs) (by rw [hp])
      exact ⟨u, hu, fun a => by rw [hm, pairValue_eq he]; exact memByte_memWrite .., hrest⟩
  · intro n p off a₀ x ts old new h1 hz ha
    obtain ⟨u, ⟨hu, hg, hP, hts, hpc⟩, hd, hx, hm⟩ := amo_scratch hi (ins := .amo g op d base disp y w un false) rfl
      (reaches_own (cls := .w) (by simp) true true h1 hz ha) rfl
    rw [storeValue, hamo (hwid w) (memRead_lt ..)] at hm
    exact ⟨u, hu, hd, hm, fun r hr => hg r (by simpa using hr), hP, hts, hpc, hx⟩
  · intro n owner hsp hz ha off at_ x load store atomic loads stores swaps does puts
    have hs : pSpace p = 2 ∨ pSpace p = 3 := hsp.imp_right And.left
    have hnamed : Named s p := ⟨by omega, hz, fun h3 => by
      rcases hsp with h | ⟨-, h⟩
      · omega
      · simpa [owner, h3] using h⟩
    have howner : pCore c p = owner := by rcases hs with h | h <;> simp [pCore, owner, h]
    refine ⟨fun hm => ?_, fun hm hne => ?_⟩
    · have hreach {cls : ReqClass} {rd wr : Bool} (hc : cls ≠ .n) (hw : winOk s owner c off n rd wr = true) : Reaches s c owner p n cls mig rd wr :=
        ⟨hnamed, pScratch_iff.mpr (.inr hs), ha, howner, hm.imp_right fun h => ⟨hs, h⟩, hc, hw⟩
      refine ⟨fun hl hw => ?_, fun hl hw => ?_, fun hl hw => ?_⟩
      · obtain ⟨u, ⟨hu, hg, hP, hts, hpc, hx, hm⟩, hd⟩ := load_scratch hi (exec_ld s g d m w mig sx hl.2) (hreach hcn hw) (by rw [hl.1])
        exact ⟨u, ⟨hu, hg, hP, hts, hpc⟩, hd, hx, hm⟩
      · obtain ⟨u, hu, hm, hr, hP, hts, hpc, hx, -, -⟩ := store_scratch hi (exec_st s g y m w mig hl.2) (hreach hcn hw) (by rw [hl.1])
        exact ⟨u, ⟨hu, fun r _ => hr r, hP, hts, hpc⟩, hx, hm⟩
      · obtain ⟨u, hu, hd, hx, hm⟩ := amo_scratch hi (ins := atomic) rfl (hreach (cls := .w) (by simp) hw) (by rw [hl.1])
        rw [storeValue, hamo (hwid w) (memRead_lt ..)] at hm
        exact ⟨u, hu, hd, hx, hm⟩
    · intro here l
      subst hm
      have hform (j : Instr) (hj : here j) : ∃ cls' w' body, exec j s = run .strand g none body s ∧ body s = access s p n cls' true w' := by
        rcases hj with ⟨hl, rfl⟩ | ⟨hl, rfl⟩ | ⟨hl, rfl⟩
        · exact ⟨_, _, _, exec_ld s g d m w true sx hl.2, by rw [hl.1]⟩
        · exact ⟨_, _, _, exec_st s g y m w true hl.2, by rw [hl.1]⟩
        · exact ⟨_, _, _, rfl, by rw [hl.1]⟩
      refine ⟨fun hl j hj => ?_, fun hl j hj => ?_⟩
      · obtain ⟨_, _, _, he, hb⟩ := hform j hj
        exact migrates_to_owner hi hnamed ha hs howner hne he hb hl
      · obtain ⟨_, _, _, he, hb⟩ := hform j hj
        exact migration_refused hi hnamed ha hs howner hne he hb hl

end Sys2Proof.Machine
end

section
/-! PROOFS. Global accesses of a strand (O17): what the L1 serves, and what goes to the home of the sector. -/

namespace Sys2Proof.Machine
open Sys2Proof

/-! ### The forms (R152, R153, R158) -/

section
variable (s : State) (g : Guard) (d : GReg) (y : Src) (m : MemOp) (w : Wid) {cls : ReqClass} (sx : Bool)

theorem exec_ldg (h : cls ≠ .w) : exec (.ldg g d m w cls sx) s = run .strand g none (fun s => do
    let p ← globalPtr s m
    access s p (widBytes w) cls false (.load (.load d w sx))) s := by
  have hc : (cls == .w) = false := by simpa using h
  simp only [exec, execLdg, classStatic, hc, Bool.false_eq_true, if_false]

theorem exec_stg (h : cls ≠ .s) : exec (.stg g y m w cls) s = run .strand g none (fun s => do
    let p ← globalPtr s m
    access s p (widBytes w) cls false (.store (storeValue s y (widBytes w)))) s := by
  have hc : (cls == .s) = false := by simpa using h
  simp only [exec, execStg, classStatic, hc, Bool.false_eq_true, if_false]

end

theorem globalPtr_ok {s : State} {m : MemOp} (h : (memPtr s m).toNat < 2 ^ 56) : globalPtr s m = .ok (memPtr s m) := if_pos (decide_eq_true h)

/-! ### From the pointer to the physical address (R39, R350) -/

/-- A pointer below 2^56 is one of space 0. -/
theorem pSpace_global {p : Word} (h : p.toNat < 2 ^ 56) : pSpace p = 0 := by
  rw [pSpace]
  omega

theorem named_global {s : State} {p : Word} (h : p.toNat < 2 ^ 56) : Named s p := by
  have h0 := pSpace_global h
  refine ⟨by omega, ?_, fun h3 => by omega⟩
  simp only [pZeroOk, h0, decide_eq_true_eq]
  omega

theorem access_global {s : State} {p : Word} {n : Nat} (cls : ReqClass) (w : Want) (h : p.toNat < 2 ^ 56) (ha : p.toNat % n = 0) :
    access s p n cls false w = virtualAccess s p p.toNat n cls w := by
  have h0 := pSpace_global h
  have hs : pScratch p = false := by simp [pScratch, h0]
  rw [access, (named_global h).check ha, ok_bind]
  simp only [h0, hs, Bool.false_and, Bool.false_eq_true, if_false, Nat.mod_eq_of_lt h]
  rfl

/-- What a translation that leaves the acting strand and what `confine` gives back alone makes of an access. -/
structure Translated (g : Guard) (s s' : State) (c i : Nat) (t : Strand) : Prop where
  before : StrandIssues g s c i t
  after : StrandIssues g s' c i t
  time : s'.time = s.time
  hub : s'.hub = s.hub
  sregs : s'.sregs = s.sregs

theorem Translated.confine_eq {g : Guard} {s s' : State} {c i : Nat} {t : Strand} (h : Translated g s s' c i t) (u : State) : confine s u = confine s' u := by
  simp only [confine, h.time, h.hub, h.sregs, h.before.clean, h.after.clean]

section
variable {s s' : State} {g : Guard} {c i : Nat} {t : Strand} (h : Translated g s s' c i t) {ins : Instr} {p : Word} {n pa : Nat} {range : Word}
  {cls : ReqClass} {body : State → Except Exc State} {w : Want}
include h

/-- An instruction whose access translates to memory has the effect of the access there. -/
theorem exec_global {u : State} (hlt : p.toNat < 2 ^ 56) (ha : p.toNat % n = 0) (he : exec ins s = run .strand g none body s)
    (hb : body s = access s p n cls false w)
    (hx : translate s c t.ctxh (launchAt s t.record.launch.toNat).tl p.toNat (w.reads cls) (w.writes cls) none p w.detail = (s', .mem pa false range))
    (hu : globalAccess s' p pa n false range cls w = .ok u) (hc : confine s' u = u) : exec ins s = .next u := by
  rw [← hc, ← h.confine_eq]
  refine he.trans (run_ok h.before.issues ?_ (.inr h.before.sound))
  rw [hb, access_global cls w hlt ha, virtualAccess, h.before.curCore_eq, h.before.curCtxh_eq, h.before.curLaunch_eq, hx]
  exact hu

end

/-! ### What the L1 serves (R48, R52) -/

/-- The L1 that holds the strand's copy of a line. -/
def copyCore (s : State) (c : Nat) (t : Strand) (pa : Nat) : Nat := l1Core (launchAt s t.record.launch.toNat).fused c pa

/-- The strand after a load from a leased copy at `ts`: of the hits that leave PTS as it is, the 32nd moves it on (R48). -/
def Strand.afterLease (t : Strand) (ws : List (Nat × Word)) (ts : Nat) : Strand :=
  let x := t.completed ws ts
  if ts = t.ctx.pts then (if t.lhit + 1 = 32 then x.withPts (ts + 1) else { x with lhit := t.lhit + 1 }) else x

/-- Registers, predicates and PC of the strand are those of the load; only the PTS depends on the count. -/
theorem afterLease_ctx (t : Strand) (ws : List (Nat × Word)) (ts : Nat) : (t.afterLease ws ts).ctx
    = { (t.completed ws ts).ctx with pts := if ts = t.ctx.pts ∧ t.lhit = 31 then ts + 1 else ts } := by
  by_cases h : ts = t.ctx.pts
  · by_cases hl : t.lhit = 31
    · simp [Strand.afterLease, h, hl, Strand.withPts, Strand.completed]
    · simp [Strand.afterLease, h, hl, Strand.completed]
  · simp [Strand.afterLease, h, Strand.completed]

theorem leaseHit_strand {s : State} {c i : Nat} {t : Strand} (hc : s.cur = .strand c i) (ht : strandAt s c i = some t) :
    leaseHit s = putStrand s c i (if t.lhit + 1 = 32 then t.withPts (t.ctx.pts + 1) else { t with lhit := t.lhit + 1 }) := by
  simp [leaseHit, hc, mapStrand, ht]

/-! The branches of an access in memory for the classes used here (R51, R52, R154). -/

/-- The request that an access becomes when it goes to the home. -/
def homeward (s : State) (p : Word) (pa n : Nat) (range : Word) (cls : ReqClass) (w : Want) (k : MemKind) : MemReq :=
  { tag := {}, pa := pa, n := n, kind := k, pts := rPts s, range := range, ptr := p, post := w.post,
    plain := cls == .w && (match w with | .store _ pair => !pair | _ => true), detail := w.detail }

theorem globalAccess_load {s : State} {p : Word} {n pa : Nat} {range : Word} {post : Post} : 
    globalAccess s p pa n false range .s (.load post) =
     (let lc := l1Core (curLaunch s).fused (curCore s) pa
      let x := l1At s lc (pa / 64)
      if x.kind == 2 then do
      need (!hasNoticed s (curCore s) range) { cause := .lapsed, info0 := p, detail := 1 }
      .ok (ownedAccess s lc pa n (.load post))
    else if x.kind == 1 && decide (rPts s ≤ x.e) then do
      need (!hasNoticed s (curCore s) range) { cause := .lapsed, info0 := p, detail := 1 }
      .ok (leasedLoad s lc pa n (.load post))
    else .ok (submit s (homeward s p pa n range .s (.load post) (if x.kind == 1 then .renew x.wts else .read)))) := rfl

theorem globalAccess_store {s : State} {p : Word} {n pa v : Nat} {pair : Bool} {range : Word} : 
    globalAccess s p pa n false range .w (.store v pair) =
     (let lc := l1Core (curLaunch s).fused (curCore s) pa
      if (l1At s lc (pa / 64)).kind == 2 then do
      need (!hasNoticed s (curCore s) range) { cause := .lapsed, info0 := p, detail := 2 }
      .ok (ownedAccess s lc pa n (.store v pair))
    else .ok (submit s (homeward s p pa n range .w (.store v pair) (.write v)))) := rfl

theorem globalAccess_amo {s : State} {p : Word} {n pa : Nat} {range : Word} {op : AmoOp} {un : Bool} {o cmp : Nat} {d : GReg} {w : Wid} :
    globalAccess s p pa n false range .w (.amo op un o cmp d w) = .ok (submit s (homeward s p pa n range .w (.amo op un o cmp d w) (.amo op o cmp un))) := rfl

section
variable {s : State} {g : Guard} {c i : Nat} {t : Strand} (hi : StrandIssues g s c i t) {p : Word} {n pa : Nat} {range : Word}
include hi

theorem leasedLoad_strand (k : Nat) (post : Post) : let x := l1At s k (pa / 64)
    leasedLoad s k pa n (.load post) = putStrand s c i (t.afterLease (postRegs (sectorPart x.data pa n) post) (max t.ctx.pts x.wts)) := by
  intro x
  simp only [leasedLoad, hi.rPts_eq, complete_strand hi.cur hi.bound]
  by_cases hts : max t.ctx.pts x.wts = t.ctx.pts
  · rw [if_pos (by simpa using hts), leaseHit_strand (s := putStrand s c i _) hi.cur (strandAt_putStrand ..), putStrand_putStrand]
    rw [Strand.afterLease, if_pos hts]
    simp [Strand.completed, Strand.withPts, Want.post, x, hts]
  · rw [if_neg (by simpa using hts), Strand.afterLease, if_neg hts]
    rfl

theorem copyCore_eq : l1Core (curLaunch s).fused c pa = copyCore s c t pa := by rw [hi.curLaunch_eq, copyCore]

/-- A lease that has not ended serves the load. -/
theorem globalAccess_leased {post : Post} (hk : (l1At s (copyCore s c t pa) (pa / 64)).kind = 1)
    (he : t.ctx.pts ≤ (l1At s (copyCore s c t pa) (pa / 64)).e) (hn : hasNoticed s c range = false) :
    globalAccess s p pa n false range .s (.load post) = .ok (leasedLoad s (copyCore s c t pa) pa n (.load post)) := by
  rw [globalAccess_load, hi.curCore_eq, copyCore_eq hi, hi.rPts_eq, hn]
  dsimp only
  rw [if_neg (by simp [hk]), if_pos (by simp [hk, he])]
  rfl

/-- A store changes the copy of a sector owned in the L1. -/
theorem globalAccess_owned {v : Nat} {pair : Bool} (hk : (l1At s (copyCore s c t pa) (pa / 64)).kind = 2) (hn : hasNoticed s c range = false) :
    globalAccess s p pa n false range .w (.store v pair) = .ok (ownedAccess s (copyCore s c t pa) pa n (.store v pair)) := by
  rw [globalAccess_store, hi.curCore_eq, copyCore_eq hi, hn]
  dsimp only
  rw [if_pos (by simp [hk])]
  rfl

/-- A load of a sector that the L1 does not hold asks the home. -/
theorem globalAccess_absent {post : Post} (hk : (l1At s (copyCore s c t pa) (pa / 64)).kind = 0) :
    globalAccess s p pa n false range .s (.load post) = .ok (submit s (homeward s p pa n range .s (.load post) .read)) := by
  rw [globalAccess_load, hi.curCore_eq, copyCore_eq hi]
  dsimp only
  rw [if_neg (by simp [hk]), if_neg (by simp [hk]), if_neg (by simp [hk])]

theorem ownedAccess_store {v : Nat} {pair : Bool} (k : Nat) : let x := l1At s k (pa / 64)
    let ts := max t.ctx.pts (x.e + 1)
    ownedAccess s k pa n (.store v pair) = putStrand (putL1 s k (pa / 64) { x with data := sectorWith x.data pa n v, wts := ts, e := ts, dirty := true })
      c i (t.completed [] ts) := by
  simp only [ownedAccess, hi.rPts_eq]
  exact complete_strand (s := putL1 s k (pa / 64) _) hi.cur hi.bound ..

/-! ### Requests to the home (R32, R47, R55, R64) -/

/-- A request of the strand as it goes out. -/
def outgoing (s : State) (t : Strand) (r : MemReq) : MemReq :=
  { r with seq := s.coh.sent, tag := curTag s, ctxh := t.ctxh, ll := (launchAt s t.record.launch.toNat).ll }

/-- The state in which the strand has sent a request. -/
def awaiting (s : State) (c i : Nat) (t : Strand) : State := putStrand { s with coh.sent := s.coh.sent + 1 } c i t.awaits

theorem submit_strand (r : MemReq) : submit s r = if nearHome s c r.pa r.nc then deliver (takeReq (awaiting s c i t) (outgoing s t r)) (curTag s)
    else { awaiting s c i t with coh.net := s.coh.net ++ [outgoing s t r] } := by
  simp only [submit, hi.curCore_eq, hi.curCtxh_eq, hi.curLaunch_eq, suspend_strand (s := { s with coh.sent := s.coh.sent + 1 }) hi.cur hi.bound]
  rfl

theorem submit_far (hf : s.far = true) (r : MemReq) : submit s r = { awaiting s c i t with coh.net := s.coh.net ++ [outgoing s t r] } := by
  rw [submit_strand hi, if_neg (by simp [nearHome, hf])]

/-- The request's strand is found by its tag. -/
theorem tagged_awaiting {u : State} (hu : u.core = (awaiting s c i t).core) : tagged u (curTag s) = some t.awaits := by
  rw [tagged_of_core hu, hi.curTag_eq]
  exact tagged_current (s := awaiting s c i t) hi.slot (strandAt_putStrand ..)

end

/-- A home's reply, when none is before it, takes effect on its strand at once. -/
theorem deliver_strandReply {s : State} {r : MemReq} {t : Strand} (hr : s.coh.replies = []) (ht : tagged s r.tag = some t) (act : ReplyAct) :
    deliver (strandReply s r act) r.tag = takeReply s r.tag.core r.tag.slot t act := by
  have ht' : tagged (strandReply s r act) r.tag = some t := ht
  have hlast : (strandReply s r act).coh.replies = [{ tag := r.tag, act := act, home := some (homeOf s r.pa) }] := by
    rw [strandReply, homeReply, hr]
    rfl
  have hback : ({ strandReply s r act with coh.replies := [] } : State) = s := by
    rw [← hr]
    rfl
  simp only [deliver, ht', hlast]
  simp [replyBehind, hback]

/-- An aligned piece of a sector in memory, as its home reads it. -/
theorem sectorPart_homeData {s : State} {pa n : Nat} (hpa : pa < 2 ^ 120) (hn : pa % 64 + n ≤ 64) :
    sectorPart (homeData s (pa / 64)) pa n = memRead s.mem pa n := by
  obtain ⟨k, hk⟩ : ∃ k, 64 = pa % 64 + (n + k) := ⟨64 - (pa % 64 + n), by omega⟩
  have hmem : homeData s (pa / 64) = memRead s.mem (pa / 64 * 64) (pa % 64 + (n + k)) := by
    rw [← hk]
    exact if_neg (by omega)
  rw [hmem, sectorPart, memRead_div, memRead_mod, Nat.div_add_mod']

/-- A naturally aligned access of at most 8 bytes lies in one sector. -/
theorem aligned_in_sector {pa : Nat} {w : Wid} (h : pa % widBytes w = 0) : pa % 64 + widBytes w ≤ 64 := by
  cases w <;> simp only [widBytes] at h ⊢ <;> omega

/-- A request of a strand that its home takes in H: the notice of its range has not come, no word has failed, and there is room. -/
theorem takeReq_h {s : State} {r : MemReq} (hh : r.hub = none) (hnc : r.nc = false) (hf : s.coh.failed = []) (hl : s.coh.dir.length < 16384)
    (hst : (dirAt s (r.pa / 64)).st = .h) (hn : hasNoticed s (homeOf s r.pa) r.range = false) : ∃ h, takeReq s r = serveH { s with page.hot := h } r := by
  rw [takeReq, hn, softWord_sound hf, hh, hnc]
  simp only [Bool.false_eq_true, if_false]
  obtain ⟨h, hc⟩ : ∃ h, (if (none : Option Nat).isSome || 2 ^ 120 ≤ r.pa then s else countHot s r.pa (dieOf r.tag.core)) = { s with page.hot := h } := by
    split
    · exact ⟨_, rfl⟩
    · exact countHot_eq ..
  exact ⟨h, by rw [hc, dispatchReq_h (s := { s with page.hot := h }) (l2Full_eq (s := { s with page.hot := h }) hl _) hst]⟩

section
variable {s : State} {g : Guard} {c i : Nat} {t : Strand} (hi : StrandIssues g s c i t)
include hi

/-- An atomic that its home serves at once. -/
theorem submit_amo_near {r : MemReq} {op : AmoOp} {o cmp : Nat} {un : Bool} {d : GReg} {w : Wid} (hk : r.kind = .amo op o cmp un) (hp : r.post = .amo d w)
    (hh : r.hub = none) (he : r.engine = none) (hnc : r.nc = false) (hpts : r.pts = t.ctx.pts) (hn : r.n = widBytes w) (ha : r.pa % r.n = 0)
    (hpa : r.pa < 2 ^ 52) (hst : (dirAt s (r.pa / 64)).st = .h) (hnot : hasNoticed s (homeOf s r.pa) r.range = false) (hroom : Roomy s)
    (hr : s.coh.replies = []) (hnear : nearHome s c r.pa r.nc = true) (hs : t.steps ≠ 2) :
    let x := filled s (r.pa / 64)
    let ts := max t.ctx.pts (x.rts + 1)
    let old := memRead s.mem r.pa r.n
    ∃ h, submit s r = putStrand (putDir { awaiting s c i t with page.hot := h, mem := memWrite s.mem r.pa r.n (amoValue op un r.n old o cmp) } (r.pa / 64)
      { x with wts := ts, rts := ts }) c i (t.awaits.answered [(d.val, BitVec.ofNat 64 old)] ts) := by
  intro x ts old
  rw [submit_strand hi, if_pos hnear]
  obtain ⟨h, ht⟩ := takeReq_h (s := awaiting s c i t) (r := outgoing s t r) hh hnc hi.sound (Nat.lt_trans hroom.l2 (by decide)) hst hnot
  refine ⟨h, ?_⟩
  have hvalue : sectorPart (homeData { awaiting s c i t with page.hot := h } (r.pa / 64)) r.pa r.n = old := by
    refine (sectorPart_homeData (show r.pa < 2 ^ 120 by omega) ?_).trans rfl
    rw [hn] at ha ⊢
    exact aligned_in_sector ha
  have hserve := serveH_amo (s := { awaiting s c i t with page.hot := h }) (r := outgoing s t r) hh he hk (by rw [outgoing, hp]; simp)
    (show r.pa < 2 ^ 120 by omega)
  rw [ht, hserve, show (curTag s) = (outgoing s t r).tag from rfl]
  dsimp only [outgoing]
  rw [hvalue, hpts]
  refine (deliver_strandReply (s := putDir { awaiting s c i t with page.hot := h, mem := memWrite s.mem r.pa r.n (amoValue op un r.n old o cmp) } _ _)
    (r := outgoing s t r) hr (tagged_awaiting hi rfl) _).trans ?_
  rw [hp, postRegs, loadRegs_eq, hn, extended_false (by rw [← hn]; exact memRead_lt ..), takeReply_regs (t := t.awaits) _ _ _ hs, outgoing, hi.curTag_eq]
  rfl

end

/-! ### What an instruction on global memory does -/

/-- An answer with registers leaves the predicates. -/
theorem answered_rP {s u : State} {g : Guard} {c i : Nat} {t y : Strand} (hi : StrandIssues g s c i t) (hu : u.cur = s.cur) (hp : y.ctx.p = t.ctx.p)
    (ws : List (Nat × Word)) (n : Nat) (q : PReg) : rP (putStrand u c i (y.answered ws n)) q = rP s q := by
  rw [rP, rP, curCtx_putStrand (hu.trans hi.cur), hi.curCtx_eq, ← hp]
  rfl

section
variable {s s' : State} {g : Guard} {c i : Nat} {t : Strand} (h : Translated g s s' c i t) {p : Word} {pa : Nat} {range : Word}
  {d : GReg} {w : Wid} {ins : Instr} {body : State → Except Exc State} (he : exec ins s = run .strand g none body s) (hlt : p.toNat < 2 ^ 56)
  (ha : p.toNat % widBytes w = 0)
include h he hlt ha

/-- A load that a leased copy serves. -/
theorem load_leased {sx : Bool} (hb : body s = access s p (widBytes w) .s false (.load (.load d w sx)))
    (hx : translate s c t.ctxh (launchAt s t.record.launch.toNat).tl p.toNat true false none p 1 = (s', .mem pa false range))
    (hk : (l1At s' (copyCore s' c t pa) (pa / 64)).kind = 1) (hend : t.ctx.pts ≤ (l1At s' (copyCore s' c t pa) (pa / 64)).e)
    (hn : hasNoticed s' c range = false) :
    let x := l1At s' (copyCore s' c t pa) (pa / 64)
    let ts := max t.ctx.pts x.wts
    ∃ u, exec ins s = .next u ∧ rG u d = extended sx (widBytes w) (sectorPart x.data pa (widBytes w)) ∧ (∀ r, r ≠ d → rG u r = rG s' r)
      ∧ rPts u = (if ts = t.ctx.pts ∧ t.lhit = 31 then ts + 1 else ts) ∧ (curCtx u).pc = nextPc t.ctx.pc ∧ u.mem = s'.mem := by
  intro x ts
  refine ⟨_, exec_global h hlt ha he hb hx ((globalAccess_leased h.after hk hend hn).trans (congrArg _ (leasedLoad_strand h.after ..))) rfl, ?_⟩
  rw [postRegs, loadRegs_eq]
  have hw {y : Strand} : curCtx (putStrand s' c i y) = y.ctx := curCtx_putStrand h.after.cur y
  simp only [rG, rPts, hw, afterLease_ctx, Strand.completed, setRegs_one, h.after.curCtx_eq]
  exact ⟨if_pos trivial, fun r hr => if_neg hr, rfl, trivial, rfl⟩

/-- A load of a sector that the L1 does not hold, on its way to the home. -/
theorem load_absent {sx : Bool} (hb : body s = access s p (widBytes w) .s false (.load (.load d w sx)))
    (hx : translate s c t.ctxh (launchAt s t.record.launch.toNat).tl p.toNat true false none p 1 = (s', .mem pa false range))
    (hk : (l1At s' (copyCore s' c t pa) (pa / 64)).kind = 0) (hf : s'.far = true) :
    exec ins s = .next { awaiting s' c i t with
      coh.net := s'.coh.net ++ [outgoing s' t (homeward s' p pa (widBytes w) range .s (.load (.load d w sx)) .read)] } := by
  exact exec_global h hlt ha he hb hx ((globalAccess_absent h.after hk).trans (congrArg _ (submit_far h.after hf _))) rfl

/-- A store into a copy that the L1 owns. -/
theorem store_owned {v : Nat} (hb : body s = access s p (widBytes w) .w false (.store v false))
    (hx : translate s c t.ctxh (launchAt s t.record.launch.toNat).tl p.toNat false true none p 2 = (s', .mem pa false range))
    (hk : (l1At s' (copyCore s' c t pa) (pa / 64)).kind = 2) (hn : hasNoticed s' c range = false) :
    let x := l1At s' (copyCore s' c t pa) (pa / 64)
    let ts := max t.ctx.pts (x.e + 1)
    ∃ u, exec ins s = .next u
      ∧ l1At u (copyCore s' c t pa) (pa / 64) = { x with data := sectorWith x.data pa (widBytes w) v, wts := ts, e := ts, dirty := true }
      ∧ rPts u = ts ∧ (∀ r, rG u r = rG s' r) ∧ (curCtx u).pc = nextPc t.ctx.pc ∧ u.mem = s'.mem := by
  intro x ts
  refine ⟨_, exec_global h hlt ha he hb hx ((globalAccess_owned h.after hk hn).trans (congrArg _ (ownedAccess_store h.after _))) rfl, ?_⟩
  obtain ⟨hg, -, hts, hpc⟩ := completed_seen h.after (u := putL1 s' (copyCore s' c t pa) (pa / 64)
    { x with data := sectorWith x.data pa (widBytes w) v, wts := ts, e := ts, dirty := true }) rfl [] ts
  exact ⟨l1At_putL1 .., hts, fun r => (hg r).trans (h.after.rG_eq r).symm, hpc, rfl⟩

section
variable {op : AmoOp} {un : Bool} {o cmp : Nat} (hb : body s = access s p (widBytes w) .w false (.amo op un o cmp d w))
  (hx : translate s c t.ctxh (launchAt s t.record.launch.toNat).tl p.toNat true true none p 4 = (s', .mem pa false range))
include hb hx

/-- An atomic on its way to the home. -/
theorem amo_far (hf : s'.far = true) : exec ins s = .next { awaiting s' c i t with
    coh.net := s'.coh.net ++ [outgoing s' t (homeward s' p pa (widBytes w) range .w (.amo op un o cmp d w) (.amo op o cmp un))] } := by
  exact exec_global h hlt ha he hb hx (globalAccess_amo.trans (congrArg _ (submit_far h.after hf _))) rfl

/-- An atomic that the home serves at once. -/
theorem amo_near (hpa : pa % widBytes w = 0) (hpa52 : pa < 2 ^ 52) (hnear : nearHome s' c pa false = true) (hs : t.steps ≠ 2) (hroom : Roomy s')
    (hr : s'.coh.replies = []) (hst : (dirAt s' (pa / 64)).st = .h) (hn : hasNoticed s' (homeOf s' pa) range = false) :
    let x := filled s' (pa / 64)
    let ts := max t.ctx.pts (x.rts + 1)
    let old := memRead s'.mem pa (widBytes w)
    ∃ u, exec ins s = .next u ∧ rG u d = BitVec.ofNat 64 old ∧ (∀ r, r ≠ d → rG u r = rG s' r) ∧ (∀ q, rP u q = rP s' q)
      ∧ rPts u = ts ∧ (curCtx u).pc = nextPc t.ctx.pc ∧ (dirAt u (pa / 64)).wts = ts ∧ (dirAt u (pa / 64)).rts = ts
      ∧ u.mem = memWrite s'.mem pa (widBytes w) (amoValue op un (widBytes w) old o cmp) := by
  intro x ts old
  obtain ⟨hot, hu⟩ := submit_amo_near h.after (r := homeward s' p pa (widBytes w) range .w (.amo op un o cmp d w) (.amo op o cmp un))
    rfl rfl rfl rfl rfl h.after.rPts_eq rfl hpa hpa52 hst hn hroom hr hnear hs
  let submitted : State := putDir { awaiting s' c i t with
    page.hot := hot, mem := memWrite s'.mem pa (widBytes w) (amoValue op un (widBytes w) old o cmp) } (pa / 64) { x with wts := ts, rts := ts }
  refine ⟨_, exec_global h hlt ha he hb hx (globalAccess_amo.trans (congrArg _ hu)) rfl, ?_⟩
  obtain ⟨hd, hg, hpc, hts⟩ := answered_back h.after (u := submitted) (y := t.awaits) rfl rfl d (BitVec.ofNat 64 old) ts
  refine ⟨hd, hg, answered_rP h.after (u := submitted) (y := t.awaits) rfl rfl _ _, hts, hpc, congrArg Dir.wts (dirAt_putDir ..), congrArg Dir.rts (dirAt_putDir ..), rfl⟩

end

end

/-- Settles O17. A lease and an owned copy serve in the L1; what the L1 does not hold, and every atomic, asks the home. -/
theorem globalAccessesUseTheL1OrAskTheHome : Obligations.GlobalAccessesUseTheL1OrAskTheHome := by
  unfold Obligations.GlobalAccessesUseTheL1OrAskTheHome
  refine ⟨fun s s' g c i t d y m w cls sx pa range hi hi' htime hhub hsregs hfar => ?_,
    fun s s' g c i t op d base disp y w un pa range hi hi' htime hhub hsregs => ?_⟩
  · intro p n tl l k x ts ext hlt ha
    have h : Translated g s s' c i t := ⟨hi, hi', htime, hhub, hsregs⟩
    have hb {w' : Want} : (do let p ← globalPtr s m; access s p n cls false w') = access s p n cls false w' := by rw [globalPtr_ok hlt, ok_bind]
    refine ⟨fun hx hc => ⟨fun hk hend hn => ?_, fun hk => ?_⟩, fun hx hc hk hn => ?_⟩
    · subst hc
      obtain ⟨u, hu, hd, hr, hts, hpc, hm⟩ := load_leased h (exec_ldg s g d m w sx (by simp)) hlt ha hb hx hk hend hn
      exact ⟨u, hu, hd, hr, hts, hpc, fun a => by rw [hm]⟩
    · subst hc
      rw [load_absent h (exec_ldg s g d m w sx (by simp)) hlt ha hb hx hk hfar]
      simp only [outgoing, homeward, hi'.rPts_eq]
      rfl
    · subst hc
      obtain ⟨u, hu, hx, hts, hr, hpc, hm⟩ := store_owned h (exec_stg s g y m w (by simp)) hlt ha hb hx hk hn
      exact ⟨u, hu, hx, hts, hr, hpc, fun a => by rw [hm]⟩
  · intro p n o cmp l i' hlt ha hpa hpa52 hw hx
    have h : Translated g s s' c i t := ⟨hi, hi', htime, hhub, hsregs⟩
    refine ⟨fun hf => ?_, fun hf hs hroom hr hq hup hst hn => ?_⟩
    · rw [amo_far h (ins := i') rfl hlt ha rfl hx hf]
      simp only [outgoing, homeward, hi'.rPts_eq]
      rfl
    · intro x ts old sg new
      have hpos : 0 < 256 ^ n := by positivity
      have hnew : amoValue op un n old o cmp = new := by
        rw [amoValue_eq (by rcases hw with rfl | rfl <;> decide) (memRead_lt ..) (Nat.mod_lt _ hpos) (Nat.mod_lt _ hpos)]
        cases op <;> rfl
      obtain ⟨u, hu, hd, hg, hP, hts, hpc, hwts, hrts, hm⟩ := amo_near h (ins := i') rfl hlt ha rfl hx hpa hpa52
        (by simp [nearHome, hf, hq, hup, hst]) hs hroom hr hst hn
      refine ⟨u, hu, hd, hg, hP, hts, hpc, hwts, hrts, fun a => ?_⟩
      rw [hm, memByte_memWrite, ← hnew]
      rfl

end Sys2Proof.Machine
end

section
/-! PROOFS. PREF, FENCE, CLFL and MIGR (O18). -/

namespace Sys2Proof.Machine
open Sys2Proof

/-! ### A strand that only goes on -/

section
variable {s : State} {g : Guard} {c i : Nat} {t : Strand} (hi : StrandIssues g s c i t)
include hi

theorem advance_strand : advance s = putStrand s c i t.stepped := mapCtx_strand s _ c i t hi.cur hi.bound

/-- What a strand that has gone on sees, whatever else its instruction has done. -/
theorem stepped_seen {u : State} (hu : u.cur = s.cur) : let w := putStrand u c i t.stepped
    (∀ r, rG w r = rG s r) ∧ (∀ q, rP w q = rP s q) ∧ rPts w = t.ctx.pts ∧ (curCtx w).pc = nextPc t.ctx.pc := by
  have hw : curCtx (putStrand u c i t.stepped) = t.stepped.ctx := curCtx_putStrand (hu.trans hi.cur) _
  simp only [rG, rP, rPts, hw, hi.curCtx_eq]
  exact ⟨fun _ => rfl, fun _ => rfl, rfl, rfl⟩

/-- An instruction whose effect is to go on. -/
theorem jumps_of_run {ins : Instr} {body : State → Except Exc State} (he : exec ins s = run .strand g none body s) (hb : body s = .ok (advance s)) :
    Jumps ins s [] (nextPc t.ctx.pc) := by
  obtain ⟨hg, hp, hts, hpc⟩ := stepped_seen hi (u := s) rfl
  rw [← advance_strand hi] at hg hp hts hpc
  exact ⟨advance s, he.trans ((run_ok hi.issues hb (.inr hi.sound)).trans (congrArg _ (confine_mapCtx ..))), hpc,
    ⟨fun r _ => hg r, fun q _ => hp q, hts.trans hi.rPts_eq.symm, fun a => by rw [advance_mem]⟩, onlyRegisters_mapCtx ..⟩

end

/-! ### PREF (R155) -/

/-- The states differ at most in the directory, the L1s and the pages' records. -/
def OnlyCached (s u : State) : Prop := ∃ dir l1 page, u = { s with coh.dir := dir, coh.l1 := l1, page := page }

theorem OnlyCached.refl (s : State) : OnlyCached s s := ⟨_, _, _, rfl⟩

theorem OnlyCached.trans {s u v : State} (h : OnlyCached s u) (h' : OnlyCached u v) : OnlyCached s v := by
  obtain ⟨_, _, _, rfl⟩ := h
  obtain ⟨_, _, _, rfl⟩ := h'
  exact ⟨_, _, _, rfl⟩

theorem touchPage_eq (s : State) (key pte : Nat) : ∃ p, touchPage s key pte = { s with page := p } := by
  unfold touchPage
  split
  · extract_lets die u
    split
    · exact ⟨_, rfl⟩
    · exact ⟨_, rfl⟩
  · exact ⟨_, rfl⟩

/-- The sectors of a line have the line's home (R17). -/
theorem homeOf_line (s : State) {pa j : Nat} (hpa : pa < 2 ^ 52) (hj : j < 4) : homeOf s ((pa / 256 * 4 + j) * 64) = homeOf s pa := by
  have hline : (pa / 256 * 4 + j) * 64 / 256 = pa / 256 := by omega
  have hdie : homeDie ((pa / 256 * 4 + j) * 64) = homeDie pa := by
    unfold homeDie
    split <;> split <;> omega
  have hslice : lineSlice ((pa / 256 * 4 + j) * 64) = lineSlice pa := by
    unfold lineSlice
    rw [hline, show (pa / 256 * 4 + j) * 64 / 4096 = pa / 4096 by omega]
  rw [homeOf, homeOf, if_neg (by omega), if_neg (by omega), hdie, hslice]

/-- The lease that PREF brings of a sector. -/
def leaseOf (s : State) (r : MemReq) (sec : Nat) : L1 :=
  { kind := 1, data := homeData s sec, wts := (filled s sec).wts, e := max r.pts (filled s sec).wts + r.ll, range := r.range }

theorem l1At_putL1_ne {s : State} {c sec sec' : Nat} (h : sec' ≠ sec) (x : L1) : l1At (putL1 s c sec x) c sec' = l1At s c sec' :=
  tget_tset_ne _ _ _ _ _ (by rw [l1Key, l1Key]; omega)

theorem length_putL1_le (s : State) (c sec : Nat) (x : L1) : (putL1 s c sec x).coh.l1.length ≤ s.coh.l1.length + 1 := length_tset_le ..

/-- What the lease of one sector to an L1 leaves. -/
structure Leased (s v : State) (c sec : Nat) (x : L1) : Prop where
  cached : OnlyCached s v
  copy : l1At v c sec = x
  copies : ∀ y, y ≠ sec → l1At v c y = l1At s c y
  entries : ∀ y, y ≠ sec → dirAt v y = dirAt s y
  l1 : v.coh.l1.length ≤ s.coh.l1.length + 1
  l2 : v.coh.dir.length ≤ s.coh.dir.length + 1

/-- A sector that its home can give at once is leased. -/
theorem prefNow_read {s : State} {r : MemReq} {c : Nat} (hk : r.kind = .read) (hl1 : s.coh.l1.length < 512) (hl2 : s.coh.dir.length < 16384) :
    Leased s (prefNow r c s) c (r.pa / 64) (leaseOf s r (r.pa / 64)) := by
  obtain ⟨h, hc⟩ : ∃ h, (if 2 ^ 120 ≤ r.pa then s else countHot s r.pa (dieOf (curCore s))) = { s with page.hot := h } := by
    split
    · exact ⟨_, rfl⟩
    · exact countHot_eq ..
  have hdata : homeData { s with page.hot := h } (r.pa / 64) = homeData s (r.pa / 64) :=
    homeData_congr (s := s) (t := { s with page.hot := h }) rfl rfl rfl _
  obtain ⟨d, hnow⟩ : ∃ d, prefNow r c s = putL1 (putDir { s with page.hot := h } (r.pa / 64) d) c (r.pa / 64) (leaseOf s r (r.pa / 64)) := by
    unfold prefNow
    rw [hc, hk]
    dsimp only
    rw [l2Room_eq (l2Full_eq (s := { s with page.hot := h }) hl2 _), fillL1_putDir (s := { s with page.hot := h }) hl1]
    rw [hdata]
    exact ⟨_, rfl⟩
  rw [hnow]
  exact ⟨⟨_, _, _, rfl⟩, l1At_putL1 .., fun y hy => l1At_putL1_ne hy _, fun y hy => dirAt_putDir_ne hy _,
    length_putL1_le (putDir { s with page.hot := h } _ d) .., length_putDir_le { s with page.hot := h } ..⟩

/-- A sector that the L1 does not hold and its home can give at once is fetched, and the next one's turn comes. -/
theorem prefSectors_cons {s : State} {r : MemReq} {c sec : Nat} (hk : r.kind = .read) (hnc : r.nc = false)
    (hnear : nearHome s (curCore s) (sec * 64) false = true) (hkind : (l1At s c sec).kind = 0) (secs : List Nat) :
    prefSectors r c .s s (sec :: secs) = prefSectors r c .s (prefNow { r with pa := sec * 64 } c s) secs := by
  have hheld : prefHeld s c sec .s = false := by simp [prefHeld, hkind]
  have hgive : (nearHome s (curCore s) (sec * 64) r.nc && !(r.kind == .own && ownersFull s (homeOf s (sec * 64)))) = true := by simp [hk, hnc, hnear]
  rw [prefSectors, hheld]
  exact if_pos hgive

/-- Sectors in H that the L1 does not hold are leased to it one after another. -/
theorem prefSectors_leases {r : MemReq} {c : Nat} (hk : r.kind = .read) (hnc : r.nc = false) : ∀ (secs : List Nat) (s : State), secs.Nodup →
    s.coh.l1.length + secs.length ≤ 512 → s.coh.dir.length + secs.length ≤ 16384 →
    (∀ x ∈ secs, nearHome s (curCore s) (x * 64) false = true ∧ (l1At s c x).kind = 0) →
    ∃ u, prefSectors r c .s s secs = (u, true) ∧ OnlyCached s u ∧ (∀ x ∈ secs, (l1At u c x).kind = 1 ∧ (l1At u c x).e = max r.pts (filled s x).wts + r.ll)
      ∧ ∀ x, x ∉ secs → l1At u c x = l1At s c x
  | [], s, _, _, _, _ => ⟨s, rfl, .refl s, by simp, fun _ _ => rfl⟩
  | sec :: secs, s, hd, hl1, hl2, hsec => by
    obtain ⟨hhead, htail⟩ := List.nodup_cons.mp hd
    obtain ⟨hnear, hkind⟩ := hsec sec (by simp)
    simp only [List.length_cons] at hl1 hl2
    have hv := prefNow_read (s := s) (r := { r with pa := sec * 64 }) (c := c) hk (by omega) (by omega)
    rw [show sec * 64 / 64 = sec by omega] at hv
    rw [prefSectors_cons hk hnc hnear hkind]
    generalize prefNow { r with pa := sec * 64 } c s = v at hv
    have hne {x : Nat} (hx : x ∈ secs) : x ≠ sec := fun h => hhead (h ▸ hx)
    obtain ⟨u, hu, hcached, hgot, hkept⟩ := prefSectors_leases hk hnc secs v htail (by have := hv.l1; omega) (by have := hv.l2; omega) fun x hx => by
      obtain ⟨hnear, hkind⟩ := hsec x (by simp [hx])
      refine ⟨?_, by rw [hv.copies x (hne hx)]; exact hkind⟩
      rw [← hnear, nearHome, nearHome, Nat.mul_div_cancel x (by decide), hv.entries x (hne hx)]
      obtain ⟨_, _, _, rfl⟩ := hv.cached
      rfl
    refine ⟨u, hu, hv.cached.trans hcached, fun x hx => ?_, fun x hx => ?_⟩
    · rcases List.mem_cons.mp hx with rfl | hx
      · rw [hkept _ hhead, hv.copy]
        exact ⟨rfl, rfl⟩
      · have hf : filled v x = filled s x := by
          rw [filled, filled, hv.entries x (hne hx)]
          obtain ⟨_, _, _, rfl⟩ := hv.cached
          rfl
        rw [← hf]
        exact hgot x hx
    · rw [hkept x (fun h => hx (by simp [h])), hv.copies x fun h => hx (by simp [h])]

theorem translate_cached {s : State} {k : Nat} {ctxh : Word} {tl va : Nat} {e : Tlb} (hsys : inSystem va = false) (h : tlbFind s k ctxh tl va = some e)
    (rd wr : Bool) (u : Option Nat) (p : Word) (detail : Nat) : ∃ page, translate s k ctxh tl va rd wr u p detail
      = ({ s with page := page }, present s e.pte e.large va e.range rd wr { cause := .protection, info0 := p, detail := detail }) := by
  obtain ⟨page, hp⟩ := touchPage_eq s (hKey e.range) (pteKey ctxh (if e.large then va / 2 ^ 21 * 32 else va / 65536))
  refine ⟨page, ?_⟩
  rw [translate, hsys, h, ← hp]
  rfl

/-! ### The effects of PREF and CLFL, by the space of their pointer (R155, R156) -/

/-- The effect of PREF. -/
def prefetches (m : MemOp) (cls : ReqClass) (s : State) : Except Exc State := do
  let p := memPtr s m
  checkPtr3 s p 1
  if pScratch p then .ok (advance s)
  else if pSpace p == 4 then prefAt s p ((curPrivb s).toNat + p.toNat % 2 ^ 32) cls
  else prefAt s p (p.toNat % 2 ^ 56) cls

/-- The effect of CLFL. -/
def flushes (m : MemOp) (s : State) : Except Exc State := do
  let p := memPtr s m
  checkPtr3 s p 0
  if pScratch p then .ok (advance s)
  else if pSpace p == 4 then .ok (clflAt s ((curPrivb s).toNat + p.toNat % 2 ^ 32))
  else .ok (clflAt s (p.toNat % 2 ^ 56))

theorem exec_pref (g : Guard) (m : MemOp) (cls : ReqClass) (s : State) : exec (.pref g m cls) s = run .strand g none (prefetches m cls) s := rfl

theorem exec_clfl (g : Guard) (m : MemOp) (s : State) : exec (.clfl g m) s = run .strand g none (flushes m) s := rfl

section
variable {s : State} {m : MemOp} (cls : ReqClass)

theorem prefetches_scratch (hn : Named s (memPtr s m)) (hs : pScratch (memPtr s m) = true) : prefetches m cls s = .ok (advance s) := by
  unfold prefetches
  extract_lets p
  rw [hn.check3, ok_bind, hs]
  rfl

theorem prefetches_global (hlt : (memPtr s m).toNat < 2 ^ 56) : prefetches m cls s = prefAt s (memPtr s m) (memPtr s m).toNat cls := by
  have h0 := pSpace_global hlt
  have hs : pScratch (memPtr s m) = false := by simp [pScratch, h0]
  unfold prefetches
  extract_lets p
  rw [(named_global hlt).check3, ok_bind, hs, h0, Nat.mod_eq_of_lt hlt]
  rfl

theorem flushes_scratch (hn : Named s (memPtr s m)) (hs : pScratch (memPtr s m) = true) : flushes m s = .ok (advance s) := by
  unfold flushes
  extract_lets p
  rw [hn.check3, ok_bind, hs]
  rfl

theorem flushes_global (hlt : (memPtr s m).toNat < 2 ^ 56) : flushes m s = .ok (clflAt s (memPtr s m).toNat) := by
  have h0 := pSpace_global hlt
  have hs : pScratch (memPtr s m) = false := by simp [pScratch, h0]
  unfold flushes
  extract_lets p
  rw [(named_global hlt).check3, ok_bind, hs, h0, Nat.mod_eq_of_lt hlt]
  rfl

end

/-- What PREF asks of the homes of a line's sectors. -/
def prefetch (s : State) (p : Word) (pa : Nat) (range : Word) : MemReq :=
  { tag := {}, pa := pa, n := 64, kind := .read, pts := rPts s, ll := (curLaunch s).ll, range := range, ptr := p, post := .again, nc := false, detail := 1 }

/-- PREF in memory, of a page whose translation is cached. -/
theorem prefAt_cached {s s' : State} {p : Word} {va pa : Nat} {range : Word} {e : Tlb}
    (htlb : tlbFind s (curCore s) (curCtxh s) (curLaunch s).tl va = some e)
    (hx : translate s (curCore s) (curCtxh s) (curLaunch s).tl va true false none p 1 = (s', .mem pa false range))
    (hn : hasNoticed s' (curCore s) range = false) (hn' : hasNoticed s' (homeOf s' pa) range = false) {u : State}
    (hu : prefSectors (prefetch s' p pa range) (l1Core (curLaunch s').fused (curCore s) pa) .s s' (lineSectors pa) = (u, true)) :
    prefAt s p va .s = .ok (advance u) := by
  unfold prefAt
  extract_lets core no tl walk
  have hw : walk = (s', .mem pa false range) := by
    simp only [walk, core, tl, htlb]
    exact hx
  rw [hw]
  dsimp only
  simp only [core, hn, hn', Bool.false_eq_true, if_false, ite_self]
  exact congrArg Except.ok (congrArg (fun x : State × Bool => if x.2 then advance x.1 else x.1) hu)

theorem mem_lineSectors {pa x : Nat} : x ∈ lineSectors pa ↔ ∃ j, j < 4 ∧ x = pa / 256 * 4 + j := by
  simp [lineSectors, eq_comm]

theorem nodup_lineSectors (pa : Nat) : (lineSectors pa).Nodup := List.nodup_range.map fun _ _ h => Nat.add_left_cancel h

section
variable {s : State} {g : Guard} {c i : Nat} {t : Strand} (hi : StrandIssues g s c i t)
include hi

/-- PREF of a line whose sectors are in H: each is leased, and the strand goes on. -/
theorem pref_leases {m : MemOp} {e : Tlb} {pa : Nat} (hlt : (memPtr s m).toNat < 2 ^ 56) (hsys : inSystem (memPtr s m).toNat = false)
    (hfused : (launchAt s t.record.launch.toNat).fused = false) (hfar : s.far = false) (hroom : Roomy s) (hq : quiet s c (homeOf s pa) = true)
    (hup : homeUp s pa = true) (htlb : tlbFind s c t.ctxh (launchAt s t.record.launch.toNat).tl (memPtr s m).toNat = some e)
    (hpres : present s e.pte e.large (memPtr s m).toNat e.range true false { cause := .protection, info0 := memPtr s m, detail := 1 } = .mem pa false e.range)
    (hpa : pa < 2 ^ 52) (hn : hasNoticed s c e.range = false) (hn' : hasNoticed s (homeOf s pa) e.range = false)
    (hsec : ∀ j, j < 4 → (filled s (pa / 256 * 4 + j)).st = .h ∧ (l1At s c (pa / 256 * 4 + j)).kind = 0) :
    ∃ u, exec (.pref g m .s) s = .next (putStrand u c i t.stepped) ∧ OnlyCached s u ∧ ∀ j, j < 4 → (l1At u c (pa / 256 * 4 + j)).kind = 1
      ∧ (l1At u c (pa / 256 * 4 + j)).e = max t.ctx.pts (filled s (pa / 256 * 4 + j)).wts + (launchAt s t.record.launch.toNat).ll := by
  obtain ⟨page, hx⟩ := translate_cached hsys htlb true false none (memPtr s m) 1
  rw [hpres] at hx
  let s' : State := { s with page := page }
  have hi' : StrandIssues g s' c i t := ⟨hi.cur, hi.slot, hi.bound, hi.guard, hi.clean, hi.sound⟩
  have hnear {j : Nat} (hj : j < 4) : nearHome s' c ((pa / 256 * 4 + j) * 64) false = true := by
    have hst : (dirAt s (pa / 256 * 4 + j)).st = .h := by
      rw [← (hsec j hj).1, filled]
      split
      · rfl
      · rfl
    have hh : homeOf s' ((pa / 256 * 4 + j) * 64) = homeOf s pa := homeOf_line s' hpa hj
    have hq' : quiet s' c (homeOf s pa) = true := hq
    have hst' : (dirAt s' (pa / 256 * 4 + j)).st = .h := hst
    have hup' : slicePresent s' (homeOf s pa) = true := hup
    simp [nearHome, homeUp, hh, hq', hst', hup', show s'.far = false from hfar]
  obtain ⟨u, hu, hcached, hgot, -⟩ := prefSectors_leases (r := prefetch s' (memPtr s m) pa e.range) (c := c) rfl rfl (lineSectors pa) s' (nodup_lineSectors pa)
    (show s.coh.l1.length + _ ≤ 512 by have := hroom.l1; simp [lineSectors]; omega)
    (show s.coh.dir.length + _ ≤ 16384 by have := hroom.l2; simp [lineSectors]; omega) fun x hx => by
      obtain ⟨j, hj, rfl⟩ := mem_lineSectors.mp hx
      exact ⟨by rw [hi'.curCore_eq]; exact hnear hj, (hsec j hj).2⟩
  have hcached' : OnlyCached s u := .trans ⟨_, _, _, rfl⟩ hcached
  have hgo : advance u = putStrand u c i t.stepped := by
    obtain ⟨_, _, _, rfl⟩ := hcached'
    exact mapCtx_strand _ _ c i t hi.cur hi.bound
  refine ⟨u, ?_, hcached', fun j hj => ?_⟩
  · have hc : confine s (putStrand u c i t.stepped) = putStrand u c i t.stepped := by
      obtain ⟨_, _, _, rfl⟩ := hcached'
      rfl
    rw [← hc, ← hgo]
    refine (exec_pref g m .s s).trans (run_ok hi.issues ?_ (.inr hi.sound))
    rw [prefetches_global _ hlt]
    refine prefAt_cached (s' := s') (e := e) (pa := pa) (range := e.range) ?_ ?_ ?_ ?_ ?_
    · rw [hi.curCore_eq, hi.curCtxh_eq, hi.curLaunch_eq]
      exact htlb
    · rw [hi.curCore_eq, hi.curCtxh_eq, hi.curLaunch_eq]
      exact hx
    · rw [hi.curCore_eq]
      exact hn
    · exact hn'
    · rw [hi.curCore_eq, hi'.curLaunch_eq]
      simp only [l1Core, show (launchAt s' t.record.launch.toNat).fused = false from hfused, Bool.false_eq_true, if_false]
      exact hu
  · obtain ⟨hk, he⟩ := hgot _ (mem_lineSectors.mpr ⟨j, hj, rfl⟩)
    refine ⟨hk, he.trans ?_⟩
    simp only [prefetch, hi'.rPts_eq, hi'.curLaunch_eq]
    rfl

end

/-! ### CLFL (R156) -/

theorem dropL1_unowned {s : State} {c sec : Nat} (h : (l1At s c sec).kind ≠ 2) : dropL1 s c sec = putL1 s c sec {} := if_neg (by simpa using h)

/-- Sectors that are not owned leave the L1 without a word to their homes. -/
theorem dropL1s_unowned (c : Nat) : ∀ (secs : List Nat) (s : State), (∀ x ∈ secs, (l1At s c x).kind ≠ 2) →
    (∃ l, secs.foldl (fun s sec => dropL1 s c sec) s = { s with coh.l1 := l })
    ∧ (∀ x, x ∈ secs ∨ l1At s c x = {} → l1At (secs.foldl (fun s sec => dropL1 s c sec) s) c x = {})
  | [], s, _ => ⟨⟨_, rfl⟩, fun x hx => hx.elim (by simp) id⟩
  | sec :: secs, s, h => by
    have hput (x : Nat) : l1At (putL1 s c sec {}) c x = if x = sec then {} else l1At s c x := by
      split
      · next hx => rw [hx, l1At_putL1]
      · next hx => exact l1At_putL1_ne hx _
    obtain ⟨⟨l, hl⟩, hgone⟩ := dropL1s_unowned c secs (putL1 s c sec {}) fun x hx => by
      rw [hput]
      split
      · exact nofun
      · exact h x (by simp [hx])
    rw [List.foldl_cons, dropL1_unowned (h sec (by simp))]
    refine ⟨⟨l, hl⟩, fun x hx => hgone x ?_⟩
    rw [hput]
    by_cases hxs : x = sec
    · exact .inr (if_pos hxs)
    · rw [if_neg hxs]
      simpa [hxs] using hx

section
variable {s : State} {g : Guard} {c i : Nat} {t : Strand} (hi : StrandIssues g s c i t)
include hi

theorem l1Group_own (hfused : (launchAt s t.record.launch.toNat).fused = false) : l1Group s = [c] := by
  simp [l1Group, hi.curLaunch_eq, hfused, hi.curCore_eq]

/-- CLFL of a line with no owned sector: its sectors leave the L1, and the strand goes on. -/
theorem clfl_drops {m : MemOp} {e : Tlb} {key : Nat} {r : Range} (hlt : (memPtr s m).toNat < 2 ^ 56) (hsys : inSystem (memPtr s m).toNat = false)
    (hfused : (launchAt s t.record.launch.toNat).fused = false) (hr : rangeFor s t.ctxh (memPtr s m).toNat = some (key, r)) (hlp : r.lp = false)
    (htlb : tlbFind s c t.ctxh (launchAt s t.record.launch.toNat).tl (memPtr s m).toNat = some e) (hst : e.pte.st = 1) {pa : Nat}
    (hpa : pa = e.pte.pn * 65536 + (memPtr s m).toNat % 65536) (hown : ∀ j, j < 4 → (l1At s c (pa / 256 * 4 + j)).kind ≠ 2) (hcoh : s.coh.coh = []) :
    ∃ l, exec (.clfl g m) s = .next (putStrand { s with coh.l1 := l } c i t.stepped) ∧ ∀ j, j < 4 → l1At { s with coh.l1 := l } c (pa / 256 * 4 + j) = {} := by
  obtain ⟨⟨l, hl⟩, hgone⟩ := dropL1s_unowned c (lineSectors pa) s fun x hx => by
    obtain ⟨j, hj, rfl⟩ := mem_lineSectors.mp hx
    exact hown j hj
  rw [hl] at hgone
  refine ⟨l, ?_, fun j hj => hgone _ (.inl (mem_lineSectors.mpr ⟨j, hj, rfl⟩))⟩
  have hat : clflAt s (memPtr s m).toNat = putStrand { s with coh.l1 := l } c i t.stepped := by
    rw [clflAt, hsys, hi.curCtxh_eq, hr, hi.curCore_eq, hi.curLaunch_eq, htlb, l1Group_own hi hfused]
    simp only [Bool.false_eq_true, if_false, hst, beq_self_eq_true, if_true, hlp, ← hpa, List.foldl_cons, List.foldl_nil, hl]
    rw [if_neg (by simp [flushing, hcoh])]
    exact mapCtx_strand { s with coh.l1 := l } _ c i t hi.cur hi.bound
  exact (exec_clfl g m s).trans (run_ok (t := putStrand { s with coh.l1 := l } c i t.stepped) hi.issues
    ((flushes_global hlt).trans (congrArg _ hat)) (.inr hi.sound))

/-- FENCE discards the L1's non-coherent copies. -/
theorem fence_discards (hfused : (launchAt s t.record.launch.toNat).fused = false) :
    exec (.fence g) s = .next (advance { s with coh.l1 := s.coh.l1.filter fun e => !(e.2.kind == 3 && e.1 / 2 ^ 128 == c) }) := by
  have hcontains (k : Nat) : (l1Group s).contains k = (k == c) := by
    rw [l1Group_own hi hfused, List.contains_cons, List.contains_nil, Bool.or_false]
  refine (run_ok hi.issues (body := fun s =>
    let cores := l1Group s
    .ok (advance { s with coh.l1 := s.coh.l1.filter fun e => !(e.2.kind == 3 && cores.contains (e.1 / 2 ^ 128)) })) rfl (.inr hi.sound)).trans ?_
  simp only [hcontains]
  rw [confine_eq (by simp) (by simp) (by simp) (by simp)]

end

/-! ### MIGR (R173) -/

/-- The effect of MIGR. -/
def migrate (a : Src) (s : State) : Except Exc State := do
  let v := srcZ s a
  need (decide (v.toNat < 1024) && corePresent s v.toNat) (bad v)
  if v.toNat == curCore s then .ok (advance s)
  else migrateTo (advance s) v.toNat

theorem exec_migr (g : Guard) (a : Src) (s : State) : exec (.migr g a) s = run .strand g none (migrate a) s := rfl

theorem corePresent_lt {s : State} {k : Nat} (h : corePresent s k = true) : k < 1024 := by
  simp only [corePresent, Bool.and_eq_true, decide_eq_true_eq] at h
  omega

section
variable {s : State} {g : Guard} {c i : Nat} {t : Strand} (hi : StrandIssues g s c i t) {a : Src} (hpresent : corePresent s (srcZ s a).toNat = true)
include hi hpresent

theorem migrate_here (hk : (srcZ s a).toNat = c) : migrate a s = .ok (advance s) := by
  rw [migrate, need_ok (by simp [hpresent, corePresent_lt hpresent]), ok_bind, hi.curCore_eq, hk]
  exact if_pos (beq_self_eq_true c)

theorem migrate_away (hk : (srcZ s a).toNat ≠ c) : migrate a s = migrateTo (putStrand s c i t.stepped) (srcZ s a).toNat := by
  rw [migrate, need_ok (by simp [hpresent, corePresent_lt hpresent]), ok_bind, hi.curCore_eq, advance_strand hi]
  exact if_neg (by simpa using hk)

/-- MIGR to another core: the strand departs when its launch admits it there. -/
theorem migrate_admitted (hk : (srcZ s a).toNat ≠ c) (hl : admits s (launchAt s t.record.launch.toNat) (srcZ s a).toNat = true) :
    migrate a s = .ok (depart (putStrand s c i t.stepped) c i (srcZ s a).toNat t.stepped) := by
  have hlaunch : curLaunch (putStrand s c i t.stepped) = launchAt s t.record.launch.toNat := by
    simp [curLaunch, curRec, hi.cur, Strand.stepped]
    rfl
  rw [migrate_away hi hpresent hk, migrateTo, hlaunch]
  refine (if_pos hl).trans ?_
  simp [hi.cur]

theorem migrate_refused (hk : (srcZ s a).toNat ≠ c) (hl : admits s (launchAt s t.record.launch.toNat) (srcZ s a).toNat = false) :
    migrate a s = .error { cause := .protection, info0 := BitVec.ofNat 64 (srcZ s a).toNat } := by
  have hlaunch : curLaunch (putStrand s c i t.stepped) = launchAt s t.record.launch.toNat := by
    simp [curLaunch, curRec, hi.cur, Strand.stepped]
    rfl
  rw [migrate_away hi hpresent hk, migrateTo, hlaunch]
  exact if_neg (by rw [show admits (putStrand s c i t.stepped) (launchAt s t.record.launch.toNat) (srcZ s a).toNat = false from hl]; simp)

end

/-- Settles O18, form by form. -/
theorem cacheInstructionsAndMigration : Obligations.CacheInstructionsAndMigration := by
  unfold Obligations.CacheInstructionsAndMigration
  intro s g c i t m cls a hi p l named
  refine ⟨fun hn hs => ?_, fun e pa hlt hcls hsys hfused hfar hroom hq hup htlb hpres hpa hnot hnot' hsec => ?_, fun hfused => fence_discards hi hfused,
    fun e hlt hsys hfused hr htlb hst => ?_, fun hk hc => ?_, fun k hk hne hl => ?_, fun k hk hne hc hl => ?_⟩
  · have hnamed : Named s p := ⟨by omega, hn⟩
    have hscratch : pScratch (memPtr s m) = true := pScratch_iff.mpr hs
    exact ⟨jumps_of_run hi (exec_pref g m cls s) (prefetches_scratch cls hnamed hscratch), jumps_of_run hi (exec_clfl g m s) (flushes_scratch hnamed hscratch)⟩
  · subst hcls
    obtain ⟨u, hu, hcached, hgot⟩ := pref_leases hi hlt hsys hfused hfar hroom hq hup htlb hpres hpa hnot hnot' hsec
    obtain ⟨_, _, _, rfl⟩ := hcached
    obtain ⟨hg, -, hts, hpc⟩ := stepped_seen hi (u := { s with coh.dir := _, coh.l1 := _, page := _ }) rfl
    exact ⟨_, hu, hg, hts, hpc, hgot, fun _ => rfl⟩
  · intro line hown hcoh
    obtain ⟨⟨key, r⟩, hr, hlp⟩ := hr
    obtain ⟨l, hu, hgone⟩ := clfl_drops (g := g) hi hlt hsys hfused hr hlp htlb hst rfl hown hcoh
    obtain ⟨hg, -, hts, hpc⟩ := stepped_seen hi (u := { s with coh.l1 := l }) rfl
    exact ⟨_, hu, hgone, hg, hts, hpc, fun _ => rfl⟩
  · exact jumps_of_run hi (exec_migr g a s) (migrate_here hi (hk ▸ hc) hk)
  · subst hk
    have hc : corePresent s (srcZ s a).toNat = true := (Bool.and_eq_true_iff.mp hl).1
    obtain ⟨hfree, hmigr, hmem⟩ := depart_seen (putStrand s c i t.stepped) c i (srcZ s a).toNat t.stepped
    exact ⟨_, (exec_migr g a s).trans (run_ok hi.issues (migrate_admitted hi hc hne hl) (.inr hi.sound)), hfree, hmigr, fun a => congrArg (memByte · a) hmem⟩
  · subst hk
    exact traps_of_run hi.issues (exec_migr g a s) (migrate_refused hi hc hne hl)

end Sys2Proof.Machine
end

section
/-! PROOFS. A step runs the decoded instruction (O56). -/

namespace Sys2Proof.Machine
open Sys2Proof

/-! ### An instruction whose guard is false (R69, R70) -/

/-- Where an instruction is admitted (R70 step 6, R247). -/
def placeOf : Instr → Place
  | .add .. | .sub .. | .mul .. | .mulh .. | .mulhu .. | .div .. | .divu .. | .rem .. | .remu .. | .and .. | .or .. | .xor .. | .andn .. | .shl ..
  | .shr .. | .sar .. | .rotl .. | .min .. | .max .. | .minu .. | .maxu .. | .clz .. | .ctz .. | .popc .. | .bfx .. | .bfxs .. | .bfi .. | .sext ..
  | .zext .. | .limm .. | .limmZ .. | .limmH .. | .lea .. | .mov .. | .movPr .. | .movRp .. | .sel .. | .setp .. | .pand .. | .por .. | .pxor ..
  | .pnot .. | .br .. | .loop .. | .nop _ | .done _ | .qfence .. | .semp .. | .semw .. => .any
  | .mlda .. | .mldaG .. | .mldb .. | .mldbG .. | .mscl .. | .mlut .. => .staging
  | .mcfg .. | .mma .. | .mmaX .. | .mmv .. | .mzro .. | .mwb .. => .compute
  | .mrds .. => .strandOrCompute
  | _ => .strand

/-- The static check of an instruction (R70 step 6). -/
def staticOf (s : State) : Instr → Option Exc
  | .br _ o x | .loop _ _ o x | .call _ _ o x | .callo _ _ o x => targetStatic s o x
  | .qfence _ q w => qfenceStatic s q w
  | .ld _ _ _ _ c _ _ | .ldx _ _ _ _ c _ _ | .ldg _ _ _ _ c _ => classStatic s (c == .w)
  | .st _ _ _ _ c _ | .stx _ _ _ _ c _ | .stg _ _ _ _ c => classStatic s (c == .s)
  | _ => none

/-- What an instruction whose guard is false leaves: its faults of step 6 come before the guard. -/
def passedOver (pl : Place) (static : Option Exc) (s : State) : State :=
  if !placeOk pl s.cur then raise (wordExc s .badOperand 6) s
  else match static with
    | some e => raise e s
    | none => advance s

theorem rest_passedOver (pl : Place) (static : Option Exc) (s : State) : rest (passedOver pl static s) = rest s := by
  unfold passedOver
  split
  · exact rest_raise ..
  · split
    · exact rest_raise ..
    · exact rest_advance s

theorem perform_passedOver {g : Guard} {s : State} (hg : guardHolds s g = false) (pl : Place) (static : Option Exc) (body : State → State) :
    perform pl g static body s = passedOver pl static s := by
  unfold perform passedOver
  rw [hg]
  rfl

theorem next_passedOver {g : Guard} {s : State} (hg : guardHolds s g = false) (pl : Place) (static : Option Exc) (body : State → State) :
    (Host.Outcome.next (confine s (perform pl g static body s)) : Host.Outcome State Fault Refusal) = .next (passedOver pl static s) := by
  have h := rest_passedOver pl static s
  rw [perform_passedOver hg, confine_eq (time_of_rest h) (hub_of_rest h) (sregs_of_rest h) (congrArg MemPart.hit (coh_of_rest h))]

theorem exec_passedOver {i : Instr} {g : Guard} {s : State} (h : i.guard? = some g) (hg : guardHolds s g = false) :
    exec i s = .next (passedOver (placeOf i) (staticOf s i) s) := by
  cases i
  case srw g' r a =>
    cases h
    have h := rest_passedOver .strand none s
    show Host.Outcome.next (confineSrw s (perform .strand g none _ s)) = _
    rw [perform_passedOver hg, confineSrw_eq (time_of_rest h) (hub_of_rest h) (congrArg MemPart.hit (coh_of_rest h))]
    rfl
  all_goals cases h
  all_goals exact next_passedOver hg ..

/-- An agent that goes on keeps all but its PC. -/
theorem advance_keeps {s : State} (h : Acting s) : (curCtx (advance s)).pc = nextPc (curCtx s).pc ∧ Keeps [] [] s (advance s) ∧ OnlyRegisters s (advance s) := by
  have hc : curCtx (advance s) = { curCtx s with pc := nextPc (curCtx s).pc } := curCtx_mapCtx s _ h
  refine ⟨by rw [hc], ⟨fun r _ => ?_, fun q _ => ?_, ?_, fun a => by rw [advance_mem]⟩, onlyRegisters_mapCtx ..⟩
  · rw [rG, rG, hc]
  · rw [rP, rP, hc]
  · rw [rPts, rPts, hc]

theorem targetStatic_ok {s : State} {o x : BitVec 16} (h : o ≠ 0xFFFF ∧ x.toNat ≤ 5460) : targetStatic s o x = none :=
  if_pos (by simpa [targetOk, h.2] using h.1)

theorem classStatic_ok {s : State} {c c' : ReqClass} (h : c ≠ c') : classStatic s (c == c') = none := if_neg (by simpa using h)

/-- The static checks have two outcomes besides none. -/
theorem staticOf_faults (s : State) (i : Instr) :
    staticOf s i = none ∨ staticOf s i = some (wordExc s .badOperand 6) ∨ staticOf s i = some (wordExc s .reservedBits 6) := by
  have htarget (o x : BitVec 16) : targetStatic s o x = none ∨ targetStatic s o x = some (wordExc s .badOperand 6) := by
    unfold targetStatic
    split
    · exact .inl rfl
    · exact .inr rfl
  have hclass (b : Bool) : classStatic s b = none ∨ classStatic s b = some (wordExc s .reservedBits 6) := by
    cases b
    · exact .inl rfl
    · exact .inr rfl
  unfold staticOf
  split
  case h_5 =>
    unfold qfenceStatic
    extract_lets here
    split
    · exact .inl rfl
    · exact .inr (.inl rfl)
  case h_12 => exact .inl rfl
  case h_1 | h_2 | h_3 | h_4 => exact (htarget _ _).imp_right .inl
  all_goals exact (hclass _).imp_right .inr

section
variable {s : State} {i : Instr} {g : Guard} (h : i.guard? = some g) (hg : guardHolds s g = false) (ha : Acting s)
include h hg ha

theorem moves_of_admitted (hp : placeOk (placeOf i) s.cur = true) (hs : staticOf s i = none) : Jumps i s [] (nextPc (curCtx s).pc) := by
  obtain ⟨hpc, hkeeps, honly⟩ := advance_keeps ha
  refine ⟨advance s, ?_, hpc, hkeeps, honly⟩
  rw [exec_passedOver h hg]
  unfold passedOver
  rw [hp, hs]
  rfl

omit ha in
theorem traps_of_refused (hp : placeOk (placeOf i) s.cur = false) : Traps i s (wordExc s .badOperand 6) := by
  have hr := rest_raise (wordExc s .badOperand 6) s
  rw [Traps, exec_passedOver h hg, confine_eq (time_of_rest hr) (hub_of_rest hr) (sregs_of_rest hr) (congrArg MemPart.hit (coh_of_rest hr))]
  unfold passedOver
  rw [hp]
  rfl

omit ha in
theorem traps_of_static {e : Exc} (hp : placeOk (placeOf i) s.cur = true) (hs : staticOf s i = some e) : Traps i s e := by
  have hr := rest_raise e s
  rw [Traps, exec_passedOver h hg, confine_eq (time_of_rest hr) (hub_of_rest hr) (sregs_of_rest hr) (congrArg MemPart.hit (coh_of_rest hr))]
  unfold passedOver
  rw [hp, hs]
  rfl

/-- An instruction whose guard is false moves the PC on, or has one of the faults of step 6. -/
theorem moves_or_traps : Jumps i s [] (nextPc (curCtx s).pc) ∨ Traps i s (wordExc s .badOperand 6) ∨ Traps i s (wordExc s .reservedBits 6) := by
  cases hp : placeOk (placeOf i) s.cur
  · exact .inr (.inl (traps_of_refused h hg hp))
  · rcases staticOf_faults s i with hs | hs | hs
    · exact .inl (moves_of_admitted h hg ha hp hs)
    · exact .inr (.inl (traps_of_static h hg hp hs))
    · exact .inr (.inr (traps_of_static h hg hp hs))

/-- A strand's instruction that is none of the matrix streams' and whose target, wait set or class is admitted. -/
theorem moves_strand {c j : Nat} (hc : s.cur = .strand c j)
    (htarget : ∀ d o x, (i = .br g o x ∨ i = .loop g d o x ∨ i = .call g d o x ∨ i = .callo g d o x) → o ≠ 0xFFFF ∧ x.toNat ≤ 5460)
    (hfence : ∀ q w, i = .qfence g q w → q.val < 2 ∧ w ≠ 0 ∧ w.getLsbD q.val = false)
    (hload : ∀ d m w cls mig sx, (i = .ld g d m w cls mig sx ∨ i = .ldx g d m w cls mig sx ∨ i = .ldg g d m w cls sx) → cls ≠ .w)
    (hstore : ∀ d y m w cls mig, (i = .st g y m w cls mig ∨ i = .stx g d m w cls mig ∨ i = .stg g y m w cls) → cls ≠ .s)
    (hstream : ∀ d a b x y n m K M sat, i ∉ [Instr.mlda g x b, .mldaG g n a b K M, .mldb g x b, .mldbG g m a b K, .mscl g a y, .mlut g a y, .mcfg g x,
      .mma g d x b, .mmaX g d x y, .mmv g d a b n, .mzro g d, .mwb g d a sat]) : Jumps i s [] (nextPc (curCtx s).pc) := by
  refine moves_of_admitted h hg ha ?_ ?_
  · rw [hc]
    have hmatrix := fun d a b x y => hstream d a b x y 0 0 0 0 false
    clear ha
    cases i
    case mlda g' x b => cases h; exact absurd (by simp) (hmatrix 0 0 b x x)
    case mldaG g' n a b K M => cases h; exact absurd (by simp) (hstream 0 a b (.reg 0) (.reg 0) n 0 K M false)
    case mldb g' x b => cases h; exact absurd (by simp) (hmatrix 0 0 b x x)
    case mldbG g' m a b K => cases h; exact absurd (by simp) (hstream 0 a b (.reg 0) (.reg 0) 0 m K 0 false)
    case mscl g' a y => cases h; exact absurd (by simp) (hmatrix 0 a 0 y y)
    case mlut g' a y => cases h; exact absurd (by simp) (hmatrix 0 a 0 y y)
    case mcfg g' x => cases h; exact absurd (by simp) (hmatrix 0 0 0 x x)
    case mma g' d x b => cases h; exact absurd (by simp) (hmatrix d 0 b x x)
    case mmaX g' d x y => cases h; exact absurd (by simp) (hmatrix d 0 0 x y)
    case mmv g' d a b n => cases h; exact absurd (by simp) (hstream d a b (.reg 0) (.reg 0) n 0 0 0 false)
    case mzro g' d => cases h; exact absurd (by simp) (hmatrix d 0 0 (.reg 0) (.reg 0))
    case mwb g' d a sat => cases h; exact absurd (by simp) (hstream d a 0 (.reg 0) (.reg 0) 0 0 0 0 sat)
    all_goals rfl
  · clear ha hstream
    cases i
    case br g' o x => cases h; exact targetStatic_ok (htarget 0 o x (by simp))
    case loop g' d o x => cases h; exact targetStatic_ok (htarget d o x (by simp))
    case call g' d o x => cases h; exact targetStatic_ok (htarget d o x (by simp))
    case callo g' d o x => cases h; exact targetStatic_ok (htarget d o x (by simp))
    case qfence g' q w => cases h; exact (qfenceStatic_strand hc q w).trans (if_pos (hfence q w rfl))
    case ld g' d m w cls mig sx => cases h; exact classStatic_ok (hload d m w cls mig sx (by simp))
    case ldx g' d m w cls mig sx => cases h; exact classStatic_ok (hload d m w cls mig sx (by simp))
    case ldg g' d m w cls sx => cases h; exact classStatic_ok (hload d m w cls false sx (by simp))
    case st g' y m w cls mig => cases h; exact classStatic_ok (hstore 0 y m w cls mig (by simp))
    case stx g' d m w cls mig => cases h; exact classStatic_ok (hstore d (.reg 0) m w cls mig (by simp))
    case stg g' y m w cls => cases h; exact classStatic_ok (hstore 0 y m w cls false (by simp))
    all_goals rfl

end

/-! ### The step that is a turn (log entry 1, R94, R248) -/

theorem step_turn {s : State} {a : Agent} {far : Bool} {rest : List Act} (hd : due s = none) (ha : s.agenda = .turn a far :: rest) :
    step s = turn a far { s with agenda := rest } := by
  rw [step, hd, ha]
  rfl

theorem step_event {s : State} {i : Instr} {rest : List Act} (hd : due s = none) (ha : s.agenda = .event i :: rest) (he : isEvent i = true) :
    step s = exec i { s with agenda := rest } := by
  rw [step, hd, ha]
  exact if_pos he

theorem performWord_ok {w : IWord} {i : Instr} (h : decode w = .ok i) (u : State) : performWord w u = exec i u := by rw [performWord, h]

theorem step_due {s : State} {i : Instr} (hd : due s = some i) : step s = exec i s := by rw [step, hd]

section
variable {s : State} {c j : Nat} {t : Strand}

/-- A strand in rotation that nothing takes out of it, at an index that a frame can hold. -/
structure Ready (s : State) (c j : Nat) (t : Strand) : Prop where
  on : tget false s.core.slotOff (c * 16 + j) = false
  launched : (launchAt s t.record.launch.toNat).halted = false
  live : liveHandle s t.ctxh = true
  kept : filtered s c t.record = false
  idx : pcIdx t.ctx.pc ≤ 5460

theorem issueStrand_mapped (h : Ready s c j t) {f : Nat} (hf : frameOf s c (pcOvl t.ctx.pc) = some f) :
    issueStrand s c j t = afterStep c j (performWord (fetchWord s c f (pcIdx t.ctx.pc)) (issued s c j t f (fetchWord s c f (pcIdx t.ctx.pc)))) := by
  simp [issueStrand, h.on, h.launched, h.live, h.kept, Nat.not_lt.mpr h.idx, hf]

theorem issueStrand_unmapped (h : Ready s c j t) (hf : frameOf s c (pcOvl t.ctx.pc) = none) : issueStrand s c j t = exec .overlayMiss (withFreeWord s) := by
  simp [issueStrand, h.on, h.launched, h.live, h.kept, Nat.not_lt.mpr h.idx, hf]

/-- The acting strand has the word that its issue fetches. -/
theorem curWord_issued (hc : s.cur = .strand c j) (f : Nat) (w : IWord) : curWord (issued s c j t f w) = w := by
  have h : curCtx (issued s c j t f w) = { t.ctx with iw := w } := curCtx_putStrand hc _
  rw [curWord, h]

end

/-- A strand whose overlay is not mapped traps. -/
theorem traps_overlayMiss {s : State} {c j : Nat} (hc : s.cur = .strand c j) :
    Traps .overlayMiss s { cause := .overlayMiss, step := 2, info0 := BitVec.ofNat 64 (pcOvl (curCtx s).pc) } := by
  show execOverlayMiss s = _
  rw [execOverlayMiss]
  simp only [hc]

/-! ### The STEP trap and the count of a stream's instructions (R62, R111) -/

theorem afterStep_eq (c j : Nat) (u : State) : afterStep c j (.next u) = .next (confine u (stepTrap u c j)) := rfl

theorem stepTrap_none {u : State} {c j : Nat} (h : strandAt u c j = none) : stepTrap u c j = u := by rw [stepTrap, h]

theorem stepTrap_some {u : State} {c j : Nat} {t : Strand} (h : strandAt u c j = some t) : stepTrap u c j =
    if t.steps = 2 ∧ t.st = 0 ∧ t.wait = .none then trapStrand u c j { cause := .step, info0 := t.stepPc.zeroExtend 64, info1 := some 0 } else u := by
  rw [stepTrap, h]
  simp [and_assoc]

theorem countStream_eq (k : Nat) (cp : Bool) (u : State) : countStream k cp (.next u) = .next (if ((pairAt u k).stream cp).busy = true
      ∨ ((pairAt u k).stream cp).wait = true ∧ ((pairAt u k).stream cp).fetched = true then u else putPair u k ((pairAt u k).performed cp)) := by
  rw [countStream]
  simp

/-! ### The turn of a stream (R248) -/

theorem Pair.stream_setStream_other (p : Pair) (cp : Bool) (x : Stream) : (p.setStream cp x).stream (!cp) = p.stream (!cp) := by cases cp <;> rfl

/-- A stream at its next instruction, its word fetched. -/
def Stream.fetchedAt (x : Stream) (w : IWord) : Stream :=
  { x with wait := false, fetched := true, head := [], vals := [], pos := 0, fence := none, into := none, sent := false,
           rest := false, doomed := false, refused := none, ctx := { x.ctx with iw := w } }

theorem streamTurn_mapped {s : State} {k f : Nat} {cp : Bool} (hp : (pairAt s k).st = 1 ∨ (pairAt s k).st = 2) (hx : ((pairAt s k).stream cp).st = 1)
    (hbusy : ((pairAt s k).stream cp).busy = false) (hwait : ((pairAt s k).stream cp).wait = false) (hstop : ((pairAt s k).stream cp).stop = false)
    (hl : (launchAt s (pairAt s k).record.launch.toNat).halted = false) (hk : filtered s (1024 + k) (pairAt s k).record = false)
    (hidx : pcIdx ((pairAt s k).stream cp).ctx.pc ≤ 5460) (hf : frameOf s (pairAt s k).owner.core (pcOvl ((pairAt s k).stream cp).ctx.pc) = some f) :
    let w := fetchWord s (pairAt s k).owner.core f (pcIdx ((pairAt s k).stream cp).ctx.pc)
    streamTurn k cp s = countStream k cp (performWord w (putPair s k ((pairAt s k).setStream cp (((pairAt s k).stream cp).fetchedAt w)))) := by
  intro w
  have hst : ((pairAt s k).st == 1 || (pairAt s k).st == 2) = true := by simpa using hp
  have hne (x : Stream) : (pairAt s k).setStream cp x ≠ {} := fun h => by
    have h0 : (pairAt s k).st = 0 := (Pair.setStream_st ..).symm.trans (congrArg Pair.st h)
    omega
  unfold streamTurn
  simp only [hst, hx, hbusy, hwait, hstop, hl, hk, Nat.not_lt.mpr hidx, Bool.false_and, Bool.not_true, bne_self_eq_false, Bool.or_false, Bool.false_eq_true,
    if_false]
  rw [show frameOf (putPair s k _) (pairAt s k).owner.core (pcOvl ((pairAt s k).stream cp).ctx.pc) = some f from hf]
  dsimp only
  rw [putPair_putPair _ _ _ _ (hne _) (hne _), Stream.fetchedAt, hx, hbusy, hstop]
  rfl

/-- A stream whose overlay is not mapped faults, or waits for an overlay of its bundle. -/
theorem overlayMiss_stream {s : State} {k : Nat} {cp : Bool} (hc : s.cur = .stream k cp) :
    let ovl := pcOvl (curCtx s).pc
    let e : Exc := { cause := .overlayMiss, step := 2, info0 := BitVec.ofNat 64 ovl }
    let p := pairAt s k
    (bundleEntry s p.ctxh p.env.bundle ovl = none → Traps .overlayMiss s e)
    ∧ (bundleEntry s p.ctxh p.env.bundle ovl ≠ none →
        exec .overlayMiss s = .next (putPair s k (p.setStream cp { p.stream cp with wait := true, rest := true }))) := by
  intro ovl e p
  have hexec : exec .overlayMiss s = .next (confine s (if (bundleEntry s p.ctxh p.env.bundle ovl).isSome then
      putPair s k (p.setStream cp { p.stream cp with wait := true, rest := true }) else raise e s)) := by
    show execOverlayMiss s = _
    rw [execOverlayMiss]
    simp only [hc]
    rfl
  refine ⟨fun h => ?_, fun h => ?_⟩
  · rw [Traps, hexec, h]
    rfl
  · rw [hexec, if_pos (Option.isSome_iff_ne_none.mpr h)]
    rfl

/-- Settles O56. The turn of a strand and of a stream, what follows an instruction, an instruction whose guard is false, and the other steps. -/
theorem aStepRunsTheDecodedInstruction : Obligations.AStepRunsTheDecodedInstruction := by
  unfold Obligations.AStepRunsTheDecodedInstruction
  refine ⟨fun s c j f t far rest hd ha ht hst hoff hl hlive hf hidx => ?_, fun s k f cp far rest hd ha => ?_, fun u c j => ?_, fun u k cp => ?_,
    fun s i g h hg ha _ => ?_, fun s i rest hd ha he => step_event hd ha he, fun s i hd => step_due hd, fun s => rfl, fun s c j hc => traps_overlayMiss hc,
    fun s k cp hc => ?_⟩
  · intro s' bytes w x raised
    have hready : Ready s' c j t := ⟨hoff, hl, hlive, hf, hidx⟩
    have hturn : step s = issueStrand s' c j t := by
      rw [step_turn hd ha]
      show strandTurn c j s' = _
      rw [strandTurn, show strandAt s' c j = some t from ht]
      simp only [hst]
    refine ⟨fun hframe => ?_, fun hframe => ?_⟩
    · have hstep : step s = afterStep c j (performWord w x) := hturn.trans (issueStrand_mapped hready hframe)
      have hword (cause : Cause) (n : Nat) : wordExc x cause n = { cause := cause, step := n, info0 := w.extractLsb' 0 64 } := by
        rw [wordExc, show curWord x = w from curWord_issued rfl f w]
      refine ⟨fun i hi => ?_, fun hw => ?_, fun hw => ?_, fun hw => ?_, fun hw => ?_, rfl, rfl, rfl, rfl, ?_⟩
      · rw [hstep, performWord_ok hi]
      · show step s = _
        rw [hstep, performWord, hw, ← hword]
        rfl
      · show step s = _
        rw [hstep, performWord, hw, ← hword]
      · show step s = _
        rw [hstep, performWord, hw, ← hword]
      · show step s = _
        rw [hstep, performWord, hw, ← hword]
      · refine (strandAt_putStrand ..).trans ?_
        simp only [beq_iff_eq]
        rfl
    · intro y
      have hstep : step s = exec .overlayMiss y := hturn.trans (issueStrand_unmapped hready hframe)
      refine ⟨hstep, hstep.trans ((traps_overlayMiss (c := c) (j := j) (mapCtx_cur ..)).trans ?_)⟩
      have hpc : (curCtx y).pc = t.ctx.pc := by
        have hword : withWord (Config.freeWord s.fresh) s' = putStrand s' c j { t with ctx := { t.ctx with iw := Config.freeWord s.fresh } } :=
          mapCtx_strand s' _ c j t rfl ht
        have hctx : curCtx y = { t.ctx with iw := Config.freeWord s.fresh } := by
          rw [show curCtx y = curCtx (withWord (Config.freeWord s.fresh) s') from rfl, hword]
          exact curCtx_putStrand rfl _
        rw [hctx]
      rw [hpc]
  · intro p x hp hx hbusy hwait hstop hl hk hidx s' w x' hframe i hi
    have hturn : step s = streamTurn k cp s' := step_turn hd ha
    refine ⟨putPair s' k (p.setStream cp x'), ?_, rfl, by rw [pairAt_putPair, Pair.stream_setStream], by rw [pairAt_putPair, Pair.setStream_st], ?_,
      rfl, rfl, rfl⟩
    · have hword := streamTurn_mapped (s := s') (k := k) (cp := cp) hp hx hbusy hwait hstop hl hk hidx hframe
      rw [hturn, hword]
      exact congrArg (countStream k cp) (performWord_ok (w := w) hi _)
    · rw [pairAt_putPair]
      exact Pair.stream_setStream_other ..
  · refine ⟨fun hn => ?_, fun t ht => ⟨fun hno => ?_, fun h2 h0 hw => ?_⟩⟩
    · rw [afterStep_eq, stepTrap_none hn, confine_self]
    · rw [afterStep_eq, stepTrap_some ht, if_neg (by tauto), confine_self]
    · rw [afterStep_eq, stepTrap_some ht, if_pos ⟨h2, h0, hw⟩]
  · intro p x
    refine ⟨fun h => ?_, fun hb h => ?_⟩
    · rw [countStream_eq, if_pos h]
    · have hno : ¬ (x.busy = true ∨ x.wait = true ∧ x.fetched = true) := by
        rw [hb]
        rcases h with h | h <;> simp [h]
      rw [countStream_eq, if_neg hno]
      rfl
  · intro moves target
    refine ⟨moves_or_traps h hg ha, fun c j hc htarget hfence hload hstore hstream => moves_strand h hg ha hc htarget hfence hload hstore hstream,
      fun k cp d a b p x y n m K M sat t o hc => ?_⟩
    have hmoves (hp : placeOk (placeOf i) (.stream k cp) = true) (hs : staticOf s i = none) : moves i := moves_of_admitted h hg ha (by rw [hc]; exact hp) hs
    refine ⟨fun hi => ?_, fun ht hi => ?_, fun hcp hi => ?_, fun hcp hi => ?_⟩
    · simp only [List.mem_cons, List.not_mem_nil, or_false] at hi
      rcases hi with rfl | rfl | rfl | rfl | rfl | rfl | rfl
      all_goals exact hmoves rfl rfl
    · simp only [List.mem_cons, List.not_mem_nil, or_false] at hi
      rcases hi with rfl | rfl
      all_goals exact hmoves rfl (targetStatic_ok ht)
    · subst hcp
      simp only [List.mem_cons, List.not_mem_nil, or_false] at hi
      rcases hi with rfl | rfl | rfl | rfl | rfl | rfl
      all_goals exact hmoves rfl rfl
    · subst hcp
      simp only [List.mem_cons, List.not_mem_nil, or_false] at hi
      rcases hi with rfl | rfl | rfl | rfl | rfl | rfl | rfl
      all_goals exact hmoves rfl rfl
  · intro e p entry
    obtain ⟨hnone, hsome⟩ := overlayMiss_stream hc
    refine ⟨hnone, fun hentry => ⟨_, hsome hentry, ?_, rfl, rfl⟩⟩
    rw [pairAt_putPair, Pair.stream_setStream]

end Sys2Proof.Machine
end

section
/-! PROOFS. A message for a lapsed event queue through a port whose number makes the stand-in for its route 0 (O49). -/

namespace Sys2Proof.Machine
open Sys2Proof

/-- A message for an event queue that has no entry, with transaction id 0. -/
def strayMessage : Packet := { packetOf 7 0 [] with addr := 0x7000000000000001 }

/-- A port numbered 2^29 with a LIVE import context and that message. The stand-in for the message's route is 14·2^60 + 2^29·2^32 modulo 2^64, which is 0. -/
def strayPort : State where
  hold.lives := [(placedKey, { st := 1, gen := 1, owner := mkHandle placedKey 1 })]
  link.ports := [(2 ^ 29, { st := 2, rx := [strayMessage], import_ := mkHandle placedKey 1 })]

/-- The drop notices on their way that an outcome leaves. -/
def dropsOf : Host.Outcome State Fault Refusal → List Word
  | .next u => u.hold.drops
  | _ => []

/-- The message is lost without a notice: one whose route is 0 has no home to tell. -/
theorem strayPort_drops : dropsOf (exec (.msg (2 ^ 29)) strayPort) = [] := by decide

/-- Refutes O49: a message for an event queue that has lapsed leaves no drop notice when its port's number, on which the statement sets no bound, makes
the stand-in for its route 0. -/
theorem not_peersAreServedAndAnswered : ¬ Obligations.PeersAreServedAndAnswered := by
  unfold Obligations.PeersAreServedAndAnswered
  rintro ⟨hrequests, -⟩
  obtain ⟨-, hadmitted⟩ := hrequests strayPort (2 ^ 29) strayMessage [] (by decide) (by decide) (by decide) (by decide) (by decide) (by decide)
    (fun _ he => nomatch he) (by decide)
  obtain ⟨-, -, hmessage⟩ := hadmitted (by decide) (by decide)
  obtain ⟨-, hlapsed, -⟩ := hmessage rfl
  obtain ⟨u, ⟨hu, -, -⟩, hdrops, -⟩ := hlapsed (by decide) (by decide)
  have hnone := strayPort_drops
  rw [hu, dropsOf, hdrops] at hnone
  exact absurd hnone (by simp)

end Sys2Proof.Machine
end

section
/-! PROOFS. A remote fill at the head of its queue: its start keeps the peer of the route, which the statement leaves out (O31). -/

namespace Sys2Proof.Machine
open Sys2Proof

/-- A FILL of 64 bytes of a peer's memory, through a route of its own context. -/
def remoteFill : Cmd where
  op := .fill { count := 64, stride := 1, rt := true, aux := mkHandle (entryKey 2 0xC0 0) 1 } 0
  tag := {}
  core := 0
  ctxh := mkHandle placedKey 1
  record := {}
  privb := 0
  pts := 0
  evq := 0

/-- The fill waits at the head of cluster 0's copy queue; its context and its route, which goes through K-link port 0, are LIVE. -/
def remoteFillWaits : State where
  hold.lives := [(placedKey, { st := 1, gen := 1, owner := mkHandle placedKey 1 }),
    (entryKey 2 0xC0 0, { st := 1, gen := 1, owner := mkHandle placedKey 1 })]
  hold.routes := [(entryKey 2 0xC0 0, { peer := 1 })]
  eng.copyq := [(0, { cmds := [remoteFill] })]

/-- The peer that the operation in progress in cluster 0's copy engine goes to, in the state that an outcome leaves. -/
def copyPeer : Host.Outcome State Fault Refusal → Nat
  | .next u => (queueAt u 0 false).run.peer
  | _ => 0

/-- The operation keeps the port of its route for the WDONEs that answer it. -/
theorem remoteFillWaits_peer : copyPeer (exec (.engineOperationStart 0 false) remoteFillWaits) = 1 := by decide

/-- Refutes O31: the clause on the start of an operation has no hypothesis that its destination is local, and a remote copy that starts takes the peer of its
route with it. -/
theorem not_copyOperationsRunBeatByBeat : ¬ Obligations.CopyOperationsRunBeatByBeat := by
  unfold Obligations.CopyOperationsRunBeatByBeat
  rintro ⟨⟨hqueue, -⟩, -⟩
  obtain ⟨hstart, -⟩ := hqueue remoteFillWaits 0 remoteFill [] rfl
  have hpeer := remoteFillWaits_peer
  rw [hstart rfl (by decide) (by decide) rfl] at hpeer
  exact absurd hpeer (by decide)

end Sys2Proof.Machine
end

section
/-! PROOFS. A beat beyond the end of an image that begins in the middle of a sector (O32). -/

namespace Sys2Proof.Machine
open Sys2Proof

/-- A core's own load of overlay 2 of bundle 1. -/
def shortLoad : Cmd where
  op := .ovld 2 none
  tag := {}
  core := 0
  ctxh := mkHandle placedKey 1
  record := {}
  privb := 0
  pts := 0
  evq := 0
  own := true
  env := { bundle := 1 }

/-- The load is at beat 1 of an image of 48 bytes at address 32, whose last 16 bytes lie in sector 1, written at timestamp 1; the sector's
home is READY. -/
def shortLoadBeat : State where
  eng.copyq := [(0, { cmds := [shortLoad], run := { started := true, beat := 1 } })]
  work.bundles := [{ ctxh := mkHandle placedKey 1, number := 1, ovls := [(2, 32, 48)] }]
  hub.ready := [(0xC0, 2)]
  coh.dir := [(1, { present := true, wts := 1, rts := 1 })]

/-- The ETS of the load in the state that an outcome leaves. -/
def loadEts : Host.Outcome State Fault Refusal → Nat
  | .next u => (queueAt u 0 false).run.ets
  | _ => 0

/-- No byte of the image is left to load, so that the beat reads no sector and its ETS stays. -/
theorem shortLoadBeat_ets : loadEts (exec (.copyBeat 0) shortLoadBeat) = 0 := by decide

/-- Sector 1 is the one sector that the statement counts as loaded. -/
theorem shortLoadBeat_sector {sec : Nat} (h : 32 + 64 * 1 < sec * 64 + 64 ∧ sec * 64 < 32 + min 48 (64 * 1 + 64)) : sec = 1 := by omega

/-- Refutes O32: the sectors that the statement has a beat load run from the beat's first byte to the image's end, also where the image has ended before that byte; with an
image that does not begin at a sector's first byte there is such a sector, which the beat does not read. -/
theorem not_overlayLoadsAndRemoteCopies : ¬ Obligations.OverlayLoadsAndRemoteCopies := by
  unfold Obligations.OverlayLoadsAndRemoteCopies
  rintro ⟨⟨hload, -⟩, -⟩
  obtain ⟨-, hbeat⟩ := hload shortLoadBeat 0 shortLoad [] 2 none rfl rfl (by decide) (by decide) (by decide) rfl
  obtain ⟨hread, -⟩ := hbeat 32 48 rfl rfl rfl (by decide) (by decide) rfl (by decide) (by decide)
    (fun sec hsec => by rw [shortLoadBeat_sector hsec]; decide) (by decide)
  obtain ⟨u, hu, -, e, -, hsector, -, hnext, -⟩ := hread fun sec hsec => by rw [shortLoadBeat_sector hsec]; decide
  obtain ⟨hwts, -⟩ := hsector 1 (by decide)
  obtain ⟨hqueue, -⟩ := hnext (by decide)
  have hets := shortLoadBeat_ets
  rw [hu, loadEts, hqueue] at hets
  rw [show e = 0 from hets] at hwts
  exact absurd hwts (by decide)

end Sys2Proof.Machine
end

section
/-! PROOFS. The slots of the factor accumulator: what an install leaves in the cells, and what a run's end and fault leave alone. -/

namespace Sys2Proof.Machine
open Sys2Proof

variable {s : State} {k : Nat}

/-! ### The run of a factor queue -/

@[simp] theorem queueAt_putRun (s : State) (k : Nat) (f : Bool) (r : Run) : queueAt (putRun s k f r) k f = { queueAt s k f with run := r } :=
  queueAt_putQueue ..

@[simp] theorem putRun_mem (s : State) (k : Nat) (f : Bool) (r : Run) : (putRun s k f r).mem = s.mem := putQueue_mem ..

@[simp] theorem putRun_fac (s : State) (k : Nat) (f : Bool) (r : Run) : (putRun s k f r).eng.fac = s.eng.fac := by cases f <;> rfl

@[simp] theorem putRun_order (s : State) (k : Nat) (f : Bool) (r : Run) : (putRun s k f r).eng.order = s.eng.order := by cases f <;> rfl

/-! ### The cells of a slot (R277, R285) -/

/-- A table that takes pairs one after the other holds `v` under a key if each pair of that key has `v`, and one of them there is or `v` stood there. -/
theorem tget_foldl_tset {key : Nat} {v : BitVec 32} : ∀ (l : List (Nat × Nat)) (m : Sparse (BitVec 32)),
    (∀ e ∈ l, e.1 = key → BitVec.ofNat 32 e.2 = v) → ((∃ e ∈ l, e.1 = key) ∨ tget 0 m key = v) →
    tget 0 (l.foldl (fun m e => tset 0 m e.1 (BitVec.ofNat 32 e.2)) m) key = v
  | [], m, _, h => h.resolve_left (by simp)
  | e :: l, m, hv, h => by
    refine tget_foldl_tset l _ (fun x hx => hv x (List.mem_cons_of_mem _ hx)) ?_
    by_cases hk : e.1 = key
    · right
      rw [← hk, tget_tset]
      exact hv e List.mem_cons_self hk
    · rw [tget_tset_ne _ _ _ _ _ (Ne.symm hk)]
      refine h.imp_left fun ⟨x, hx, hxk⟩ => ⟨x, (List.mem_cons.1 hx).resolve_left ?_, hxk⟩
      rintro rfl
      exact hk hxk

/-- The pairs of key and value that a slot takes with columns. -/
def cellsOf (slot : Nat) (cols : List (List Nat)) : List (Nat × Nat) :=
  cols.zipIdx.flatMap fun c => c.1.zipIdx.map fun v => (slot * 4096 + 64 * (c.2 + v.2) + c.2, v.1)

theorem mem_cellsOf {slot : Nat} {cols : List (List Nat)} {e : Nat × Nat} :
    e ∈ cellsOf slot cols ↔ ∃ col j, cols[j]? = some col ∧ ∃ i, col[i]? = some e.2 ∧ e.1 = slot * 4096 + 64 * (j + i) + j := by
  simp only [cellsOf, List.mem_flatMap, List.mem_map, Prod.exists, List.mem_zipIdx_iff_getElem?]
  constructor
  · rintro ⟨c, j, hc, v, i, hv, rfl⟩
    exact ⟨c, j, hc, i, hv, rfl⟩
  · rintro ⟨c, j, hc, i, hv, he⟩
    exact ⟨c, j, hc, e.2, i, hv, Prod.ext he.symm rfl⟩

theorem installFactor_fac (s : State) (slot : Nat) (cols : List (List Nat)) : (installFactor s slot cols).eng.fac =
    (cellsOf slot cols).foldl (fun m e => tset 0 m e.1 (BitVec.ofNat 32 e.2)) (s.eng.fac.filter fun e => e.1 / 4096 != slot) := rfl

/-- A cell of a slot after an install: the element of its column, or +0. -/
theorem installFactor_cell (s : State) (slot : Nat) (cols : List (List Nat)) (hlen : cols.length ≤ 64) {i j : Nat} (hi : i < 64) (hj : j < 64) :
    tget 0 (installFactor s slot cols).eng.fac (slot * 4096 + 64 * i + j) =
      if j ≤ i then BitVec.ofNat 32 (((cols[j]?.getD [])[i - j]?).getD 0) else 0 := by
  have hcleared : tget (0 : BitVec 32) (s.eng.fac.filter fun e => e.1 / 4096 != slot) (slot * 4096 + 64 * i + j) = 0 := by
    rw [tget_filter_ne, if_pos (by omega)]
  rw [installFactor_fac]
  have hplace : ∀ e ∈ cellsOf slot cols, e.1 = slot * 4096 + 64 * i + j → j ≤ i ∧ (cols[j]?.getD [])[i - j]? = some e.2 := by
    intro e he hkey
    obtain ⟨c, j', hc, i', hv, hplaced⟩ := mem_cellsOf.1 he
    have hj' : j' < 64 := Nat.lt_of_lt_of_le (List.getElem?_eq_some_iff.1 hc).1 hlen
    have hmod' : (slot * 4096 + 64 * (j' + i') + j') % 64 = j' := by omega
    have hmod : (slot * 4096 + 64 * i + j) % 64 = j := by omega
    obtain rfl : j' = j := by rw [← hmod', ← hplaced, hkey, hmod]
    have hi' : i - j' = i' := by omega
    exact ⟨by omega, by rw [hc, hi']; exact hv⟩
  refine tget_foldl_tset _ _ (fun e he hkey => ?_) ?_
  · obtain ⟨hle, hv⟩ := hplace e he hkey
    rw [if_pos hle, hv, Option.getD_some]
  · by_cases hle : j ≤ i
    · cases hc : cols[j]? with
      | none => exact .inr (by simpa [hle] using hcleared)
      | some col =>
        cases hv : col[i - j]? with
        | none => exact .inr (by simpa [hle, hv] using hcleared)
        | some v => exact .inl ⟨(slot * 4096 + 64 * i + j, v), mem_cellsOf.2 ⟨col, j, hc, i - j, hv, by simp only; omega⟩, rfl⟩
    · exact .inr (by rw [if_neg hle, hcleared])

/-- An install sets no cell of another slot, the columns being no longer than the rows from the diagonal down. -/
theorem installFactor_other (s : State) {slot : Nat} {cols : List (List Nat)} (hcols : ∀ j c, cols[j]? = some c → j + c.length ≤ 64) (hlen : cols.length ≤ 64)
    {key : Nat} (h : key / 4096 ≠ slot) : tget 0 (installFactor s slot cols).eng.fac key = tget 0 s.eng.fac key := by
  rw [installFactor_fac]
  refine tget_foldl_tset _ _ (fun e he hkey => ?_) (.inr (by rw [tget_filter_ne, if_neg h]))
  obtain ⟨c, j, hc, i, hv, hplaced⟩ := mem_cellsOf.1 he
  have hi : i < c.length := (List.getElem?_eq_some_iff.1 hv).1
  have hj : j < cols.length := (List.getElem?_eq_some_iff.1 hc).1
  have := hcols j c hc
  omega

theorem installFactor_order (s : State) (slot : Nat) (cols : List (List Nat)) : tget 0 (installFactor s slot cols).eng.order slot = cols.length := tget_tset ..

theorem installFactor_order_ne (s : State) {slot m : Nat} (h : m ≠ slot) (cols : List (List Nat)) :
    tget 0 (installFactor s slot cols).eng.order m = tget 0 s.eng.order m := tget_tset_ne _ _ _ _ _ h

/-- What the install of the columns of a factor of order `n` leaves in a state: the order, the cells, every other slot as it was. -/
structure Installed (s u : State) (slot n : Nat) (cell : Nat → Nat → BitVec 32) : Prop where
  order : tget 0 u.eng.order slot = n
  cells : ∀ i j, i < 64 → j < 64 → tget 0 u.eng.fac (slot * 4096 + 64 * i + j) = cell i j
  orders : ∀ m, m ≠ slot → tget 0 u.eng.order m = tget 0 s.eng.order m
  others : ∀ key, key / 4096 ≠ slot → tget 0 u.eng.fac key = tget 0 s.eng.fac key

/-- Columns of lengths n, n − 1, …, 1 make a factor of order n. -/
theorem installed_of_cols {slot n : Nat} {cols : List (List Nat)} {cell : Nat → Nat → BitVec 32} (hn : n ≤ 64) (hlen : cols.length = n)
    (hcols : ∀ j c, cols[j]? = some c → j + c.length ≤ n)
    (hcell : ∀ i j, i < 64 → j < 64 → (if j ≤ i then BitVec.ofNat 32 (((cols[j]?.getD [])[i - j]?).getD 0) else 0) = cell i j) :
    Installed s (installFactor s slot cols) slot n cell where
  order := (installFactor_order s slot cols).trans hlen
  cells i j hi hj := (installFactor_cell s slot cols (hlen ▸ hn) hi hj).trans (hcell i j hi hj)
  orders _ hm := installFactor_order_ne s hm cols
  others _ hkey := installFactor_other s (fun j c hc => (hcols j c hc).trans hn) (hlen ▸ hn) hkey

/-! ### Columns -/

/-- An element of a list cut into columns of lengths n, n − 1, …: the columns before column j hold j·n − j(j − 1)/2. -/
theorem getElem?_cutCols : ∀ (n : Nat) (l : List Nat) (j : Nat), j < n → (cutCols n l)[j]? = some ((l.drop (j * n - j * (j - 1) / 2)).take (n - j))
  | n + 1, l, 0, _ => by simp [cutCols]
  | n + 1, l, j + 1, h => by
    have hj : j < n := by omega
    have htri : (j + 1) * (j + 1 - 1) / 2 = j * (j - 1) / 2 + j := Nat.triangle_succ j
    have hle : j * (j - 1) / 2 ≤ j * n := (Nat.div_le_self _ _).trans (Nat.mul_le_mul_left j (by omega))
    rw [cutCols, List.getElem?_cons_succ, getElem?_cutCols n _ j hj, List.drop_drop, htri, Nat.add_sub_add_right]
    congr 3
    have : (j + 1) * (n + 1) = j * n + j + n + 1 := by ring
    omega

theorem length_cutCols : ∀ (n : Nat) (l : List Nat), (cutCols n l).length = n
  | 0, _ => rfl
  | n + 1, l => by rw [cutCols, List.length_cons, length_cutCols n]

theorem cutRows_eq (n : Nat) : ∀ (m : Nat) (l : List Nat), cutRows n m l = (List.range m).map fun j => (l.drop (j * n)).take n
  | 0, _ => rfl
  | m + 1, l => by
    rw [cutRows, cutRows_eq n m, List.range_succ_eq_map, List.map_cons, List.map_map]
    simp [Function.comp_def, List.drop_drop, Nat.succ_mul, Nat.add_comm]

theorem getElem?_rowsToCols {n j : Nat} (hj : j < n) (l : List Nat) :
    (rowsToCols n l)[j]? = some ((List.range (n - j)).map fun i => l[(j + i) * n + j]?.getD 0) := by
  simp [rowsToCols, hj]

variable {s : State} {k n : Nat} {c : Cmd} {h p : Word} {b : Nat}

/-- The operation at the head of the factor queue of cluster `k` runs, and nothing has ended it. -/
structure FactorRun (s : State) (k : Nat) (c : Cmd) : Prop where
  head : (queueAt s k true).cmds.head? = some c
  started : (queueAt s k true).run.started = true
  fin : (queueAt s k true).run.fin = none
  fault : (queueAt s k true).run.fault = none

theorem FactorRun.runs (hf : FactorRun s k c) : factorRuns s k = some c := by
  obtain ⟨hhead, hstarted, hfin, hfault⟩ := hf
  simp [factorRuns, hhead, hstarted, hfin, hfault]

/-! ### Steps 7 and 8 of R284 -/

theorem factorEvent_ok (hok : checkHome s c.ctxh (factorArgs c.op).1 = .ok ())
    (hord : orderCheck c (factorUnits s c) (orderOf s (slotKey (hKey (factorArgs c.op).1) 4)) = .ok ()) :
    factorEvent s c = .ok (slotKey (hKey (factorArgs c.op).1) 4) := by
  simp only [factorEvent, hok, ok_bind, hord]

theorem factorEvent_refused {e : Exc} (he : checkHome s c.ctxh (factorArgs c.op).1 = .error e) : factorEvent s c = .error e := by
  simp only [factorEvent, he, error_bind]

theorem factorEvent_misshapen {e : Exc} (hok : checkHome s c.ctxh (factorArgs c.op).1 = .ok ())
    (hord : orderCheck c (factorUnits s c) (orderOf s (slotKey (hKey (factorArgs c.op).1) 4)) = .error e) : factorEvent s c = .error e := by
  simp only [factorEvent, hok, ok_bind, hord, error_bind]

/-- What an event at the slot's arbiter does: the fault of the checks, or the event's own effect. -/
def atEvent (s : State) (k : Nat) (c : Cmd) (h : Word) (f : Nat → State) : State :=
  match factorEvent s c with
  | .error e => factorFaults s k e h
  | .ok slot => f slot

theorem atEvent_ok {slot : Nat} (he : factorEvent s c = .ok slot) (f : Nat → State) : atEvent s k c h f = f slot := by
  rw [atEvent, he]

theorem atEvent_error {e : Exc} (he : factorEvent s c = .error e) (f : Nat → State) : atEvent s k c h f = factorFaults s k e h := by
  rw [atEvent, he]

/-! ### The commit event, form by form -/

/-- The columns of √λ times the identity. -/
def scaledIdentity (n : Nat) (lam : BitVec 32) : List (List Nat) := (List.range n).map fun j => rnSqrt lam.toNat :: List.replicate (n - j - 1) 0

theorem commit_finit {lam : BitVec 32} (hf : FactorRun s k c) (hop : c.op = .finit h n lam) : exec (.factorCommitEvent k) s =
    .next (confine s (atEvent s k c h fun slot => factorEnds (installFactor s slot (scaledIdentity n lam)) k 0)) := by
  have hargs : (factorArgs c.op).1 = h := by rw [hop]; rfl
  simp only [exec, execFactorCommitEvent, hf.runs, hargs]
  rw [hop]
  rfl

theorem commit_fdia {d : GReg} (hf : FactorRun s k c) (hop : c.op = .fdia h d) : exec (.factorCommitEvent k) s =
    .next (confine s (atEvent s k c h fun slot =>
      factorEnds (putRun s k true { (queueAt s k true).run with vals := [diagonalWord (factorCols s slot)] }) k 0)) := by
  have hargs : (factorArgs c.op).1 = h := by rw [hop]; rfl
  simp only [exec, execFactorCommitEvent, hf.runs, hargs]
  rw [hop]
  rfl

/-- What the event of a FWR does at its slot: the fault of the first element that is refused, or the factor installed. -/
def fwrEvent (s : State) (k : Nat) (h : Word) (n slot : Nat) : State :=
  match badElement n (queueAt s k true).run.vals with
  | some v => factorFaults s k (shapeExc h 4 v) h
  | none => factorEnds (installFactor s slot (rowsToCols n (queueAt s k true).run.vals)) k 0

/-- The commit of a FWR whose elements have been read. -/
theorem commit_fwr (hf : FactorRun s k c) (hop : c.op = .fwr h p b)
    (hread : ¬ (queueAt s k true).run.pos < (factorUnits s c).e0 * (factorUnits s c).e1) (hstop : stopStatus s k c = 0) : exec (.factorCommitEvent k) s =
    .next (confine s (atEvent s k c h (fwrEvent s k h (factorUnits s c).e0))) := by
  have hargs : (factorArgs c.op).1 = h := by rw [hop]; rfl
  simp only [exec, execFactorCommitEvent, hf.runs, hargs]
  rw [hop]
  simp only [hread, hstop, ite_false, bne_self_eq_false, Bool.false_eq_true]
  rfl

/-- A rank update, up or down. -/
def Sweeps (op : CmdOp) (h : Word) : Prop := ∃ p b, op = .fupd h p b ∨ op = .fdwn h p b

theorem Sweeps.args (hop : Sweeps c.op h) : (factorArgs c.op).1 = h := by
  obtain ⟨p, b, hop | hop⟩ := hop <;> rw [hop] <;> rfl

/-- The commit of a sweep that no token has reached. -/
theorem commit_sweep (hf : FactorRun s k c) (hop : Sweeps c.op h) (hphase : (queueAt s k true).run.phase = 1) (hstop : stopStatus s k c = 0)
    (hok : checkHome s c.ctxh h = .ok ()) : exec (.factorCommitEvent k) s =
    .next (confine s (factorEnds (installFactor s (slotKey (hKey h) 4)
      (cutCols (factorUnits s c).e0 ((queueAt s k true).run.work.map (·.toNat)))) k 0)) := by
  have hargs := hop.args
  simp only [exec, execFactorCommitEvent, hf.runs, hargs]
  obtain ⟨p, b, hop | hop⟩ := hop <;> rw [hop] <;> simp [hphase, hstop, hok]

theorem commit_sweep_refused {e : Exc} (hf : FactorRun s k c) (hop : Sweeps c.op h) (hphase : (queueAt s k true).run.phase = 1) (hstop : stopStatus s k c = 0)
    (he : checkHome s c.ctxh h = .error e) : exec (.factorCommitEvent k) s = .next (confine s (factorFaults s k e h)) := by
  have hargs := hop.args
  simp only [exec, execFactorCommitEvent, hf.runs, hargs]
  obtain ⟨p, b, hop | hop⟩ := hop <;> rw [hop] <;> simp [hphase, hstop, he]

theorem commit_sweep_stopped (hf : FactorRun s k c) (hop : Sweeps c.op h) (hphase : (queueAt s k true).run.phase = 1) (hstop : stopStatus s k c ≠ 0) :
    exec (.factorCommitEvent k) s = .next (confine s (factorEnds s k (stopStatus s k c))) := by
  simp only [exec, execFactorCommitEvent, hf.runs]
  obtain ⟨p, b, hop | hop⟩ := hop <;> rw [hop] <;> simp [hphase, hstop]

/-! ### FINIT (R286) -/

theorem orderCheck_finit {lam : BitVec 32} (hop : c.op = .finit h n lam) (x : Shape) (m : Nat) : orderCheck c x m = .ok () := by
  simp only [orderCheck, hop]

theorem installed_scaledIdentity {slot : Nat} (hn : n ≤ 64) (lam : BitVec 32) : Installed s (installFactor s slot (scaledIdentity n lam)) slot n
    fun i j => if i = j ∧ i < n then BitVec.ofNat 32 (rnSqrt lam.toNat) else 0 := by
  have hcol (j : Nat) (hj : j < n) : (scaledIdentity n lam)[j]? = some (rnSqrt lam.toNat :: List.replicate (n - j - 1) 0) := by
    simp [scaledIdentity, hj]
  have hlen : (scaledIdentity n lam).length = n := by simp [scaledIdentity]
  refine installed_of_cols hn hlen (fun j col hc => ?_) (fun i j _ _ => ?_)
  · have hj : j < n := hlen ▸ (List.getElem?_eq_some_iff.1 hc).1
    rw [hcol j hj, Option.some_inj] at hc
    rw [← hc, List.length_cons, List.length_replicate]
    omega
  · by_cases hj : j < n
    · rw [hcol j hj, Option.getD_some]
      obtain hlt | rfl | hgt := lt_trichotomy i j
      · rw [if_neg (by omega), if_neg (by omega)]
      · simp [hj]
      · have hpos : i - j = i - j - 1 + 1 := by omega
        rw [if_pos hgt.le, if_neg (by omega), hpos, List.getElem?_cons_succ, List.getElem?_replicate]
        split <;> rfl
    · have hnone : (scaledIdentity n lam)[j]? = none := List.getElem?_eq_none (by omega)
      rw [hnone, if_neg (show ¬ (i = j ∧ i < n) by omega)]
      simp

/-! ### FDIA (R291) -/

/-- The smaller of the least value so far and the next, the earlier one when they are equal. -/
def keepLess (b v : Nat × Nat) : Nat × Nat := if v.1 < b.1 then v else b

/-- The least of `a 0`, …, `a (n − 1)`, at its first place. -/
theorem foldl_keepLess (a : Nat → Nat) : ∀ n, ∃ m, (((List.range n).map a).zipIdx.foldl keepLess (a 0, 0)) = (a m, m) ∧ (m < n ∨ m = 0)
    ∧ ∀ j, j < n → a m ≤ a j ∧ (j < m → a j ≠ a m)
  | 0 => ⟨0, rfl, .inr rfl, fun _ h => absurd h (Nat.not_lt_zero _)⟩
  | n + 1 => by
    obtain ⟨m, hm, hle, hleast⟩ := foldl_keepLess a n
    rw [List.range_succ, List.map_append, List.zipIdx_append, List.foldl_append, hm]
    simp only [List.map_cons, List.map_nil, List.length_map, List.length_range, Nat.zero_add, List.zipIdx_singleton, List.foldl_cons, List.foldl_nil, keepLess]
    by_cases hlt : a n < a m
    · refine ⟨n, if_pos hlt, .inl n.lt_succ_self, fun j hj => ?_⟩
      obtain rfl | hj := Nat.lt_succ_iff_lt_or_eq.1 hj |>.symm
      · exact ⟨le_rfl, fun h => absurd h (lt_irrefl _)⟩
      · have := (hleast j hj).1
        exact ⟨by omega, fun _ => by omega⟩
    · refine ⟨m, if_neg hlt, by omega, fun j hj => ?_⟩
      obtain rfl | hj := Nat.lt_succ_iff_lt_or_eq.1 hj |>.symm
      · exact ⟨by omega, fun h => by omega⟩
      · exact hleast j hj

/-- The diagonal of a committed copy. -/
def diagonalOf (s : State) (slot j : Nat) : Nat := (tget (0 : BitVec 32) s.eng.fac (slot * 4096 + 64 * j + j)).toNat

theorem heads_factorCols (s : State) (slot : Nat) : (factorCols s slot).map (fun c => c.headD 0) = (List.range (orderOf s slot)).map (diagonalOf s slot) := by
  rw [factorCols, List.map_map]
  refine List.map_congr_left fun j hj => ?_
  obtain ⟨m, hm⟩ : ∃ m, orderOf s slot - j = m + 1 := ⟨orderOf s slot - j - 1, by have := List.mem_range.1 hj; omega⟩
  simp [hm, List.range_succ_eq_map, diagonalOf]

/-- FDIA's word of a factor of order n names the smallest diagonal element and the first row that has it. -/
theorem diagonalWord_factorCols {slot : Nat} (hn : 0 < orderOf s slot) : ∃ m, m < orderOf s slot
    ∧ (∀ j, j < orderOf s slot → diagonalOf s slot m ≤ diagonalOf s slot j ∧ (j < m → diagonalOf s slot j ≠ diagonalOf s slot m))
    ∧ diagonalWord (factorCols s slot) = orderOf s slot * 2 ^ 40 + m * 2 ^ 32 + diagonalOf s slot m := by
  obtain ⟨m, hm, hle, hleast⟩ := foldl_keepLess (diagonalOf s slot) (orderOf s slot)
  have hlt : m < orderOf s slot := hle.elim id fun h => h ▸ hn
  have hhead : ((List.range (orderOf s slot)).map (diagonalOf s slot)).headD 0 = diagonalOf s slot 0 := by
    obtain ⟨i, hi⟩ := Nat.exists_eq_succ_of_ne_zero hn.ne'
    simp [hi, List.range_succ_eq_map]
  refine ⟨m, hlt, hleast, ?_⟩
  have hfold : ((List.range (orderOf s slot)).map (diagonalOf s slot)).zipIdx.foldl (fun (b : Nat × Nat) v => if v.1 < b.1 then v else b)
      (diagonalOf s slot 0, 0) = (diagonalOf s slot m, m) := hm
  have hlen : (factorCols s slot).length = orderOf s slot := by simp [factorCols]
  simp only [diagonalWord, heads_factorCols, hhead, hfold, hlen]
  simp [hlt]

theorem orderCheck_fdia {d : GReg} (hop : c.op = .fdia h d) (x : Shape) (m : Nat) : orderCheck c x m = need (m != 0) (shapeExc h 1 0) := by
  simp only [orderCheck, hop, factorArgs]

variable {s : State} {k n : Nat} {c : Cmd} {h p : Word} {b : Nat}

/-! ### FWR (R290) -/

/-- A factor's element that FWR refuses: not finite, or on the diagonal and not above 0. -/
def Refused (diagonal : Prop) (v : Nat) : Prop := v / 2 ^ 23 % 256 = 255 ∨ (diagonal ∧ (v = 0 ∨ 2 ^ 31 ≤ v))

/-- The test that FWR makes of an element and its linear index. -/
def refusedAt (n : Nat) (e : Nat × Nat) : Bool :=
  decide (e.2 % n ≤ e.2 / n) && (!finBits e.1 || (e.2 / n == e.2 % n && !posBits e.1))

theorem refusedAt_iff {i j : Nat} (hj : j < n) (v : Nat) : refusedAt n (v, i * n + j) = true ↔ j ≤ i ∧ Refused (i = j) v := by
  have hdiv : (i * n + j) / n = i := by rw [Nat.mul_comm, Nat.mul_add_div (by omega), Nat.div_eq_of_lt hj, Nat.add_zero]
  have hmod : (i * n + j) % n = j := by rw [Nat.mul_add_mod_self_right, Nat.mod_eq_of_lt hj]
  simp only [refusedAt, hdiv, hmod, finBits, posBits, Refused, Bool.and_eq_true, Bool.or_eq_true, decide_eq_true_eq, Bool.not_eq_true', Bool.and_eq_false_iff,
    bne_eq_false_iff_eq, decide_eq_false_iff_not, beq_iff_eq]
  constructor
  · rintro ⟨hle, hinf | ⟨hd, (hinf | hneg) | hzero⟩⟩
    exacts [⟨hle, .inl hinf⟩, ⟨hle, .inl hinf⟩, ⟨hle, .inr ⟨hd, .inr (by omega)⟩⟩, ⟨hle, .inr ⟨hd, .inl hzero⟩⟩]
  · rintro ⟨hle, hinf | ⟨hd, hzero | hneg⟩⟩
    exacts [⟨hle, .inl hinf⟩, ⟨hle, .inr ⟨hd, .inr hzero⟩⟩, ⟨hle, .inr ⟨hd, .inl (.inr (by omega))⟩⟩]

theorem badElement_eq (n : Nat) (vs : List Nat) : badElement n vs = (vs.zipIdx.find? (refusedAt n)).map fun v => 64 * (v.2 / n) + v.2 % n := rfl

/-- A factor none of whose elements below or on the diagonal is refused. -/
theorem badElement_none {vs : List Nat} (hlen : vs.length = n * n) (hok : ∀ i j, i < n → j ≤ i → ¬ Refused (i = j) (vs[i * n + j]?.getD 0)) :
    badElement n vs = none := by
  rw [badElement_eq, List.find?_eq_none.2, Option.map_none]
  rintro ⟨v, m⟩ hm hbad
  rw [List.mem_zipIdx_iff_getElem?] at hm
  have hlt : m < n * n := hlen ▸ (List.getElem?_eq_some_iff.1 hm).1
  have hpos : 0 < n := Nat.pos_of_ne_zero (by rintro rfl; omega)
  have hindex : m / n * n + m % n = m := Nat.div_add_mod' m n
  rw [← hindex, refusedAt_iff (Nat.mod_lt m hpos)] at hbad
  refine hok (m / n) (m % n) (Nat.div_lt_of_lt_mul hlt) hbad.1 ?_
  rw [hindex, hm]
  exact hbad.2

/-- The first element that is refused is the one that the fault names. -/
theorem badElement_some {vs : List Nat} (hlen : vs.length = n * n) {i j : Nat} (hi : i < n) (hj : j ≤ i) (hbad : Refused (i = j) (vs[i * n + j]?.getD 0))
    (hfirst : ∀ i' j', i' < n → j' ≤ i' → i' * n + j' < i * n + j → ¬ Refused (i' = j') (vs[i' * n + j']?.getD 0)) :
    badElement n vs = some (64 * i + j) := by
  have hpos : 0 < n := by omega
  have hlt : i * n + j < vs.length := by
    have := Nat.mul_le_mul_right n (show i + 1 ≤ n from hi)
    rw [Nat.succ_mul] at this
    omega
  have hdiv : (i * n + j) / n = i := by rw [Nat.mul_comm, Nat.mul_add_div hpos, Nat.div_eq_of_lt (by omega), Nat.add_zero]
  have hmod : (i * n + j) % n = j := by rw [Nat.mul_add_mod_self_right, Nat.mod_eq_of_lt (by omega)]
  have hget : vs[i * n + j]? = some vs[i * n + j] := List.getElem?_eq_getElem hlt
  have hfind : vs.zipIdx.find? (refusedAt n) = some (vs[i * n + j], i * n + j) := by
    refine List.find?_eq_some_iff_getElem.2 ⟨?_, i * n + j, by simpa using hlt, by simp, fun m hm => ?_⟩
    · rw [refusedAt_iff (by omega)]
      rw [hget] at hbad
      exact ⟨hj, hbad⟩
    · have hindex : m / n * n + m % n = m := Nat.div_add_mod' m n
      rw [Bool.not_eq_true', ← Bool.not_eq_true, List.getElem_zipIdx]
      intro hrefused
      have hv : vs[m / n * n + m % n]? = some vs[m] := by rw [hindex]; exact List.getElem?_eq_getElem _
      generalize vs[m] = v at hrefused hv
      rw [Nat.zero_add, ← hindex, refusedAt_iff (Nat.mod_lt m hpos)] at hrefused
      refine hfirst (m / n) (m % n) (Nat.div_lt_of_lt_mul (by omega)) hrefused.1 (by omega) ?_
      rw [hv]
      exact hrefused.2
  rw [badElement_eq, hfind, Option.map_some, hdiv, hmod]

theorem orderCheck_fwr (hop : c.op = .fwr h p b) (x : Shape) (he0 : x.e0 = n) (he1 : x.e1 = n) (hmin : 4 ≤ n) (hmax : n ≤ 64) (hmul : n % 4 = 0) (m : Nat) :
    orderCheck c x m = .ok () := by
  simp [orderCheck, hop, he0, he1, hmin, hmax, hmul, need, ok_bind]

theorem installed_rowsToCols {slot : Nat} (hn : n ≤ 64) (vs : List Nat) : Installed s (installFactor s slot (rowsToCols n vs)) slot n
    fun i j => if i < n ∧ j ≤ i then BitVec.ofNat 32 (vs[i * n + j]?.getD 0) else 0 := by
  have hlen : (rowsToCols n vs).length = n := by simp [rowsToCols]
  refine installed_of_cols hn hlen (fun j col hc => ?_) (fun i j _ _ => ?_)
  · have hj : j < n := hlen ▸ (List.getElem?_eq_some_iff.1 hc).1
    rw [getElem?_rowsToCols hj, Option.some_inj] at hc
    rw [← hc, List.length_map, List.length_range]
    omega
  · by_cases hle : j ≤ i
    · by_cases hi : i < n
      · rw [getElem?_rowsToCols (by omega), if_pos hle, if_pos ⟨hi, hle⟩, Option.getD_some, List.getElem?_map, List.getElem?_range (by omega), Option.map_some,
          Option.getD_some, show j + (i - j) = i by omega]
      · rw [if_pos hle, if_neg (by omega)]
        by_cases hj : j < n
        · rw [getElem?_rowsToCols hj, Option.getD_some, List.getElem?_eq_none (by simp; omega)]
          rfl
        · have hnone : (rowsToCols n vs)[j]? = none := List.getElem?_eq_none (by omega)
          rw [hnone]
          rfl
    · rw [if_neg hle, if_neg (by omega)]

/-! ### FUPD and FDWN (R288) -/

theorem installed_cutCols {slot : Nat} (hn : n ≤ 64) (work : List (BitVec 32)) :
    Installed s (installFactor s slot (cutCols n (work.map fun v => v.toNat))) slot n
      fun i j => if i < n ∧ j ≤ i then (work[j * n - j * (j - 1) / 2 + (i - j)]?).getD 0 else 0 := by
  have hlen := length_cutCols n (work.map fun v => v.toNat)
  refine installed_of_cols hn hlen (fun j col hc => ?_) (fun i j _ _ => ?_)
  · have hj : j < n := hlen ▸ (List.getElem?_eq_some_iff.1 hc).1
    rw [getElem?_cutCols n _ j hj, Option.some_inj] at hc
    have := List.length_take_le (n - j) ((work.map fun v => v.toNat).drop (j * n - j * (j - 1) / 2))
    rw [← hc]
    omega
  · by_cases hle : j ≤ i
    · by_cases hj : j < n
      · rw [getElem?_cutCols n _ j hj, if_pos hle, Option.getD_some, List.getElem?_take]
        by_cases hi : i < n
        · rw [if_pos (show i - j < n - j by omega), if_pos ⟨hi, hle⟩, List.getElem?_drop, List.getElem?_map]
          cases work[j * n - j * (j - 1) / 2 + (i - j)]? <;> simp
        · rw [if_neg (show ¬ i - j < n - j by omega), if_neg (by omega)]
          rfl
      · have hnone : (cutCols n (work.map fun v => v.toNat))[j]? = none := List.getElem?_eq_none (by omega)
        rw [if_pos hle, if_neg (show ¬ (i < n ∧ j ≤ i) by omega), hnone]
        rfl
    · rw [if_neg hle, if_neg (by omega)]

/-- The sweep goes downward. -/
def downward : CmdOp → Bool
  | .fdwn .. => true
  | _ => false

theorem orderCheck_sweep (hop : Sweeps c.op h) (x : Shape) {m : Nat} (hm : 0 < m) (he0 : x.e0 = m) (hmin : 1 ≤ x.e1) (hmax : x.e1 ≤ 256) :
    orderCheck c x m = .ok () := by
  obtain ⟨p, b, hop | hop⟩ := hop <;> simp [orderCheck, hop, he0, hm.ne', hmin, hmax, need, ok_bind]

/-- What the start event of a sweep does with the committed copy `cols` and the vectors `xs`: the columns kept for the commit, the end that a token gives, or
the fault of an element (R288, R292). -/
def sweepEvent (s : State) (k : Nat) (c : Cmd) (h : Word) (cols xs : List (List Nat)) : State :=
  match sweepAll (downward c.op) c.thr.toNat 0 cols xs with
  | .ok cols =>
    if stopStatus s k c = 0 then putRun s k true { (queueAt s k true).run with phase := 1, work := cols.flatten.map (BitVec.ofNat 32), vals := [] }
    else factorEnds s k (stopStatus s k c)
  | .error (j, m) => factorFaults s k { cause := .factorIndefinite, info0 := h, info1 := some (BitVec.ofNat 64 (j * 65536 + m)) }
      (mshapeAt (factorUnits s c) (j * (factorUnits s c).e0 + m))

section
variable {cols xs res : List (List Nat)}

theorem sweepEvent_kept (hstop : stopStatus s k c = 0) (hres : sweepAll (downward c.op) c.thr.toNat 0 cols xs = .ok res) : sweepEvent s k c h cols xs =
    putRun s k true { (queueAt s k true).run with phase := 1, work := res.flatten.map (BitVec.ofNat 32), vals := [] } := by
  simp only [sweepEvent, hres, hstop, if_true]

theorem sweepEvent_stopped (hstop : stopStatus s k c ≠ 0) (hres : sweepAll (downward c.op) c.thr.toNat 0 cols xs = .ok res) : sweepEvent s k c h cols xs =
    factorEnds s k (stopStatus s k c) := by
  simp only [sweepEvent, hres, hstop, if_false]

theorem sweepEvent_fault {j m : Nat} (hres : sweepAll (downward c.op) c.thr.toNat 0 cols xs = .error (j, m)) : sweepEvent s k c h cols xs =
    factorFaults s k { cause := .factorIndefinite, info0 := h, info1 := some (BitVec.ofNat 64 (j * 65536 + m)) }
      (mshapeAt (factorUnits s c) (j * (factorUnits s c).e0 + m)) := by
  simp only [sweepEvent, hres]

end

theorem start_sweep (hf : FactorRun s k c) (hop : Sweeps c.op h) (hphase : (queueAt s k true).run.phase = 0)
    (hread : ¬ (queueAt s k true).run.pos < (factorUnits s c).e0 * (factorUnits s c).e1) {slot : Nat} (he : factorEvent s c = .ok slot) :
    exec (.factorStartEvent k) s = .next (confine s (sweepEvent s k c h (factorCols s slot)
      (cutRows (factorUnits s c).e0 (if stopStatus s k c = 0 then (factorUnits s c).e1 else 1) (queueAt s k true).run.vals))) := by
  have hargs := hop.args
  simp only [exec, execFactorStartEvent, hf.runs, hargs, he]
  obtain ⟨p, b, hop | hop⟩ := hop <;>
    simp only [hop, hphase, hread, hasStart, readsFirst, sweepEvent, downward, Bool.not_true, Bool.true_and, decide_false, Bool.or_false, bne_self_eq_false,
      Bool.false_eq_true, if_false, beq_iff_eq] <;> rfl

variable {s u : State} {k n : Nat} {c : Cmd} {h p : Word} {b : Nat}

@[simp] theorem queueAt_confine (s v : State) (k : Nat) (f : Bool) : queueAt (confine s v) k f = queueAt v k f := rfl

/-- A factor queue's run after the operation's STATUS has been set. -/
theorem fin_factorEnds (s v : State) (k status : Nat) : (queueAt (confine s (factorEnds v k status)) k true).run.fin = some (status, 0, 0) :=
  congrArg (fun q => q.run.fin) (queueAt_putRun ..)

theorem fault_factorFaults (s v : State) (k : Nat) (e : Exc) (info : Word) :
    (queueAt (confine s (factorFaults v k e info)) k true).run.fault = some (e, info) :=
  congrArg (fun q => q.run.fault) (queueAt_putRun ..)

theorem Installed.ended {slot status : Nat} {cell : Nat → Nat → BitVec 32} (hi : Installed s u slot n cell) :
    Installed s (confine s (factorEnds u k status)) slot n cell := ⟨hi.order, hi.cells, hi.orders, hi.others⟩

/-- No cell and no order changes. -/
def SameSlots (s u : State) : Prop := u.eng.fac = s.eng.fac ∧ u.eng.order = s.eng.order

theorem sameSlots_ends (s : State) (k status : Nat) : SameSlots s (confine s (factorEnds s k status)) := ⟨rfl, rfl⟩

theorem sameSlots_faults (s : State) (k : Nat) (e : Exc) (info : Word) : SameSlots s (confine s (factorFaults s k e info)) := ⟨rfl, rfl⟩

/-- The operation ends with what its event installs. -/
def Installs (s : State) (k : Nat) (h : Word) (n : Nat) (cell : Nat → Nat → BitVec 32) : Prop :=
  ∃ u, exec (.factorCommitEvent k) s = .next u ∧ (queueAt u k true).run.fin = some (0, 0, 0) ∧ Installed s u (slotKey (hKey h) 4) n cell

/-- The operation ends in a fault, and its slot stays as it was. -/
def FaultsAt (i : Instr) (s : State) (k : Nat) (e : Exc) (info : Word) : Prop :=
  ∃ u, exec i s = .next u ∧ SameSlots s u ∧ (queueAt u k true).run.fault = some (e, info)

theorem faultsAt_of_exec {i : Instr} {e : Exc} {info : Word} (hx : exec i s = .next (confine s (factorFaults s k e info))) : FaultsAt i s k e info :=
  ⟨_, hx, sameSlots_faults .., fault_factorFaults ..⟩

theorem finit_installs {lam : BitVec 32} (hf : FactorRun s k c) (hop : c.op = .finit h n lam) (hn : n ≤ 64) (hok : checkHome s c.ctxh h = .ok ()) :
    Installs s k h n fun i j => if i = j ∧ i < n then BitVec.ofNat 32 (rnSqrt lam.toNat) else 0 := by
  have hargs : (factorArgs c.op).1 = h := by rw [hop]; rfl
  have he := factorEvent_ok (s := s) (c := c) (by rw [hargs]; exact hok) (orderCheck_finit hop ..)
  rw [hargs] at he
  exact ⟨_, by rw [commit_finit hf hop, atEvent_ok he], fin_factorEnds .., (installed_scaledIdentity hn lam).ended⟩

theorem fdia_takes {d : GReg} (hf : FactorRun s k c) (hop : c.op = .fdia h d) (hn : 0 < orderOf s (slotKey (hKey h) 4)) (hok : checkHome s c.ctxh h = .ok ()) :
    ∃ u m, exec (.factorCommitEvent k) s = .next u ∧ SameSlots s u ∧ m < orderOf s (slotKey (hKey h) 4)
      ∧ (∀ j, j < orderOf s (slotKey (hKey h) 4) → diagonalOf s (slotKey (hKey h) 4) m ≤ diagonalOf s (slotKey (hKey h) 4) j
        ∧ (j < m → diagonalOf s (slotKey (hKey h) 4) j ≠ diagonalOf s (slotKey (hKey h) 4) m))
      ∧ (queueAt u k true).run.vals = [orderOf s (slotKey (hKey h) 4) * 2 ^ 40 + m * 2 ^ 32 + diagonalOf s (slotKey (hKey h) 4) m]
      ∧ (queueAt u k true).run.fin = some (0, 0, 0) := by
  have hargs : (factorArgs c.op).1 = h := by rw [hop]; rfl
  have hord := orderCheck_fdia hop (factorUnits s c) (orderOf s (slotKey (hKey h) 4))
  rw [need_ok (by simp [hn.ne'])] at hord
  have he := factorEvent_ok (s := s) (c := c) (by rw [hargs]; exact hok) (by rw [hargs]; exact hord)
  rw [hargs] at he
  obtain ⟨m, hm, hleast, hword⟩ := diagonalWord_factorCols hn
  have hx := commit_fdia hf hop
  rw [atEvent_ok he] at hx
  refine ⟨_, m, hx, ⟨rfl, rfl⟩, hm, hleast, ?_, fin_factorEnds ..⟩
  rw [← hword]
  simp only [queueAt_confine, factorEnds, queueAt_putRun]

theorem fdia_empty {d : GReg} (hf : FactorRun s k c) (hop : c.op = .fdia h d) (hn : orderOf s (slotKey (hKey h) 4) = 0) (hok : checkHome s c.ctxh h = .ok ()) :
    FaultsAt (.factorCommitEvent k) s k (shapeExc h 1 0) h := by
  have hargs : (factorArgs c.op).1 = h := by rw [hop]; rfl
  have hord := orderCheck_fdia hop (factorUnits s c) (orderOf s (slotKey (hKey h) 4))
  rw [need_error (by simp [hn])] at hord
  have he := factorEvent_misshapen (s := s) (c := c) (by rw [hargs]; exact hok) (by rw [hargs]; exact hord)
  exact faultsAt_of_exec (by rw [commit_fdia hf hop, atEvent_error he])

section
variable (hf : FactorRun s k c) (hop : c.op = .fwr h p b) (he0 : (factorUnits s c).e0 = n) (he1 : (factorUnits s c).e1 = n) (hmin : 4 ≤ n) (hmax : n ≤ 64)
  (hmul : n % 4 = 0) (hpos : (queueAt s k true).run.pos = n * n) (hlen : (queueAt s k true).run.vals.length = n * n) (hstop : stopStatus s k c = 0)
  (hok : checkHome s c.ctxh h = .ok ())
include hf hop he0 he1 hmin hmax hmul hpos hstop hok

/-- The commit of a FWR whose slot and shape pass the checks. -/
theorem commit_fwr_checked : exec (.factorCommitEvent k) s = .next (confine s (fwrEvent s k h n (slotKey (hKey h) 4))) := by
  have hargs : (factorArgs c.op).1 = h := by rw [hop]; rfl
  have he := factorEvent_ok (s := s) (c := c) (by rw [hargs]; exact hok) (orderCheck_fwr hop _ he0 he1 hmin hmax hmul _)
  rw [hargs] at he
  rw [commit_fwr hf hop (by rw [he0, he1, hpos]; exact lt_irrefl _) hstop, atEvent_ok he, he0]

include hlen

theorem fwr_installs (hgood : ∀ i j, i < n → j ≤ i → ¬ Refused (i = j) ((queueAt s k true).run.vals[i * n + j]?.getD 0)) :
    Installs s k h n fun i j => if i < n ∧ j ≤ i then BitVec.ofNat 32 ((queueAt s k true).run.vals[i * n + j]?.getD 0) else 0 := by
  have hx := commit_fwr_checked hf hop he0 he1 hmin hmax hmul hpos hstop hok
  rw [fwrEvent, badElement_none hlen hgood] at hx
  exact ⟨_, hx, fin_factorEnds .., (installed_rowsToCols hmax _).ended⟩

theorem fwr_refused {i j : Nat} (hi : i < n) (hj : j ≤ i) (hbad : Refused (i = j) ((queueAt s k true).run.vals[i * n + j]?.getD 0))
    (hfirst : ∀ i' j', i' < n → j' ≤ i' → i' * n + j' < i * n + j → ¬ Refused (i' = j') ((queueAt s k true).run.vals[i' * n + j']?.getD 0)) :
    FaultsAt (.factorCommitEvent k) s k (shapeExc h 4 (64 * i + j)) h := by
  have hx := commit_fwr_checked hf hop he0 he1 hmin hmax hmul hpos hstop hok
  rw [fwrEvent, badElement_some hlen hi hj hbad hfirst] at hx
  exact faultsAt_of_exec hx

end

theorem sweep_installs (hf : FactorRun s k c) (hop : Sweeps c.op h) (hphase : (queueAt s k true).run.phase = 1) (hmax : (factorUnits s c).e0 ≤ 64)
    (hstop : stopStatus s k c = 0) (hok : checkHome s c.ctxh h = .ok ()) : Installs s k h (factorUnits s c).e0 fun i j =>
      if i < (factorUnits s c).e0 ∧ j ≤ i then ((queueAt s k true).run.work[j * (factorUnits s c).e0 - j * (j - 1) / 2 + (i - j)]?).getD 0 else 0 :=
  ⟨_, commit_sweep hf hop hphase hstop hok, fin_factorEnds .., (installed_cutCols hmax _).ended⟩

/-- The commit event of an operation whose slot has lapsed or is another's. -/
theorem commit_refused {e : Exc} (hf : FactorRun s k c) (he : checkHome s c.ctxh (factorArgs c.op).1 = .error e) (hstop : stopStatus s k c = 0)
    (hop : (∃ n lam, c.op = .finit (factorArgs c.op).1 n lam) ∨ (∃ d, c.op = .fdia (factorArgs c.op).1 d)
      ∨ (∃ p b, c.op = .fwr (factorArgs c.op).1 p b ∧ (queueAt s k true).run.pos = (factorUnits s c).e0 * (factorUnits s c).e1)
      ∨ ∃ p b, c.op = .fupd (factorArgs c.op).1 p b ∧ (queueAt s k true).run.phase = 1) :
    FaultsAt (.factorCommitEvent k) s k e (factorArgs c.op).1 := by
  have hevent := factorEvent_refused he
  obtain ⟨n, lam, hop⟩ | ⟨d, hop⟩ | ⟨p, b, hop, hpos⟩ | ⟨p, b, hop, hphase⟩ := hop
  · exact faultsAt_of_exec (by rw [commit_finit hf hop, atEvent_error hevent])
  · exact faultsAt_of_exec (by rw [commit_fdia hf hop, atEvent_error hevent])
  · exact faultsAt_of_exec (by rw [commit_fwr hf hop (by rw [hpos]; exact lt_irrefl _) hstop, atEvent_error hevent])
  · exact faultsAt_of_exec (commit_sweep_refused hf ⟨p, b, .inl hop⟩ hphase hstop he)

/-! ### The start of a sweep, as the statement writes its vectors -/

section
variable (hf : FactorRun s k c) (hop : Sweeps c.op h) (hphase : (queueAt s k true).run.phase = 0)
  (hpos : (queueAt s k true).run.pos = (factorUnits s c).e0 * (factorUnits s c).e1) (hn : 0 < orderOf s (slotKey (hKey h) 4))
  (he0 : (factorUnits s c).e0 = orderOf s (slotKey (hKey h) 4)) (hmin : 1 ≤ (factorUnits s c).e1) (hmax : (factorUnits s c).e1 ≤ 256)
  (hok : checkHome s c.ctxh h = .ok ())
include hf hop hphase hpos hn he0 hmin hmax hok

/-- The vectors of a block in order. -/
def vectors (s : State) (k n m : Nat) : List (List Nat) := (List.range m).map fun j => ((queueAt s k true).run.vals.drop (j * n)).take n

omit hf hop hphase hpos hn he0 hmax hok in
theorem cutRows_vectors (n : Nat) : cutRows n (if stopStatus s k c = 0 then (factorUnits s c).e1 else 1) (queueAt s k true).run.vals =
    if stopStatus s k c = 0 then vectors s k n (factorUnits s c).e1 else (vectors s k n (factorUnits s c).e1).take 1 := by
  rw [cutRows_eq, vectors]
  split
  · rfl
  · rw [← List.map_take, List.take_range, min_eq_left hmin]

theorem start_sweep_checked : exec (.factorStartEvent k) s = .next (confine s (sweepEvent s k c h (factorCols s (slotKey (hKey h) 4))
    (if stopStatus s k c = 0 then vectors s k (orderOf s (slotKey (hKey h) 4)) (factorUnits s c).e1
      else (vectors s k (orderOf s (slotKey (hKey h) 4)) (factorUnits s c).e1).take 1))) := by
  have he := factorEvent_ok (s := s) (c := c) (by rw [hop.args]; exact hok) (orderCheck_sweep hop _ (by rw [hop.args]; exact hn) (by rw [hop.args]; exact he0) hmin hmax)
  rw [hop.args] at he
  rw [start_sweep hf hop hphase (by rw [hpos]; exact lt_irrefl _) he, cutRows_vectors hmin, he0]

/-- A sweep through all its vectors is kept for the commit. -/
theorem start_sweep_kept {res : List (List Nat)} (hstop : stopStatus s k c = 0) (hres : sweepAll (downward c.op) c.thr.toNat 0
      (factorCols s (slotKey (hKey h) 4)) (vectors s k (orderOf s (slotKey (hKey h) 4)) (factorUnits s c).e1) = .ok res) :
    ∃ u, exec (.factorStartEvent k) s = .next u ∧ SameSlots s u
      ∧ (queueAt u k true).run = { (queueAt s k true).run with phase := 1, work := res.flatten.map (BitVec.ofNat 32), vals := [] } := by
  have hx := start_sweep_checked hf hop hphase hpos hn he0 hmin hmax hok
  rw [if_pos hstop, sweepEvent_kept hstop hres] at hx
  exact ⟨_, hx, ⟨rfl, rfl⟩, by rw [queueAt_confine, queueAt_putRun]⟩

/-- A token ends the sweep at the first boundary of a vector. -/
theorem start_sweep_stopped {res : List (List Nat)} (hstop : stopStatus s k c ≠ 0) (hres : sweepAll (downward c.op) c.thr.toNat 0
      (factorCols s (slotKey (hKey h) 4)) ((vectors s k (orderOf s (slotKey (hKey h) 4)) (factorUnits s c).e1).take 1) = .ok res) :
    ∃ u, exec (.factorStartEvent k) s = .next u ∧ SameSlots s u ∧ (queueAt u k true).run.fin = some (stopStatus s k c, 0, 0) := by
  have hx := start_sweep_checked hf hop hphase hpos hn he0 hmin hmax hok
  rw [if_neg hstop, sweepEvent_stopped hstop hres] at hx
  exact ⟨_, hx, sameSlots_ends .., fin_factorEnds ..⟩

/-- The element at which a sweep aborts is its fault. -/
theorem start_sweep_fault {j m : Nat} (hres : sweepAll (downward c.op) c.thr.toNat 0 (factorCols s (slotKey (hKey h) 4))
      (if stopStatus s k c = 0 then vectors s k (orderOf s (slotKey (hKey h) 4)) (factorUnits s c).e1
        else (vectors s k (orderOf s (slotKey (hKey h) 4)) (factorUnits s c).e1).take 1) = .error (j, m)) :
    FaultsAt (.factorStartEvent k) s k { cause := .factorIndefinite, info0 := h, info1 := some (BitVec.ofNat 64 (j * 65536 + m)) }
      (mshapeAt (factorUnits s c) (j * orderOf s (slotKey (hKey h) 4) + m)) := by
  have hx := start_sweep_checked hf hop hphase hpos hn he0 hmin hmax hok
  rw [sweepEvent_fault hres, he0] at hx
  exact faultsAt_of_exec hx

end

/-- A fault's reason and value, the value being below 65,536. -/
theorem shapeExc_eq (h : Word) (reason : Nat) {value : Nat} (hv : value < 65536) :
    shapeExc h reason value = { cause := .factorShape, info0 := h, info1 := some (BitVec.ofNat 64 (reason * 65536 + value)) } := by
  rw [shapeExc, Nat.mod_eq_of_lt hv]

end Sys2Proof.Machine
end

section
/-! PROOFS. The accesses of a factor operation to the scratchpad (O33). -/

namespace Sys2Proof.Machine
open Sys2Proof

variable {s : State} {k n i : Nat} {c : Cmd} {h p : Word} {b : Nat}

/-! ### The pointer of an access -/

/-- A pointer whose offset bits are replaced. -/
theorem toNat_withOffset (p : Word) {o : Nat} (ho : o < 2 ^ 19) :
    ((p &&& ~~~(0x7FFFF#64)) ||| BitVec.ofNat 64 (o % 2 ^ 19)).toNat = p.toNat / 2 ^ 19 * 2 ^ 19 + o := by
  have hsum : p.toNat / 2 ^ 19 * 2 ^ 19 + o = (p.toNat >>> 19) <<< 19 ||| o := by
    rw [Nat.shiftLeft_eq, Nat.shiftRight_eq_div_pow, ← Nat.shiftLeft_eq, Nat.shiftLeft_add_eq_or_of_lt ho]
  rw [hsum, Nat.mod_eq_of_lt ho]
  refine Nat.eq_of_testBit_eq fun m => ?_
  have hmask : (0x7FFFF#64).getLsbD m = decide (m < 19) := by
    rw [BitVec.getLsbD, BitVec.toNat_ofNat, show 0x7FFFF % 2 ^ 64 = 2 ^ 19 - 1 from rfl, Nat.testBit_two_pow_sub_one]
  have hoffset : o.testBit m = (decide (m < 64) && o.testBit m) := by
    by_cases hm : m < 64
    · simp [hm]
    · rw [Nat.testBit_lt_two_pow (ho.trans_le (Nat.pow_le_pow_right (by omega) (by omega)))]
      simp
  have hbit (x : Word) : x.toNat.testBit m = x.getLsbD m := rfl
  rw [hbit, BitVec.getLsbD_or, BitVec.getLsbD_and, BitVec.getLsbD_not, hmask, BitVec.getLsbD_ofNat, ← hoffset, Nat.testBit_or, Nat.testBit_shiftLeft, Nat.testBit_shiftRight]
  by_cases hm : 19 ≤ m
  · have hindex : 19 + (m - 19) = m := by omega
    by_cases h64 : m < 64
    · simp [hm, Nat.not_lt.2 hm, h64, hindex, hbit]
    · simp [hm, h64, hindex, hbit, BitVec.getLsbD_of_ge p m (by omega)]
  · simp [hm]

theorem addr_lt (x : Shape) (z m : Nat) : x.addr z m < 2 ^ 19 := Nat.mod_lt _ (by decide)

theorem mshapeAt_toNat {x : Shape} (hx : x.fmt = 1) (i : Nat) : (mshapeAt x i).toNat = x.ptr.toNat / 2 ^ 19 * 2 ^ 19 + x.addr 4 i := by
  have hunit : unitAccess 1 = (4, 1) := by decide
  rw [mshapeAt, hx, hunit]
  simp only [Nat.mul_one, Nat.div_one, Nat.mod_one, Nat.mul_zero, Nat.add_zero]
  exact toNat_withOffset _ (addr_lt x 4 i)

/-- Every access to a shape in its bank is aligned. -/
theorem addr_aligned {x : Shape} (hx : x.inBank 4 4 = true) (i : Nat) : x.addr 4 i % 4 = 0 := by
  have hbase : x.base % 2 ^ 15 % 4 = 0 := by
    simp only [Shape.inBank, Bool.and_eq_true, beq_iff_eq] at hx
    exact hx.1
  rw [Shape.addr]
  generalize x.offset i = m
  push_cast
  omega

section
variable {q : Word} {o : Nat} (hq : q.toNat = p.toNat / 2 ^ 19 * 2 ^ 19 + o) (ho : o < 2 ^ 19)
include hq ho

theorem pSpace_withOffset : pSpace q = pSpace p := by
  unfold pSpace
  omega

theorem pOff_withOffset : pOff q = o := by
  unfold pOff
  omega

theorem pCore_withOffset (core : Nat) : pCore core q = pCore core p := by
  have hcore : q.toNat / 2 ^ 48 = p.toNat / 2 ^ 48 := by omega
  rw [pCore, pCore, pSpace_withOffset hq ho, hcore]

theorem pZeroOk_withOffset (hscratch : pScratch p = true) (hzero : pZeroOk p = true) : pZeroOk q = true := by
  have hspace := pSpace_withOffset hq ho
  rw [pScratch, Bool.or_eq_true, Bool.or_eq_true, beq_iff_eq, beq_iff_eq, beq_iff_eq] at hscratch
  unfold pZeroOk at hzero ⊢
  rw [hspace]
  obtain (h1 | h2) | h3 := hscratch
  · simp only [h1, decide_eq_true_eq] at hzero ⊢
    omega
  · simp only [h2, Bool.and_eq_true, decide_eq_true_eq, beq_iff_eq] at hzero ⊢
    omega
  · simp only [h3, Bool.and_eq_true, decide_eq_true_eq, beq_iff_eq] at hzero ⊢
    omega

end

/-! ### One access -/

/-- The shape of a factor operation can be accessed: it is FP32 in its bank, its pointer names a scratchpad whose windows let the operation in, no word has failed and
nothing of the engine is under way. -/
structure FactorReach (s : State) (k : Nat) (c : Cmd) (p : Word) : Prop where
  ptr : (factorShape s c).ptr = p
  fmt : (factorShape s c).fmt = 1
  bank : (factorShape s c).inBank 4 4 = true
  scratch : pScratch p = true
  zero : pZeroOk p = true
  present : pSpace p = 3 → corePresent s (pCore c.core p) = true
  win : ∀ i, i < (factorShape s c).e0 * (factorShape s c).e1 → ∀ rd wr, winOk s (pCore c.core p) c.core ((factorShape s c).addr 4 i) 4 rd wr = true
  sound : s.coh.failed = []
  served : ∀ e ∈ s.coh.served, e.engine ≠ copyHolder k * 4 + 3
  queued : engineQueued s (copyHolder k * 4 + 3) = false

/-- The bytes of unit `i` of the shape. -/
def factorAddr (s : State) (c : Cmd) (p : Word) (i : Nat) : Nat := scratchAt (pCore c.core p) ((factorShape s c).addr 4 i)

theorem factorUnits_eq (hx : (factorShape s c).fmt = 1) : factorUnits s c = factorShape s c := by
  rw [factorUnits, ← hx]

/-- An engine of which nothing is under way makes its access. -/
theorem engineTurn_idle {w : Who} (hserved : ∀ e ∈ s.coh.served, e.engine ≠ w.id) (hqueued : engineQueued s w.id = false) (make : EOut) :
    engineTurn w s make = make := by
  have hfind : s.coh.served.find? (fun e => e.engine == w.id) = none := List.find?_eq_none.2 fun e he => by simpa using hserved e he
  rw [engineTurn, hfind, hqueued]
  rfl

/-- The check of the pointer of unit `i`. -/
theorem FactorReach.check (hr : FactorReach s k c p) (i detail : Nat) : checkPtr s (mshapeAt (factorShape s c) i) 4 detail = .ok () := by
  obtain ⟨hptr, hfmt, hbank, hscratch, hzero, hpresent, -⟩ := hr
  have hat := mshapeAt_toNat hfmt i
  rw [hptr] at hat
  have ho := addr_lt (factorShape s c) 4 i
  have hspace := pSpace_withOffset hat ho
  have hfour : pSpace (mshapeAt (factorShape s c) i) ≤ 4 := by
    rw [hspace]
    simp only [pScratch, Bool.or_eq_true, beq_iff_eq] at hscratch
    omega
  have hthree : pSpace (mshapeAt (factorShape s c) i) = 3 → corePresent s ((mshapeAt (factorShape s c) i).toNat / 2 ^ 48 % 1024) = true := by
    intro h3
    rw [hspace] at h3
    have hcore : pCore c.core p = (mshapeAt (factorShape s c) i).toNat / 2 ^ 48 % 1024 := by
      rw [← pCore_withOffset hat ho, pCore, hspace, h3]
      rfl
    rw [← hcore]
    exact hpresent h3
  have haligned := addr_aligned hbank i
  rw [checkPtr, checkPtr3_ok hfour (pZeroOk_withOffset hat ho hscratch hzero) hthree, ok_bind, need_ok]
  rw [beq_iff_eq, hat]
  omega

theorem FactorReach.access_eq (hr : FactorReach s k c p) (i : Nat) (op : EOp) (w : Who) (hw : w.id = copyHolder k * 4 + 3) (ts : Nat) :
    engineAccess w (mshapeAt (factorShape s c) i) 4 op ts s = engineScratch w (mshapeAt (factorShape s c) i) 4 op ts s := by
  have hat := mshapeAt_toNat hr.fmt i
  rw [hr.ptr] at hat
  have hscratch : pScratch (mshapeAt (factorShape s c) i) = true := by
    rw [pScratch, pSpace_withOffset hat (addr_lt ..)]
    exact hr.scratch
  rw [engineAccess, engineTurn_idle (by rw [hw]; exact hr.served) (by rw [hw]; exact hr.queued), hr.check]
  exact if_pos hscratch

section
variable (hr : FactorReach s k c p) (hi : i < (factorShape s c).e0 * (factorShape s c).e1) {w : Who} (hw : w.core = c.core)
include hr hi hw

theorem FactorReach.scratch_read (ts : Nat) : engineScratch w (mshapeAt (factorShape s c) i) 4 .read ts s =
    (let r := spLoad s (pCore c.core p) ((factorShape s c).addr 4 i) 4 ts; .made r.1 r.2.1 r.2.2) := by
  have hat := mshapeAt_toNat hr.fmt i
  rw [hr.ptr] at hat
  have ho := addr_lt (factorShape s c) 4 i
  have hsoft (a m : Nat) : softWord s a m = none := by rw [softWord, hr.sound]; rfl
  simp only [engineScratch, hw, pCore_withOffset hat ho, pOff_withOffset hat ho, hr.win i hi, hsoft, Bool.not_true, Bool.false_eq_true, if_false]

theorem FactorReach.scratch_write (v ts : Nat) : engineScratch w (mshapeAt (factorShape s c) i) 4 (.write v) ts s =
    (let r := spStore s (pCore c.core p) ((factorShape s c).addr 4 i) 4 ts v; .made r.1 0 r.2) := by
  have hat := mshapeAt_toNat hr.fmt i
  rw [hr.ptr] at hat
  have ho := addr_lt (factorShape s c) 4 i
  have hsoft (a m : Nat) : softWord s a m = none := by rw [softWord, hr.sound]; rfl
  simp only [engineScratch, hw, pCore_withOffset hat ho, pOff_withOffset hat ho, hr.win i hi, hsoft, Bool.not_true, Bool.false_eq_true, if_false]

end

/-- Who makes a factor operation's accesses. -/
def factorWho (k : Nat) (c : Cmd) : Who := { holder := copyHolder k, unit := 3, core := c.core, ctxh := c.ctxh, privb := c.privb, env := c.env }

theorem factorAccess_made {q : Word} {op : EOp} {t : State} {v ts : Nat} (hmade : engineAccess (factorWho k c) q 4 op (queueAt s k true).run.ets s = .made t v ts)
    (f : State → Run → Nat → State) : factorAccess s k c q op f = f t { (queueAt s k true).run with ets := ts } v := by
  unfold factorWho at hmade
  unfold factorAccess
  simp only [hmade]

/-- A read of unit `i` gives its four bytes. -/
theorem FactorReach.read (hr : FactorReach s k c p) (hi : i < (factorShape s c).e0 * (factorShape s c).e1) :
    ∃ st ts, ∀ f, factorAccess s k c (mshapeAt (factorShape s c) i) .read f =
      f (putStamp s (pCore c.core p) ((factorShape s c).addr 4 i) st) { (queueAt s k true).run with ets := ts } (memRead s.mem (factorAddr s c p i) 4) := by
  have hmade := (hr.access_eq i .read (factorWho k c) rfl (queueAt s k true).run.ets).trans (hr.scratch_read hi rfl _)
  rw [spLoad_sound hr.sound] at hmade
  exact ⟨_, _, factorAccess_made hmade⟩

/-- A write of unit `i` changes its four bytes. -/
theorem FactorReach.write (hr : FactorReach s k c p) (hi : i < (factorShape s c).e0 * (factorShape s c).e1) (v : Nat) :
    ∃ st ts, ∀ f, factorAccess s k c (mshapeAt (factorShape s c) i) (.write v) f =
      f (putStamp { s with mem := memWrite s.mem (factorAddr s c p i) 4 v } (pCore c.core p) ((factorShape s c).addr 4 i) st)
        { (queueAt s k true).run with ets := ts } 0 := by
  have hmade := (hr.access_eq i (.write v) (factorWho k c) rfl (queueAt s k true).run.ets).trans (hr.scratch_write hi rfl v _)
  rw [spStore_sound hr.sound] at hmade
  exact ⟨_, _, factorAccess_made hmade⟩

variable {s : State} {k : Nat} {c : Cmd} {h p : Word} {b : Nat}

/-- An operation that has a shape. -/
def Shaped (op : CmdOp) (h p : Word) (b : Nat) : Prop := op ∈ [CmdOp.fupd h p b, .fdwn h p b, .ftrs h p b, .ftrb h p b, .frd h p b, .fwr h p b]

theorem Shaped.args (hop : Shaped c.op h p b) : factorArgs c.op = (h, some (p, b)) := by
  simp only [Shaped, List.mem_cons, List.not_mem_nil, or_false] at hop
  obtain hop | hop | hop | hop | hop | hop := hop <;> rw [hop] <;> rfl

theorem Shaped.ptr (hop : Shaped c.op h p b) (s : State) : (factorShape s c).ptr = p := by
  rw [factorShape, hop.args]
  rfl

/-! ### The start (R283, R284 step 5) -/

theorem exec_startFactor (hhead : (queueAt s k true).cmds.head? = some c) (hstarted : (queueAt s k true).run.started = false) :
    exec (.engineOperationStart k true) s = .next (confine s (startFactor s k c)) := by
  simp only [exec, execEngineOperationStart, hhead, hstarted, if_true, Bool.false_eq_true, if_false]

/-- The operation has started. -/
def begun (s : State) (k : Nat) (c : Cmd) : State := putRun s k true { started := true, ets := max c.pts (queueAt s k true).ets }

/-- Step 5 of R284 for an operation that nothing holds or stops. -/
theorem startFactor_shaped (hop : Shaped c.op h p b) (hheld : cmdHeld s c = false) (hstop : stopStatus s k c = 0) : startFactor s k c =
    if (factorShape s c).fmt != 1 then factorFaults (begun s k c) k (bad p) h
    else match mshapePlaced (factorShape s c) with
      | .error e => factorFaults (begun s k c) k e h
      | .ok _ => begun s k c := by
  have hargs := hop.args
  have hshape : factorShape (putRun s k true { started := true, ets := max c.pts (queueAt s k true).ets }) c = factorShape s c := rfl
  simp only [Shaped, List.mem_cons, List.not_mem_nil, or_false] at hop
  obtain hop | hop | hop | hop | hop | hop := hop <;> rw [startFactor, hheld, hstop] <;>
    simp only [hop, factorArgs, hshape, begun, Bool.false_eq_true, if_false, bne_self_eq_false] <;> rfl

theorem mshapePlaced_fp32 {x : Shape} (hx : x.fmt = 1) (hbank : x.inBank 4 4 = true) : mshapePlaced x = .ok () := by
  have hscaled : scaledFmt 1 = false := by decide
  have hbytes : unitBytes 1 = 4 := by decide
  rw [mshapePlaced, hx, hscaled, hbytes]
  exact need_ok hbank _

/-! ### The step of a running operation -/

theorem exec_factorStep (hf : FactorRun s k c) : exec (.engineOperationStart k true) s = .next (confine s (factorStep s k c)) := by
  simp only [exec, execEngineOperationStart, hf.head, hf.started, if_true]

theorem readsFirst_cases {op : CmdOp} (hop : readsFirst op = true) : ∃ h p b, op = .fupd h p b ∨ op = .fdwn h p b ∨ op = .fwr h p b := by
  cases op
  case fupd h p b => exact ⟨h, p, b, .inl rfl⟩
  case fdwn h p b => exact ⟨h, p, b, .inr (.inl rfl)⟩
  case fwr h p b => exact ⟨h, p, b, .inr (.inr rfl)⟩
  all_goals cases hop

/-- FUPD, FDWN and FWR read their elements in ascending order. -/
theorem factorStep_reads (hf : FactorRun s k c) (hop : readsFirst c.op = true) (hx : (factorShape s c).fmt = 1)
    (hpos : (queueAt s k true).run.pos < (factorShape s c).e0 * (factorShape s c).e1) : factorStep s k c =
    factorAccess s k c (mshapeAt (factorShape s c) (queueAt s k true).run.pos) .read fun t r v =>
      putRun t k true { r with pos := r.pos + 1, vals := r.vals ++ [v] } := by
  simp only [factorStep, factorUnits_eq hx, hf.fin, hf.fault, Option.isSome_none, Bool.or_false, Bool.false_eq_true, if_false]
  obtain ⟨h, p, b, hop | hop | hop⟩ := readsFirst_cases hop <;> simp [hop, hpos]

/-- How a solve makes the solved vector. -/
def solver : CmdOp → List (List Nat) → List Nat → List Nat
  | .ftrs .. => solveForward
  | _ => solveBackward

/-- FTRS and FTRB. -/
def Solves (op : CmdOp) (h p : Word) (b : Nat) : Prop := op = .ftrs h p b ∨ op = .ftrb h p b

theorem solver_eq (hop : Solves c.op h p b) (cols : List (List Nat)) (got : List Nat) :
    solver c.op cols got = if c.op = .ftrs h p b then solveForward cols got else solveBackward cols got := by
  obtain hop | hop := hop <;> rw [hop] <;> simp [solver]

section
variable (hf : FactorRun s k c) (hx : (factorShape s c).fmt = 1) (hphase : (queueAt s k true).run.phase = 1) (hstop : stopStatus s k c = 0)
include hf hx hphase hstop

/-- A solve reads an element of its vector; with the last one it has the vector solved. -/
theorem factorStep_solve_read (hop : Solves c.op h p b)
    (hi : (queueAt s k true).run.pos % (2 * (factorShape s c).e0) < (factorShape s c).e0) : factorStep s k c =
    factorAccess s k c (mshapeAt (factorShape s c) ((queueAt s k true).run.pos / (2 * (factorShape s c).e0) * (factorShape s c).e0
      + (queueAt s k true).run.pos % (2 * (factorShape s c).e0))) .read fun t r v =>
        putRun t k true { r with
          pos := r.pos + 1
          vals := if (queueAt s k true).run.pos % (2 * (factorShape s c).e0) + 1 == (factorShape s c).e0 then
              solver c.op (cutCols (factorShape s c).e0 (r.work.map (·.toNat))) (r.vals ++ [v])
            else r.vals ++ [v] } := by
  simp only [factorStep, factorUnits_eq hx, hf.fin, hf.fault, Option.isSome_none, Bool.or_false, Bool.false_eq_true, if_false]
  obtain hop | hop := hop <;> simp [hop, hphase, hstop, hi, solver]

/-- A solve writes an element of the vector solved. -/
theorem factorStep_solve_write (hop : Solves c.op h p b)
    (hi : (factorShape s c).e0 ≤ (queueAt s k true).run.pos % (2 * (factorShape s c).e0)) : factorStep s k c =
    (let i := (queueAt s k true).run.pos % (2 * (factorShape s c).e0)
    let made := (queueAt s k true).run.pos / (2 * (factorShape s c).e0) * (factorShape s c).e0 + (i - (factorShape s c).e0)
    factorAccess s k c (mshapeAt (factorShape s c) made) (.write ((queueAt s k true).run.vals[i - (factorShape s c).e0]?.getD 0)) fun t r _ =>
      countWrite t k { r with vals := if i + 1 == 2 * (factorShape s c).e0 then [] else r.vals } (made + 1) ((factorShape s c).e0 * (factorShape s c).e1)) := by
  simp only [factorStep, factorUnits_eq hx, hf.fin, hf.fault, Option.isSome_none, Bool.or_false, Bool.false_eq_true, if_false]
  obtain hop | hop := hop <;> simp [hop, hphase, hstop, Nat.not_lt.2 hi]

/-- FRD writes the next element of the factor, +0 above the diagonal. -/
theorem factorStep_frd (hop : c.op = .frd h p b) : factorStep s k c =
    (let i := (queueAt s k true).run.pos / (factorShape s c).e0
    let j := (queueAt s k true).run.pos % (factorShape s c).e0
    factorAccess s k c (mshapeAt (factorShape s c) (queueAt s k true).run.pos) (.write (if j ≤ i then
        (((cutCols (factorShape s c).e0 ((queueAt s k true).run.work.map (·.toNat)))[j]?.getD [])[i - j]?).getD 0 else 0)) fun t r _ =>
      countWrite t k r (r.pos + 1) ((factorShape s c).e0 * (factorShape s c).e1)) := by
  simp only [factorStep, factorUnits_eq hx, hf.fin, hf.fault, Option.isSome_none, Bool.or_false, Bool.false_eq_true, if_false]
  simp [hop, hphase, hstop]

end

/-! ### The start event of a solve and of FRD (R285) -/

theorem flatten_factorCols (s : State) (slot : Nat) : (factorCols s slot).flatten.map (BitVec.ofNat 32) =
    (List.range (orderOf s slot)).flatMap fun j => (List.range (orderOf s slot - j)).map fun i =>
      tget (0 : BitVec 32) s.eng.fac (slot * 4096 + 64 * (j + i) + j) := by
  simp [factorCols, List.flatMap, List.map_flatten, Function.comp_def]

theorem orderCheck_takes {x : Shape} {m : Nat} (hop : Solves c.op h p b ∨ c.op = .frd h p b) (hm : 0 < m) (he0 : x.e0 = m)
    (he1 : if c.op = .frd h p b then x.e1 = x.e0 else 1 ≤ x.e1 ∧ x.e1 ≤ 256) : orderCheck c x m = .ok () := by
  obtain (hop | hop) | hop := hop <;> simp [hop] at he1 <;> simp [orderCheck, hop, he0, hm.ne', he1, need, ok_bind]

/-- The start event of a solve or of FRD takes the committed copy. -/
theorem start_takes (hf : FactorRun s k c) (hop : Solves c.op h p b ∨ c.op = .frd h p b) (hphase : (queueAt s k true).run.phase = 0) {slot : Nat}
    (he : factorEvent s c = .ok slot) : exec (.factorStartEvent k) s =
    .next (confine s (putRun s k true { (queueAt s k true).run with phase := 1, work := (factorCols s slot).flatten.map (BitVec.ofNat 32), vals := [] })) := by
  simp only [exec, execFactorStartEvent, hf.runs, he]
  obtain (hop | hop) | hop := hop <;> simp [hop, hphase, hasStart, readsFirst]

variable {s u : State} {k : Nat} {c : Cmd} {h p : Word} {b : Nat}

/-! ### Accesses -/

/-- The four bytes of unit `i` take a value, and no other byte changes. -/
def Stores (s u : State) (c : Cmd) (p : Word) (i v : Nat) : Prop := memRead u.mem (factorAddr s c p i) 4 = v % 2 ^ 32
  ∧ ∀ a, ¬ (factorAddr s c p i ≤ a ∧ a < factorAddr s c p i + 4) → memByte u.mem a = memByte s.mem a

theorem stores_of_mem {i v : Nat} (hu : u.mem = memWrite s.mem (factorAddr s c p i) 4 v) : Stores s u c p i v := by
  rw [Stores, hu]
  exact ⟨memRead_memWrite .., fun a ha => memByte_memWrite_out _ _ _ _ _ (by omega)⟩

theorem reads_next (hf : FactorRun s k c) (hr : FactorReach s k c p) (hop : readsFirst c.op = true)
    (hpos : (queueAt s k true).run.pos < (factorShape s c).e0 * (factorShape s c).e1) : ∃ u, exec (.engineOperationStart k true) s = .next u ∧ u.mem = s.mem
      ∧ (queueAt u k true).run.pos = (queueAt s k true).run.pos + 1
      ∧ (queueAt u k true).run.vals = (queueAt s k true).run.vals ++ [memRead s.mem (factorAddr s c p (queueAt s k true).run.pos) 4] := by
  obtain ⟨st, ts, hread⟩ := hr.read hpos
  have hx := exec_factorStep hf
  rw [factorStep_reads hf hop hr.fmt hpos, hread] at hx
  exact ⟨_, hx, rfl, by rw [queueAt_confine, queueAt_putRun], by rw [queueAt_confine, queueAt_putRun]⟩

section
variable (hf : FactorRun s k c) (hr : FactorReach s k c p) (hphase : (queueAt s k true).run.phase = 1) (hstop : stopStatus s k c = 0)
include hf hr hphase hstop

theorem solve_reads (hop : Solves c.op h p b) {j i : Nat} (hj : (queueAt s k true).run.pos / (2 * (factorShape s c).e0) = j)
    (hi : (queueAt s k true).run.pos % (2 * (factorShape s c).e0) = i) (hlt : i < (factorShape s c).e0)
    (hin : j * (factorShape s c).e0 + i < (factorShape s c).e0 * (factorShape s c).e1) :
    ∃ u, exec (.engineOperationStart k true) s = .next u ∧ u.mem = s.mem ∧ (queueAt u k true).run.pos = (queueAt s k true).run.pos + 1
      ∧ (queueAt u k true).run.vals =
        let got := (queueAt s k true).run.vals ++ [memRead s.mem (factorAddr s c p (j * (factorShape s c).e0 + i)) 4]
        if i + 1 = (factorShape s c).e0 then solver c.op (cutCols (factorShape s c).e0 ((queueAt s k true).run.work.map fun v => v.toNat)) got else got := by
  obtain ⟨st, ts, hread⟩ := hr.read hin
  have hx := exec_factorStep hf
  rw [factorStep_solve_read hf hr.fmt hphase hstop hop (hi ▸ hlt), hj, hi, hread] at hx
  refine ⟨_, hx, rfl, by rw [queueAt_confine, queueAt_putRun], ?_⟩
  simp only [queueAt_confine, queueAt_putRun, beq_iff_eq]

theorem solve_writes (hop : Solves c.op h p b) {j i : Nat} (hj : (queueAt s k true).run.pos / (2 * (factorShape s c).e0) = j)
    (hi : (queueAt s k true).run.pos % (2 * (factorShape s c).e0) = i) (hle : (factorShape s c).e0 ≤ i)
    (hin : j * (factorShape s c).e0 + (i - (factorShape s c).e0) < (factorShape s c).e0 * (factorShape s c).e1) :
    ∃ u, exec (.engineOperationStart k true) s = .next u
      ∧ Stores s u c p (j * (factorShape s c).e0 + (i - (factorShape s c).e0)) ((queueAt s k true).run.vals[i - (factorShape s c).e0]?.getD 0)
      ∧ (queueAt u k true).run.pos = (queueAt s k true).run.pos + 1
      ∧ (queueAt u k true).run.fin =
        if j * (factorShape s c).e0 + (i - (factorShape s c).e0) + 1 = (factorShape s c).e0 * (factorShape s c).e1 then some (0, 0, 0) else none := by
  obtain ⟨st, ts, hwrite⟩ := hr.write hin ((queueAt s k true).run.vals[i - (factorShape s c).e0]?.getD 0)
  have hx := exec_factorStep hf
  rw [factorStep_solve_write hf hr.fmt hphase hstop hop (hi ▸ hle)] at hx
  simp only [hj, hi, hwrite] at hx
  refine ⟨_, hx, stores_of_mem rfl, by rw [queueAt_confine, countWrite, queueAt_putRun], ?_⟩
  simp only [queueAt_confine, countWrite, queueAt_putRun, beq_iff_eq]

theorem frd_writes (hop : c.op = .frd h p b) (hpos : (queueAt s k true).run.pos < (factorShape s c).e0 * (factorShape s c).e1) :
    ∃ u, exec (.engineOperationStart k true) s = .next u ∧ (queueAt u k true).run.pos = (queueAt s k true).run.pos + 1
      ∧ Stores s u c p (queueAt s k true).run.pos (let i := (queueAt s k true).run.pos / (factorShape s c).e0
          let j := (queueAt s k true).run.pos % (factorShape s c).e0
          if j ≤ i then
            (((cutCols (factorShape s c).e0 ((queueAt s k true).run.work.map fun v => v.toNat))[j]?.getD [])[i - j]?).getD 0 else 0)
      ∧ (queueAt u k true).run.fin = if (queueAt s k true).run.pos + 1 = (factorShape s c).e0 * (factorShape s c).e1 then some (0, 0, 0) else none := by
  have hx := exec_factorStep hf
  rw [factorStep_frd hf hr.fmt hphase hstop hop] at hx
  obtain ⟨st, ts, hwrite⟩ := hr.write hpos (let i := (queueAt s k true).run.pos / (factorShape s c).e0
    let j := (queueAt s k true).run.pos % (factorShape s c).e0
    if j ≤ i then (((cutCols (factorShape s c).e0 ((queueAt s k true).run.work.map fun v => v.toNat))[j]?.getD [])[i - j]?).getD 0 else 0)
  simp only [hwrite] at hx
  refine ⟨_, hx, by rw [queueAt_confine, countWrite, queueAt_putRun], stores_of_mem rfl, ?_⟩
  simp only [queueAt_confine, countWrite, queueAt_putRun, beq_iff_eq]

end

/-- The start event of a solve or of FRD whose slot and shape pass the checks. -/
theorem takes_committed (hf : FactorRun s k c) (hshaped : Shaped c.op h p b) (hfmt : (factorShape s c).fmt = 1) (hop : Solves c.op h p b ∨ c.op = .frd h p b)
    (hphase : (queueAt s k true).run.phase = 0) (hok : checkHome s c.ctxh h = .ok ()) (hn : 0 < orderOf s (slotKey (hKey h) 4))
    (he0 : (factorShape s c).e0 = orderOf s (slotKey (hKey h) 4))
    (he1 : if c.op = .frd h p b then (factorShape s c).e1 = (factorShape s c).e0 else 1 ≤ (factorShape s c).e1 ∧ (factorShape s c).e1 ≤ 256) :
    ∃ u, exec (.factorStartEvent k) s = .next u ∧ u.mem = s.mem ∧ (queueAt u k true).run = { (queueAt s k true).run with
      phase := 1
      vals := []
      work := (List.range (factorShape s c).e0).flatMap fun j => (List.range ((factorShape s c).e0 - j)).map fun i =>
        tget (0 : BitVec 32) s.eng.fac (slotKey (hKey h) 4 * 4096 + 64 * (j + i) + j) } := by
  have hargs : (factorArgs c.op).1 = h := by rw [hshaped.args]
  have he := factorEvent_ok (s := s) (c := c) (by rw [hargs]; exact hok) (by rw [hargs, factorUnits_eq hfmt]; exact orderCheck_takes hop hn he0 he1)
  rw [hargs] at he
  refine ⟨_, start_takes hf hop hphase he, rfl, ?_⟩
  rw [queueAt_confine, queueAt_putRun, flatten_factorCols, ← he0]

/-! ### The end of an operation -/

/-- A command leaves its queue with its final ETS. -/
def Popped (s u : State) (k : Nat) (r : List Cmd) : Prop :=
  queueAt u k true = { queueAt s k true with cmds := r, ets := (queueAt s k true).run.ets, done := (queueAt s k true).done + 1, run := {} } ∧ u.mem = s.mem

theorem exec_factorEnd (hhead : (queueAt s k true).cmds.head? = some c) : exec (.engineOperationEnd k 2) s = .next (confine s (endFactor s k c)) := by
  simp only [exec, execEngineOperationEnd, hhead]

theorem popped_popQueue {v : State} {r : List Cmd} (hq : queueAt v k true = queueAt s k true) (hm : v.mem = s.mem) (hcmds : (queueAt s k true).cmds = c :: r) :
    Popped s (confine s (popQueue v k true)) k r := by
  refine ⟨?_, hm⟩
  rw [queueAt_confine, popQueue, queueAt_putQueue, hq, hcmds]
  rfl

/-- What a plain operation's end answers. -/
def answerOf (c : Cmd) (r : Run) (st pts : Nat) : ReplyAct :=
  match c.op with
  | .fdia _ d => if st == 0 then .regs [(d.val, BitVec.ofNat 64 (r.vals.headD 0))] pts else .regs [] pts
  | _ => .regs [] (max pts (if st == 0 then r.ets else c.pts))

theorem answerOf_other (hop : ∀ h d, c.op ≠ .fdia h d) (r : Run) (st pts : Nat) : answerOf c r st pts = .regs [] (max pts (if st = 0 then r.ets else c.pts)) := by
  unfold answerOf
  split
  · next h d hfdia => exact absurd hfdia (hop h d)
  · simp only [beq_iff_eq]

theorem answerOf_fdia {d : GReg} (hop : c.op = .fdia h d) (r : Run) (pts : Nat) : answerOf c r 0 pts = .regs [(d.val, BitVec.ofNat 64 (r.vals.headD 0))] pts := by
  rw [answerOf, hop]
  rfl

/-- A plain operation answers its strand. -/
theorem endFactor_answers {t : Strand} (hplain : c.plain = true) (ht : tagged s c.tag = some t) {st ca : Nat} {info : Word} (hfault : (queueAt s k true).run.fault = none)
    (hfin : (queueAt s k true).run.fin = some (st, ca, info)) :
    endFactor s k c = popQueue (sendReply s c.tag (answerOf c (queueAt s k true).run st t.ctx.pts)) k true := by
  simp only [endFactor, hfault, hfin, hplain, ht, if_true]
  rfl

theorem endFactor_traps {t : Strand} (hplain : c.plain = true) (ht : tagged s c.tag = some t) {e : Exc} {info : Word}
    (hfault : (queueAt s k true).run.fault = some (e, info)) : endFactor s k c = popQueue (sendReply s c.tag (.exc e)) k true := by
  simp only [endFactor, hfault, hplain, ht, if_true]

theorem endFactor_posts (hplain : c.plain = false) {st ca : Nat} {info : Word} (hfault : (queueAt s k true).run.fault = none)
    (hfin : (queueAt s k true).run.fin = some (st, ca, info)) : endFactor s k c = popQueue (postRecord s c (queueAt s k true).run st ca info) k true := by
  simp only [endFactor, hfault, hfin, hplain, Bool.false_eq_true, if_false]

theorem endFactor_posts_fault (hplain : c.plain = false) {e : Exc} {info : Word} (hfault : (queueAt s k true).run.fault = some (e, info)) :
    endFactor s k c = popQueue (postRecord s c (queueAt s k true).run (if e.cause == .lapsed then 1 else 2) (causeCode e.cause) info) k true := by
  simp only [endFactor, hfault, hplain, Bool.false_eq_true, if_false]

theorem arriving_postRecord (s : State) (c : Cmd) (r : Run) (status cause : Nat) (info : Word) : (postRecord s c r status cause info).hold.arriving =
    if c.evq = 0 then s.hold.arriving else s.hold.arriving ++ [completion c r status cause info] := by
  rw [postRecord]
  by_cases hq : c.evq = 0
  · rw [if_pos (by simpa using hq), if_pos hq]
  · rw [if_neg (by simpa using hq), if_neg hq]
    rfl

theorem queueAt_postRecord (s : State) (c : Cmd) (r : Run) (status cause : Nat) (info : Word) (k : Nat) (f : Bool) :
    queueAt (postRecord s c r status cause info) k f = queueAt s k f ∧ (postRecord s c r status cause info).mem = s.mem := by
  rw [postRecord]
  split <;> exact ⟨rfl, rfl⟩

section
variable {r : List Cmd} (hcmds : (queueAt s k true).cmds = c :: r)
include hcmds

/-- An operation's end that sends an answer. -/
theorem end_replies {a : ReplyAct} (hend : endFactor s k c = popQueue (sendReply s c.tag a) k true) : ∃ u, exec (.engineOperationEnd k 2) s = .next u
    ∧ Popped s u k r ∧ u.coh.replies = s.coh.replies ++ [{ tag := c.tag, act := a }] := by
  have hx := exec_factorEnd (congrArg List.head? hcmds)
  rw [hend] at hx
  exact ⟨_, hx, popped_popQueue rfl rfl hcmds, rfl⟩

/-- An operation's end that posts its record. -/
theorem end_posts {status cause : Nat} {info : Word} (hend : endFactor s k c = popQueue (postRecord s c (queueAt s k true).run status cause info) k true) :
    ∃ u, exec (.engineOperationEnd k 2) s = .next u ∧ Popped s u k r
      ∧ u.hold.arriving = if c.evq = 0 then s.hold.arriving else s.hold.arriving ++ [completion c (queueAt s k true).run status cause info] := by
  have hx := exec_factorEnd (congrArg List.head? hcmds)
  rw [hend] at hx
  obtain ⟨hq, hm⟩ := queueAt_postRecord s c (queueAt s k true).run status cause info k true
  exact ⟨_, hx, popped_popQueue hq hm hcmds, arriving_postRecord ..⟩

/-- An operation that nothing has ended stays. -/
theorem end_waits (hfin : (queueAt s k true).run.fin = none) (hfault : (queueAt s k true).run.fault = none) : exec (.engineOperationEnd k 2) s = .next s := by
  rw [exec_factorEnd (congrArg List.head? hcmds)]
  simp only [endFactor, hfin, hfault]
  rfl

end

/-- A pair whose stream's buffer load has been put in place. -/
def withLoad (p : Pair) : Option (Nat × Buf) → Pair
  | some (n, b) => { p with bufs := tset {} p.bufs n b }
  | none => p

theorem stream_withLoad (p : Pair) (l : Option (Nat × Buf)) (cp : Bool) : (withLoad p l).stream cp = p.stream cp := by
  cases l <;> cases cp <;> rfl

/-- A pair after a stream's operation has ended. -/
def endedPair (p : Pair) (cp : Bool) : Pair :=
  ((withLoad p (p.stream cp).load).setStream cp { p.stream cp with busy := false, load := none }).performed cp

theorem stream_endedPair (p : Pair) (cp : Bool) : (endedPair p cp).stream cp = { p.stream cp with busy := false, load := none } := by cases cp <;> rfl

theorem stream_endedPair_other (p : Pair) (cp : Bool) : (endedPair p cp).stream (!cp) = p.stream (!cp) := by
  rw [← stream_withLoad p (p.stream cp).load]
  cases cp <;> rfl

theorem bufs_endedPair (p : Pair) (cp : Bool) : (endedPair p cp).bufs = (withLoad p (p.stream cp).load).bufs := by cases cp <;> rfl

theorem bufs_endedPair_load {p : Pair} {cp : Bool} {n : Nat} {x : Buf} (hload : (p.stream cp).load = some (n, x)) : tget {} (endedPair p cp).bufs n = x := by
  rw [bufs_endedPair, hload]
  exact tget_tset ..

theorem bufs_endedPair_none {p : Pair} {cp : Bool} (hload : (p.stream cp).load = none) : (endedPair p cp).bufs = p.bufs := by
  rw [bufs_endedPair, hload]
  rfl

/-- What a performed operation adds to the counts and the ETS of its stream. -/
theorem counts_endedPair (p : Pair) (cp : Bool) : (endedPair p cp).kdone = p.kdone + (if cp then 1 else 0)
    ∧ (endedPair p cp).sdone = p.sdone + (if cp then 0 else 1) ∧ (endedPair p cp).kets = (if cp then max p.kets (p.stream cp).ctx.pts else p.kets)
    ∧ (endedPair p cp).sets = if cp then p.sets else max p.sets (p.stream cp).ctx.pts := by
  have hkeep : (withLoad p (p.stream cp).load).kdone = p.kdone ∧ (withLoad p (p.stream cp).load).sdone = p.sdone
      ∧ (withLoad p (p.stream cp).load).kets = p.kets ∧ (withLoad p (p.stream cp).load).sets = p.sets := by
    cases (p.stream cp).load <;> exact ⟨rfl, rfl, rfl, rfl⟩
  obtain ⟨hk, hs, hke, hse⟩ := hkeep
  cases cp
  · exact ⟨hk, congrArg (· + 1) hs, hke, congrArg (max · _) hse⟩
  · exact ⟨congrArg (· + 1) hk, hs, congrArg (max · _) hke, hse⟩

/-- The end of a stream's operation (R275). -/
theorem exec_streamEnd {cp : Bool} (hbusy : ((pairAt s k).stream cp).busy = true) :
    exec (.engineOperationEnd k (if cp then 1 else 0)) s = .next (confine s (putPair s k (endedPair (pairAt s k) cp))) := by
  cases cp <;> simp only [exec, execEngineOperationEnd, endStreamOp, hbusy, Bool.not_true, Bool.false_eq_true, if_false, if_true] <;> rfl

/-- An element that FWR refuses, the diagonal one named by its row alone. -/
theorem refused_iff (v : Nat → Nat → Nat) (i j : Nat) :
    (v i j / 2 ^ 23 % 256 = 255 ∨ (i = j ∧ (v i i = 0 ∨ 2 ^ 31 ≤ v i i))) ↔ Refused (i = j) (v i j) := by
  by_cases hij : i = j
  · subst hij
    rfl
  · simp [Refused, hij]

/-- Settles O33: each event by the checks of its slot and what it installs, each access by the rule of a read or a write at its unit, each end by what it
answers or posts. -/
theorem factorOperationsReadCheckInstallAndWrite : Obligations.FactorOperationsReadCheckInstallAndWrite := by
  unfold Obligations.FactorOperationsReadCheckInstallAndWrite
  refine ⟨?events, ?accesses, ?ends, ?streams⟩
  case events =>
    intro s k c r q hcmds hstarted hfin hfault h slot x commit run cell same others ok noStop
    have hf : FactorRun s k c := ⟨congrArg List.head? hcmds, hstarted, hfin, hfault⟩
    refine ⟨fun n lam hop hn hok => ?_, fun d n hop hn hpos hmax hok => ?_, fun d hop hn hok => fdia_empty hf hop hn hok,
      fun p b n hop he0 he1 hmin hmax hmul hpos hlen _ hstop hok => ⟨fun hgood => ?_, fun i j hi hj hbad hfirst => ?_⟩, fun hop => ?_, ?_⟩
    · obtain ⟨u, hu, hend, hinst⟩ := finit_installs hf hop hn hok
      exact ⟨u, hu, hend, hinst.order, hinst.cells, hinst.orders, hinst.others⟩
    · have hn : orderOf s (slotKey (hKey h) 4) = n := hn.symm
      obtain ⟨u, m, hu, hsame, hm, hleast, hvals, hend⟩ := fdia_takes hf hop (hn ▸ hpos) hok
      rw [hn] at hm hleast hvals
      exact ⟨u, m, hu, hsame, hm, fun j hj => ⟨(hleast j hj).1, fun hlt heq => (hleast j hj).2 hlt (congrArg BitVec.toNat heq)⟩, hvals, hend⟩
    · obtain ⟨u, hu, hend, hinst⟩ := fwr_installs hf hop he0.symm he1 hmin hmax hmul hpos hlen hstop hok fun i j hi hj =>
        mt (refused_iff (fun i j => q.run.vals[i * n + j]?.getD 0) i j).2 (hgood i j hi hj)
      exact ⟨u, hu, hinst.order, hinst.cells, hend, hinst.orders, hinst.others⟩
    · rw [← shapeExc_eq h 4 (show 64 * i + j < 65536 by omega)]
      exact fwr_refused hf hop he0.symm he1 hmin hmax hmul hpos hlen hstop hok hi hj ((refused_iff (fun i j => q.run.vals[i * n + j]?.getD 0) i j).1 hbad)
        fun i' j' hi' hj' hlt => mt (refused_iff (fun i j => q.run.vals[i * n + j]?.getD 0) i' j').2 (hfirst i' j' hi' hj' hlt)
    · have hop : Sweeps c.op h := hop
      refine ⟨fun hphase hpos hn he0 hmin hmax hok => ?_, fun hphase hmax _ hstop hok => ?_, fun hphase hstop => ?_⟩
      · exact ⟨fun res hstop hres => start_sweep_kept hf hop hphase hpos hn he0 hmin hmax hok hstop hres,
          fun res hstop hres => start_sweep_stopped hf hop hphase hpos hn he0 hmin hmax hok hstop hres,
          fun j m hres => start_sweep_fault hf hop hphase hpos hn he0 hmin hmax hok hres⟩
      · obtain ⟨u, hu, hend, hinst⟩ := sweep_installs hf hop hphase hmax hstop hok
        exact ⟨u, hu, hinst.order, hend, ⟨hinst.orders, hinst.others⟩, hinst.cells⟩
      · exact ⟨_, commit_sweep_stopped hf hop hphase hstop, sameSlots_ends .., fin_factorEnds ..⟩
    · exact fun e he hstop hop => commit_refused hf he hstop hop
  case accesses =>
    intro s k c r h p b q hcmds hop hsound hserved hqueued x n total slot step run addr solving placed reach cols pure stores
    have hop : Shaped c.op h p b := hop
    refine ⟨fun hstarted hheld hstop => ⟨fun hplaced => ?_, fun hfmt => ?_⟩, fun hplaced hreach hstarted hfin hfault hstop => ?_⟩
    · have hx := exec_startFactor (congrArg List.head? hcmds) hstarted
      obtain ⟨hfmt, hbank⟩ := hplaced
      rw [startFactor_shaped hop hheld hstop, if_neg (by simpa using hfmt), mshapePlaced_fp32 hfmt hbank] at hx
      exact ⟨_, hx, congrArg Queue.run (queueAt_putRun ..)⟩
    · have hx := exec_startFactor (congrArg List.head? hcmds) hstarted
      rw [startFactor_shaped hop hheld hstop, if_pos (by simpa using hfmt)] at hx
      exact ⟨_, hx, fault_factorFaults ..⟩
    · have hf : FactorRun s k c := ⟨congrArg List.head? hcmds, hstarted, hfin, hfault⟩
      obtain ⟨hfmt, hbank⟩ := hplaced
      obtain ⟨hscratch, hzero, hpresent, hwin⟩ := hreach
      have hr : FactorReach s k c p := ⟨hop.ptr s, hfmt, hbank, hscratch, hzero, hpresent, hwin, hsound, hserved, hqueued⟩
      refine ⟨fun hreads hpos => ?_, fun htakes hphase hok hn he0 he1 => ?_, fun hsolves hphase hn => ?_,
        fun hfrd hphase he1 hpos => ?_⟩
      · obtain ⟨u, hu, hmem, hnext⟩ := reads_next hf hr hreads hpos
        exact ⟨u, hu, fun a => congrArg (memByte · a) hmem, hnext⟩
      · obtain ⟨u, hu, hmem, hrun⟩ := takes_committed hf hop hfmt htakes hphase hok hn he0 he1
        exact ⟨u, hu, fun a => congrArg (memByte · a) hmem, hrun⟩
      · intro j i got hj
        have hbound : ∀ m, m < n → j * n + m < x.e0 * x.e1 := fun m hm => by
          have := Nat.mul_le_mul_left n (Nat.succ_le_of_lt hj)
          rw [Nat.mul_succ, Nat.mul_comm n j] at this
          exact Nat.lt_of_lt_of_le (Nat.add_lt_add_left hm _) this
        refine ⟨fun hi => ?_, fun hi => ?_⟩
        · obtain ⟨u, hu, hmem, hpos, hvals⟩ := solve_reads hf hr hphase hstop hsolves rfl rfl hi (hbound i hi)
          simp only [solver_eq hsolves] at hvals
          exact ⟨u, hu, fun a => congrArg (memByte · a) hmem, hpos, hvals⟩
        · have hlt : i < 2 * n := Nat.mod_lt _ (by omega)
          exact solve_writes hf hr hphase hstop hsolves rfl rfl hi (hbound (i - n) (by omega))
      · exact frd_writes hf hr hphase hstop hfrd hpos
  case ends =>
    intro s k c r q hcmds i popped replies posted
    have hpopped {u : State} (hu : Popped s u k r) : popped u := ⟨hu.1, fun a => congrArg (memByte · a) hu.2⟩
    refine ⟨end_waits hcmds, fun t hplain ht hfault hfin => ⟨fun hop => ?_, fun h d v hop hvals => ?_⟩, fun t st ca info hplain ht hfault hfin hst hop => ?_,
      fun t e info hplain ht hfault => ?_, fun st ca info hplain hfault hfin => ?_, fun e info hplain hfault => ?_⟩
    · obtain ⟨u, hu, hpop, hreply⟩ := end_replies hcmds (endFactor_answers hplain ht hfault hfin)
      rw [answerOf_other hop, if_pos rfl] at hreply
      exact ⟨u, hu, hpopped hpop, hreply⟩
    · obtain ⟨u, hu, hpop, hreply⟩ := end_replies hcmds (endFactor_answers hplain ht hfault hfin)
      rw [answerOf_fdia hop, hvals] at hreply
      exact ⟨u, hu, hpopped hpop, hreply⟩
    · obtain ⟨u, hu, hpop, hreply⟩ := end_replies hcmds (endFactor_answers hplain ht hfault hfin)
      rw [answerOf_other hop, if_neg hst] at hreply
      exact ⟨u, hu, hpopped hpop, hreply⟩
    · obtain ⟨u, hu, hpop, hreply⟩ := end_replies hcmds (endFactor_traps hplain ht hfault)
      exact ⟨u, hu, hpopped hpop, hreply⟩
    · obtain ⟨u, hu, hpop, hposted⟩ := end_posts hcmds (endFactor_posts hplain hfault hfin)
      exact ⟨u, hu, hpopped hpop, hposted⟩
    · obtain ⟨u, hu, hpop, hposted⟩ := end_posts hcmds (endFactor_posts_fault hplain hfault)
      simp only [beq_iff_eq] at hposted
      exact ⟨u, hu, hpopped hpop, hposted⟩
  case streams =>
    intro s k cp hbusy p x
    have hpair : pairAt (confine s (putPair s k (endedPair (pairAt s k) cp))) k = endedPair (pairAt s k) cp := pairAt_putPair ..
    refine ⟨_, exec_streamEnd hbusy, ?_⟩
    simp only [bufAt, hpair]
    exact ⟨stream_endedPair .., stream_endedPair_other .., fun n b hload _ => bufs_endedPair_load hload, bufs_endedPair_none, counts_endedPair ..⟩

end Sys2Proof.Machine
end

section
/-! PROOFS. Binding a free slot: what an attempt considers, ring by ring, and what a strand that is bound is (O42). -/

namespace Sys2Proof.Machine
open Sys2Proof

variable {s u v : State} {core slot p : Nat}

/-! ### Rings and bindings -/

theorem ringAt_putRing_ne (s : State) {c q : Nat} (h : q ≠ p) (r : List RingEntry) : ringAt (putRing s c p r) c q = ringAt s c q :=
  tget_tset_ne _ _ _ _ _ (by omega)

theorem nextGen_eq (g : Nat) : nextGen g = (let n := (g + 1) % 65536; if n = 0 then 1 else n) := by
  simp only [nextGen, beq_iff_eq]

theorem strandAt_bindSlot (s : State) (core slot : Nat) (t : Strand) :
    strandAt (bindSlot s core slot t) core slot = some { t with st := 0, wait := .none, got := [] } := strandAt_putStrand ..

theorem slotGenOf_bindSlot (s : State) (core slot : Nat) (t : Strand) : slotGenOf (bindSlot s core slot t) core slot = nextGen (slotGenOf s core slot) :=
  tget_tset ..

/-- A strand whose stepped instruction is still to complete, or that is not stepped, is bound as it is. -/
theorem arrive_eq (s : State) (core slot : Nat) {t : Strand} (ht : t.steps ≠ 2 ∨ (t.steps == 2 && t.stepPc == t.ctx.pc) = true) :
    arrive s core slot t = bindSlot s core slot { t with steps := if t.steps == 2 && t.stepPc == t.ctx.pc then 1 else t.steps } := by
  rw [arrive]
  by_cases hi : (t.steps == 2 && t.stepPc == t.ctx.pc) = true
  · rw [if_pos hi, if_pos hi]
  · rw [if_neg hi, if_neg hi, stepTrap_some (strandAt_bindSlot ..), if_neg fun h => ht.resolve_right hi h.1]

/-! ### The first attempt that does not leave the slot free -/

/-- Attempts that leave the slot free are passed over, what holds of the state being kept. -/
theorem firstBound_skip {σ α : Type} {f : σ → α → σ × Tried} (R : σ → Prop) : ∀ (l l' : List α) (a : σ), R a →
    (∀ a, R a → ∀ x ∈ l, ∃ b, f a x = (b, .free) ∧ R b) → ∃ b, R b ∧ firstBound f a (l ++ l') = firstBound f b l'
  | [], _, a, ha, _ => ⟨a, ha, rfl⟩
  | x :: l, l', a, ha, hskip => by
    obtain ⟨b, hb, hR⟩ := hskip a ha x List.mem_cons_self
    obtain ⟨w, hw, hrest⟩ := firstBound_skip R l l' b hR fun a ha y hy => hskip a ha y (List.mem_cons_of_mem _ hy)
    exact ⟨w, hw, by rw [List.cons_append, firstBound, hb]; exact hrest⟩

theorem firstBound_stop {σ α : Type} {f : σ → α → σ × Tried} {a b : σ} {x : α} (h : f a x = (b, .bound)) (l : List α) :
    firstBound f a (x :: l) = (b, .bound) := by
  rw [firstBound, h]

/-- The priorities of an attempt, those above `p` before it and those below after it. -/
theorem priorities_split : ∀ p < 16, (List.range 16).reverse = (List.range 16).reverse.take (15 - p) ++ p :: (List.range 16).reverse.drop (16 - p)
    ∧ (∀ q ∈ (List.range 16).reverse.take (15 - p), p < q ∧ q < 16) ∧ ∀ q ∈ (List.range 16).reverse.drop (16 - p), q < p := by decide

/-! ### Resident images (R95) -/

theorem tryResident_none (h : ∀ e ∈ ringAt s core p, RingEntry.isResident e = false) : tryResident s core slot p = (s, .free) := by
  rw [tryResident, findPos_eq_none h]

/-- The first resident image of a ring is bound. -/
theorem tryResident_some {t : Strand} {k n : Nat} (hn : (ringAt s core p)[n]? = some (.resume t k)) (ht : t.st ≠ 7)
    (hfirst : ∀ e ∈ (ringAt s core p).take n, RingEntry.isResident e = false) :
    tryResident s core slot p = (arrive (putRing s core p ((ringAt s core p).eraseIdx n)) core slot t, .bound) := by
  have hfind := findPos_eq_some (p := RingEntry.isResident) hn (by simp [RingEntry.isResident, ht])
    (fun k y hk hy => hfirst y (List.mem_take_iff_getElem.2 ⟨k, by
      have := (List.getElem?_eq_some_iff.1 hy).1
      exact Nat.lt_min.2 ⟨hk, this⟩, (List.getElem?_eq_some_iff.1 hy).2⟩)) 0
  rw [Nat.zero_add] at hfind
  rw [← dropAt_eq_eraseIdx, tryResident, hfind]

/-- With a resident image in ring `p` and none in a ring above, the attempt binds it. -/
theorem tryBind_resident {t : Strand} {k n : Nat} (hp : p < 16) (hn : (ringAt s core p)[n]? = some (.resume t k)) (ht : t.st ≠ 7)
    (hfirst : ∀ e ∈ (ringAt s core p).take n, RingEntry.isResident e = false)
    (habove : ∀ q, p < q → q < 16 → ∀ e ∈ ringAt s core q, RingEntry.isResident e = false) :
    tryBind s core slot = (arrive (putRing s core p ((ringAt s core p).eraseIdx n)) core slot t, .bound) := by
  obtain ⟨hsplit, hlow, -⟩ := priorities_split p hp
  obtain ⟨b, rfl, hreach⟩ := firstBound_skip (f := fun s p => tryResident s core slot p) (· = s) _
    (p :: (List.range 16).reverse.drop (16 - p)) s rfl fun a ha q hq => ⟨s, by rw [ha]; exact tryResident_none (habove q (hlow q hq).1 (hlow q hq).2), rfl⟩
  rw [← hsplit, firstBound_stop (tryResident_some hn ht hfirst)] at hreach
  rw [tryBind, hreach]

theorem makeRoom_room (h : imagesHeld s core < 32) : makeRoom s core = (s, true) := if_pos h

/-- With no resident image and room in the context cache the attempt goes through the rings and stage queues. -/
theorem tryBind_levels (hres : ∀ q, q < 16 → ∀ e ∈ ringAt s core q, RingEntry.isResident e = false) (hroom : imagesHeld s core < 32) :
    tryBind s core slot = ((firstBound (tryLevel core slot) (s, []) (List.range 16).reverse).1.1, (firstBound (tryLevel core slot) (s, []) (List.range 16).reverse).2) := by
  obtain ⟨b, rfl, hreach⟩ := firstBound_skip (f := fun s p => tryResident s core slot p) (· = s) (List.range 16).reverse [] s rfl fun a ha q hq =>
    ⟨s, by rw [ha]; exact tryResident_none (hres q (List.mem_range.1 (List.mem_reverse.1 hq))), rfl⟩
  rw [List.append_nil] at hreach
  simp only [tryBind, hreach, firstBound, makeRoom_room hroom]

/-! ### Levels (R300) -/

/-- A state that differs in how the table of rings is written down alone. -/
def SameRings (s u : State) : Prop := ∃ r, u = { s with core.rings := r } ∧ ∀ k, tget [] r k = tget [] s.core.rings k

theorem SameRings.refl (s : State) : SameRings s s := ⟨s.core.rings, rfl, fun _ => rfl⟩

theorem SameRings.ringAt_eq (h : SameRings s u) (c q : Nat) : ringAt u c q = ringAt s c q := by
  obtain ⟨r, rfl, hr⟩ := h
  exact hr _

/-- An empty ring written again. -/
theorem SameRings.putRing_nil (h : SameRings s u) {q : Nat} (hq : ringAt s core q = []) : SameRings s (putRing u core q []) := by
  obtain ⟨r, rfl, hr⟩ := h
  refine ⟨_, rfl, fun k => ?_⟩
  by_cases hk : k = core * 16 + q
  · subst hk
    exact (tget_tset ..).trans hq.symm
  · exact (tget_tset_ne _ _ _ _ _ hk).trans (hr k)

/-- No stage is served by the cluster of the core. -/
def NoStages (s : State) (core : Nat) : Prop := ∀ e ∈ s.work.launches, ∀ g ∈ e.2.stages, core / 4 ∉ g.clusters

theorem servedStages_nil (h : NoStages s core) : servedStages s (clusterOf core) = [] := by
  rw [servedStages, List.flatMap_eq_nil_iff]
  intro e he
  rw [List.map_eq_nil_iff, List.filter_eq_nil_iff]
  intro k _
  cases hg : e.2.stages[k]? with
  | none => simp
  | some g => simpa [clusterOf] using h e he g (List.mem_of_getElem? hg)

theorem tryLevel_bound {a : Sparse Nat} (h : tryRing s core slot p = (u, .bound)) : tryLevel core slot (s, a) p = ((u, a), .bound) := by
  simp only [tryLevel, h]

theorem tryLevel_free {a : Sparse Nat} (h : tryRing s core slot p = (u, .free)) (hs : NoStages u core) : tryLevel core slot (s, a) p = ((u, a), .free) := by
  simp only [tryLevel, h, servedStages_nil hs, firstBound]

theorem tryRing_nil (h : ringAt s core p = []) : tryRing s core slot p = (putRing s core p [], .free) := by
  simp only [tryRing, h, walkRing, List.append_nil]

/-- Levels whose rings are empty are passed over. -/
theorem levels_skip {l : List Nat} (hempty : ∀ q ∈ l, ringAt s core q = []) (hs : NoStages s core) (l' : List Nat) :
    ∃ u, SameRings s u ∧ firstBound (tryLevel core slot) (s, []) (l ++ l') = firstBound (tryLevel core slot) (u, []) l' := by
  obtain ⟨⟨u, a⟩, ⟨hu, rfl⟩, hreach⟩ := firstBound_skip (f := tryLevel core slot) (fun a => SameRings s a.1 ∧ a.2 = []) l l' (s, []) ⟨.refl s, rfl⟩ <| by
    rintro ⟨a, m⟩ ⟨ha, rfl⟩ q hq
    have hput := ha.putRing_nil (hempty q hq)
    refine ⟨(putRing a core q [], []), tryLevel_free (tryRing_nil ?_) ?_, hput, rfl⟩
    · rw [ha.ringAt_eq, hempty q hq]
    · obtain ⟨r, rfl, -⟩ := ha
      exact hs
  exact ⟨u, hu, hreach⟩

section
variable (hp : p < 16) (hres : ∀ q, q < 16 → ∀ e ∈ ringAt s core q, RingEntry.isResident e = false) (hroom : imagesHeld s core < 32)
  (habove : ∀ q, p < q → q < 16 → ringAt s core q = []) (hs : NoStages s core)
include hp hres hroom habove hs

/-- The attempt binds what ring `p` has, those above being empty. -/
theorem tryBind_bound {e : List RingEntry} (he : ringAt s core p = e) (hring : ∀ u, SameRings s u → ∃ v r, walkRing core slot u e [] [] = (v, r, .bound)) :
    ∃ u v r, SameRings s u ∧ walkRing core slot u e [] [] = (v, r, .bound) ∧ tryBind s core slot = (putRing v core p r, .bound) := by
  obtain ⟨hsplit, hhigh, -⟩ := priorities_split p hp
  obtain ⟨u, hu, hreach⟩ := levels_skip (slot := slot) (fun q hq => habove q (hhigh q hq).1 (hhigh q hq).2) hs (p :: (List.range 16).reverse.drop (16 - p))
  obtain ⟨v, r, hwalk⟩ := hring u hu
  have htry : tryRing u core slot p = (putRing v core p r, .bound) := by
    rw [tryRing, hu.ringAt_eq, he, hwalk]
  rw [← hsplit, firstBound_stop (tryLevel_bound htry)] at hreach
  exact ⟨u, v, r, hu, hwalk, by rw [tryBind_levels hres hroom, hreach]⟩

/-- The attempt leaves the slot free when ring `p` does and no other ring has an entry. -/
theorem tryBind_free {e : List RingEntry} (he : ringAt s core p = e) (hbelow : ∀ q, q < p → ringAt s core q = [])
    (hring : ∀ u, SameRings s u → ∃ v r, walkRing core slot u e [] [] = (v, r, .free) ∧ v.core.rings = u.core.rings ∧ v.work.launches = u.work.launches) :
    ∃ u v r w, SameRings s u ∧ walkRing core slot u e [] [] = (v, r, .free) ∧ SameRings (putRing v core p r) w ∧ tryBind s core slot = (w, .free) := by
  obtain ⟨hsplit, hhigh, hlow⟩ := priorities_split p hp
  obtain ⟨u, hu, hreach⟩ := levels_skip (slot := slot) (fun q hq => habove q (hhigh q hq).1 (hhigh q hq).2) hs (p :: (List.range 16).reverse.drop (16 - p))
  obtain ⟨v, r, hwalk, hrings, hlaunches⟩ := hring u hu
  have htry : tryRing u core slot p = (putRing v core p r, .free) := by
    rw [tryRing, hu.ringAt_eq, he, hwalk]
  have hstages : NoStages (putRing v core p r) core := by
    obtain ⟨x, rfl, -⟩ := hu
    show ∀ e ∈ v.work.launches, _
    rw [hlaunches]
    exact hs
  have hempty : ∀ q ∈ (List.range 16).reverse.drop (16 - p), ringAt (putRing v core p r) core q = [] := fun q hq => by
    rw [ringAt_putRing_ne v (hlow q hq).ne r, ringAt, hrings]
    exact (hu.ringAt_eq core q).trans (hbelow q (hlow q hq))
  obtain ⟨w, hw, hend⟩ := levels_skip (slot := slot) hempty hstages []
  rw [← hsplit, firstBound, tryLevel_free htry hstages] at hreach
  rw [List.append_nil] at hend
  refine ⟨u, v, r, w, hu, hwalk, hw, ?_⟩
  rw [tryBind_levels hres hroom, hreach]
  simp only [hend, firstBound]

end

variable {s u v : State} {core slot p k : Nat} {r : Rec} {since pushed : Nat} {resp : Option (Nat × Nat)} {rs : Option (List Tag)}

/-! ### A record considered (R300 steps 1 to 5) -/

/-- The record's launch runs, and no token at the core matches the record. -/
def Runs (s : State) (core : Nat) (r : Rec) : Prop :=
  filtered s core r = false ∧ liveHandle s (launchAt s r.launch.toNat).ctxh = true ∧ (launchAt s r.launch.toNat).st ≠ 0

/-- Region `k` is the launch's lowest that is free. -/
def FreeRegion (l : Launch) (k : Nat) : Prop := k < l.rgn ∧ k ∉ l.used ∧ ∀ i, i < k → i ∈ l.used

theorem leastFrom_first {q : Nat → Bool} : ∀ {fuel i j : Nat}, i ≤ j → j < i + fuel → q j = true → (∀ n, i ≤ n → n < j → q n = false) → leastFrom q i fuel = some j
  | 0, i, j, hle, hlt, _, _ => by omega
  | fuel + 1, i, j, hle, hlt, hj, hfirst => by
    rw [leastFrom]
    obtain rfl | hne := eq_or_ne i j
    · rw [if_pos hj]
    · rw [if_neg (by rw [hfirst i le_rfl (by omega)]; simp)]
      exact leastFrom_first (by omega) (by omega) hj fun n hn => hfirst n (by omega)

theorem freeRegionOf_some {l : Launch} (h : FreeRegion l k) : freeRegionOf l = some k := by
  obtain ⟨hlt, hfree, hused⟩ := h
  exact leastFrom_first (Nat.zero_le k) (by omega) (by simpa using hfree) fun n _ hn => by simpa using hused n hn

theorem freeRegionOf_none {l : Launch} (h : ∀ k, k < l.rgn → k ∈ l.used) : freeRegionOf l = none := by
  cases hk : freeRegionOf l with
  | none => rfl
  | some k =>
    obtain ⟨-, hlt, hfree, -⟩ := leastFrom_eq_some hk
    have hused := h k (by omega)
    simp [hused] at hfree

theorem runs_test (h : Runs s core r) :
    (filtered s core r || !liveHandle s (launchAt s r.launch.toNat).ctxh || (launchAt s r.launch.toNat).st == 0) = false := by
  obtain ⟨hf, hl, hst⟩ := h
  simp [hf, hl, hst]

/-- The state in which a record is bound in region `k` of its launch. -/
def startedIn (s : State) (core slot : Nat) (r : Rec) (pushed : Nat) (resp : Option (Nat × Nat)) (rs : Option (List Tag)) (k : Nat) : State :=
  bindSlot (putLaunch s r.launch.toNat { launchAt s r.launch.toNat with used := (launchAt s r.launch.toNat).used ++ [k] }) core slot
    (startStrand (launchAt s r.launch.toNat) r pushed resp rs k)

theorem consider_bound (hr : Runs s core r) (hw : withheld s core = false) (hk : FreeRegion (launchAt s r.launch.toNat) k) :
    consider s core slot (.record r since pushed resp rs) = .bound (startedIn s core slot r pushed resp rs k) := by
  simp only [consider, runs_test hr, hw, freeRegionOf_some hk, Bool.false_eq_true, if_false, startedIn]

theorem consider_full (hr : Runs s core r) (hw : withheld s core = false)
    (hk : ∀ k, k < (launchAt s r.launch.toNat).rgn → k ∈ (launchAt s r.launch.toNat).used) : consider s core slot (.record r since pushed resp rs) = .toTail := by
  simp only [consider, runs_test hr, hw, freeRegionOf_none hk, Bool.false_eq_true, if_false]

theorem consider_withheld (hr : Runs s core r) (hw : withheld s core = true) : consider s core slot (.record r since pushed resp rs) = .held s := by
  simp only [consider, runs_test hr, hw, Bool.false_eq_true, if_false, if_true]

theorem consider_dropped (hr : ¬ Runs s core r) :
    consider s core slot (.record r since pushed resp rs) = .dropped (orphan (unitEnds s r pushed 0 resp) (rs.getD [])) := by
  have htest : (filtered s core r || !liveHandle s (launchAt s r.launch.toNat).ctxh || (launchAt s r.launch.toNat).st == 0) = true := by
    rw [← Bool.not_eq_false]
    intro h
    simp only [Bool.or_eq_false_iff, Bool.not_eq_false', beq_eq_false_iff_ne] at h
    exact hr ⟨h.1.1, h.1.2, h.2⟩
  simp only [consider, htest, if_true]

/-! ### The walk of a ring whose first entry decides -/

theorem walkRing_bound {e : RingEntry} (h : consider s core slot e = .bound u) (es kept tail : List RingEntry) :
    walkRing core slot s (e :: es) kept tail = (u, kept ++ es ++ tail, .bound) := by
  rw [walkRing, h]

theorem walkRing_toTail {e : RingEntry} (h : consider s core slot e = .toTail) (es kept tail : List RingEntry) :
    walkRing core slot s (e :: es) kept tail = walkRing core slot s es kept (tail ++ [e]) := by
  rw [walkRing, h]

theorem walkRing_held {e : RingEntry} (h : consider s core slot e = .held u) (es kept tail : List RingEntry) :
    walkRing core slot s (e :: es) kept tail = walkRing core slot u es (kept ++ [e]) tail := by
  rw [walkRing, h]

theorem walkRing_dropped {e : RingEntry} (h : consider s core slot e = .dropped u) (es kept tail : List RingEntry) :
    walkRing core slot s (e :: es) kept tail = walkRing core slot u es kept tail := by
  rw [walkRing, h]

theorem SameRings.runs (h : SameRings s u) (hr : Runs s core r) : Runs u core r := by
  obtain ⟨x, rfl, -⟩ := h
  exact hr

theorem SameRings.not_runs (h : SameRings s u) (hr : ¬ Runs s core r) : ¬ Runs u core r := by
  obtain ⟨x, rfl, -⟩ := h
  exact hr

theorem SameRings.withheld_eq (h : SameRings s u) (c : Nat) : withheld u c = withheld s c := by
  obtain ⟨x, rfl, -⟩ := h
  rfl

theorem SameRings.launchAt_eq (h : SameRings s u) (n : Nat) : launchAt u n = launchAt s n := by
  obtain ⟨x, rfl, -⟩ := h
  rfl

theorem SameRings.slotGenOf_eq (h : SameRings s u) (c i : Nat) : slotGenOf u c i = slotGenOf s c i := by
  obtain ⟨x, rfl, -⟩ := h
  rfl

theorem SameRings.work_eq (h : SameRings s u) : u.work = s.work := by
  obtain ⟨x, rfl, -⟩ := h
  rfl

/-! ### The strand that a record starts -/

/-- The registers of a strand that starts: g0 its FRAME, g15 the top of the region it binds. -/
theorem startRegs_get (a b : Word) (i : GReg) :
    (((Vector.replicate 16 (0 : Word)).set 0 a).set 15 b).get i = if i = 0 then a else if i = 15 then b else 0 := by
  rw [Vector.get_eq_getElem, Vector.getElem_set, Vector.getElem_set, Vector.getElem_replicate]
  by_cases h0 : i = 0
  · subst h0
    rfl
  · by_cases h15 : i = 15
    · subst h15
      rfl
    · have hne0 : (0 : Nat) ≠ i.val := fun h => h0 (Fin.ext h.symm)
      have hne15 : (15 : Nat) ≠ i.val := fun h => h15 (Fin.ext h.symm)
      rw [if_neg hne15, if_neg hne0, if_neg h0, if_neg h15]

/-! ### SLOT_BIND -/

section
variable (hcore : corePresent s core = true) (hslot : slot < 16) (hfree : slotFree s core slot = true) (hidle : core ∉ s.core.idle)
include hcore hslot hfree hidle

theorem exec_slotBind_bound (h : tryBind s core slot = (u, .bound)) : exec (.slotBind core slot) s = .next (confine s u) := by
  have hcontains : s.core.idle.contains core = false := by simpa using hidle
  simp only [exec, execSlotBind, hcore, hslot, hfree, hcontains, h, decide_true, Bool.and_self, Bool.not_false, if_true]

/-- An attempt that binds nothing leaves its core idle. -/
theorem exec_slotBind_free (h : tryBind s core slot = (u, .free)) (hu : u.core.idle = s.core.idle) :
    exec (.slotBind core slot) s = .next (confine s { u with core.idle := u.core.idle ++ [core] }) := by
  have hcontains : s.core.idle.contains core = false := by simpa using hidle
  simp only [exec, execSlotBind, hcore, hslot, hfree, hcontains, h, hu, decide_true, Bool.and_self, Bool.not_false, if_true, Bool.false_eq_true, if_false]

/-- A resident image is bound before any record (R95). -/
theorem slotBind_resident {t : Strand} {m n : Nat} (hp : p < 16) (hn : (ringAt s core p)[n]? = some (.resume t m)) (ht : t.st ≠ 7)
    (hsteps : t.steps ≠ 2 ∨ (t.steps == 2 && t.stepPc == t.ctx.pc) = true) (hfirst : ∀ e ∈ (ringAt s core p).take n, RingEntry.isResident e = false)
    (habove : ∀ q, p < q → q < 16 → ∀ e ∈ ringAt s core q, RingEntry.isResident e = false) : ∃ u, exec (.slotBind core slot) s = .next u
      ∧ (strandAt u core slot = some { t with st := 0, wait := .none, got := [], steps := if t.steps == 2 && t.stepPc == t.ctx.pc then 1 else t.steps }
        ∧ slotGenOf u core slot = nextGen (slotGenOf s core slot)) ∧ ringAt u core p = (ringAt s core p).eraseIdx n := by
  have htry := tryBind_resident (slot := slot) hp hn ht hfirst habove
  rw [arrive_eq _ _ _ hsteps] at htry
  exact ⟨_, exec_slotBind_bound hcore hslot hfree hidle htry, ⟨strandAt_bindSlot .., slotGenOf_bindSlot ..⟩, ringAt_putRing ..⟩

section
variable (hp : p < 16) (hres : ∀ q, q < 16 → ∀ e ∈ ringAt s core q, RingEntry.isResident e = false) (hroom : imagesHeld s core < 32)
  (habove : ∀ q, p < q → q < 16 → ringAt s core q = []) (hs : NoStages s core)
include hp hres hroom habove hs

/-- A record that the walk of its ring comes to is bound. -/
theorem slotBind_record {es left : List RingEntry} (hes : ringAt s core p = es)
    (hwalk : ∀ u, SameRings s u → walkRing core slot u es [] [] = (startedIn u core slot r pushed resp rs k, left, .bound)) :
    ∃ u, SameRings s u ∧ exec (.slotBind core slot) s = .next (confine s (putRing (startedIn u core slot r pushed resp rs k) core p left)) := by
  obtain ⟨u, v, x, hu, hv, htry⟩ := tryBind_bound (slot := slot) hp hres hroom habove hs hes fun u hu => ⟨_, _, hwalk u hu⟩
  rw [hwalk u hu, Prod.mk.injEq, Prod.mk.injEq] at hv
  obtain ⟨rfl, rfl, -⟩ := hv
  exact ⟨u, hu, exec_slotBind_bound hcore hslot hfree hidle htry⟩

/-- A walk that binds nothing leaves the slot free and the core idle. -/
theorem slotBind_free {es left : List RingEntry} (hes : ringAt s core p = es) (hbelow : ∀ q, q < p → ringAt s core q = []) (f : State → State)
    (hf : ∀ u, (f u).core = u.core ∧ (f u).work.launches = u.work.launches) (hwalk : ∀ u, SameRings s u → walkRing core slot u es [] [] = (f u, left, .free)) :
    ∃ u, exec (.slotBind core slot) s = .next u ∧ strandAt u core slot = none ∧ ringAt u core p = left ∧ core ∈ u.core.idle
      ∧ ∃ x, SameRings s x ∧ u.work = (f x).work := by
  obtain ⟨x, v, y, w, hx, hv, hw, htry⟩ := tryBind_free (slot := slot) hp hres hroom habove hs hes hbelow fun u hu =>
    ⟨_, _, hwalk u hu, congrArg CorePart.rings (hf u).1, (hf u).2⟩
  rw [hwalk x hx, Prod.mk.injEq, Prod.mk.injEq] at hv
  obtain ⟨rfl, rfl, -⟩ := hv
  have hring := hw.ringAt_eq core p
  rw [ringAt_putRing] at hring
  obtain ⟨z, rfl, -⟩ := hw
  have hcorex : x.core.idle = s.core.idle ∧ x.core.slots = s.core.slots := by
    obtain ⟨z, rfl, -⟩ := hx
    exact ⟨rfl, rfl⟩
  have hcorefx : (f x).core.idle = s.core.idle ∧ (f x).core.slots = s.core.slots := by rw [(hf x).1]; exact hcorex
  refine ⟨_, exec_slotBind_free hcore hslot hfree hidle htry hcorefx.1, ?_, hring, List.mem_append_right _ List.mem_cons_self, x, hx, rfl⟩
  rw [slotFree, Bool.and_eq_true, Option.isNone_iff_eq_none] at hfree
  exact (congrArg (tfind · (core * 16 + slot)) hcorefx.2).trans hfree.2

end

end

/-- What the strand that a record starts leaves in its slot and its launch. -/
theorem startedIn_facts (s v : State) (core slot p : Nat) (r : Rec) (pushed : Nat) (resp : Option (Nat × Nat)) (rs : Option (List Tag)) (k : Nat) (left : List RingEntry) :
    let u := confine v (putRing (startedIn s core slot r pushed resp rs k) core p left)
    strandAt u core slot = some { startStrand (launchAt s r.launch.toNat) r pushed resp rs k with st := 0, wait := .none, got := [] }
      ∧ slotGenOf u core slot = nextGen (slotGenOf s core slot)
      ∧ (launchAt u r.launch.toNat).used = (launchAt s r.launch.toNat).used ++ [k] ∧ ringAt u core p = left :=
  ⟨strandAt_bindSlot .., slotGenOf_bindSlot _ core slot (startStrand (launchAt s r.launch.toNat) r pushed resp rs k), congrArg Launch.used (launchAt_putLaunch s r.launch.toNat _), ringAt_putRing ..⟩

section
variable {s : State} {core slot p : Nat} {r : Rec} {since pushed : Nat} {resp : Option (Nat × Nat)} {rs : Option (List Tag)} {rest : List RingEntry}
  (hcore : corePresent s core = true) (hslot : slot < 16) (hfree : slotFree s core slot = true) (hidle : core ∉ s.core.idle) (hp : p < 16)
  (hring : ringAt s core p = .record r since pushed resp rs :: rest) (hres : ∀ q, q < 16 → ∀ e ∈ ringAt s core q, RingEntry.isResident e = false)
  (hroom : imagesHeld s core < 32) (habove : ∀ q, p < q → q < 16 → ringAt s core q = []) (hs : NoStages s core)
include hcore hslot hfree hidle hp hring hres hroom habove hs

/-- The record at the head of the highest ring starts its strand. -/
theorem slotBind_starts {k : Nat} (hr : Runs s core r) (hw : withheld s core = false) (hk : FreeRegion (launchAt s r.launch.toNat) k) :
    ∃ u, exec (.slotBind core slot) s = .next u
      ∧ strandAt u core slot = some { startStrand (launchAt s r.launch.toNat) r pushed resp rs k with st := 0, wait := .none, got := [] }
      ∧ slotGenOf u core slot = nextGen (slotGenOf s core slot) ∧ (launchAt u r.launch.toNat).used = (launchAt s r.launch.toNat).used ++ [k] ∧ ringAt u core p = rest := by
  obtain ⟨x, hx, hexec⟩ := slotBind_record hcore hslot hfree hidle hp hres hroom habove hs hring fun u hu =>
    walkRing_bound (consider_bound (hu.runs hr) ((hu.withheld_eq core).trans hw) ((hu.launchAt_eq _).symm ▸ hk)) rest [] []
  rw [List.nil_append, List.append_nil] at hexec
  refine ⟨_, hexec, ?_⟩
  have hfacts := startedIn_facts x s core slot p r pushed resp rs k rest
  rw [hx.launchAt_eq, hx.slotGenOf_eq] at hfacts
  exact hfacts

/-- A record that no longer runs is dropped, and its unit ends. -/
theorem slotBind_drops (hr : ¬ Runs s core r) (hresp : resp = none) (hrest : rest = []) (hbelow : ∀ q, q < p → ringAt s core q = []) :
    ∃ u, exec (.slotBind core slot) s = .next u ∧ strandAt u core slot = none ∧ ringAt u core p = [] ∧ core ∈ u.core.idle
      ∧ u.work.ends = s.work.ends ++ [{ launch := r.launch.toNat, ts := pushed, cause := 0 }] := by
  subst hresp hrest
  obtain ⟨u, hu, hnone, hleft, hidle', x, hx, hwork⟩ := slotBind_free hcore hslot hfree hidle hp hres hroom habove hs hring hbelow
    (fun u => orphan (unitEnds u r pushed 0 none) (rs.getD [])) (fun _ => ⟨rfl, rfl⟩) fun u hu => walkRing_dropped (consider_dropped (hu.not_runs hr)) [] [] []
  exact ⟨u, hu, hnone, hleft, hidle', by rw [hwork, ← hx.work_eq]; rfl⟩

/-- A record of a withheld core, or of a launch with no free region, stays. -/
theorem slotBind_keeps (hr : Runs s core r) (hrest : rest = []) (hbelow : ∀ q, q < p → ringAt s core q = [])
    (hkeep : withheld s core = true ∨ ∀ k, k < (launchAt s r.launch.toNat).rgn → k ∈ (launchAt s r.launch.toNat).used) :
    ∃ u, exec (.slotBind core slot) s = .next u ∧ strandAt u core slot = none ∧ ringAt u core p = ringAt s core p ∧ core ∈ u.core.idle
      ∧ u.work.ends = s.work.ends := by
  subst hrest
  obtain ⟨u, hu, hnone, hleft, hidle', x, hx, hwork⟩ := slotBind_free hcore hslot hfree hidle hp hres hroom habove hs hring hbelow id (fun _ => ⟨rfl, rfl⟩)
    (left := [.record r since pushed resp rs]) fun u hu => by
      by_cases hw : withheld s core = true
      · rw [walkRing_held (consider_withheld (hu.runs hr) ((hu.withheld_eq core).trans hw))]
        rfl
      · have hw : withheld s core = false := by simpa using hw
        rw [walkRing_toTail (consider_full (hu.runs hr) ((hu.withheld_eq core).trans hw)
          (by rw [hu.launchAt_eq]; exact hkeep.resolve_left (by simp [hw])))]
        rfl
  exact ⟨u, hu, hnone, hleft.trans hring.symm, hidle', by rw [hwork, ← hx.work_eq]; rfl⟩

/-- A record of a launch with no free region goes to the tail, and the next one is bound. -/
theorem slotBind_second {r2 : Rec} {since2 pushed2 k : Nat} {resp2 : Option (Nat × Nat)} {rs2 : Option (List Tag)} (hr : Runs s core r)
    (hw : withheld s core = false) (hfull : ∀ k, k < (launchAt s r.launch.toNat).rgn → k ∈ (launchAt s r.launch.toNat).used)
    (hrest : rest = [.record r2 since2 pushed2 resp2 rs2]) (hr2 : Runs s core r2) (hk : FreeRegion (launchAt s r2.launch.toNat) k) :
    ∃ u, exec (.slotBind core slot) s = .next u
      ∧ strandAt u core slot = some { startStrand (launchAt s r2.launch.toNat) r2 pushed2 resp2 rs2 k with st := 0, wait := .none, got := [] }
      ∧ slotGenOf u core slot = nextGen (slotGenOf s core slot) ∧ ringAt u core p = [.record r since pushed resp rs] := by
  subst hrest
  obtain ⟨x, hx, hexec⟩ := slotBind_record hcore hslot hfree hidle hp hres hroom habove hs hring fun u hu => by
    rw [walkRing_toTail (consider_full (hu.runs hr) ((hu.withheld_eq core).trans hw) (by rw [hu.launchAt_eq]; exact hfull))]
    exact walkRing_bound (consider_bound (hu.runs hr2) ((hu.withheld_eq core).trans hw) ((hu.launchAt_eq _).symm ▸ hk)) [] [] _
  have hfacts := startedIn_facts x s core slot p r2 pushed2 resp2 rs2 k [.record r since pushed resp rs]
  rw [hx.launchAt_eq, hx.slotGenOf_eq] at hfacts
  obtain ⟨hstrand, hgen, -, hleft⟩ := hfacts
  exact ⟨_, hexec, hstrand, hgen, hleft⟩

end

end Sys2Proof.Machine
end

section
/-! PROOFS. Promotion, pre-emption, displacement and arrival: how strands and records leave a slot or a ring and take another (O42). -/

namespace Sys2Proof.Machine
open Sys2Proof

variable {s u w : State} {core slot p n : Nat} {t : Strand}

/-! ### Promotion (R300) -/

/-- The entry is a record that has waited 4,096 ticks. -/
def longWaiting (dt : Nat) : RingEntry → Bool
  | RingEntry.record _ since _ _ _ => decide (since + 4096 ≤ dt)
  | _ => false

/-- The first record that has waited long goes to the tail of the next ring up, where there is room. -/
theorem exec_promotion {r : Rec} {since pushed : Nat} {resp : Option (Nat × Nat)} {rs : Option (List Tag)} (hp : p < 15)
    (hn : (ringAt s core p)[n]? = some (.record r since pushed resp rs)) (hlong : since + 4096 ≤ localDt s core)
    (hfirst : ∀ e ∈ (ringAt s core p).take n, longWaiting (localDt s core) e = false) (hroom : ringFull s none core (p + 1) = false) :
    exec (.recordPromotion core p) s = .next (confine s (putRing (putRing s core p ((ringAt s core p).eraseIdx n)) core (p + 1)
      (ringAt s core (p + 1) ++ [.record r (localDt s core) pushed resp rs]))) := by
  simp only [exec, execRecordPromotion, hp, if_true]
  rw [findPos_eq_some (i := 0) hn ?long ?first, Nat.zero_add]
  case long => exact decide_eq_true hlong
  case first =>
    intro k y hk hy
    obtain ⟨hlt, hget⟩ := List.getElem?_eq_some_iff.1 hy
    have hy := hfirst y (List.mem_take_iff_getElem.2 ⟨k, Nat.lt_min.2 ⟨hk, hlt⟩, hget⟩)
    cases y with
    | record => exact hy
    | resume => rfl
  simp only [hroom, Bool.false_eq_true, if_false, dropAt_eq_eraseIdx]

/-! ### Pre-emption (R96) -/

/-- A strand of the launch is marked evictable. -/
def marked (n : Nat) (t : Strand) : Strand := if t.record.launch.toNat == n then { t with evict := true } else t

theorem strandAt_preEmption (ht : strandAt s core slot = some t) : ∃ u, exec (.preEmption n) s = .next u
    ∧ strandAt u core slot = some { t with evict := t.evict || (t.record.launch.toNat == n) } := by
  refine ⟨_, rfl, (tfind_map s.core.slots (marked n) (core * 16 + slot)).trans ?_⟩
  have ht : tfind s.core.slots (core * 16 + slot) = some t := ht
  rw [ht, Option.map_some, marked]
  by_cases hl : (t.record.launch.toNat == n) = true
  · rw [if_pos hl, hl, Bool.or_true]
  · rw [if_neg hl, Bool.not_eq_true _ |>.mp hl, Bool.or_false]

/-! ### An image stored (R96) -/

/-- A state that a store of an image can lead to but for the bytes: L1, L2 and the homes, the pages' counts, the choice of victims. -/
def Caches (s u : State) : Prop := ∃ h p f, u = { s with coh := h, page := p, fresh := f }

theorem Caches.refl (s : State) : Caches s s := ⟨s.coh, s.page, s.fresh, rfl⟩

theorem Caches.trans (h : Caches s u) (h' : Caches u w) : Caches s w := by
  obtain ⟨a, b, c, rfl⟩ := h
  obtain ⟨a', b', c', rfl⟩ := h'
  exact ⟨a', b', c', rfl⟩

/-- Steps each of which changes caches alone change caches alone. -/
theorem Caches.foldl {α : Type} {f : State → α → State} (hf : ∀ s a, Caches s (f s a)) (l : List α) (s : State) : Caches s (l.foldl f s) :=
  List.foldlRecOn l f (Caches.refl s) fun u hu a _ => hu.trans (hf u a)

theorem caches_putDir (s : State) (k : Nat) (d : Dir) : Caches s (putDir s k d) := ⟨_, s.page, s.fresh, rfl⟩

theorem caches_victimLeaves (s : State) (line : Nat) : Caches s (victimLeaves s line) :=
  (show Caches s { s with coh.writebacks := s.coh.writebacks ++ [line] } from ⟨_, s.page, s.fresh, rfl⟩).trans
    (Caches.foldl (fun u _ => ⟨_, u.page, u.fresh, rfl⟩) _ _)

theorem caches_l2Room (s : State) (sec : Nat) : Caches s (l2Room s sec) := by
  unfold l2Room
  split
  · extract_lets vs
    split
    · exact (show Caches s { s with fresh := s.fresh + 1 } from ⟨s.coh, s.page, _, rfl⟩).trans (caches_victimLeaves ..)
    · exact .refl s
  · exact .refl s

theorem caches_countHot (s : State) (pa die : Nat) : Caches s (countHot s pa die) := by
  obtain ⟨h, hc⟩ := countHot_eq s pa die
  exact ⟨s.coh, _, s.fresh, hc⟩

theorem caches_touchPage (s : State) (key pte : Nat) : Caches s (touchPage s key pte) := by
  obtain ⟨p, hp⟩ := touchPage_eq s key pte
  exact ⟨s.coh, p, s.fresh, hp⟩

theorem caches_imageAsked (s : State) (core pa : Nat) : Caches s (imageAsked s core pa) := by
  unfold imageAsked
  extract_lets u
  have hu : Caches s u := by
    unfold u
    split
    · split
      · exact caches_touchPage ..
      · exact .refl s
    · exact .refl s
  exact (hu.trans (caches_l2Room u _)).trans (Caches.foldl (fun v _ => caches_countHot v pa _) _ _)

/-- An image stored: its bytes, and no more of the state than caches. -/
theorem storeImage_caches (s : State) (core pa : Nat) (t : Strand) : Caches { s with mem := memWrite s.mem pa 256 (imageBits t) } (storeImage s core pa t) := by
  obtain ⟨h, p, f, hasked⟩ := caches_imageAsked s core pa
  have hmem : (imageAsked s core pa).mem = s.mem := by rw [hasked]
  rw [storeImage, hmem]
  generalize memWrite s.mem pa 256 (imageBits t) = m
  have hstored : Caches { s with mem := m } { imageAsked s core pa with mem := m } := by
    rw [hasked]
    exact ⟨h, p, f, rfl⟩
  exact hstored.trans (Caches.foldl (fun u _ => caches_putDir u ..) _ _)

/-! ### Displacement (R310) -/

@[simp] theorem keptTags_giveBack (s : State) (tag tag' : Tag) (t : Strand) (l : List Tag) : keptTags (giveBack s tag t) tag' l = keptTags s tag' l := by
  unfold giveBack
  split <;> rfl

theorem giveBack_core (s : State) (tag : Tag) (t : Strand) : (giveBack s tag t).core = s.core ∧ (giveBack s tag t).mem = s.mem ∧ (giveBack s tag t).time = s.time := by
  unfold giveBack
  split <;> exact ⟨rfl, rfl, rfl⟩

theorem abandonForks_time (s : State) (tag : Tag) : (abandonForks s tag).time = s.time := by
  simp only [abandonForks, settlePair]
  split
  · split
    · split <;> rfl
    · rfl
  · rfl

theorem strandAt_freeSlot (s : State) (core slot : Nat) : strandAt (freeSlot s core slot) core slot = none := tfind_tdel ..

/-- An entry joins a ring that has room. -/
theorem pushResume_room (h : Room s none core (recPrio t.record)) :
    pushResume s core t = joinRing s core (recPrio t.record) (.resume t 0) := by
  obtain ⟨hfull, hout⟩ := h
  have hany : s.core.outside.any (·.same none core (recPrio t.record)) = false := by
    rw [List.any_eq_false]
    intro o ho
    simp [hout o ho]
  rw [pushResume, pushEntry, hfull, hany]
  rfl

theorem room_of_core (hr : u.core.rings = s.core.rings) (ho : u.core.outside = s.core.outside) (h : Room s none core p) : Room u none core p := by
  unfold Room ringFull ringAt at h ⊢
  rw [hr, ho]
  exact h

/-- The state of an evicted strand as it leaves its slot: what it waits for and forks are withdrawn. -/
def withdrawn (s : State) (core slot : Nat) (t : Strand) : State :=
  giveBack (withdraw (abandonForks s { core := core, slot := slot, gen := slotGenOf s core slot }) { core := core, slot := slot, gen := slotGenOf s core slot })
    { core := core, slot := slot, gen := slotGenOf s core slot } t

theorem withdrawn_keeps (s : State) (core slot : Nat) (t : Strand) :
    (withdrawn s core slot t).core = s.core ∧ (withdrawn s core slot t).mem = s.mem ∧ (withdrawn s core slot t).time = s.time := by
  obtain ⟨hc, hm, ht⟩ := giveBack_core (withdraw (abandonForks s { core := core, slot := slot, gen := slotGenOf s core slot })
    { core := core, slot := slot, gen := slotGenOf s core slot }) { core := core, slot := slot, gen := slotGenOf s core slot } t
  exact ⟨hc.trans (abandonForks_core s _), hm.trans (abandonForks_mem s _), ht.trans (abandonForks_time s _)⟩

theorem keptTags_withdrawn (s : State) (core slot : Nat) (t : Strand) (tag : Tag) (l : List Tag) : keptTags (withdrawn s core slot t) tag l = keptTags s tag l := by
  rw [withdrawn, keptTags_giveBack]
  exact keptTags_abandonForks ..

/-- The strand as a resume entry of its core holds it. -/
def resumable (s : State) (core slot : Nat) (t : Strand) : Strand :=
  { t with st := 7, wait := .none, got := [], former := keptTags s { core := core, slot := slot, gen := slotGenOf s core slot } t.former }

/-- A strand leaves its slot for its core's ring, which has room; `u` is the state in which its image has been stored. -/
theorem resumes_on_ring {m : List Host.Cell} (hu : Caches { s with mem := m } u) (hroom : Room s none core (recPrio t.record)) :
    ∃ v, pushResume (freeSlot (withdrawn u core slot t) core slot) core (resumable s core slot t) = v ∧ strandAt v core slot = none ∧ v.mem = m
      ∧ ringAt v core (recPrio t.record) = ringAt s core (recPrio t.record) ++ [.resume (resumable s core slot t) (localDt s core)] := by
  obtain ⟨h, pg, f, rfl⟩ := hu
  generalize hw : withdrawn _ core slot t = w
  obtain ⟨hc, hm, htime⟩ := hw ▸ withdrawn_keeps { s with mem := m, coh := h, page := pg, fresh := f } core slot t
  have hroom' : Room (freeSlot w core slot) none core (recPrio t.record) :=
    room_of_core (show w.core.rings = _ by rw [hc]) (show w.core.outside = _ by rw [hc]) hroom
  refine ⟨_, pushResume_room hroom', strandAt_freeSlot .., hm, ?_⟩
  have hdt : localDt (freeSlot w core slot) core = localDt s core := congrArg (fun x : TimePart => x.dt + tget 0 x.early core) htime
  have hring : ringAt (freeSlot w core slot) core (recPrio t.record) = ringAt s core (recPrio t.record) :=
    show tget [] w.core.rings _ = _ by rw [hc]; rfl
  show ringAt (joinRing (freeSlot w core slot) core (recPrio t.record) _) core (recPrio t.record) = _
  rw [joinRing, ringAt_putRing, hdt, hring]
  rfl

/-- A store of the image changes nothing that the resume entry holds. -/
theorem resumable_of_caches {m : List Host.Cell} (hu : Caches { s with mem := m } u) : resumable s core slot t = { t with
    st := 7
    wait := .none
    got := []
    former := keptTags (withdrawn u core slot t) { core := core, slot := slot, gen := slotGenOf u core slot } t.former } := by
  obtain ⟨h, pg, f, rfl⟩ := hu
  rw [keptTags_withdrawn]
  rfl

/-- A strand whose image has a place has it stored there, and leaves its slot. -/
theorem evictSlot_stored {pa : Nat} (ht : strandAt s core slot = some t) (hpa : imagePlace s core t = .at_ pa) : (evictSlot s core slot).1 =
    pushResume (freeSlot (withdrawn (storeImage s core pa t) core slot t) core slot) core { t with
      st := 7
      wait := .none
      got := []
      former := keptTags (withdrawn (storeImage s core pa t) core slot t)
        { core := core, slot := slot, gen := slotGenOf (storeImage s core pa t) core slot } t.former } := by
  rw [evictSlot, ht]
  simp only [hpa]
  generalize storeImage s core pa t = u
  rfl

theorem evictSlot_at {pa : Nat} (ht : strandAt s core slot = some t) (hpa : imagePlace s core t = .at_ pa) : (evictSlot s core slot).1 =
    pushResume (freeSlot (withdrawn (storeImage s core pa t) core slot t) core slot) core (resumable s core slot t) :=
  (evictSlot_stored ht hpa).trans (congrArg (pushResume _ core) (resumable_of_caches (storeImage_caches s core pa t)).symm)

/-- A blocked strand of a disabled slot whose image has a place goes there, and to a resume entry (R310). -/
theorem displace_evicts {pa : Nat} (hoff : tget false s.core.slotOff (core * 16 + slot) = true) (ht : strandAt s core slot = some t) (hlow : 2 ≤ t.st) (hhigh : t.st ≤ 4)
    (hpa : imagePlace s core t = .at_ pa) (hroom : Room s none core (recPrio t.record)) : ∃ u, exec (.slotDisplace core slot) s = .next u
      ∧ strandAt u core slot = none ∧ u.mem = memWrite s.mem pa 256 (imageBits t)
      ∧ ringAt u core (recPrio t.record) = ringAt s core (recPrio t.record) ++ [.resume (resumable s core slot t) (localDt s core)] := by
  obtain ⟨v, hv, hnone, hmem, hring⟩ := resumes_on_ring (slot := slot) (storeImage_caches s core pa t) hroom
  have hx : exec (.slotDisplace core slot) s = .next (confine s (evictSlot s core slot).1) := by
    simp only [exec, execSlotDisplace, hoff, ht, hlow, hhigh, decide_true, Bool.and_self, Bool.not_true, Bool.false_eq_true, if_false, if_true]
  rw [evictSlot_at ht hpa, hv] at hx
  exact ⟨_, hx, hnone, hmem, hring⟩

/-- A strand that waits for a reply, or that has stopped, stays. -/
theorem displace_stays (ht : strandAt s core slot = some t) (hst : t.st = 1 ∨ 5 ≤ t.st) : exec (.slotDisplace core slot) s = .next s := by
  have hblocked : (decide (2 ≤ t.st) && decide (t.st ≤ 4)) = false := by
    rw [Bool.and_eq_false_iff, decide_eq_false_iff_not, decide_eq_false_iff_not]
    omega
  have hzero : (t.st == 0) = false := beq_false_of_ne (by omega)
  simp only [exec, execSlotDisplace, ht, hblocked, hzero, Bool.false_eq_true, if_false, ite_self, confine_self]

/-- A strand in rotation for which there is a cooler cluster migrates there. -/
theorem displace_migrates {target : Nat} (hoff : tget false s.core.slotOff (core * 16 + slot) = true) (ht : strandAt s core slot = some t) (hst : t.st = 0)
    (htarget : displaceTarget s (launchAt s t.record.launch.toNat) (core / 256) = some target) (hhold : t.hold ≤ localDt s core) :
    ∃ u, exec (.slotDisplace core slot) s = .next u ∧ strandAt u core slot = none
      ∧ u.core.migr = s.core.migr ++ [(target, { t with
          hold := localDt s core + 32768
          wait := .none
          st := 0
          got := []
          former := keptTags s { core := core, slot := slot, gen := slotGenOf s core slot } t.former })] := by
  obtain ⟨hc, -, htime⟩ := giveBack_core s { core := core, slot := slot, gen := slotGenOf s core slot } t
  have hdt : localDt (giveBack s { core := core, slot := slot, gen := slotGenOf s core slot } t) core = localDt s core := by rw [localDt, htime, localDt]
  have hgen : slotGenOf (giveBack s { core := core, slot := slot, gen := slotGenOf s core slot } t) core slot = slotGenOf s core slot := by
    rw [slotGenOf, hc]
    rfl
  have hx : exec (.slotDisplace core slot) s = .next (confine s (depart (giveBack s { core := core, slot := slot, gen := slotGenOf s core slot } t) core slot target
      { t with hold := localDt s core + 32768, got := [] })) := by
    simp only [exec, execSlotDisplace, hoff, ht, hst, dieOf, htarget, hhold, hdt, decide_true, Bool.not_true, Bool.false_eq_true, if_false, if_true, beq_self_eq_true,
      Nat.le_zero_eq, OfNat.ofNat_ne_zero, decide_false, Bool.false_and]
  refine ⟨_, hx, ?_, ?_⟩
  · exact strandAt_freeSlot ..
  · show (abandonForks _ _).core.migr ++ _ = _
    rw [abandonForks_core, keptTags_abandonForks, hgen, keptTags_giveBack, hc]

/-! ### Arrival (R98) -/

/-- A migrated strand binds the lowest free slot of its core. -/
theorem arrival_binds {i : Nat} (hn : s.core.migr[n]? = some (core, t)) (hsteps : t.steps = 0) (hroom : imagesHeld s core < 32) (hi : i < 16)
    (hfree : slotFree s core i = true) (hfirst : ∀ k, k < i → slotFree s core k = false) : ∃ u, exec (.migrationArrival n) s = .next u
      ∧ u.core.migr = s.core.migr.eraseIdx n ∧ strandAt u core i = some { t with st := 0, wait := .none, got := [] }
      ∧ slotGenOf u core i = nextGen (slotGenOf s core i) := by
  have hleast : leastFrom (slotFree { s with core.migr := dropAt s.core.migr n } core) 0 16 = some i :=
    leastFrom_first (Nat.zero_le i) (by omega) hfree fun k _ hk => hfirst k hk
  have hx : exec (.migrationArrival n) s = .next (confine s (arrive { s with core.migr := dropAt s.core.migr n } core i t)) := by
    simp only [exec, execMigrationArrival, hn, makeRoom_room hroom, hleast]
  rw [arrive_eq _ _ _ (.inl (by omega))] at hx
  have hissued : (t.steps == 2 && t.stepPc == t.ctx.pc) = false := by simp [hsteps]
  rw [hissued] at hx
  exact ⟨_, hx, dropAt_eq_eraseIdx .., strandAt_bindSlot .., slotGenOf_bindSlot _ core i t⟩

/-! ### WAITDT (R97, R117) -/

theorem waitdt_wakes {dl : Nat} (ht : strandAt s core slot = some t) (hst : t.st = 4) (hwait : t.wait = .waitdt dl) (hsteps : t.steps ≠ 2) (hdl : dl ≤ localDt s core) :
    exec (.waitdtWake core slot) s = .next (putStrand s core slot { t with ctx := { t.ctx with pc := nextPc t.ctx.pc }, st := 0, wait := .none }) := by
  have hstep : stepTrap (putStrand s core slot { t with ctx := { t.ctx with pc := nextPc t.ctx.pc }, st := 0, wait := .none }) core slot =
      putStrand s core slot { t with ctx := { t.ctx with pc := nextPc t.ctx.pc }, st := 0, wait := .none } := by
    rw [stepTrap_some (strandAt_putStrand ..), if_neg fun h => hsteps h.1]
  simp only [exec, execWaitdtWake, ht, hwait, hst, hdl, decide_true, Bool.and_self, beq_self_eq_true, if_true, hstep]
  rfl

theorem waitdt_waits {dl : Nat} (ht : strandAt s core slot = some t) (hwait : t.wait = .waitdt dl) (hdl : localDt s core < dl) :
    exec (.waitdtWake core slot) s = .next s := by
  simp only [exec, execWaitdtWake, ht, hwait, Nat.not_le.2 hdl, decide_false, Bool.and_false, Bool.false_eq_true, if_false, confine_self]

end Sys2Proof.Machine
end

section
/-! PROOFS. HALT_ACK: a core stops its strands, writes its record and acknowledges (O42). -/

namespace Sys2Proof.Machine
open Sys2Proof

variable {s u v : State} {c i n slot key : Nat} {t : Strand} {h : Halt}

/-! ### A strand that stops (R97, R109, R320) -/

/-- The strand stops at once for a gang stop; another completes first. -/
def Strand.stops (t : Strand) : Bool := t.st == 0 || (2 ≤ t.st && t.st ≤ 4) || (t.st == 1 && t.wait == .sem) || t.atBarrier

/-- A strand of a core that stops launch `n`. -/
def Strand.stopped (n : Nat) (t : Strand) : Strand :=
  if t.record.launch.toNat == n && t.stops then { t with st := 6, wait := .none, got := [] } else t

/-- The tag of a slot's strand. -/
def tagAt (s : State) (c i : Nat) : Tag := { core := c, slot := i, gen := slotGenOf s c i }

/-- What a slot of the core does for the stop of launch `n`. -/
def haltSlot (n c : Nat) (s : State) (i : Nat) : State :=
  match strandAt s c i with
  | some t => if t.record.launch.toNat == n then haltStrand s c i else s
  | none => s

/-- The strands of the core stopped. -/
def haltSlots (s : State) (n c m : Nat) : State := (List.range m).foldl (haltSlot n c) s

theorem haltSlots_succ (s : State) (n c m : Nat) : haltSlots s n c (m + 1) = haltSlot n c (haltSlots s n c m) m := by
  rw [haltSlots, List.range_succ, List.foldl_append]
  rfl

/-- What a stop leaves of a state: only slots, queues' waiters and barriers differ. -/
structure Stopping (s u : State) : Prop where
  gens : u.core.slotGen = s.core.slotGen
  routes : u.core.routeCount = s.core.routeCount
  time : u.time = s.time
  lives : u.hold.lives = s.hold.lives
  dropped : u.hold.dropped = s.hold.dropped
  halts : u.work.halts = s.work.halts
  recs : ∀ key, (evqAt u key).recs = (evqAt s key).recs ∧ (evqAt u key).cap = (evqAt s key).cap ∧ (evqAt u key).waiting = (evqAt s key).waiting
  blocked : ∀ key, ∀ b ∈ (evqAt u key).blocked, b ∈ (evqAt s key).blocked

theorem Stopping.refl (s : State) : Stopping s s := ⟨rfl, rfl, rfl, rfl, rfl, rfl, fun _ => ⟨rfl, rfl, rfl⟩, fun _ _ hb => hb⟩

theorem Stopping.trans (h : Stopping s u) (h' : Stopping u v) : Stopping s v where
  gens := h'.gens.trans h.gens
  routes := h'.routes.trans h.routes
  time := h'.time.trans h.time
  lives := h'.lives.trans h.lives
  dropped := h'.dropped.trans h.dropped
  halts := h'.halts.trans h.halts
  recs key := ⟨(h'.recs key).1.trans (h.recs key).1, (h'.recs key).2.1.trans (h.recs key).2.1, (h'.recs key).2.2.trans (h.recs key).2.2⟩
  blocked key b hb := h.blocked key b (h'.blocked key b hb)

theorem Stopping.slotGenOf_eq (h : Stopping s u) (c i : Nat) : slotGenOf u c i = slotGenOf s c i := by rw [slotGenOf, h.gens, slotGenOf]

/-- A queue without a tag among those blocked and parked. -/
def Evq.without (tag : Tag) (q : Evq) : Evq := { q with blocked := q.blocked.filter (fun b => b.tag != tag), parked := q.parked.filter (· != tag) }

theorem evqAt_withdraw (s : State) (tag : Tag) (key : Nat) : evqAt (withdraw s tag) key = (evqAt s key).without tag := by
  show (tfind (s.hold.evqs.map fun e => (e.1, e.2.without tag)) key).getD {} = (Option.getD (tfind s.hold.evqs key) {}).without tag
  rw [tfind_map]
  cases tfind s.hold.evqs key <;> rfl

/-- The state in which a stopped strand waits for nothing. -/
def quitting (s : State) (c i : Nat) (t : Strand) : State := quitBar (giveBack (withdraw s (tagAt s c i)) (tagAt s c i) t) (tagAt s c i)

theorem giveBack_hold (s : State) (tag : Tag) (t : Strand) : (giveBack s tag t).hold.evqs = s.hold.evqs ∧ (giveBack s tag t).hold.lives = s.hold.lives
    ∧ (giveBack s tag t).hold.dropped = s.hold.dropped ∧ (giveBack s tag t).work = s.work := by
  unfold giveBack
  split <;> exact ⟨rfl, rfl, rfl, rfl⟩

theorem evqAt_quitting (s : State) (c i : Nat) (t : Strand) (key : Nat) : evqAt (quitting s c i t) key = (evqAt s key).without (tagAt s c i) := by
  obtain ⟨hevqs, -⟩ := giveBack_hold (withdraw s (tagAt s c i)) (tagAt s c i) t
  rw [← evqAt_withdraw]
  exact congrArg (fun m : Sparse Evq => tget {} m key) hevqs

theorem stopping_put (s : State) (c i : Nat) (t x : Strand) : Stopping s (putStrand (quitting s c i t) c i x) := by
  obtain ⟨hcore, -, htime⟩ := giveBack_core (withdraw s (tagAt s c i)) (tagAt s c i) t
  obtain ⟨-, hlives, hdropped, hwork⟩ := giveBack_hold (withdraw s (tagAt s c i)) (tagAt s c i) t
  have hevq (key : Nat) : evqAt (putStrand (quitting s c i t) c i x) key = (evqAt s key).without (tagAt s c i) := evqAt_quitting s c i t key
  have hgens := congrArg CorePart.slotGen hcore
  have hroutes := congrArg CorePart.routeCount hcore
  refine ⟨hgens, hroutes, htime, hlives, hdropped, ?_, fun key => ?_, fun key b hb => ?_⟩
  · show (giveBack (withdraw s (tagAt s c i)) (tagAt s c i) t).work.halts = _
    rw [hwork]
    rfl
  · rw [hevq]
    exact ⟨rfl, rfl, rfl⟩
  · rw [hevq] at hb
    exact (List.mem_filter.1 hb).1

/-- A slot's strand stops, or nothing happens there. -/
theorem haltSlot_eq (s : State) (n c i : Nat) : haltSlot n c s i = match strandAt s c i with
    | some t => if (t.record.launch.toNat == n && t.stops) = true then putStrand (quitting s c i t) c i { t with st := 6, wait := .none, got := [] } else s
    | none => s := by
  unfold haltSlot
  cases ht : strandAt s c i with
  | none => rfl
  | some t =>
    simp only
    by_cases hn : (t.record.launch.toNat == n) = true
    · rw [if_pos hn, haltStrand, ht, hn, Bool.true_and]
      rfl
    · rw [if_neg hn, if_neg (by simp [hn])]

theorem stopping_haltSlot (s : State) (n c i : Nat) : Stopping s (haltSlot n c s i) := by
  rw [haltSlot_eq]
  cases strandAt s c i with
  | none => exact .refl s
  | some t =>
    simp only
    split
    · exact stopping_put ..
    · exact .refl s

theorem stopping_haltSlots (s : State) (n c : Nat) : ∀ m, Stopping s (haltSlots s n c m)
  | 0 => .refl s
  | m + 1 => by
    rw [haltSlots_succ]
    exact (stopping_haltSlots s n c m).trans (stopping_haltSlot ..)

theorem strandAt_haltSlot (s : State) (n c i : Nat) : strandAt (haltSlot n c s i) c i = (strandAt s c i).map (Strand.stopped n) := by
  rw [haltSlot_eq]
  cases ht : strandAt s c i with
  | none => exact ht
  | some t =>
    simp only [Option.map_some, Strand.stopped]
    split
    · exact strandAt_putStrand ..
    · exact ht

theorem strandAt_haltSlot_ne (s : State) {n c i d j : Nat} (hne : d * 16 + j ≠ c * 16 + i) : strandAt (haltSlot n c s i) d j = strandAt s d j := by
  rw [haltSlot_eq]
  cases strandAt s c i with
  | none => rfl
  | some t =>
    simp only
    split
    · obtain ⟨hcore, -, -⟩ := giveBack_core (withdraw s (tagAt s c i)) (tagAt s c i) t
      rw [strandAt_putStrand_ne _ _ _ _ _ _ hne]
      exact congrArg (fun k : CorePart => tfind k.slots (d * 16 + j)) hcore
    · rfl

/-- Each strand of the core stops as it must. -/
theorem strandAt_haltSlots (s : State) (n c slot : Nat) : ∀ m, strandAt (haltSlots s n c m) c slot =
    if slot < m then (strandAt s c slot).map (Strand.stopped n) else strandAt s c slot
  | 0 => rfl
  | m + 1 => by
    rw [haltSlots_succ]
    obtain rfl | hne := eq_or_ne slot m
    · rw [strandAt_haltSlot, strandAt_haltSlots s n c slot slot, if_neg (lt_irrefl _), if_pos (Nat.lt_succ_self _)]
    · rw [strandAt_haltSlot_ne _ (by omega), strandAt_haltSlots s n c slot m]
      simp only [show slot < m + 1 ↔ slot < m by omega]

/-- A strand of another core stays as it is. -/
theorem strandAt_haltSlots_ne (s : State) {n c d j : Nat} (hd : d ≠ c) (hj : j < 16) : ∀ m, m ≤ 16 → strandAt (haltSlots s n c m) d j = strandAt s d j
  | 0, _ => rfl
  | m + 1, hm => by
    rw [haltSlots_succ, strandAt_haltSlot_ne _ (by omega), strandAt_haltSlots_ne s hd hj m (by omega)]

/-- A taker whose strand stops is blocked no longer. -/
theorem not_blocked_haltSlots (s : State) (n c key : Nat) {i : Nat} {y : Strand} (hy : strandAt s c i = some y) (hn : y.record.launch.toNat = n) (hstops : y.stops = true) :
    ∀ m, i < m → ∀ b ∈ (evqAt (haltSlots s n c m) key).blocked, b.tag ≠ tagAt s c i
  | m + 1, hm, b, hb => by
    rw [haltSlots_succ] at hb
    obtain rfl | hlt := Nat.lt_succ_iff_lt_or_eq.1 hm |>.symm
    · have hstrand : strandAt (haltSlots s n c i) c i = some y := by rw [strandAt_haltSlots, if_neg (lt_irrefl _), hy]
      have hgo : (y.record.launch.toNat == n && y.stops) = true := by simp [hn, hstops]
      have htag : tagAt (haltSlots s n c i) c i = tagAt s c i := by rw [tagAt, (stopping_haltSlots s n c i).slotGenOf_eq, tagAt]
      rw [haltSlot_eq, hstrand] at hb
      simp only [hgo, if_true] at hb
      have hb : b ∈ (evqAt (quitting (haltSlots s n c i) c i y) key).blocked := hb
      rw [evqAt_quitting, htag] at hb
      simpa using (List.mem_filter.1 hb).2
    · exact not_blocked_haltSlots s n c key hy hn hstops m hlt b ((stopping_haltSlot _ n c m).blocked key b hb)

variable {s u v : State} {c i n slot key : Nat} {t : Strand} {h : Halt}

/-! ### A record that lands (R118, R222) -/

theorem serveEvq_keeps (key : Nat) : ∀ (m : Nat) (s : State), (serveEvq s key m).core = s.core ∧ (serveEvq s key m).work = s.work
  | 0, _ => ⟨rfl, rfl⟩
  | m + 1, s => by
    rw [serveEvq]
    split
    · split
      · exact serveEvq_keeps key m _
      · split
        · split
          · exact serveEvq_keeps key m _
          · exact ⟨rfl, rfl⟩
        · exact ⟨rfl, rfl⟩
    · split
      · split
        · exact serveEvq_keeps key m _
        · exact ⟨rfl, rfl⟩
      · exact ⟨rfl, rfl⟩

theorem landRecord_keeps (s : State) (key : Nat) (m : Msg) : (landRecord s key m).core = s.core ∧ (landRecord s key m).work = s.work := by
  rw [landRecord]
  exact serveEvq_keeps key _ _

/-- With nobody blocked and nothing waiting a record joins a queue that has room. -/
theorem recs_landRecord {m : Msg} (hblocked : (evqAt s key).blocked = []) (hwaiting : (evqAt s key).waiting = [])
    (hroom : (evqAt s key).recs.length < (evqAt s key).cap) : (evqAt (landRecord s key m) key).recs = (evqAt s key).recs ++ [m] := by
  have hserve : serveEvq (putEvq s key { evqAt s key with waiting := [m] }) key 2 =
      putEvq (putEvq s key { evqAt s key with waiting := [m] }) key { evqAt s key with recs := (evqAt s key).recs ++ [m], waiting := [] } := by
    simp only [serveEvq, evqAt_putEvq, hblocked, hroom, if_true]
  have hfuel : evqFuel { evqAt s key with waiting := [m] } = 2 := by simp [evqFuel, hblocked]
  simp only [landRecord, hwaiting, List.nil_append, hfuel, hserve, wakeParked, evqAt_putEvq]
  exact congrArg Evq.recs (evqAt_putEvq ..)

theorem landHalt_keeps (s : State) (h : Halt) (b : BitVec 256) : (landHalt s h b).1.core = s.core ∧ (landHalt s h b).1.work = s.work
    ∧ (landHalt s h b).2.left = h.left ∧ (landHalt s h b).2.waiter = h.waiter := by
  unfold landHalt
  split
  · exact ⟨rfl, rfl, rfl, rfl⟩
  · extract_lets q
    split
    · obtain ⟨hc, hw⟩ := landRecord_keeps s (hKey h.evq) { bytes := b }
      exact ⟨hc, hw, rfl, rfl⟩
    · exact ⟨rfl, rfl, rfl, rfl⟩

theorem landHalt_lands {b : BitVec 256} (hlive : liveHandle s h.evq = true) (hwaiting : (evqAt s (hKey h.evq)).waiting = [])
    (hroom : (evqAt s (hKey h.evq)).recs.length < (evqAt s (hKey h.evq)).cap) :
    landHalt s h b = (landRecord s (hKey h.evq) { bytes := b }, { h with landed := h.landed + 1 }) := by
  have hfree : 1 ≤ evqFree (evqAt s (hKey h.evq)) := by
    rw [evqFree]
    omega
  simp only [landHalt, hlive, hfree, hwaiting, decide_true, List.isEmpty_nil, Bool.and_self, Bool.not_true, Bool.false_eq_true, if_false, if_true]

theorem landHalt_full {b : BitVec 256} (hlive : liveHandle s h.evq = true) (hfull : (evqAt s (hKey h.evq)).cap ≤ (evqAt s (hKey h.evq)).recs.length) :
    landHalt s h b = (s, { h with dropped := true }) := by
  have hnone : ¬ 1 ≤ evqFree (evqAt s (hKey h.evq)) := by
    rw [evqFree]
    omega
  simp only [landHalt, hlive, hnone, decide_false, Bool.false_and, Bool.not_true, Bool.false_eq_true, if_false]

theorem landHalt_lapsed {b : BitVec 256} (hlive : liveHandle s h.evq = false) :
    landHalt s h b = ({ s with hold.dropped := s.hold.dropped + 1 }, h) := by
  simp only [landHalt, hlive, Bool.not_false, if_true]

/-! ### The acknowledgment -/

/-- The core's halt record lands or not, its strands having stopped. -/
def haltLanding (s : State) (h : Halt) (c : Nat) : State × Halt := landHalt (haltSlots s h.launch c 16) h (haltCore (launchAt s h.launch) c)

theorem haltRoutes_nil (l : Launch) (hroutes : ∀ e ∈ s.core.routeCount, e.1 / 2 ^ 64 ≠ c) : haltRoutes s l c = [] := by
  simp only [haltRoutes, List.map_eq_nil_iff, List.filter_eq_nil_iff, Bool.and_eq_true, beq_iff_eq]
  exact fun e he hc => hroutes e he hc.1.1

/-- What the acknowledgment of a core does. -/
def acknowledge (s : State) (h : Halt) (c : Nat) : State :=
  let s1 := haltSlots s h.launch c 16
  let records := if h.evq == 0 then [] else haltCore (launchAt s h.launch) c :: haltRoutes s1 (launchAt s h.launch) c
  let x := records.foldl (fun x b => landHalt x.1 x.2 b) (s1, h)
  let h3 := { x.2 with left := x.2.left.filter (· != c) }
  if h3.left.isEmpty then haltDone { x.1 with work.halts := x.1.work.halts.filter (· != h) } h3
  else { x.1 with work.halts := x.1.work.halts.map fun y => if y == h then h3 else y }

theorem exec_haltAck (hhalts : s.work.halts = [h]) (hleft : h.left = [c]) : exec (.haltAck 0) s = .next (confine s (acknowledge s h c)) := by
  simp only [exec, execHaltAck, hhalts, hleft, List.flatMap_cons, List.flatMap_nil, List.map_cons, List.map_nil, List.append_nil, List.getElem?_cons_zero]
  rfl

theorem haltLanding_keeps (s : State) (h : Halt) (c : Nat) : (haltLanding s h c).1.core = (haltSlots s h.launch c 16).core
    ∧ (haltLanding s h c).1.work = (haltSlots s h.launch c 16).work ∧ (haltLanding s h c).2.left = h.left ∧ (haltLanding s h c).2.waiter = h.waiter := by
  rw [haltLanding]
  exact landHalt_keeps (haltSlots s h.launch c 16) h (haltCore (launchAt s h.launch) c)

/-- The last core of the one stop acknowledges: its record lands or not, and the issuer is answered. -/
theorem acknowledge_last (hhalts : s.work.halts = [h]) (hleft : h.left = [c]) (hevq : h.evq ≠ 0) (hroutes : ∀ e ∈ s.core.routeCount, e.1 / 2 ^ 64 ≠ c) :
    acknowledge s h c = haltDone { (haltLanding s h c).1 with work.halts := [] } { (haltLanding s h c).2 with left := [] } := by
  have hstopping := stopping_haltSlots s h.launch c 16
  obtain ⟨-, hwork, hlleft, -⟩ := haltLanding_keeps s h c
  have hnil : haltRoutes (haltSlots s h.launch c 16) (launchAt s h.launch) c = [] := haltRoutes_nil _ (by rw [hstopping.routes]; exact hroutes)
  have hevq : (h.evq == 0) = false := beq_false_of_ne hevq
  have hstill : (haltLanding s h c).1.work.halts = [h] := by rw [hwork, hstopping.halts, hhalts]
  simp only [acknowledge, hevq, hnil, Bool.false_eq_true, if_false, List.foldl_cons, List.foldl_nil]
  rw [← haltLanding, hlleft, hleft, hstill]
  simp

/-- The issuer's strand, on another core, is still there when the core has stopped its strands. -/
theorem tagged_stopped {tag : Tag} {w : Strand} (hcore : tag.core ≠ c) (htag : tagged s tag = some w) (hu : u.core = (haltSlots s n c 16).core) : tagged u tag = some w := by
  have hgen : slotGenOf u tag.core tag.slot = slotGenOf s tag.core tag.slot := by
    rw [← (stopping_haltSlots s n c 16).slotGenOf_eq, slotGenOf, slotGenOf, hu]
  unfold tagged at htag ⊢
  rw [hgen]
  split at htag
  · next hok =>
    have hslot : tag.slot < 16 := by
      simp only [Bool.and_eq_true, decide_eq_true_eq] at hok
      exact hok.1.2
    have hstrand : strandAt u tag.core tag.slot = strandAt (haltSlots s n c 16) tag.core tag.slot := by rw [strandAt, strandAt, hu]
    rw [if_pos hok, hstrand, strandAt_haltSlots_ne s hcore hslot 16 le_rfl]
    exact htag
  · cases htag

/-- The state in which a stop has ended. -/
theorem haltDone_answers {tag : Tag} {d : GReg} {w : Strand} (hwaiter : h.waiter = some (tag, d)) (htag : tagged u tag = some w) :
    haltDone u h = sendReply u tag (.regs [(d.val, haltResult h)] w.ctx.pts) := by
  simp only [haltDone, hwaiter, htag]

section
variable {s u : State} {c slot : Nat} {t : Strand} {h : Halt} {tag : Tag} {d : GReg} {v : Strand}

theorem Stopping.liveHandle_eq (hs : Stopping s u) (x : Word) : liveHandle u x = liveHandle s x := by
  unfold liveHandle isLive lifeOf localDt
  rw [hs.lives, hs.time]

/-- The strand stops at once. -/
theorem stopped_of_stops (ht : t.record.launch.toNat = h.launch) (hst : t.st = 0 ∨ 2 ≤ t.st ∧ t.st ≤ 4 ∨ t.atBarrier = true) :
    t.stopped h.launch = { t with st := 6, wait := .none, got := [] } := by
  have hstops : t.stops = true := by
    obtain hzero | ⟨hlow, hhigh⟩ | hbar := hst
    · simp [Strand.stops, hzero]
    · simp [Strand.stops, hlow, hhigh]
    · simp [Strand.stops, hbar]
  rw [Strand.stopped, ht, beq_self_eq_true, hstops]
  rfl

/-- The strand completes first, or has stopped already. -/
theorem stopped_of_waits (hst : t.st = 1 ∧ t.wait ≠ .sem ∧ t.atBarrier = false ∨ t.st = 5) : t.stopped h.launch = t := by
  have hstops : t.stops = false := by
    obtain ⟨hone, hsem, hbar⟩ | hfive := hst
    · simp [Strand.stops, hone, hsem, hbar]
    · simp [Strand.stops, Strand.atBarrier, hfive]
  rw [Strand.stopped, hstops, Bool.and_false]
  rfl

/-- The core's strands have stopped, its record has landed or not, and the issuer is answered. -/
theorem haltAck_ends (hhalts : s.work.halts = [h]) (hleft : h.left = [c]) (hwaiter : h.waiter = some (tag, d)) (hevq : h.evq ≠ 0) (hcore : tag.core ≠ c)
    (htag : tagged s tag = some v) (hroutes : ∀ e ∈ s.core.routeCount, e.1 / 2 ^ 64 ≠ c) : ∃ u, exec (.haltAck 0) s = .next u
      ∧ (slot < 16 → strandAt u c slot = (strandAt s c slot).map (Strand.stopped h.launch)) ∧ u.hold = (haltLanding s h c).1.hold
      ∧ u.work.halts = [] ∧ { tag := tag, act := .regs [(d.val, haltResult (haltLanding s h c).2)] v.ctx.pts } ∈ u.coh.replies := by
  obtain ⟨hlcore, -, -, hlwaiter⟩ := haltLanding_keeps s h c
  have hx := exec_haltAck hhalts hleft
  rw [acknowledge_last hhalts hleft hevq hroutes] at hx
  generalize haltLanding s h c = x at hx hlcore hlwaiter ⊢
  rw [haltDone_answers (h := { x.2 with left := [] }) (hlwaiter.trans hwaiter) (tagged_stopped (u := { x.1 with work.halts := [] }) hcore htag hlcore)] at hx
  refine ⟨_, hx, fun hslot => ?_, rfl, rfl, List.mem_append_right _ List.mem_cons_self⟩
  have hstrand := strandAt_haltSlots s h.launch c slot 16
  rw [if_pos hslot] at hstrand
  rw [← hstrand]
  exact congrArg (fun k : CorePart => tfind k.slots (c * 16 + slot)) hlcore

/-- The takers blocked at the stop's queue have all stopped. -/
theorem no_takers (hblocked : ∀ b ∈ (evqAt s (hKey h.evq)).blocked, b.tag.core = c ∧ (∃ y, strandAt s c b.tag.slot = some y
      ∧ y.record.launch.toNat = h.launch ∧ 2 ≤ y.st ∧ y.st ≤ 4) ∧ b.tag.slot < 16 ∧ b.tag.park = false ∧ b.tag.gen = slotGenOf s c b.tag.slot) :
    (evqAt (haltSlots s h.launch c 16) (hKey h.evq)).blocked = [] := by
  rw [List.eq_nil_iff_forall_not_mem]
  intro b hb
  obtain ⟨hc, ⟨y, hy, hlaunch, hlow, hhigh⟩, hslot, hpark, hgen⟩ := hblocked b ((stopping_haltSlots s h.launch c 16).blocked _ b hb)
  have hstops : y.stops = true := by simp [Strand.stops, hlow, hhigh]
  refine not_blocked_haltSlots s h.launch c (hKey h.evq) hy hlaunch hstops 16 hslot b hb ?_
  generalize b.tag = g at hc hpark hgen ⊢
  obtain ⟨core, i, gen, park⟩ := g
  obtain rfl : core = c := hc
  obtain rfl : park = false := hpark
  obtain rfl : gen = slotGenOf s core i := hgen
  rfl

/-- The record of the core: where its queue has room it lands, else it is lost. -/
theorem haltLanding_live (hlive : liveHandle s h.evq = true) (hwaiting : (evqAt s (hKey h.evq)).waiting = [])
    (hblocked : (evqAt (haltSlots s h.launch c 16) (hKey h.evq)).blocked = []) :
    ((evqAt s (hKey h.evq)).recs.length < (evqAt s (hKey h.evq)).cap →
      (evqAt (haltLanding s h c).1 (hKey h.evq)).recs = (evqAt s (hKey h.evq)).recs ++ [{ bytes := haltCore (launchAt s h.launch) c }]
        ∧ (haltLanding s h c).2 = { h with landed := h.landed + 1 })
    ∧ ((evqAt s (hKey h.evq)).cap ≤ (evqAt s (hKey h.evq)).recs.length →
      (evqAt (haltLanding s h c).1 (hKey h.evq)).recs = (evqAt s (hKey h.evq)).recs ∧ (haltLanding s h c).2 = { h with dropped := true }) := by
  have hstopping := stopping_haltSlots s h.launch c 16
  obtain ⟨hrecs, hcap, hwait⟩ := hstopping.recs (hKey h.evq)
  have hlive' := (hstopping.liveHandle_eq h.evq).trans hlive
  rw [haltLanding]
  generalize haltSlots s h.launch c 16 = x at *
  refine ⟨fun hroom => ?_, fun hfull => ?_⟩
  · rw [← hrecs, ← hcap] at hroom
    rw [landHalt_lands hlive' (hwait.trans hwaiting) hroom]
    exact ⟨(recs_landRecord hblocked (hwait.trans hwaiting) hroom).trans (by rw [hrecs]), rfl⟩
  · rw [← hrecs, ← hcap] at hfull
    rw [landHalt_full hlive' hfull]
    exact ⟨hrecs, rfl⟩

/-- A queue that has lapsed takes no record. -/
theorem haltLanding_lapsed (hlive : liveHandle s h.evq = false) :
    (haltLanding s h c).1.hold.dropped = s.hold.dropped + 1 ∧ (haltLanding s h c).2 = h := by
  have hstopping := stopping_haltSlots s h.launch c 16
  have hlive' := (hstopping.liveHandle_eq h.evq).trans hlive
  rw [haltLanding, landHalt_lapsed hlive']
  exact ⟨congrArg (· + 1) hstopping.dropped, rfl⟩

end

/-- The bytes that `n` addresses hold. -/
theorem pow_bytes (n : Nat) : 256 ^ n = 2 ^ (8 * n) := by
  rw [pow_mul]
  norm_num

theorem haltResult_dropped (h : Halt) : haltResult { h with dropped := true } = BitVec.ofNat 64 (h.landed + 2 ^ 63) := by
  rw [haltResult, if_pos rfl]

theorem haltResult_landed (h : Halt) : haltResult { h with landed := h.landed + 1 } = BitVec.ofNat 64 (h.landed + 1 + if h.dropped then 2 ^ 63 else 0) := by
  rw [haltResult]

/-- Settles O42: an attempt to bind goes ring by ring from the highest priority; each of the other moves is one rule of a slot, a ring or the cores' flits; an
acknowledgment is the stop of the core's slots one after the other, and then its record. -/
theorem strandsTakeAndLeaveSlots : Obligations.StrandsTakeAndLeaveSlots := by
  unfold Obligations.StrandsTakeAndLeaveSlots
  refine ⟨?binds, ⟨?promotes, ?marks, ?displaces, ?arrives⟩, ?halts, ?wakes⟩
  case binds =>
    intro s core slot p hcore hslot hfree hidle hp bind bound
    refine ⟨fun t k n hn ht hsteps hfirst habove => ?_,
      fun r since pushed resp rs rest hring hres hroom habove hs => ⟨fun k hr hw hk => ?_, fun hr hresp ⟨hrest, hbelow⟩ =>
        slotBind_drops hcore hslot hfree hidle hp hring hres hroom habove hs hr hresp hrest hbelow, fun hr ⟨hrest, hbelow⟩ hkeep =>
        slotBind_keeps hcore hslot hfree hidle hp hring hres hroom habove hs hr hrest hbelow hkeep,
        fun r2 since2 pushed2 k resp2 rs2 hr hw hfull hrest hf2 hl2 hst2 hlt hfree2 hused2 => ?_⟩⟩
    · obtain ⟨u, hu, ⟨hstrand, hgen⟩, hleft⟩ := slotBind_resident hcore hslot hfree hidle hp hn ht hsteps hfirst habove
      exact ⟨u, hu, ⟨hstrand, hgen.trans (nextGen_eq _)⟩, hleft⟩
    · obtain ⟨u, hu, hstrand, hgen, hused, hleft⟩ := slotBind_starts hcore hslot hfree hidle hp hring hres hroom habove hs hr hw hk
      exact ⟨u, _, hu, ⟨hstrand, hgen.trans (nextGen_eq _)⟩, rfl, rfl, startRegs_get _ _, rfl, rfl, rfl, rfl, rfl, rfl, rfl, rfl, rfl, rfl, hused, hleft⟩
    · obtain ⟨u, hu, hstrand, hgen, hleft⟩ := slotBind_second hcore hslot hfree hidle hp hring hres hroom habove hs hr hw hfull hrest ⟨hf2, hl2, hst2⟩
        ⟨hlt, hfree2, hused2⟩
      exact ⟨u, _, hu, ⟨hstrand, hgen.trans (nextGen_eq _)⟩, rfl, rfl, hleft⟩
  case promotes =>
    intro s core p n r since pushed resp rs dt waits hp hn hlong hroom hfirst
    have hwaits (e : RingEntry) : longWaiting dt e = waits e := by cases e <;> rfl
    have hfull : ringFull s none core (p + 1) = false := decide_eq_false (Nat.not_le.2 hroom)
    refine ⟨_, exec_promotion hp hn hlong (fun e he => (hwaits e).trans (hfirst e he)) hfull, ?_, ringAt_putRing ..⟩
    exact (ringAt_putRing_ne _ (Nat.ne_of_lt p.lt_succ_self) _).trans (ringAt_putRing ..)
  case marks => exact fun s n core slot t ht => strandAt_preEmption ht
  case displaces =>
    intro s core slot t hslot hoff ht displace kept
    refine ⟨fun hst => displace_stays ht hst, fun pa hlow hhigh hpa hroom => ?_, fun target hst htarget hhold => displace_migrates hoff ht hst htarget hhold⟩
    obtain ⟨u, hu, hnone, hmem, hring⟩ := displace_evicts hoff ht hlow hhigh hpa hroom
    refine ⟨u, hu, hnone, ?_, fun x hx => ?_, hring⟩
    · rw [hmem, memRead_memWrite, pow_bytes, show 8 * 256 = 2048 from rfl]
    · rw [hmem, memByte_memWrite_out _ _ _ _ _ hx]
  case arrives => exact fun s n core i t hn hsteps hroom hi hfree hfirst => arrival_binds hn hsteps hroom hi hfree hfirst
  case halts =>
    intro s h c slot t v tag d hhalts hleft hwaiter hevq hcore htag hroutes hslot ht hlaunch l q record answers
    obtain ⟨u, hu, hstrand, hhold, hdone, hreply⟩ := haltAck_ends (slot := slot) hhalts hleft hwaiter hevq hcore htag hroutes
    have hstrand := (hstrand hslot).trans (congrArg (Option.map (Strand.stopped h.launch)) ht)
    have hrecs : (evqAt u (hKey h.evq)).recs = (evqAt (haltLanding s h c).1 (hKey h.evq)).recs := by rw [evqAt, evqAt, hhold]
    have hanswers {x : Halt} (hx : (haltLanding s h c).2 = x) : answers u (haltResult x) := ⟨hdone, hx ▸ hreply⟩
    refine ⟨u, hu, fun hst => ?_, fun hst => ?_, fun hlive hwaiting hblocked => ⟨fun hroom => ?_, fun hfull => ?_⟩, fun hlive => ?_⟩
    · rw [hstrand, Option.map_some, stopped_of_stops hlaunch hst]
    · rw [hstrand, Option.map_some, stopped_of_waits hst]
    · obtain ⟨hlanded, hx⟩ := (haltLanding_live hlive hwaiting (no_takers hblocked)).1 hroom
      exact ⟨hrecs.trans hlanded, haltResult_landed h ▸ hanswers hx⟩
    · obtain ⟨hlost, hx⟩ := (haltLanding_live hlive hwaiting (no_takers hblocked)).2 hfull
      exact ⟨hrecs.trans hlost, haltResult_dropped h ▸ hanswers hx⟩
    · obtain ⟨hdropped, hx⟩ := haltLanding_lapsed (c := c) hlive
      exact ⟨by rw [hhold, hdropped], hanswers hx⟩
  case wakes =>
    exact fun s core slot dl t ht hst hwait hsteps => ⟨fun hdl => waitdt_wakes ht hst hwait hsteps hdl, fun hdl => waitdt_waits ht hwait hdl⟩

end Sys2Proof.Machine
end
